-- ==== Sys2Proof/Word.lean ====
section
/-! DEFINITION. The word types of the TMN-8400 model and their plainest names (R4). -/

namespace Sys2Proof

/-- A 32-bit word: registers, mailbox payload words, list-entry words and FP32 values are read as words (R4). -/
abbrev Word := BitVec 32

/-- One byte of memory. -/
abbrev Byte := BitVec 8

/-- The stroke count, 64 bits wide (R71). -/
abbrev Stroke := BitVec 64

/-- A 64-byte entry of a list image, a rope line or an event record: sixteen words, word 0 first. -/
abbrev Line := List Word

end Sys2Proof
end

