-- ==== Sys2Proof/Syntax.lean ====
section
/-! DEFINITION. The commands of the block: one constructor of `Instr` per row of the opcode table, with the operands that
the manual gives the step. What the module reads from outside itself (host memory, the chain, a rope, a pin, a sensor)
is an operand of the command that reads it. -/

namespace Sys2Proof

/-- A mailbox request as the host leaves it before the doorbell (R93, R94): the mailbox, TAG, IRQ_EN, the header LENGTH and
the payload words from word 2 on. -/
structure Req where
  mb      : Fin 4
  tag     : Word
  irqEn   : Bool
  length  : BitVec 12
  payload : List Word
  deriving DecidableEq, Repr, Inhabited

/-- What a read of host memory gives (R143, R154): the words, or the way in which the read failed. -/
inductive HostRead where
  | words (ws : List Word)
  | poison
  | error
  | timeout
  deriving DecidableEq, Repr, Inhabited

/-- The inputs from which ref may take its source (R51, R80 REF_SRC). -/
inductive RefIn where
  | refclk
  | ropeA
  | ropeB
  deriving DecidableEq, Repr, Inhabited

/-- The two ropes (R320). -/
inductive RopeSide where
  | a
  | b
  deriving DecidableEq, Repr, Inhabited

/-- The two stack chains (R396). -/
inductive ChainSel where
  | a
  | b
  deriving DecidableEq, Repr, Inhabited

/-- The ends of a chain's ring (R396). -/
inductive ChainEnd where
  | lo
  | hi
  deriving DecidableEq, Repr, Inhabited

/-- The two heartbeat paths (R506). -/
inductive HbPath where
  | hb
  | rope
  deriving DecidableEq, Repr, Inhabited

/-- Result of a self-test that the module ran (R578): passed, failed with a code, or not able to run to its end. -/
inductive TestResult where
  | passed
  | failed (code : BitVec 8)
  | skipped
  deriving DecidableEq, Repr, Inhabited

/-- What a cable's management interface answers (R323, R350). -/
inductive CmisReply where
  | bytes (bs : List Byte)
  | noAnswer
  deriving DecidableEq, Repr, Inhabited

/-- One line of a rope frame as it arrives: its sixteen words and whether its CRC-32 was right (R319). A received frame comes
with the measured delay of the link into the port (R349) and with what the member adds to DELAY_PS: its forwarding delay and
its outgoing link delay (R329). -/
structure RopeLine where
  words : Line
  crcOk : Bool
  deriving DecidableEq, Repr, Inhabited

/-- The conversions that the loop engines read at a sample boundary, as ADC codes (R357, R358). -/
structure LoopCodes where
  vstack : Int
  vbus   : Int
  iph    : List Int
  iout   : List Int
  deriving DecidableEq, Repr, Inhabited

/-- What the comparisons of the loop engines found in a sample (R361): the die on which a disagreement arose. -/
structure LoopCheck where
  mismatchA : Bool
  mismatchB : Bool
  deriving DecidableEq, Repr, Inhabited

/-- A remote request that reaches this member's rope window (R187): a read of lines or a write of words. -/
inductive RemoteOp where
  | read (bytes : Nat)
  | write (ws : List Word)
  deriving DecidableEq, Repr, Inhabited

/-- What a requester learns of its remote access (R187, R189). -/
inductive RemoteReply where
  | data (ws : List Word)
  | acknowledged
  | refused
  | memoryError
  deriving DecidableEq, Repr, Inhabited

/-- A request as it comes in (R187): the operation, the rope that brings it, and how many of its lines fail their CRC (R319). -/
structure RemoteAsk where
  op       : RemoteOp
  rope     : RopeSide
  crcFails : Nat
  deriving DecidableEq, Repr, Inhabited

/-- A response as it comes in (R187): the reply, the cycles since the request (R254), the rope, and how many of its lines fail their
CRC (R319). -/
structure RemoteAnswer where
  reply    : RemoteReply
  wait     : Nat
  rope     : RopeSide
  crcFails : Nat
  deriving DecidableEq, Repr, Inhabited

/-- How a remote access ended without a response (R189). -/
inductive RemoteLoss where
  | noResponse
  | ropeLeftRunning
  deriving DecidableEq, Repr, Inhabited

/-- An open learning cycle as the mirror carries it (R443, R514). -/
structure CycleMirror where
  startC   : List Rat
  startQ   : Int
  startAbs : Nat
  startAt  : Stroke
  deriving DecidableEq, Repr, Inhabited
/-- A package that holds state areas on the active module (R515): MODEL_ID and package digest. -/
structure PkgNeed where
  modelId : Nat
  digest  : List Word
  deriving DecidableEq, Repr, Inhabited
/-- One cell of the estimator as the mirror carries it (R514). -/
structure CellMirror where
  cell : Nat
  c    : Rat
  r    : Rat
  u    : Rat
  q    : Rat
  v1   : Rat
  v2   : Rat
  deriving DecidableEq, Repr, Inhabited

/-- One ledger cell as a snapshot carries it (R514, R515): job, output, line N and line S as S_VI, S_V, S_I, S_W, the SSC_S recorded for the
job, and DAMAGED. A stroke record of the mirror gives the SSC_PPM under which the stroke goes to line S. -/
structure LedgerMirror where
  job      : Word
  out      : Nat
  lineN    : List Int
  lineS    : List Int
  strokes  : Nat
  ovr      : Nat
  ssc      : Option Nat
  damaged  : Bool
  deriving DecidableEq, Repr, Inhabited

/-- One item of the standby mirror (R514). -/
inductive MirrorItem where
  | stateArea (modelId listIdx areaIdx : Nat) (status : Line) (copy : List Byte)
  | estimator (cells : List CellMirror) (iNow : Word) (openCycles : List (Option CycleMirror))
  | ledgerStroke (stroke : Stroke) (jobs : List Word) (sums : List (List Int)) (ovr : List Bool) (spread : Option Nat)
  | ledgerTags (tags : List Word) (pendTags : List (Option (Word × Stroke)))
  | ledgerTable (cells : List LedgerMirror)
  | ledgerClose (job : Word)
  | target (rope : Bool) (value : Int) (targeted : Bool) (ramp : Option (Int × Nat))
      (pending : Option (Nat × Int × Nat × Stroke)) (hostLossLeft : Option Nat)
  | allocation (targets : List Int) (landed : Option Stroke) (solved : Bool) (stateA stateB : Nat)
  deriving DecidableEq, Repr, Inhabited

/-- Mirror lines as they come in (R514), and how many of them fail their CRC (R319). -/
structure MirrorLines where
  items    : List MirrorItem
  crcFails : Nat
  deriving DecidableEq, Repr, Inhabited

/-- A rope link that has trained (R321): its port, and the delay that its exchange measured (R73). -/
structure LinkTrained where
  port    : Fin 4
  delayPs : Nat
  deriving DecidableEq, Repr, Inhabited

/-- What the host link trained to (R132): CXL or PCI Express, the lanes, and the PCI Express generation of its rate. -/
structure LinkMode where
  cxl   : Bool
  lanes : Nat
  gen   : Nat
  deriving DecidableEq, Repr, Inhabited

/-- A firmware image as host memory gives it (R536, R552): its words from the manifest on. -/
structure ImageInfo where
  words : List Word
  deriving DecidableEq, Repr, Inhabited

/-- What the boot finds outside the NOR dies (R179, R180, R538, R545): whether the well trains, whether the identity key that the PUF gives is the
certificate's, and the bridges that fail training. -/
structure BootEnv where
  wellTrained   : Bool
  identityOk    : Bool
  bridgesFailed : List Bool
  deriving DecidableEq, Repr, Inhabited

/-- What a rope port has seen in a stroke (R349): the level of ROPEn_PRESENT_L and the codewords that its FEC has corrected or could not
correct. -/
structure PortSeen where
  present : Bool
  corrCw  : Nat
  uncorrCw : Nat
  deriving DecidableEq, Repr, Inhabited
/-- The fields that a member's stroke boundary takes from outside the model: whether CP0 wrote its stroke token (R504),
whether a converter-control die missed its handover (R487), and the follower's measured phase error in ns (R74). -/
structure BoundaryEnv where
  token     : Bool
  handed    : Bool
  phaseErr  : Int
  lockstep  : Bool
  /-- R487 cause 0x0901: the ledger cells, as job and output, of whose lines a read at this boundary finds a word uncorrectable. -/
  badCells  : List (Word × Nat) := []
  /-- Posin requests a veto (R503 cause 0x0A). -/
  vetoAsk   : Bool := false
  /-- What the rope ports have seen in the stroke, from ROPE0 on. -/
  ports     : List PortSeen := []
  deriving DecidableEq, Repr, Inhabited

/-- What the Assayer sees at a point of comparison of a fixed pair (R266): both members at a SIGNAL, SYNC or HALT, with the
CRCs that the state holds; an abort of either, with the causes (0 for a member that did not abort) and commands; or a
hardware fault that has made the members differ. -/
inductive PairPoint where
  | signal
  | sync
  | halt
  | abort (causeA causeB : Nat) (commandA commandB : Nat)
  | upset
  deriving DecidableEq, Repr, Inhabited

/-- A trip of the fast limit (R372): the phase, whether the current fell below −I_FAST (the low side's on-time ends) or exceeded +I_FAST
(the high side's), and when its pulse was cut, in units of 312.5 ps from the start of the stroke. -/
structure FastTrip where
  phase : Fin 12
  low   : Bool
  at_   : Nat
  deriving DecidableEq, Repr, Inhabited

/-- A point of comparison, and the cycles that each member has waited there (R254). -/
structure PairMeeting where
  point : PairPoint
  waits : Nat × Nat
  deriving DecidableEq, Repr, Inhabited

/-- The register spaces that a host write may name (R86, R130, R161). -/
inductive RegSpace where
  | bar0
  | bar2
  | config
  deriving DecidableEq, Repr, Inhabited

/-- What the patrol scrubber or a reader finds in an SRAM word (R191). -/
inductive ScrubFind where
  | clean
  | corrected
  | uncorrectable
  deriving DecidableEq, Repr, Inhabited

/-- What a poll of a cable's management interface gives (R323). -/
structure CmisPoll where
  answered  : Bool
  lossOfLock : Bool
  temp      : BitVec 16
  /-- R323: the cable advertises an application with four host lanes at 200 Gbit/s each. -/
  app       : Bool
  deriving DecidableEq, Repr, Inhabited

/-- The commands of the TMN-8400 block, in the order of the opcode table. -/
inductive Instr where
  /-- NOP (R122). -/
  | nop (r : Req)
  /-- EVENT_RING_SET (R123). -/
  | eventRingSet (r : Req)
  /-- FUNC_QUERY (R124). -/
  | funcQuery (r : Req)
  /-- FUNC_ON (R113). -/
  | funcOn (r : Req)
  /-- FUNC_OFF (R113). -/
  | funcOff (r : Req)
  /-- FUNC_START (R115). -/
  | funcStart (r : Req)
  /-- FUNC_STOP (R114). -/
  | funcStop (r : Req)
  /-- FUNC_CLEAR (R113). -/
  | funcClear (r : Req) (test : TestResult)
  /-- CLAIM_QUERY (R126). -/
  | claimQuery (r : Req)
  /-- CLOCK_QUERY (R80). -/
  | clockQuery (r : Req)
  /-- STROKE_CONFIG (R81). -/
  | strokeConfig (r : Req)
  /-- CLOCK_CONFIG (R82). -/
  | clockConfig (r : Req)
  /-- CLOCK_MEASURE (R83). -/
  | clockMeasure (r : Req)
  /-- CLOCK_MEASURE_COMPLETE (R83). -/
  | clockMeasureComplete (count : Nat) (measStopped gateStopped : Bool)
  /-- CLOCK_GATE (R84). -/
  | clockGate (r : Req)
  /-- PUMP_RING_SET (R155). -/
  | pumpRingSet (r : Req)
  /-- PUMP_START (R156). -/
  | pumpStart (r : Req) (prod : HostRead)
  /-- PUMP_STOP (R157). -/
  | pumpStop (r : Req)
  /-- PUMP_CLEAR (R158). -/
  | pumpClear (r : Req) (selfCheck : TestResult)
  /-- PUMP_QUERY (R159). -/
  | pumpQuery (r : Req)
  /-- PUMP_WAKE (R144). -/
  | pumpWake (p : Fin 8) (prod : HostRead)
  /-- PUMP_DESCRIPTOR_FETCH (R150). -/
  | pumpDescriptorFetch (p : Fin 8) (d : HostRead)
  /-- PUMP_DESCRIPTOR_COMPLETE (R151). -/
  | pumpDescriptorComplete (p : Fin 8) (data : List Word)
  /-- PUMP_TRANSFER_FAULT (R154). -/
  | pumpTransferFault (p : Fin 8) (cause : Fin 8) (moved : Nat) (addr : Nat) (linkAllows : Bool)
  /-- LIST_SUBMIT (R251). -/
  | listSubmit (r : Req) (desc : HostRead)
  /-- LIST_REMOVE (R276). -/
  | listRemove (r : Req)
  /-- LIST_QUERY (R277). -/
  | listQuery (r : Req)
  /-- SCHED_QUERY (R278). -/
  | schedQuery (r : Req)
  /-- MODEL_LOAD (R305). -/
  | modelLoad (r : Req) (desc : HostRead)
  /-- MODEL_UNLOAD (R311). -/
  | modelUnload (r : Req)
  /-- MODEL_QUERY (R312). -/
  | modelQuery (r : Req)
  /-- BUCKET_SET (R313). -/
  | bucketSet (r : Req)
  /-- BUCKET_QUERY (R314). -/
  | bucketQuery (r : Req)
  /-- TARGET_SET (R315). -/
  | targetSet (r : Req)
  /-- PIPE_CONFIG (R316). -/
  | pipeConfig (r : Req)
  /-- PIPE_QUERY (R317). -/
  | pipeQuery (r : Req)
  /-- ROLE_SET (R346). -/
  | roleSet (r : Req)
  /-- ROPE_CONFIG (R347). -/
  | ropeConfig (r : Req)
  /-- ROPE_QUERY (R348). -/
  | ropeQuery (r : Req)
  /-- ROPE_PORT_QUERY (R349). -/
  | ropePortQuery (r : Req)
  /-- ROPE_CMIS (R350). -/
  | ropeCmis (r : Req) (reply : CmisReply)
  /-- ROPE_READ (R351). -/
  | ropeRead (r : Req)
  /-- STAGE_CONFIG (R387). -/
  | stageConfig (r : Req)
  /-- LOOP_COEF (R388). -/
  | loopCoef (r : Req)
  /-- LOOP_OPEN (R389). -/
  | loopOpen (r : Req)
  /-- LOOP_OPEN_PARKED (R389). -/
  | loopOpenParked
  /-- LOOP_CLOSE (R390). -/
  | loopClose (r : Req)
  /-- STAGE_MODE (R391). -/
  | stageMode (r : Req)
  /-- STAGE_QUERY (R392). -/
  | stageQuery (r : Req)
  /-- TRACE_ARM (R393). -/
  | traceArm (r : Req)
  /-- TRACE_DISARM (R394). -/
  | traceDisarm (r : Req)
  /-- TRACE_QUERY (R394). -/
  | traceQuery (r : Req)
  /-- TRACE_TRIGGER (R386). -/
  | traceTrigger (die : Fin 2)
  /-- TRACE_COPIED (R386). -/
  | traceCopied (die : Fin 2)
  /-- CHAIN_CONFIG (R421). -/
  | chainConfig (r : Req)
  /-- CHAIN_BAL (R422). -/
  | chainBal (r : Req)
  /-- CHAIN_QUERY (R423). -/
  | chainQuery (r : Req)
  /-- CHAIN_READ (R424). -/
  | chainRead (r : Req)
  /-- CHAIN_ID (R425). -/
  | chainId (r : Req)
  /-- EST_CONFIG (R454). -/
  | estConfig (r : Req)
  /-- EST_MODEL (R455). -/
  | estModel (r : Req)
  /-- EST_QUERY (R456). -/
  | estQuery (r : Req)
  /-- EST_READ (R457). -/
  | estRead (r : Req)
  /-- EST_ANCHOR (R458). -/
  | estAnchor (r : Req)
  /-- EST_LIFE_READ (R459). -/
  | estLifeRead (r : Req)
  /-- EST_SAVE (R460). -/
  | estSave (r : Req)
  /-- THERMAL_CONFIG (R490). -/
  | thermalConfig (r : Req)
  /-- THERMAL_QUERY (R491). -/
  | thermalQuery (r : Req)
  /-- POWER_QUERY (R492). -/
  | powerQuery (r : Req)
  /-- CAP_SET (R493). -/
  | capSet (r : Req)
  /-- LEDGER_TAG (R494). -/
  | ledgerTag (r : Req) (desc : HostRead)
  /-- LEDGER_READ (R495). -/
  | ledgerRead (r : Req)
  /-- LEDGER_CLOSE (R496). -/
  | ledgerClose (r : Req)
  /-- LEDGER_QUERY (R497). -/
  | ledgerQuery (r : Req)
  /-- JOB_ENERGY_QUERY (R498). -/
  | jobEnergyQuery (r : Req)
  /-- PAIR_CONFIG (R527). -/
  | pairConfig (r : Req)
  /-- PAIR_QUERY (R528). -/
  | pairQuery (r : Req)
  /-- PAIR_HANDOVER (R513). -/
  | pairHandover (r : Req)
  /-- FW_QUERY (R551). -/
  | fwQuery (r : Req)
  /-- FW_WRITE (R552). -/
  | fwWrite (r : Req) (image : ImageInfo)
  /-- FW_WRITE_COMPLETE (R552). -/
  | fwWriteComplete (writeOk : Bool)
  /-- FW_COMMIT (R553). -/
  | fwCommit (r : Req)
  /-- SLOT_B_COPY_COMPLETE (R544). -/
  | slotBCopyComplete (ok : Bool)
  /-- ATTEST_QUOTE (R554). -/
  | attestQuote (r : Req)
  /-- ATTEST_LOG_READ (R555). -/
  | attestLogRead (r : Req)
  /-- ATTEST_CERT (R556). -/
  | attestCert (r : Req)
  /-- POLICY_SET (R557). -/
  | policySet (r : Req) (desc : HostRead)
  /-- POLICY_QUERY (R558). -/
  | policyQuery (r : Req)
  /-- DUMP_READ (R572). -/
  | dumpRead (r : Req)
  /-- DUMP_RELEASE (R573). -/
  | dumpRelease (r : Req)
  /-- NOR_SUMMARY_READ (R575). -/
  | norSummaryRead (r : Req)
  /-- COUNTER_READ (R577). -/
  | counterRead (r : Req)
  /-- SELFTEST (R578). -/
  | selftest (r : Req) (results : List TestResult)
  /-- DIAG_RAW (R579). -/
  | diagRaw (r : Req) (reply : CmisReply)
  /-- LOAD (R241). -/
  | load (t : Fin 48) (e : Line) (wait : Nat)
  /-- STORE (R241). -/
  | store (t : Fin 48) (e : Line) (wait : Nat)
  /-- GEMM (R242). -/
  | gemm (t : Fin 48) (e : Line) (wait : Nat)
  /-- SCAN (R243). -/
  | scan (t : Fin 48) (e : Line) (wait : Nat)
  /-- VEC (R244). -/
  | vec (t : Fin 48) (e : Line) (wait : Nat)
  /-- REDUCE (R245). -/
  | reduce (t : Fin 48) (e : Line) (wait : Nat)
  /-- BRACKET (R246). -/
  | bracket (t : Fin 48) (e : Line) (wait : Nat)
  /-- LEDGER (R247). -/
  | ledger (t : Fin 48) (e : Line) (wait : Nat)
  /-- SYNC (R262). -/
  | sync (t : Fin 48) (e : Line)
  /-- SYNC_RELEASE (R262). -/
  | syncRelease (t : Fin 48) (wait : Nat)
  /-- SIGNAL (R261). -/
  | signal (t : Fin 48) (e : Line)
  /-- HALT (R257). -/
  | halt (t : Fin 48) (e : Line)
  /-- ROPE_GET (R249). -/
  | ropeGet (t : Fin 48) (e : Line)
  /-- ROPE_PUT (R249). -/
  | ropePut (t : Fin 48) (e : Line)
  /-- SEGMENT_START (R230). -/
  | segmentStart (t : Fin 48) (listId : BitVec 16) (seg : Fin 64)
  /-- BUDGET_ABORT (R254). -/
  | budgetAbort (t : Fin 48)
  /-- MEMORY_ABORT (R193). -/
  | memoryAbort (t : Fin 48) (addr : BitVec 48) (loadStore : Bool)
  /-- ACCESS_ABORT (R183). -/
  | accessAbort (t : Fin 48) (addr : BitVec 48) (loadStore : Bool)
  /-- PAIR_COMPARISON (R266). -/
  | pairComparison (p : Fin 2) (pt : PairMeeting)
  /-- REMOTE_REQUEST (R187). -/
  | remoteRequest (member : BitVec 11) (off : BitVec 40) (op : RemoteAsk)
  /-- REMOTE_ACCESS_TIMEOUT (R189). -/
  | remoteAccessTimeout (t : Fin 48) (why : RemoteLoss)
  /-- STROKE_BOUNDARY (R185). -/
  | strokeBoundary (env : BoundaryEnv)
  /-- SAMPLE_BOUNDARY (R358). -/
  | sampleBoundary (codes : LoopCodes) (check : LoopCheck) (tripped : List Bool)
  /-- REF_STARVED (R363). -/
  | refStarved
  /-- SOFT_START_RAMP_END (R368). -/
  | softStartRampEnd
  /-- SOFT_START_LOOP_CLOSE (R368). -/
  | softStartLoopClose
  /-- SOFT_START_RETRY (R369). -/
  | softStartRetry
  /-- VOLTAGE_MODE_EXIT (R366). -/
  | voltageModeExit
  /-- FAST_LIMIT_TRIP (R372). -/
  | fastLimitTrip (trip : FastTrip)
  /-- OV_LATCH (R374). -/
  | ovLatch
  /-- UV_TRIP (R375). -/
  | uvTrip
  /-- FAULT_IN_ASSERTED (R376). -/
  | faultInAsserted (pin : Fin 4)
  /-- MARK_EDGE (R41). -/
  | markEdge (n : Fin 24) (rising : Bool) (stroke : Stroke) (tick : BitVec 20)
  /-- LEDGER_CONVERSION (R224). -/
  | ledgerConversion (vbus : BitVec 16) (iout : List (BitVec 16)) (overRange : List Bool) (vbusOver : Bool)
  /-- GRANT_LOST (R39). -/
  | grantLost
  /-- GRANT_RISE (R508). -/
  | grantRise
  /-- BEAT_RECEIVED (R506). -/
  | beatReceived (path : HbPath) (words : Line) (crcOk : Bool)
  /-- PATH_SILENT (R506). -/
  | pathSilent (path : HbPath)
  /-- WATCHDOG_VETO (R504). -/
  | watchdogVeto
  /-- HANDOVER_RECLAIM (R513). -/
  | handoverReclaim
  /-- MIRROR_RECEIVED (R514). -/
  | mirrorReceived (stroke : Stroke) (items : MirrorLines)
  /-- SNAPSHOT_REQUEST (R515). -/
  | snapshotRequest (stroke : Stroke) (items : List MirrorItem) (packages : List PkgNeed)
  /-- HOST_LOSS_HOLD_EXPIRED (R520). -/
  | hostLossHoldExpired
  /-- DL_DOWN (R161). -/
  | dlDown
  /-- BUS_MASTER_ENABLE_CLEAR (R161). -/
  | busMasterEnableClear
  /-- D3HOT_ENTRY (R161). -/
  | d3hotEntry
  /-- MSIX_UNMASK (R110). -/
  | msixUnmask (vector : Option (Fin 32))
  /-- HDM_COMMIT (R136). -/
  | hdmCommit (base size : BitVec 64) (ways : Nat) (lock : Bool)
  /-- CXL_MEM_READ (R141). -/
  | cxlMemRead (hpa : BitVec 64) (words : Nat)
  /-- CXL_MEM_WRITE (R138). -/
  | cxlMemWrite (hpa : BitVec 64) (bytes : List (Option Byte))
  /-- WARM_RESET (R92). -/
  | warmReset (value : Word)
  /-- EVT_CONS_WRITE (R106). -/
  | evtConsWrite (value : Word)
  /-- STROKE_LO_READ (R90). -/
  | strokeLoRead
  /-- STROKE_HI_READ (R90). -/
  | strokeHiRead
  /-- REGISTER_WRITE (R5). -/
  | registerWrite (space : RegSpace) (off : BitVec 32) (value : Word) (wholeWord : Bool)
  /-- PERST_RESET (R135). -/
  | perstReset
  /-- BOOT (R538). -/
  | boot (env : BootEnv)
  /-- BOOT_WATCHDOG_EXPIRED (R532). -/
  | bootWatchdogExpired
  /-- ASSAYER_RESET (R531). -/
  | assayerReset
  /-- PLL_LOCK_COUNT (R59). -/
  | pllLockCount (pll : Fin 17)
  /-- DIVIDER_STEP (R60). -/
  | dividerStep (d : Fin 18)
  /-- FORCED_SWITCH (R62). -/
  | forcedSwitch (d : Fin 18)
  /-- REF_INPUT_QUALIFIED (R56). -/
  | refInputQualified (i : RefIn)
  /-- REF_INPUT_LOST (R57). -/
  | refInputLost (i : RefIn)
  /-- LOSS_OF_EVERY_REFERENCE (R78). -/
  | lossOfEveryReference
  /-- CLOCK_LOSS_RESTART (R79). -/
  | clockLossRestart
  /-- DOMAIN_DECLARED_STOPPED (R68). -/
  | domainDeclaredStopped (d : Fin 18)
  /-- DOMAIN_DECLARED_OFF_FREQUENCY (R68). -/
  | domainDeclaredOffFrequency (d : Fin 18)
  /-- DOMAIN_DECLARATION_ENDS (R68). -/
  | domainDeclarationEnds (d : Fin 18)
  /-- TEMPERATURE_CONVERSION (R462). -/
  | temperatureConversion (sensor : Fin 5) (reading : Option Int)
  /-- SHUTDOWN_ROPE_RELEASE (R465). -/
  | shutdownRopeRelease
  /-- SHUTDOWN_REGULATORS_OFF (R465). -/
  | shutdownRegulatorsOff
  /-- THROTTLE_EVALUATION (R469). -/
  | throttleEvaluation
  /-- RAIL_SETTLED (R472). -/
  | railSettled
  /-- LIFETIME_HISTOGRAM_TICK (R447). -/
  | lifetimeHistogramTick
  /-- LIFETIME_SAVE_TIMER (R447). -/
  | lifetimeSaveTimer
  /-- NOR_WRITE_RESUME (R445). -/
  | norWriteResume (readBackOk : Bool)
  /-- NOR_ERASE_COMPLETE (R445). -/
  | norEraseComplete
  /-- ANCHOR_TIMEOUT (R442). -/
  | anchorTimeout
  /-- EST_COMMIT_TIMEOUT (R452). -/
  | estCommitTimeout
  /-- CHAIN_SETTLE_WAIT_END (R405). -/
  | chainSettleWaitEnd (c : ChainSel)
  /-- CHAIN_FRAME_RECEIVED (R399). -/
  | chainFrameReceived (c : ChainSel) (e : ChainEnd) (bytes : List Byte)
  /-- READ_CELLS_TIMEOUT (R408). -/
  | readCellsTimeout (c : ChainSel)
  /-- BAL_SET_HI_TIMEOUT (R413). -/
  | balSetHiTimeout (c : ChainSel)
  /-- BALANCE_HOLD_EXPIRED (R411). -/
  | balanceHoldExpired (c : ChainSel)
  /-- LINK_FAILED (R321). -/
  | linkFailed (port : Fin 4)
  /-- LINK_UP (R321). -/
  | linkUp (port : LinkTrained)
  /-- HELD_DOWN_EXPIRED (R321). -/
  | heldDownExpired (port : Fin 4)
  /-- CMIS_POLL (R323). -/
  | cmisPoll (port : Fin 4) (poll : CmisPoll)
  /-- STROKE_FRAME_RECEIVED (R333). -/
  | strokeFrameReceived (rope : RopeSide) (lines : List RopeLine) (linkDelayPs forwardPs : Nat)
  /-- FRAME_COPY_RETURN (R334). -/
  | frameCopyReturn (rope : RopeSide) (lines : List RopeLine)
  /-- FRAME_COPY_TIMEOUT (R334). -/
  | frameCopyTimeout (rope : RopeSide)
  /-- ROPE_LOSS_HOLD_EXPIRED (R343). -/
  | ropeLossHoldExpired
  /-- FEED_LOST (R31). -/
  | feedLost (feed : Fin 2) (overVoltage : Bool)
  /-- FEED_PRESENT (R31). -/
  | feedPresent (feed : Fin 2)
  /-- HOLDUP_CHARGED (R30). -/
  | holdupCharged
  /-- BOTH_FEEDS_LOST (R32). -/
  | bothFeedsLost (feed : Fin 2) (overVoltage : Bool)
  /-- HOLDUP_AUTH_DROP (R32). -/
  | holdupAuthDrop
  /-- HOLDUP_ROPE_RELEASE (R32). -/
  | holdupRopeRelease
  /-- HOLDUP_EXPIRED (R32). -/
  | holdupExpired
  /-- COLD_START (R33). -/
  | coldStart
  /-- BRIDGE_DISABLED (R179). -/
  | bridgeDisabled (b : Fin 3)
  /-- PATROL_SCRUB (R191). -/
  | patrolScrub (addr : BitVec 48) (found : ScrubFind)
  /-- PANIC (R561). -/
  | panic (cause : Fin 8) (detail : BitVec 16) (handlerRuns : Bool) (holdupAt20 : Bool)
  /-- PANIC_RESET (R561). -/
  | panicReset
  /-- FAULT_IN_DEASSERTED (R376). -/
  | faultInDeasserted (pin : Fin 4)
  /-- DL_ACTIVE (R162). -/
  | dlActive (cxl : LinkMode)
  /-- REMOTE_RESPONSE (R187). -/
  | remoteResponse (t : Fin 48) (reply : RemoteAnswer)
  /-- UNKNOWN_OPCODE (R104). -/
  | unknownOpcode (r : Req) (opcode : BitVec 16)
  /-- PUMP_STOP_TIMEOUT (R157). -/
  | pumpStopTimeout (p : Fin 8)
  /-- HOLDUP_GOOD_WAIT_TIMEOUT (R460). -/
  | holdupGoodWaitTimeout
  /-- ROPE_START_WAIT_EXPIRED (R326). -/
  | ropeStartWaitExpired (second : Bool)
  /-- ENUM_HI_TIMEOUT (R403). -/
  | enumHiTimeout (c : ChainSel)
  deriving DecidableEq, Repr, Inhabited

end Sys2Proof
end

