-- ==== Sys2Proof/Decode.lean ====
section
/-! DEFINITION. The words of the opcode table. No row of the table gives a command any bits: a command reaches the block as
a register write, a bus operation or an event, with the operands that `Instr` carries. -/

namespace Sys2Proof

/-- The command that a word spells by the bits of the opcode table: the table gives bits to no row, so no word spells one. -/
def decodeTableWord (_nbits _w : Nat) : Option Instr := none

end Sys2Proof
end

