-- ==== Sys2Proof/Config.lean ====
section
/-! DEFINITION. What the manual leaves open, as constants without a body: no proof can see what they are.
Each is named in the assumption log (notes/assumptions). -/

namespace Sys2Proof.Config

/-- A free 32-bit value; the argument is the model's own counter, so that every use is a fresh value. -/
opaque freeWord : Nat → Word

/-- R574: a NOR summary reads back as it was programmed; the argument is the model's own counter. -/
opaque summaryReads : Nat → Bool

/-- A free natural number, for a count or an energy of which the manual gives no figure. -/
opaque freeNat : Nat → Nat

/-- Free bit of an undefined choice. -/
opaque freeBool : Nat → Bool

/-- R60, R82: the output divider at which noc runs for a NOC_SEL other than 0, less one, modulo 255. -/
opaque nocDivider : Nat → Nat
/-- R63: whether a read of the well meets an overflowing read-return queue while noc is slower than well: stroke, address. -/
opaque wellOverflow : Stroke → Nat → Bool
/-- R206: the vector unit's exp of a finite FP32 operand where the manual bounds the result and fixes no bits. -/
opaque vecExp : Word → Word
/-- R206: the vector unit's log. -/
opaque vecLog : Word → Word
/-- R206: the vector unit's tanh. -/
opaque vecTanh : Word → Word
/-- R206: the direction in which the vector unit's reciprocal misses the exact result, in units in the last place. -/
opaque vecRecipErr : Word → Int
/-- R206: the same for the reciprocal square root. -/
opaque vecRsqrtErr : Word → Int

/-- R128: the Vendor ID, which the manual does not state. -/
opaque vendorId : Nat
/-- R128: the subsystem IDs of the PCI header, which the manual does not state. -/
opaque subsystemId : Word
/-- R130: a word of the link capability in BAR2 that CXL 2.0 lays out and the manual does not state. -/
opaque bar2Word : Nat → Word

/-- R301: which of the places that fit the Clerk gives to a section or a bucket. -/
opaque placeChoice : Nat → Nat
/-- R280: the bytes of a built-in package in NOR, of which the manual gives no listing: its MODEL_ID. -/
opaque builtinPackage : Nat → List Word
/-- R256: whether a line of a command that was cut short had been written: the free counter, the line's number. -/
opaque lineLanded : Nat → Nat → Bool
/-- R219: the midpoint of an unbounded result that no rule gives, from the operands' words. -/
opaque unboundedMid : List Word → Word
/-- R209: the element codes of a block that holds a NaN or an infinity: the block's FP32 words, the element's index. -/
opaque mxNanElem : List Word → Nat → Nat
/-- R243: whether the softmax subtracts the largest score before exp. -/
opaque softmaxShifts : Bool
/-- R243: whether the softmax normalises after the weighted sum and not before it. -/
opaque softmaxLate : Bool

/-- R280, R284: the built-in forecaster's output in FP32, as the word at a byte offset of the forecast area, for a run that begins in
the given stroke; its weights are not in the manual. -/
opaque forecastWord : Stroke → Nat → Word
/-- R285: the size of a step (even index) and its radius (odd index) that the built-in forecaster has learned, for a run in the given
stroke: index 4 × output + 2 × polarity. -/
opaque stepWord : Stroke → Nat → Word
/-- R289: P_REF of a point at which the two energy bounds, given lower and upper, cannot both hold. -/
opaque energyConflict : Rat → Rat → Rat
/-- R294: the current of a profile entry while the published stack voltage or efficiency is zero: stroke, P_REF. -/
opaque refNoStack : Stroke → Rat → Word
/-- R432: the correction network's output for a cell, before its limit, in volts. -/
opaque cellCorrection : Stroke → Nat → Rat
/-- R292: the target of a shelf whose M or whose rope's Σ M is void: stroke of the landed frame, member address. -/
opaque allocateVoid : Stroke → Nat → Int
/-- R434: the computed state of charge of a string (or of the stack, as string 8) that can neither deliver nor absorb. -/
opaque socUndefined : Stroke → Nat → Rat
/-- R431: exp(−x) for the relaxation of an RC pair, of which the manual gives no rounding. -/
opaque expNeg : Rat → Rat
/-- R361: the phase engine that a checker compares in sample 0 of stroke 0. -/
opaque checkerStart : Nat
/-- R477, R585: the energy coefficient A_u in µJ that the trim record's coefficients give for a kind of activity at a voltage in mV; the
manual does not give the form. -/
opaque energyAt : List Word → Nat → Nat → Rat
/-- R477, R585: the leakage P_LEAK in µW at a voltage in mV and a temperature in 1/16 °C. -/
opaque leakAt : List Word → Nat → Int → Rat
/-- R477: whether the energy of a run is rounded up to whole µJ. -/
opaque energyUp : Rat → Bool
/-- R538: the power-on voltage in mV of IVR0 and of IVR1. -/
opaque ivrPowerOn : Nat → Nat
/-- R492: the measured power figures (word index 3–11 of the POWER_QUERY response) at a stroke; R491: as 20 and 21, the
outputs of IVR0 and IVR1 while their rails move. -/
opaque powerFigure : Stroke → Nat → Word

/-- R545: the identity key's signature over a quote body. -/
opaque identitySign : List Word → List Word
/-- R545: the identity public key derived from the PUF. -/
opaque identityKey : List Word
/-- R551: bytes done of a background work in progress, at a stroke; the manual gives no pace. -/
opaque progressBytes : Stroke → Nat
/-- R515: MIRROR_LAG, at a stroke, of a module that is no standby or has applied no stroke. -/
opaque mirrorLagOpen : Stroke → Nat
/-- R566: the last cross-measurement count of a domain at a stroke. -/
opaque crossCount : Stroke → Nat → Word
/-- R565: a word of the Clerk processors' state in a dump: stroke, word number. -/
opaque clerkStateWord : Stroke → Nat → Word
/-- R481: where in the Posin region the ledger table keeps the cell of a job and an output: the manual does not say (entry 164). -/
opaque ledgerAddr : Word → Nat → Nat

end Sys2Proof.Config
end

