-- ==== Sys2Proof/Machine/Bits.lean ====
section
/-! DEFINITION. Bit fields, byte order (little-endian, R4), counters and the sparse memory that the whole model shares. -/

namespace Sys2Proof.Machine

/-! ### Words and fields -/

/-- The `n`-bit field of a word whose least significant bit is bit `lo`. -/
def fld (w : Word) (lo n : Nat) : Nat := (w.toNat >>> lo) % 2 ^ n

/-- One bit of a word. -/
def bit (w : Word) (i : Nat) : Bool := w.getLsbD i

/-- A bit as a number. -/
def b2n (b : Bool) : Nat := if b then 1 else 0

/-- A natural number as a word, modulo 2^32. -/
def w32 (n : Nat) : Word := BitVec.ofNat 32 n

/-- An integer as a two's complement word. -/
def i32 (i : Int) : Word := BitVec.ofInt 32 i

/-- Low and high word of a 64-bit number. -/
def lo32 (n : Nat) : Word := BitVec.ofNat 32 n
def hi32 (n : Nat) : Word := BitVec.ofNat 32 (n / 2 ^ 32)

/-- A number from its low and high word. -/
def wide (lo hi : Word) : Nat := lo.toNat + hi.toNat * 2 ^ 32

/-- A word from fields, each a value and the position of its lowest bit. -/
def packW (fs : List (Nat × Nat)) : Word := w32 (fs.foldl (fun a f => a + f.1 * 2 ^ f.2) 0)

/-- A word's low 16 bits read as two's complement. -/
def s16 (n : Nat) : Int := (BitVec.ofNat 16 n).toInt

/-- Two words of a 64-bit two's complement integer. -/
def int64 (i : Int) : List Word := let v := (BitVec.ofInt 64 i).toNat; [lo32 v, hi32 v]

/-- The first condition of a list that holds, with the word number that it names. -/
def firstBad : List (Bool × Nat) → Option Nat
  | [] => none
  | (b, n) :: t => if b then some n else firstBad t

/-- The first of a list of conditions that holds. -/
def firstOf {α : Type} : List (Bool × α) → Option α
  | [] => none
  | (b, a) :: t => if b then some a else firstOf t

/-- A counter that saturates. -/
def satAdd (top a n : Nat) : Nat := min top (a + n)

/-- Adds to one counter of a list of 64-bit saturating counters (R576). -/
def bump (l : List Nat) (i n : Nat) : List Nat := l.modify i fun c => satAdd (2 ^ 64 - 1) c n

/-- Keeps the last `n` elements of a list. -/
def lastN {α : Type} (n : Nat) (l : List α) : List α := l.drop (l.length - n)

/-- A list of exactly `n` elements: cut, or padded with `d`. -/
def fit {α : Type} (n : Nat) (d : α) (l : List α) : List α := l.take n ++ List.replicate (n - l.length) d

/-- A number of bits of a vector that are 1. -/
def popcount {n : Nat} (v : BitVec n) : Nat := ((List.range n).filter fun i => v.getLsbD i).length

/-- One bit of a vector set or cleared. -/
def setBit {n : Nat} (v : BitVec n) (i : Nat) (b : Bool) : BitVec n :=
  if b then v ||| (1#n <<< i) else v &&& ~~~(1#n <<< i)

/-! ### Bytes -/

/-- The four bytes of a word, least significant first (R4). -/
def wordBytes (w : Word) : List Byte := [w.extractLsb' 0 8, w.extractLsb' 8 8, w.extractLsb' 16 8, w.extractLsb' 24 8]

/-- The bytes of a list of words. -/
def bytesOf : List Word → List Byte
  | [] => []
  | w :: t => wordBytes w ++ bytesOf t

/-- A number from bytes, least significant first. -/
def leNat : List Byte → Nat
  | [] => 0
  | b :: t => b.toNat + 256 * leNat t

/-- `n` bytes of a number, least significant first. -/
def natBytes : Nat → Nat → List Byte
  | 0, _ => []
  | n + 1, v => BitVec.ofNat 8 v :: natBytes n (v / 256)

/-- The words that bytes make, four bytes a word; a last part of a word is filled with zeros. -/
def wordsOf : List Byte → List Word
  | [] => []
  | [a] => [w32 a.toNat]
  | [a, b] => [w32 (leNat [a, b])]
  | [a, b, c] => [w32 (leNat [a, b, c])]
  | a :: b :: c :: d :: t => w32 (leNat [a, b, c, d]) :: wordsOf t

/-! ### CRC -/

/-- One step of a reflected CRC over a byte's bits. -/
def crcBits {n : Nat} (poly : BitVec n) : Nat → BitVec n → BitVec n
  | 0, c => c
  | k + 1, c => crcBits poly k (if c.getLsbD 0 then (c >>> 1) ^^^ poly else c >>> 1)

/-- A continuation on a number that has been evaluated: it is the continuation itself, and keeps evaluation from carrying terms along. -/
def withNat {α : Type} (n : Nat) (k : Nat → α) : α := match n with
  | 0 => k 0
  | m + 1 => k (m + 1)

/-- The CRC-32 of IEEE 802.3 over a byte's bits, and over bytes. -/
def crcByte : Nat → Nat → Nat
  | 0, c => c
  | k + 1, c => withNat (if c % 2 = 1 then Nat.xor (c / 2) 0xEDB88320 else c / 2) (crcByte k)

def crcRun : List Byte → Nat → Nat
  | [], c => c
  | b :: t, c => withNat (crcByte 8 (Nat.xor c b.toNat)) (crcRun t)

/-- CRC-32 of IEEE 802.3 (R319, R445, R563, R574). -/
def crc32 (bs : List Byte) : Word := w32 (Nat.xor (crcRun bs 0xFFFFFFFF) 0xFFFFFFFF)

/-- One step of a CRC, most significant bit first. -/
def crcBitsMsb {n : Nat} (poly : BitVec n) : Nat → BitVec n → BitVec n
  | 0, c => c
  | k + 1, c => crcBitsMsb poly k (if c.getLsbD (n - 1) then (c <<< 1) ^^^ poly else c <<< 1)

/-! ### Sparse memory in canonical form -/

/-- The byte at an address: zero where no byte is listed (R531: a cold boot zeroes the well; entry 5). -/
def cellRead : List Host.Cell → Nat → Byte
  | [], _ => 0
  | (b, v) :: t, a => if a < b then 0 else if a = b then v else cellRead t a

/-- Puts a byte at the head of a list, or nothing where the byte is what an unlisted address reads as. -/
def cellCons (a : Nat) (v : Byte) (t : List Host.Cell) : List Host.Cell := if v = 0 then t else (a, v) :: t

/-- Writes one byte, keeping addresses rising and zero bytes unlisted. -/
def cellWrite : List Host.Cell → Nat → Byte → List Host.Cell
  | [], a, v => cellCons a v []
  | (b, w) :: t, a, v =>
    if a < b then cellCons a v ((b, w) :: t)
    else if a = b then cellCons a v t
    else (b, w) :: cellWrite t a v

/-- Writes bytes at rising addresses. -/
def cellsWrite : List Host.Cell → Nat → List Byte → List Host.Cell
  | m, _, [] => m
  | m, a, v :: t => cellsWrite (cellWrite m a v) (a + 1) t

/-- Reads `n` bytes from an address. -/
def cellsRead (m : List Host.Cell) (a n : Nat) : List Byte := (List.range n).map fun i => cellRead m (a + i)

/-- Every address of a list lies above a bound, addresses rise strictly, and no listed byte is zero. -/
def cellsAbove : Nat → List Host.Cell → Bool
  | _, [] => true
  | lo, (b, v) :: t => decide (lo ≤ b) && !decide (v = 0) && cellsAbove (b + 1) t

/-- The canonical form of a sparse memory. -/
def cellsWf (m : List Host.Cell) : Bool := cellsAbove 0 m

/-- Puts a number into a rising list without repeats. -/
def insertNat (n : Nat) : List Nat → List Nat
  | [] => [n]
  | m :: t => if n < m then n :: m :: t else if n = m then m :: t else m :: insertNat n t

end Sys2Proof.Machine
end

