-- ==== Sys2Proof/Machine/Factory.lean ====
section
/-! DEFINITION. What production leaves in the NOR dies, of which the manual gives no contents (entry 26, DESIGN CHOICE): sample keys, an image
and records of production test that they sign. -/

namespace Sys2Proof.Machine

/-- `n` bytes, and `n` words, of a number from its least significant end on. -/
def factoryBytes (n v : Nat) : List Byte := (List.range n).map fun i => BitVec.ofNat 8 (v >>> (8 * i))
def factoryWords (n v : Nat) : List Word := (List.range n).map fun i => BitVec.ofNat 32 (v >>> (32 * i))

/-- The sample vendor root key, and its SHA-512 as the boot ROM holds it. -/
def factoryRoot : Nat := 0xb77e7d172089ed4161c6e857d586043e23d272226ef6dad8e5e860ca90cb1220
def factoryRootHash : List Word :=
  factoryWords 16 0xfe3e83393a4635d66edee5ce98b746130500870a62f453a47da86a9db610770fc1123ba329335d4d7c6170c0670f8228463a3517305fe479ca12909ac0e457f8

/-- The manifest: MAGIC, FORMAT with one section, VERSION 3.0, SVN and FLOOR zero, IMAGE_BYTES, ROOT_KEY, a boot section of 64 bytes with its
DIGEST, and the signer block: SIGNER_KEY, KEY_ROLE 1, KEY_SIG, SIG. -/
def factoryManifest : List Word :=
  [0x50534E31, 0x01000001, 0x03000000, 0, 4160] ++ List.replicate 11 0 ++ factoryWords 8 factoryRoot ++ [4096, 64, 0, 0] ++
  factoryWords 16 0x8100c20574882be2246af95ab236f206287debe63c5f358370b18e7a2b753f5066bf4bb40cde14adeae6fe1e436928f7fa09ff3ca798c611e679418fa4fde97b ++
  List.replicate 932 0 ++ factoryWords 8 0xefd637225019c5fff38ee9a476ba3e6fdebcbcccc1fb6c166eb07d2b448a2c77 ++ [1] ++
  factoryWords 16 0x27945b5cb01c47b647ffedab2b5701701b176ec8dbc99ce3744579cd3497b4566d10f44627f5ed7b9c905ce6b05dda9ab286f06c041cc198d50fd15b04af643 ++
  List.replicate 7 0 ++
  factoryWords 16 0x15ae01c8a5210d6376f999fd6bdb12c7115d4936c4d4ab9f9d71f358bcf62442e6e964db430deb777d1ffd26538572b99fc85d055db903122cc0c90fd33f8e2

/-- The image: its manifest and a boot section of zeros. -/
def factoryImage : List Word := factoryManifest ++ List.replicate 16 0

/-- A record of production test: four bytes and the signer block with KEY_ROLE 2. -/
def factoryRecord (body : List Byte) (sig : Nat) : List Byte :=
  body ++ factoryBytes 32 0xbf5f3ce783f0c192c7c2dfbaef68de74825a191d4c66ffcc82830035989f03e ++ [2, 0, 0, 0] ++
  factoryBytes 64 0x26c277de2cfda849beb469f4f678784fc998eea29d47e2c9e3c0cad46cad94a5bb4029c8c65e8f6fe0cbd136a0ae5304dffb4c30958cd4bc45cb70fd8e2229d ++
  List.replicate 28 0 ++ factoryBytes 64 sig

def factoryTrim : List Byte := factoryRecord [0x54, 0x52, 0x49, 0x4D]
  0xdff750d8bcfd62440c01ec8050d978c06051d9476a03e39a376dd3a0e7c3fbd835b9beaf73df68be3037c4536bcc058767084f2fbd37148f682b55b3a657580
def factoryCerts : List Byte := factoryRecord [0x30, 0, 0x30, 0]
  0xb6f05acf4eba275d9c704f1de28204257ea0d1c9510fd1e9eeeb92b580bd8f30dc510b7dfa35f72875dcd8aa0deae33180f212f994c1d4bb2e8ff7892f32d6b
def factoryHelper : List Byte := factoryRecord [0, 0, 0, 0]
  0xda21d2ddee4615718ecbc337706b7ca616d41f8e06f465e44ee444bbe4c0303338fbb47daea046c3d600942862529b25216c3dfffe4243258ca375437bd325b

end Sys2Proof.Machine
end

