-- ==== Sys2Proof/Machine/State.lean ====
section
/-! DEFINITION. The state of the TMN-8400 block as plain data: every register, queue, buffer, counter, mode and pin that the
manual names, grouped by the part that owns it. A field's default is its value after reset; a default that the manual
does not state is named in the assumption log (entry 1 unless the field names another). -/

namespace Sys2Proof.Machine

/-! ### Stops -/

/-- The ways in which the machine stops with a fault. -/
inductive Fault where
  /-- Raised by no command: every command of the table has an effect in the manual. Kept so that the interface has a
  fault type; safe. -/
  | unreachable
  deriving DecidableEq, Repr, Inhabited

/-- The ways in which a command has no meaning. -/
inductive Refusal where
  /-- Raised by an arm of `exec` whose command is not modelled yet, with its mnemonic; safe. No arm raises it now. -/
  | notModelled (mnemonic : String)
  deriving DecidableEq, Repr, Inhabited

/-! ### Functions and mailboxes (chapter 4) -/

/-- The states of a function or of a pump ring (R112, R148). -/
inductive FState where
  | off
  | stopped
  | running
  | faulted
  deriving DecidableEq, Repr, Inhabited

/-- What FUNC_QUERY reports of a function (R124). -/
structure FuncRec where
  /-- R112: the function's state; OFF after every reset. -/
  state      : FState := .off
  /-- R124 FAULT_COUNT, saturating at 65,535. -/
  faultCount : Nat := 0
  /-- R124 FAULT_CAUSE of the last entry into FAULTED. -/
  faultCause : BitVec 16 := 0
  /-- R124 CHANGE: stroke count of the last state change. -/
  change     : Stroke := 0
  deriving DecidableEq, Repr, Inhabited

/-- What a mailbox command in progress waits for before its response is written. -/
inductive Waiting where
  /-- The command is being carried out within the present step. -/
  | body
  /-- R83: the gate of CLOCK_MEASURE. -/
  | measure
  /-- R82: the divider steps of CLOCK_CONFIG. -/
  | ratios
  /-- R157: a draining PUMP_STOP. -/
  | pumpStop (p : Nat)
  /-- R276: the end of the run of a list that is being removed. -/
  | listRemove (id : Nat)
  /-- R311: the removal of a package's lists. -/
  | modelUnload (id : Nat)
  /-- R114: the orderly stop of the function with this ID. -/
  | funcStop (fid : Nat)
  /-- R114: the START of the function with this ID. -/
  | funcStart (fid : Nat)
  /-- R389: the ramp of LOOP_OPEN. -/
  | loopOpen
  /-- R529: a handover. -/
  | handover
  /-- R460: the commit of a lifetime record. -/
  | estSave
  /-- R553: HOLDUP_GOOD for FW_COMMIT. -/
  | fwCommit
  /-- R557: the commit entry of POLICY_SET's record. -/
  | policySet (record : List Word)
  /-- R552: the image write that FW_WRITE answers after in recovery. -/
  | fwWrite
  deriving DecidableEq, Repr, Inhabited

/-- A command in progress on a mailbox: its opcode, its TAG, the functions it acts on (R100), what it waits for, its index
in the mailbox log (R568). -/
structure InProgress where
  opcode  : BitVec 16
  tag     : Word
  acts    : List Nat
  waits   : Waiting
  logIdx  : Nat
  deriving DecidableEq, Repr, Inhabited

/-- The registers and areas of one mailbox (R93, R94). -/
structure Mailbox where
  /-- R93 +0x00: LENGTH and OPCODE as written. -/
  word0      : Word := 0
  /-- R93 +0x04: TAG as written. -/
  tag        : Word := 0
  /-- R86: the request area, from payload word 2. -/
  reqArea    : List Word := []
  /-- R93 +0x1C: IRQ_EN. -/
  irqEn      : Bool := false
  /-- R93 +0x0C COMPLETED, modulo 65,536. -/
  completed  : BitVec 16 := 0
  /-- R93 +0x0C OVERRUN. -/
  overrun    : Bool := false
  /-- R93 +0x0C DONE. -/
  done       : Bool := false
  /-- R93 +0x0C BUSY: the command in progress, none while BUSY is 0. -/
  busy       : Option InProgress := none
  /-- R93 +0x10 STATUS: completion code. -/
  status     : BitVec 8 := 0
  /-- R93 +0x10 DETAIL. -/
  detail     : BitVec 8 := 0
  /-- R93 +0x10 RSP_LENGTH and R94 response payload words from word 3. -/
  rsp        : List Word := []
  /-- R93 +0x14 RSP_TAG. -/
  rspTag     : Word := 0
  /-- R93 +0x18 RSP_STROKE. -/
  rspStroke  : Word := 0
  deriving DecidableEq, Repr, Inhabited

/-- One entry of the mailbox log (R568). -/
structure LogEntry where
  mb      : Nat
  word0   : Word
  tag     : Word
  rung    : Word
  done    : Word
  rsp0    : Word
  payload : List Word
  deriving DecidableEq, Repr, Inhabited

/-- The event ring, the internal queue and EVT registers (R105 to R109). -/
structure Events where
  /-- R123 BASE: host address of slot 0. -/
  base       : Nat := 0
  /-- R123 LOG2_ENTRIES; 0 while no ring is set. -/
  log2       : Nat := 0
  /-- R105 EVT_PROD. -/
  prod       : Word := 0
  /-- R105 EVT_CONS. -/
  cons       : Word := 0
  /-- R107 DROPPED, saturating at 65,535. -/
  dropped    : Nat := 0
  /-- R107 CONS_BAD. -/
  consBad    : Bool := false
  /-- R107 OVERFLOW. -/
  overflow   : Bool := false
  /-- R108: records queued internally, oldest first, at most 256. -/
  queue      : List Line := []
  /-- R109 SEQ of the next record. -/
  seq        : Word := 0
  /-- R568: the last 1,024 records, oldest first (the event tail of a dump). -/
  tail       : List Line := []
  /-- R110: a record was written into the ring in the present stroke. -/
  wroteRing  : Bool := false
  /-- R568: records created since reset. -/
  made       : Nat := 0
  /-- R393: those with SOURCE STAGE. -/
  stageMade  : Nat := 0
  deriving DecidableEq, Repr, Inhabited

/-- MSI-X state (R110): table, pending bits, and how many messages each vector has sent. -/
structure Msix where
  /-- R110, R161 MSI-X Enable in configuration space. -/
  enable   : Bool := false
  /-- R110 function mask. -/
  funMask  : Bool := false
  /-- R86 the MSI-X table: four words for each of 32 entries; the PCI Express reset value of the vector control mask is 1
  (entry 20). -/
  table    : List Word := (List.range 128).map fun i => if i % 4 = 3 then 1 else 0
  /-- R110 pending bit array. -/
  pba      : Word := 0
  /-- R110: messages sent by each vector since reset. -/
  sent     : List Nat := List.replicate 32 0
  deriving DecidableEq, Repr, Inhabited

/-- The Clerk's identity and status registers (R86 to R92). -/
structure Clerk where
  /-- R88 ID_POSIN. -/
  posin       : Word := 0
  /-- R88 ID_SERIAL, 64 bits. -/
  serial      : BitVec 64 := 0
  /-- R89 MB_OPEN. -/
  mbOpen      : Bool := false
  /-- R89 BOOT_STAGE. -/
  bootStage   : Nat := 0
  /-- R89 RESET_CAUSE. -/
  resetCause  : BitVec 8 := 1
  /-- R89 BOOT_FAIL. -/
  bootFail    : Nat := 0
  /-- R89 FATAL. -/
  fatal       : Bool := false
  /-- R89 ROPE_ROLE: 0 none, 1 standalone, 2 manager, 3 worker. -/
  ropeRole    : Nat := 0
  /-- R90: the latched STROKE_HI. -/
  strokeLatch : Option Word := none
  /-- R91 dump pointer. -/
  dumpPtr     : Nat := 0
  /-- R91 DUMP_STATUS.VALID. -/
  dumpValid   : Bool := false
  /-- R91 DUMP_STATUS.PRESERVED. -/
  dumpPreserved : Bool := false
  /-- R91 DUMP_STATUS.CAUSE. -/
  dumpCause   : BitVec 16 := 0
  /-- R568: commands logged since reset. -/
  logCount    : Nat := 0
  /-- R568: the last 4,096 commands, oldest first. -/
  log         : List LogEntry := []
  /-- R90, R137: what the last host read of a register or of the window returned. -/
  readData    : List Word := []
  /-- R141: the last host read of the window came with poison. -/
  readPoison  : Bool := false
  deriving DecidableEq, Repr, Inhabited

/-! ### Clocks (chapter 3) -/

/-- How the Assayer sees a domain (R68). -/
inductive Declared where
  | none
  | stopped
  | offFrequency
  deriving DecidableEq, Repr, Inhabited

/-- One clock domain of R52. -/
structure Domain where
  /-- R68: the Assayer's declaration. -/
  declared : Declared := .none
  /-- R60: the output divider in force; entry 21. -/
  divider  : Nat := 2
  /-- R60: the divider the domain moves toward. -/
  target   : Nat := 2
  /-- R579: the PLL multiplier as set by a raw write; none while never written. -/
  mult     : Option Word := none
  /-- R62: forced switches since reset. -/
  forced   : Nat := 0
  /-- R60: the switch of source that the domain is making. -/
  switching : Bool := false
  /-- R580: the divider as set by a raw write; none while never written. -/
  rawDiv   : Option Nat := none
  deriving DecidableEq, Repr, Inhabited

/-- A PLL (R52, R59): 0 REF, 1 SYS, 2 ASY, 3 TA0, 4 TA1, 5 TB0, 6 TB1, 7 TF, 8 NOC, 9 WELL, 10 CXL, 11–14 ROPE0–3, 15 LOOP,
16 SLOW. -/
structure Pll where
  /-- R59: started. -/
  started : Bool := false
  /-- R59: 4,096 reference cycles have been counted. -/
  locked  : Bool := false
  deriving DecidableEq, Repr, Inhabited

/-- A frequency-counter measurement in progress (R83). -/
structure Measure where
  mb     : Nat
  k      : Nat
  gateIn : Nat
  measIn : Nat
  /-- R67: edges of the measured clock per gate edge, where both come from one source that has not changed since the request. -/
  ratio  : Option Rat
  /-- R83: the gate clock, and the measured clock, showed no edges at the request. -/
  gateDead : Bool
  measDead : Bool
  deriving DecidableEq, Repr, Inhabited

/-- Clocks, the stroke and references. -/
structure Clocks where
  /-- R71 stroke count. -/
  stroke     : Stroke := 0
  /-- R70 tick within the stroke. -/
  tick       : Nat := 0
  /-- R41, R295: ticks of the stroke timebase from the release of reset to the present boundary; a change of the stroke count, of
  STROKE_DIV or of a stroke's length leaves it whole. -/
  base       : Nat := 0
  /-- R69 STROKE_DIV in force. -/
  strokeDiv  : Nat := 5000
  /-- R69 LOOP_DIV in force. -/
  loopDiv    : Nat := 10
  /-- R81: STROKE_DIV and LOOP_DIV accepted and not yet in force. -/
  nextDivs   : Option (Nat × Nat) := none
  /-- R74: the length in ticks that the present stroke takes while realigning; STROKE_DIV otherwise. -/
  strokeLen  : Nat := 5000
  /-- R80 REF_SRC; none while ref is gated (R78). -/
  refSrc     : Option RefIn := some .refclk
  /-- R56, R80 QUAL: REFCLK qualified. -/
  qualRefclk : Bool := true
  /-- R56, R80 QUAL: rope A's recovered clock qualified. -/
  qualA      : Bool := false
  /-- R56, R80 QUAL: rope B's recovered clock qualified. -/
  qualB      : Bool := false
  /-- R83: HB_RX recovered clock running. -/
  hbClock    : Bool := false
  /-- R82 ROPE_PREF: true prefers rope B. -/
  prefB      : Bool := false
  /-- R82 SSC_PPM. -/
  sscPpm     : Nat := 0
  /-- R82 NOC_SEL. -/
  nocSel     : Nat := 0
  /-- R82 SRAM_HALF_A. -/
  halfA      : Bool := false
  /-- R82 SRAM_HALF_B. -/
  halfB      : Bool := false
  /-- R64 gate mask; every bit clear before Posin sets the implemented ones at boot. -/
  gate       : Word := 0
  /-- R80 REF_SWITCHES. -/
  refSwitches    : Nat := 0
  /-- R80 FORCED_SWITCHES. -/
  forcedSwitches : Nat := 0
  /-- R74 ALIGNING. -/
  aligning   : Bool := false
  /-- R80 PHASE_ERR in ns. -/
  phaseErr   : Int := 0
  /-- R83: measurement in progress. -/
  measure    : Option Measure := none
  /-- R52: the 18 domains. -/
  domains    : List Domain := List.replicate 18 {}
  /-- R52, R59: the PLLs; at reset PLL_REF starts on REFCLK. -/
  plls       : List Pll := { started := true } :: List.replicate 16 {}
  /-- R481: ref took its source from a spread REFCLK at some tick of the present stroke. -/
  spreadSeen : Bool := false
  deriving DecidableEq, Repr, Inhabited

/-! ### Host link and pumps (chapter 5) -/

/-- The link, the decoder and configuration registers (R128 to R163). -/
structure Link where
  /-- R161 DL_Active; down until the link has trained (R135). -/
  up          : Bool := false
  /-- R145 PCIE_ONLY mode. -/
  pcieOnly    : Bool := false
  /-- R161 Bus Master Enable. -/
  bme         : Bool := false
  /-- R161 the function is in D3hot. -/
  d3hot       : Bool := false
  /-- R131 Memory_Active. -/
  memActive   : Bool := false
  /-- R163 BAR0 base. -/
  bar0        : BitVec 64 := 0
  /-- R163 BAR2 base. -/
  bar2        : BitVec 64 := 0
  /-- R136 decoder base. -/
  hdmBase     : BitVec 64 := 0
  /-- R136 decoder size. -/
  hdmSize     : BitVec 64 := 0
  /-- R136 interleave ways. -/
  hdmWays     : Nat := 0
  /-- R136 committed. -/
  hdmCommitted : Bool := false
  /-- R136 Error Not Committed. -/
  hdmError    : Bool := false
  /-- R136 Lock On Commit. -/
  hdmLock     : Bool := false
  /-- R162 host loss in force. -/
  hostLoss    : Bool := false
  /-- R520: strokes of HOST_LOSS_HOLD that are left. -/
  holdLeft    : Nat := 0
  /-- R520: the hold has expired and the target is the autonomous one. -/
  holdExpired : Bool := false
  /-- R138: the next dropped CXL.mem write writes record 0x0004. -/
  dropArmed   : Bool := true
  /-- R130, R141: the Uncorrectable Error Status register of the CXL RAS capability. -/
  rasStatus   : Word := 0
  /-- R130: the global control register of the HDM decoder capability. -/
  hdmGlobal   : Word := 0
  /-- R128, R130: registers of configuration space, and of BAR2, that the host has changed, by their offsets. -/
  cfgRegs     : List (Nat × Word) := []
  bar2Regs    : List (Nat × Word) := []
  /-- R132: lanes of the trained link; 0 before it has trained. -/
  lanes       : Nat := 0
  /-- R132: rate of the trained link, by its PCI Express generation: 5 is 32 GT/s; 0 before it has trained. -/
  gen         : Nat := 0
  /-- R128, R142, R144: numbers of the 64-byte host lines that the device cache holds in the Shared state. -/
  cache       : List Nat := []
  deriving DecidableEq, Repr, Inhabited

/-- A descriptor in progress on a pump (R149, R151): its number, its words, its completion code and detail if rejected. -/
structure PumpDesc where
  k       : Word
  words   : List Word
  reject  : Option (Nat × Nat)
  /-- R151: ranges, as place and bytes, that descriptors completed while this one was in progress have written. -/
  clash   : List (Nat × Nat) := []
  /-- R154 cause 7: the fetch of this descriptor failed; the fault ends it once the earlier ones have completed. -/
  lost    : Bool := false
  deriving DecidableEq, Repr, Inhabited

/-- One pump ring (R146 to R159). -/
structure Pump where
  /-- R148 state. -/
  state      : FState := .off
  /-- R155 host address of the control block. -/
  ring       : Nat := 0
  /-- R155 LOG2_ENTRIES. -/
  log2       : Nat := 0
  /-- R155 HALT_ON_ERR. -/
  haltOnErr  : Bool := false
  /-- R155 ALLOW_TO_WELL. -/
  allowTo    : Bool := false
  /-- R155 ALLOW_FROM_WELL. -/
  allowFrom  : Bool := false
  /-- R155 window base device address. -/
  winBase    : Nat := 0
  /-- R155 window size in 4 KiB pages. -/
  winPages   : Nat := 0
  /-- R148 the module's CONS. -/
  cons       : Word := 0
  /-- R159 PROD as last read. -/
  prod       : Word := 0
  /-- R148: number of the next descriptor to fetch. -/
  next       : Word := 0
  /-- R159 bytes moved since reset, modulo 2^64. -/
  bytes      : BitVec 64 := 0
  /-- R159 REJECTS. -/
  rejects    : Nat := 0
  /-- R159 FAULTS. -/
  faults     : Nat := 0
  /-- R159 STOP_CAUSE. -/
  stopCause  : Nat := 0
  /-- R154 FAULT_CAUSE. -/
  faultCause : Nat := 0
  /-- R151 descriptors in progress, oldest first, at most four. -/
  inProg     : List PumpDesc := []
  /-- R157: no further descriptor is taken up because a stop drains the ring. -/
  draining   : Bool := false
  /-- R153: vector 8 + n is due at the next boundary. -/
  irqDue     : Bool := false
  /-- R145: in PCIE_ONLY mode, the producer word of this stroke's boundary has been read. -/
  prodRead   : Bool := false
  deriving DecidableEq, Repr, Inhabited

/-! ### Memory (chapter 6) -/

/-- One silicon bridge (R179). -/
structure Bridge where
  enabled : Bool := true
  deriving DecidableEq, Repr, Inhabited

/-- Who sees a write before the next stroke boundary (R185): a tile, the load/store path, the Clerk, the host, a pump, a remote
member, or every reader; and what carries it on to others: a stroke flag (R261), a point of a list where tiles meet (R262). -/
inductive Seer where
  | tile (t : Nat)
  | path
  | clerk
  | host
  | pump (p : Nat)
  | member (m : Nat)
  | flag (f : Nat)
  | point (listId seg cmd : Nat)
  | every
  deriving DecidableEq, Repr, Inhabited

/-- A write of the present stroke (R185); without bytes, a word of it that was found uncorrectable after such writes (R192). -/
structure PendWrite where
  addr  : Nat
  bytes : List Byte
  /-- Who sees it already. -/
  seen  : List Seer
  deriving DecidableEq, Repr, Inhabited

/-- The device memory and its error state. -/
structure Mem where
  /-- R181: bytes of the well, the cistern SRAM and the tile-local SRAM by device address, in canonical form. -/
  cells    : List Host.Cell := []
  /-- R190, R192: addresses of the ECC words that are uncorrectable, rising: words of 16 bytes in the well, of 8 in SRAM. -/
  damaged  : List Nat := []
  /-- R105, R147, R151: bytes of host memory that the module has written, by host address, in canonical form. -/
  host     : List Host.Cell := []
  /-- R179 the three silicon bridges. -/
  bridges  : List Bridge := [{}, {}, {}]
  /-- R191: correctable errors in each region in the present second. -/
  corrSec  : List Nat := [0, 0, 0, 0]
  /-- R191: the region has written its record in the present second. -/
  corrRec  : List Bool := [false, false, false, false]
  /-- R185: writes of the present stroke, oldest first, which every reader sees from the boundary on. -/
  writes   : List PendWrite := []
  deriving DecidableEq, Repr, Inhabited

/-! ### Tiles and lists (chapters 7 and 8) -/

/-- A segment in progress on a tile. -/
structure TileSeg where
  /-- LIST_ID of the segment's list. -/
  listId : Nat
  /-- Segment index. -/
  seg    : Nat
  /-- R567 COMMAND: number of the command in progress, in the list's numbering. -/
  cmd    : Nat
  /-- R254 B_SEG. -/
  budget : Nat
  /-- R254 cycles counted. -/
  used   : Nat
  /-- R477: the segment's activity counts on its tile: MAC operations of the sixteen format codes, vector operations, scan steps, bytes of
  local SRAM, of cistern SRAM and of the well. -/
  acts   : List Nat := List.replicate 21 0
  deriving DecidableEq, Repr, Inhabited

/-- What a waiting tile waits for. -/
inductive TileWait where
  | barrier
  | flag (f : Nat)
  /-- R187: the response to a ROPE_GET or ROPE_PUT. -/
  | remote (cmd : Line)
  /-- R266: a member of a fixed pair that has reached a point of comparison. -/
  | point
  /-- R266: a member of a fixed pair that has aborted with a cause. -/
  | aborted (cause : Nat)
  deriving DecidableEq, Repr, Inhabited

/-- One tile (R164, R167). -/
structure Tile where
  /-- R254: segment in progress. -/
  seg       : Option TileSeg := none
  /-- R262: what the tile waits for. -/
  waiting   : Option TileWait := none
  /-- R210 sticky arithmetic flags. -/
  flags     : BitVec 8 := 0
  /-- R167, R222: the 64 ledger accumulators of 96 bits. -/
  acc       : List (BitVec 96) := List.replicate 64 0
  /-- R266 running CRC-64. -/
  crc       : BitVec 64 := 0
  /-- R567 LAST_ABORT. -/
  lastAbort : Nat := 0
  /-- R193, R254: budget and budget counter as the last segment left them. -/
  count     : Nat × Nat := (0, 0)
  deriving DecidableEq, Repr, Inhabited

/-- R207: what the tile of one chunk of a SCAN carries to the next chunk: list, segment, command, tile, and the state of each channel. -/
structure ScanCarry where
  listId : Nat
  seg    : Nat
  cmd    : Nat
  tile   : Nat
  states : List Word
  deriving DecidableEq, Repr, Inhabited

/-- An area of an installed list (R235). -/
structure Area where
  mirror   : Bool
  state    : Bool
  fmt      : Nat
  fbMax    : Nat
  base     : Nat
  factor   : Nat
  size     : Nat
  add      : Word
  deriving DecidableEq, Repr, Inhabited

/-- A segment entry of an installed list (R238). -/
structure Seg where
  firstCmd : Nat
  cmds     : Nat
  mask     : Nat
  cyc      : Nat
  waitNs   : Nat
  ext      : Nat
  slot     : Nat
  deriving DecidableEq, Repr, Inhabited

/-- The built-in lists (R280). -/
inductive BuiltIn where
  | dispatch
  | allocate
  | estimate
  | forecast
  | persist
  deriving DecidableEq, Repr, Inhabited

/-- A run in progress of a list (R229). -/
structure Run where
  /-- Stroke in which the run began. -/
  start   : Stroke
  /-- Segments that have halted on every tile of their mask. -/
  done    : List Nat
  /-- Flags gathered over the run (R210). -/
  flags   : BitVec 8
  /-- Cycles that the run's segments have used. -/
  cycles  : Nat
  /-- R477: the cycles and the activity counts of the run's tiles on die A and on die B. -/
  dieA    : Nat × List Nat := (0, List.replicate 21 0)
  dieB    : Nat × List Nat := (0, List.replicate 21 0)
  deriving DecidableEq, Repr, Inhabited

/-- How a list is shed (R277 SHED). -/
inductive Shed where
  | none
  | suspended
  | stretched
  | replaced
  deriving DecidableEq, Repr, Inhabited

/-- An installed list. -/
structure Inst where
  /-- R275 LIST_ID. -/
  id       : Nat
  /-- Function ID of the list's queue (R111). -/
  queue    : Nat
  /-- R233 ONCE. -/
  once     : Bool
  /-- R233 DORMANT. -/
  dormant  : Bool
  /-- R233 JOB_TAG. -/
  jobTag   : Word
  /-- R233 PERIOD as declared. -/
  period0  : Nat
  /-- R277 PERIOD in force. -/
  period   : Nat
  /-- R277 PHASE in force. -/
  phase    : Nat
  /-- R233 PHASE as declared. -/
  phase0   : Nat
  /-- R233 SHED_MODE: true stretches. -/
  stretch  : Bool
  /-- R233 FALLBACK_LIST; 0 for none. -/
  fallback : Nat
  areas    : List Area
  segs     : List Seg
  /-- The list's command entries. -/
  cmds     : List Line
  /-- R263: flags that the list sets. -/
  setsFlags : List Nat
  builtin  : Option BuiltIn
  /-- MODEL_ID of the list's package; 0 for none. -/
  modelId  : Nat
  /-- R277 SHED. -/
  shed     : Shed := .none
  /-- R298: replaced because history is short. -/
  young    : Bool := false
  /-- R277 STANDING_IN. -/
  standing : Bool := false
  /-- R277 RUNS. -/
  runs     : Nat := 0
  /-- R277 ABORTS. -/
  aborts   : Nat := 0
  /-- R277 PEAK. -/
  peak     : Nat := 0
  /-- R277 STICKY. -/
  sticky   : BitVec 8 := 0
  /-- R277 LAST_ABORT. -/
  lastAbort : Nat := 0
  /-- The run in progress. -/
  run      : Option Run := none
  /-- R273: the first stroke at which a run may begin. -/
  from_    : Stroke := 0
  /-- R279: stroke of the list's last 0x0101 record. -/
  lastRec  : Option Stroke := none
  /-- R279: aborts since that record. -/
  recAborts : Nat := 0
  /-- R276: removal waits for the end of the run. -/
  removing : Bool := false
  deriving DecidableEq, Repr, Inhabited

/-- A fallback that waits for its flip at a boundary (R259): the status lines of the area. -/
structure Flip where
  bases     : List Nat
  cause     : Nat
  /-- The area takes a fallback (R258); otherwise only ABORT is written. -/
  takes     : Bool
  /-- The fallback reached FB_MAX. -/
  unbounded : Bool
  /-- The stroke at whose end the flip is due. -/
  due       : Nat
  deriving DecidableEq, Repr, Inhabited

/-- Consecutive-stroke abort counts of a queue (R194, R267). -/
structure Streak where
  memory    : Nat := 0
  access    : Nat := 0
  mismatch  : Nat := 0
  memNow    : Bool := false
  accNow    : Bool := false
  misNow    : Bool := false
  deriving DecidableEq, Repr, Inhabited

/-- Arrivals of tiles at a SIGNAL or a barrier (R261, R262). -/
structure Arrival where
  listId : Nat
  seg    : Nat
  cmd    : Nat
  tiles  : List Nat
  deriving DecidableEq, Repr, Inhabited

/-- Lists and stroke flags. -/
structure Lists where
  /-- Installed lists, in order of installation. -/
  inst      : List Inst := []
  /-- R275: the last LIST_ID assigned. -/
  lastId    : Nat := 0
  /-- R271: IDs of shed lists, last shed first. -/
  shedOrder : List Nat := []
  /-- R271: capacity has grown since the last boundary. -/
  restoreDue : Bool := false
  /-- R261: the 64 stroke flags. -/
  flags     : BitVec 64 := 0
  /-- R264: vectors 16 + VEC already sent in this stroke. -/
  vecSent   : BitVec 16 := 0
  /-- R261: SIGNALs and HALT flags on which tiles have arrived. -/
  signals   : List Arrival := []
  /-- R207: states carried between the chunks of a SCAN. -/
  carries   : List ScanCarry := []
  /-- R262: barriers on which tiles have arrived. -/
  barriers  : List Arrival := []
  /-- R259: fallbacks waiting for their flip. -/
  flips     : List Flip := []
  /-- R194, R267: streaks of the 20 queues. -/
  streaks   : List Streak := List.replicate 20 {}
  /-- R266: CRCs of the members of P0 and P1 as last compared, A then B. -/
  lastCrc   : List (BitVec 64) := List.replicate 4 0
  deriving DecidableEq, Repr, Inhabited

/-! ### The smoothing pipeline (chapter 9) -/

/-- PIPE_CONFIG (R316). -/
structure PipeCfg where
  fcStep    : Nat := 256
  meanLog2  : Nat := 17
  primeSlew : Nat := 100
  marginW   : Word := 0
  lead      : List Nat := List.replicate 24 0
  deriving DecidableEq, Repr, Inhabited

/-- An accepted marker edge (R283, R295). -/
structure Edge where
  n      : Nat
  rising : Bool
  stroke : Stroke
  tick   : Nat
  since  : Word
  deriving DecidableEq, Repr, Inhabited

/-- What a MARK input remembers (R41, R295): absolute ticks of the last accepted edge and of the last edges of each
polarity. -/
structure MarkIn where
  last   : Option Nat := none
  rise   : Option Nat := none
  fall   : Option Nat := none
  deriving DecidableEq, Repr, Inhabited

/-- A scheduled target (R315). -/
structure TargetPend where
  /-- 0 shelf, 1 rope, 2 autonomous. -/
  scope : Nat
  /-- In 1/16 W. -/
  value : Int
  /-- W/s. -/
  ramp  : Nat
  at_   : Stroke
  deriving DecidableEq, Repr, Inhabited

/-- The target in force and its ramp, in 1/16 W as an exact number (R287). -/
structure TargetSt where
  /-- Present value. -/
  value    : Rat := 0
  /-- A host or manager target is in force. -/
  targeted : Bool := false
  /-- End value and slope in 1/16 W per second of a ramp that is still moving. -/
  ramp     : Option (Rat × Rat) := none
  /-- Stroke at which the target applied. -/
  applied  : Stroke := 0
  deriving DecidableEq, Repr, Inhabited

/-- A bucket (R295 to R297). -/
structure Bucket where
  stream   : Nat
  base     : Nat
  log2len  : Nat
  decim    : Nat
  written  : Nat
  lastStroke : Stroke
  epochN   : Nat
  gaps     : Nat
  /-- Values gathered in the present window, and the strokes gathered. -/
  sum      : Rat
  count    : Nat
  /-- Strokes of the present window that gave no data. -/
  missing  : Nat
  deriving DecidableEq, Repr, Inhabited

/-- A section of a loaded package (R303). -/
structure Section where
  kind   : Nat
  cist   : Nat
  mask   : Nat
  base   : Nat
  size   : Nat
  deriving DecidableEq, Repr, Inhabited

/-- A loaded package (R302, R312). -/
structure Pkg where
  modelId  : Nat
  role     : Nat
  variant  : Nat
  listIds  : List Nat
  sections : List Section
  inputs   : List Nat
  minHist  : Nat
  rAbs     : Word
  rRel     : Word
  young    : Bool
  /-- R298, R300: fallbacks stand in for the package's lists. -/
  stand    : Bool
  /-- R300: strokes that the rebuilding of its state still takes. -/
  anchor   : Nat
  /-- R546: digest of the package. -/
  digest   : List Word
  deriving DecidableEq, Repr, Inhabited

/-- R285: a step that a marker edge announces: its stroke and tick, the output, and the edge's polarity. -/
structure Announced where
  stroke : Nat
  tick   : Nat
  out    : Nat
  rising : Bool
  deriving DecidableEq, Repr, Inhabited

/-- A priming ramp that a profile has begun (R293): its step, its first sample counted from stroke 0, and P_REF before it. -/
structure Ramp where
  stroke : Nat
  tick   : Nat
  out    : Nat
  start  : Nat
  base   : Rat
  deriving DecidableEq, Repr, Inhabited

/-- The pipeline's own state. -/
structure Pipe where
  /-- R316 configuration as written. -/
  cfg       : PipeCfg := {}
  /-- R316: the configuration in force since the queues started. -/
  live      : PipeCfg := {}
  /-- R287, R315: shelf target of a standalone module, or the applied rope target of a member. -/
  target    : TargetSt := {}
  /-- R292, R315: rope target of the module that heads a rope. -/
  ropeTarget : TargetSt := {}
  /-- R315: scheduled target. -/
  pend      : Option TargetPend := none
  /-- R493: the cap in force, in 1/16 W. -/
  cap       : Option Nat := none
  /-- R493: a cap scheduled, or its removal. -/
  capPend   : Option (Option Nat × Stroke) := none
  /-- R283: edges that enter the block of the present stroke. -/
  edges     : List Edge := []
  /-- R283: edges of the last 20 ns of the present stroke, which enter the next block. -/
  late      : List Edge := []
  /-- R295: every accepted edge of the present stroke, for the MARK buckets. -/
  marked    : List Edge := []
  /-- R285: steps that marker edges have announced to the forecaster. -/
  announced : List Announced := []
  /-- R293: priming ramps that have begun. -/
  ramps     : List Ramp := []
  /-- R282 MARK_OVF of the present stroke. -/
  markOvf   : Bool := false
  /-- R41: the MARK inputs. -/
  marks     : List MarkIn := List.replicate 24 {}
  /-- R295 buckets. -/
  buckets   : List Bucket := []
  /-- R302 loaded packages. -/
  pkgs      : List Pkg := []
  /-- R318: stroke of the last 0x0111 record. -/
  clipRec   : Option Stroke := none
  /-- R318: FC_UNBOUNDED in the last pipeline record. -/
  fcUnb     : Bool := false
  /-- R489: consecutive strokes with a clip, and without one. -/
  clipRun   : Nat := 0
  clearRun  : Nat := 0
  /-- R489 CAP_SHORTFALL. -/
  shortfall : Bool := false
  /-- R489: time to empty in the last 0x0907 record, and the stroke of the last update record. -/
  sfTime    : Nat := 0
  sfRec     : Option Stroke := none
  deriving DecidableEq, Repr, Inhabited

/-! ### Ropes (chapter 10) -/

/-- A link's state (R321). -/
inductive LinkSt where
  | down
  | training
  | up
  | heldDown
  deriving DecidableEq, Repr, Inhabited

/-- A rope port (R321, R349). -/
structure Port where
  /-- R349 LINK. -/
  link    : LinkSt := .down
  /-- R349 LANE_LOCK. -/
  lanes   : BitVec 4 := 0
  /-- R349 PRESENT. -/
  present : Bool := true
  /-- R349 CMIS_OK. -/
  cmisOk  : Bool := false
  /-- R349 CORR_CW. -/
  corr    : Nat := 0
  /-- R349 UNCORR_CW. -/
  uncorr  : Nat := 0
  /-- R349 CRC_ERR. -/
  crcErr  : Nat := 0
  /-- R349 LINK_DELAY_PS. -/
  delay   : Nat := 0
  /-- R349 FAILS. -/
  fails   : Nat := 0
  /-- R349 CABLE_TEMP. -/
  temp    : BitVec 16 := 0
  /-- R321: instants, in ticks since reset, at which the link failed within the last 10 s. -/
  failAt  : List Nat := []
  /-- R352: lines that failed on the port in the present stroke. -/
  crcNow  : Nat := 0
  /-- R323: the cable has been asked for its applications since START. -/
  asked   : Bool := false
  deriving DecidableEq, Repr, Inhabited

/-- ROPE configuration (R347). -/
structure RopeCfg where
  ropeId   : Word := 0
  members  : Nat := 2
  addr     : Nat := 0
  /-- R505 ADDR_SET: ROPE_CONFIG has set the address. -/
  addrSet  : Bool := false
  winBase  : Nat := 0
  winPages : Nat := 0
  remoteWr : Bool := false
  lossHold : Nat := 2000
  deriving DecidableEq, Repr, Inhabited

/-- A rope's state at the head (R334, R348 STATE_A). -/
inductive RopeSt where
  | noFrames
  | whole
  | wrapped
  | broken
  deriving DecidableEq, Repr, Inhabited

/-- How far ROPE START has come (R326). -/
inductive RopeStarting where
  | no
  /-- Step 8: rope A's bypass opens, rope B's waits for both rope A links. -/
  | openA
  /-- Step 9: both bypasses open, waiting for a stroke frame. -/
  | waitFrame
  deriving DecidableEq, Repr, Inhabited

/-- A launched frame (R334): its stroke, the ropes whose copies are still out, whether a copy has been landed. -/
structure Flight where
  stroke : Stroke
  outA   : Bool
  outB   : Bool
  landed : Bool
  deriving DecidableEq, Repr, Inhabited

/-- The rope function. -/
structure Rope where
  cfg       : RopeCfg := {}
  ports     : List Port := [{}, {}, {}, {}]
  /-- R45: bypass of rope A open. -/
  openA     : Bool := false
  /-- R45: bypass of rope B open. -/
  openB     : Bool := false
  /-- R45: the module has released its rope roles without a command. -/
  released  : Bool := false
  starting  : RopeStarting := .no
  stateA    : RopeSt := .noFrames
  stateB    : RopeSt := .noFrames
  /-- R348 WRAP_A, WRAP_B. -/
  wrapA     : Bool := false
  wrapB     : Bool := false
  /-- R342. -/
  island    : Bool := false
  /-- R329: header of the last frame received. -/
  header    : Line := []
  /-- R348 LIVE. -/
  live      : Nat := 0
  /-- R348 LAST_FRAME. -/
  lastFrame : Stroke := 0
  /-- R348 MISSED. -/
  missed    : Nat := 0
  /-- R352: frames missed since the last 0x0505 record, and its stroke. -/
  missedNow : Nat := 0
  missRec   : Option Stroke := none
  /-- R338: targets received and not yet applied, each with its APPLY stroke, by rising stroke. -/
  pend      : List (Int × Stroke) := []
  /-- R343: stroke of the last slot with T_VALID = 1. -/
  lastSlot  : Stroke := 0
  /-- R343: the hold has expired. -/
  lossExpired : Bool := false
  /-- R348 TARGET and APPLY_LO of the target in force. -/
  target    : Int := 0
  applyLo   : Word := 0
  /-- R328, R334: launched frames of which a copy has not returned, oldest first. -/
  flight    : List Flight := []
  /-- R334: stroke of the last landed frame. -/
  landed    : Option Stroke := none
  /-- R334: number of lines of the landed frame. -/
  landedLines : Nat := 0
  /-- R337: landed frames whose figures are not seen yet: the boundary from which they are, and their words. -/
  arriving  : List (Stroke × List Word) := []
  /-- R337: a frame of the module's own has been seen since it took headship. -/
  seen      : Bool := false
  /-- R292, R336: the target area holds an allocation, the module's own or a mirrored one. -/
  solved    : Bool := false
  /-- R330 N_ACTIVE of the landed frame. -/
  nActive   : Nat := 0
  /-- R330: Σ M of the landed frame: midpoint and radius words. -/
  sumM      : Int := 0
  /-- R292: what the last allocation leaves of the rope target, in 1/16 W. -/
  trackDev  : Rat := 0
  /-- R333: the frame strokes to which the member has contributed on each rope, newest first, at most 64. -/
  contribA  : List Stroke := []
  contribB  : List Stroke := []
  /-- R333: the member's figures and report slot at its last 64 boundaries, newest first, as `figures` writes them. -/
  figs      : List (Stroke × List Word) := []
  /-- R345: frames with a foreign ROPE_ID since START. -/
  foreign   : Nat := 0
  /-- Last frame lines that the module sent on rope A and on rope B. -/
  sentA     : List Line := []
  sentB     : List Line := []
  /-- R187, R188: the last remote request that the module has sent: whether it left on rope B, member, offset in its rope window, and the
  lines read or written. -/
  asked     : Option (Bool × BitVec 11 × BitVec 40 × RemoteOp) := none
  /-- R187 to R189: the last answer that the module has given as target: whether it left on rope B, the requester's member, and data,
  acknowledgement or failure. -/
  replied   : Option (Bool × BitVec 11 × RemoteReply) := none
  /-- R352: port and rope on which the last frame arrived. -/
  lastPort  : Nat := 0
  /-- R348: a frame has been received in the present stroke. -/
  frameNow  : Bool := false
  /-- R323: LPMODE held low and RESET_L released. -/
  cmisDriven : Bool := false
  /-- R323: 0 idle; CMIS write bytes sent, newest first (port, bank, page, offset, data). -/
  cmisOut   : List (Nat × Nat × Nat × Nat × Nat) := []
  deriving DecidableEq, Repr, Inhabited

/-! ### The storage converter (chapter 11) -/

/-- STAGE configuration (R387), words 2 to 32 as accepted. -/
structure StageCfg where
  phaseEn   : BitVec 12 := 0xFFF
  markEn    : BitVec 24 := 0
  finAct    : BitVec 16 := 0
  kVstack   : Word := 0
  kVbus     : Word := 0
  kIph      : Word := 0
  kIout     : Word := 0
  pwmMaxNs  : Nat := 20000
  pwmMinNs  : Nat := 2500
  dtHl      : Nat := 64
  dtLh      : Nat := 64
  dMinNs    : Nat := 100
  iPhCont   : Word := 0x42700000
  iPhMax    : Word := 0x42900000
  fastN     : Nat := 200
  i2tMs     : Nat := 100
  iFast     : Word := 0x42B40000
  iStkDis   : Word := 0x42C80000
  iStkChg   : Word := 0x42480000
  vstkMin   : Word := 0x43700000
  vstkMax   : Word := 0x43AF0000
  ovLevel   : Word := 0x42600000
  ovClear   : Word := 0x42540000
  uvLevel   : Word := 0x42200000
  uvEn      : Bool := false
  uvDelayUs : Nat := 10000
  vHold     : Word := 0x42400000
  vmEnter   : Word := 0x42380000
  xchkN     : Nat := 20
  modeExitMs : Nat := 100
  debounce  : Nat := 2
  refSlew   : Word := 0x3F800000
  vSlew     : Word := 0x41200000
  ssRetryMs : Nat := 100
  ssScCount : Nat := 8
  refHold   : Nat := 4
  ssRampUs  : Nat := 200
  etaDis    : Word := 0x3F7851EC
  etaChg    : Word := 0x3F7851EC
  deriving DecidableEq, Repr, Inhabited

/-- Loop coefficients (R388). -/
structure Coefs where
  kpI : Word := 0
  kiI : Word := 0
  kiS : Word := 0
  kpV : Word := 0
  kiV : Word := 0
  deriving DecidableEq, Repr, Inhabited

/-- LOOP of R392. -/
inductive LoopSt where
  | idle
  | softStart
  | retryWait
  | closed
  | opening
  | open_
  deriving DecidableEq, Repr, Inhabited

/-- A reference profile (R294). -/
structure Profile where
  start  : Stroke := 0
  sample : Nat := 0
  iRef   : List Word := []
  deriving DecidableEq, Repr, Inhabited

/-- Sums over the samples of the present stroke, from which the stroke means are formed (R282, R380, R392). -/
structure StageSums where
  n      : Nat := 0
  vstack : Rat := 0
  vbus   : Rat := 0
  iph    : List Rat := List.replicate 12 0
  iout   : List Rat := List.replicate 24 0
  load   : Rat := 0
  pin    : Rat := 0
  pstor  : Rat := 0
  iApp   : Rat := 0
  iStk   : Rat := 0
  iMref  : Rat := 0
  iMean  : Rat := 0
  duty   : Rat := 0
  vApp   : Rat := 0
  /-- R392: the largest A / A_LIM of each sample. -/
  aMax   : Rat := 0
  ovr    : Bool := false
  vmode  : Bool := false
  closed : Bool := false
  deriving DecidableEq, Repr, Inhabited

/-- STAGE and its loop engines. -/
structure Stage where
  cfg       : StageCfg := {}
  /-- R388: coefficients as written, and those in force. -/
  coefs     : Coefs := {}
  liveCoefs : Coefs := {}
  loop      : LoopSt := .idle
  /-- R391 MODE_SEL in force, and the one that acts from the next sample boundary. -/
  modeSel   : Nat := 0
  modeReq   : Option Nat := none
  /-- R365: voltage mode holds the bus. -/
  modeV     : Bool := false
  /-- R388: phases parked. -/
  parked    : Bool := true
  /-- R356 ORING_ON. -/
  oring     : Bool := false
  /-- R368: soft-start step 2 (false) or 3 (true). -/
  ssOring   : Bool := false
  /-- R368: samples of the present attempt. -/
  ssRun     : Nat := 0
  /-- R369: attempt number, 1–4, and consecutive short-circuit samples. -/
  attempt   : Nat := 0
  scCount   : Nat := 0
  /-- R372: consecutive samples with a trip of each enabled phase. -/
  fastRun   : Nat := 0
  /-- R372: phases that tripped in the present sample, and in the last one. -/
  trips     : BitVec 12 := 0
  tripsLast : BitVec 12 := 0
  /-- R372: pulses that the fast limit has cut in the present stroke. -/
  cuts      : List FastTrip := []
  /-- R392 FAST_TRIPS. -/
  fastTrips : Nat := 0
  /-- R373 I²t accumulators, FP32, and fold-back. -/
  i2t       : List Word := List.replicate 12 0
  foldback  : Bool := false
  /-- R360 engine state. -/
  iApp      : Word := 0
  z         : Word := 0
  x         : Word := 0
  y         : Word := 0
  vApp      : Word := 0
  iMref     : Word := 0
  iMean     : Word := 0
  iStkEst   : Word := 0
  duty      : Word := 0
  /-- R358: the duty that loads at the next boundary. -/
  dutyNext  : Word := 0
  eErr      : Word := 0
  ev        : Word := 0
  iRefEntry : Word := 0
  /-- Last loop conversions as volts and amperes (R357). -/
  vstack    : Word := 0
  vbus      : Word := 0
  iph       : List Word := List.replicate 12 0
  /-- R70: sample of the stroke that begins next. -/
  sample    : Nat := 0
  /-- R36, R48, R50: STAGE has started since the reset, so GDCLK_A and GDCLK_B follow the loop clock (entry 112). -/
  gdDriven  : Bool := false
  /-- R362: the shadow of the REF area's staging copy as it was last taken up, the current profile, flag 63 seen, and the address of
  the copy that was being staged then. -/
  shadow    : Profile := {}
  profile   : Profile := {}
  takeUp    : Bool := false
  refStage  : Nat := 0
  /-- R363. -/
  refStarved : Bool := false
  /-- R374. -/
  ovLatch   : Bool := false
  /-- R374: consecutive samples with VBUS below OV_CLEAR. -/
  belowOv   : Nat := 0
  /-- R392 UV_PENDING. -/
  uvPending : Bool := false
  /-- R365: consecutive low-bus samples. -/
  lowBus    : Nat := 0
  /-- R376: levels of FAULT_IN after the filter, true asserted. -/
  faultIn   : List Bool := [false, false, false, false]
  /-- R366: samples for which I_MREF has stayed at its zero clamp. -/
  zeroRun   : Nat := 0
  /-- R377: consecutive strokes in which a check failed. -/
  xchk      : Nat := 0
  sums      : StageSums := {}
  /-- The same of the last completed stroke. -/
  means     : StageSums := {}
  /-- R380 published limits, FP32 W. -/
  pDis      : Word := 0
  pChg      : Word := 0
  /-- R389: slew in A per µs of the LOOP_OPEN ramp. -/
  openSlew  : Word := 0
  /-- R383: STAGE enters STOPPED once the phases are parked. -/
  stopAfterOpen : Bool := false
  /-- R429. -/
  qCmd      : Int := 0
  qAbs      : Nat := 0
  deriving DecidableEq, Repr, Inhabited

/-- State of a trace capture (R394). -/
inductive TraceSt where
  | idle
  | armed
  | triggered
  | copied
  deriving DecidableEq, Repr, Inhabited

/-- Trace capture of one die (R385, R386, R393). -/
structure Trace where
  st       : TraceSt := .idle
  trig     : Nat := 0
  markSel  : Nat := 0
  rising   : Bool := false
  decim    : Nat := 1
  probeEng : Nat := 0
  probe    : Nat := 0
  pre      : Nat := 0
  thresh   : Word := 0
  /-- R393: the trigger's probe in the last two samples. -/
  probeNow : Word := 0
  probeWas : Word := 0
  /-- R386, R393: the newest edge of the trigger's pin and the number of STAGE's records, before the first that may trigger. -/
  markAt   : Option Nat := none
  stageAt  : Nat := 0
  /-- Points recorded, newest first: 64 FP32 values a point (8 engines × 8 probes), at most 16,384 points. -/
  points   : List (List Word) := []
  /-- R394: points recorded since arming, saturating at 16,384. -/
  count    : Nat := 0
  /-- Samples until the next point. -/
  skip     : Nat := 0
  /-- Points left to record after the trigger. -/
  left     : Nat := 0
  trigStroke : Stroke := 0
  trigTick : Nat := 0
  /-- R570: where recording stopped, once the last point stands. -/
  endStroke : Stroke := 0
  endTick  : Nat := 0
  /-- R386 SEQ. -/
  seq      : Word := 0
  /-- R570: the die has recorded a point since reset. -/
  ever     : Bool := false
  deriving DecidableEq, Repr, Inhabited

/-! ### The stack chain (chapter 12) -/

/-- CHAIN_CONFIG (R421), defaults of FUNC_ON. -/
structure ChainCfg where
  sweepPeriod : Nat := 200
  chainLoss   : Nat := 4
  balEst      : Bool := false
  nMon        : Nat := 0
  settleUs    : Nat := 50
  avgN        : Nat := 20
  quietUs     : Nat := 300
  vHi         : Int := 21000
  vLo         : Int := 12500
  tHi         : Int := 960
  tLo         : Int := -320
  cellUse     : List (BitVec 16) := List.replicate 32 0xFFFF
  deriving DecidableEq, Repr, Inhabited

/-- What the reading of a position gave (R401 READ_CELLS reply). -/
structure MonData where
  status : Byte
  cells  : List (BitVec 16)
  temps  : List (BitVec 16)
  dieT   : BitVec 16
  deriving DecidableEq, Repr, Inhabited

/-- Where a chain stands on its line (R403, R405). -/
inductive ChainPhase where
  | idle
  /-- Bring-up: ENUM from LO sent. -/
  | enumLo
  /-- Bring-up: CONFIG sent from LO. -/
  | configLo
  /-- Bring-up: READ_ID of a position, from an end, first or second attempt. -/
  | readId (pos : Nat) (e : ChainEnd) (second : Bool)
  /-- Sweep: SAMPLE sent, the settle wait runs. -/
  | settle
  /-- Sweep: READ_CELLS of a position, from an end, first or second attempt. -/
  | reading (pos : Nat) (e : ChainEnd) (second : Bool)
  /-- Sweep: BAL_SET sent from LO. -/
  | balLo
  /-- STOP: BAL_SET with every mask zero sent from LO. -/
  | stopBal
  deriving DecidableEq, Repr, Inhabited

/-- A frame that the module sends (R399): chain end and bytes 2 to the end of the payload. -/
structure ChainTx where
  e     : ChainEnd
  bytes : List Byte
  deriving DecidableEq, Repr, Inhabited

/-- A completed sweep, as its results show it (R414, R415): under the configuration in force when it completed. -/
structure Sweep where
  cfg      : ChainCfg
  id       : BitVec 8
  latchStroke : Stroke
  latchTick : Nat
  data     : List (Option MonData)
  /-- R409 GAP_AT that the sweep found, and the one in force before it. -/
  gap      : Option Nat
  gapWas   : Option Nat
  single   : Bool
  whole    : Bool
  balPhase : Bool
  /-- The module transmitted it (R397, R417). -/
  sent     : Bool
  deriving DecidableEq, Repr, Inhabited

/-- One stack chain. -/
structure Chain where
  cfg       : ChainCfg := {}
  phase     : ChainPhase := .idle
  /-- R403: bring-up has completed since the grant was gained. -/
  broughtUp : Bool := false
  /-- The positions that answered in bring-up, the count that ENUM brought to HI, and R423 N_FOUND of the last one that ended. -/
  found     : List Nat := []
  enumNext  : Nat := 0
  nFound    : Nat := 0
  serials   : List (Option (BitVec 64)) := List.replicate 32 none
  /-- R404: SWEEP_ID of the sweep last started. -/
  sweepId   : BitVec 8 := 0
  /-- Ticks since reset at the sweep's start, and stroke and tick of the latch (R405). -/
  startAt   : Nat := 0
  latchStroke : Stroke := 0
  latchTick : Nat := 0
  /-- Data of the sweep in progress by position. -/
  data      : List (Option MonData) := List.replicate 32 none
  /-- R409 GAP_AT in force, of the previous sweep; and of the sweep in progress. -/
  gapAt     : Option Nat := none
  gapNow    : Option Nat := none
  /-- The sweep in progress read a monitor from HI; the ring was found not whole. -/
  single    : Bool := false
  /-- R397: what a listener has heard of the sweep in progress: the position last asked from LO, whether one was asked from HI, and the
  tick at which BAL_SET ended at LO. -/
  askedLo   : Option Nat := none
  askedHi   : Bool := false
  balLoAt   : Option Nat := none
  /-- R409: the position at which the HI pass of the sweep in progress stops, the one before which its LO pass stops, and
  whether a HI pass has ended on a failure. -/
  hiStop    : Nat := 0
  loEnd     : Nat := 0
  hiDone    : Bool := false
  /-- R412: mask number sent at the end of the last sweep. -/
  balPhase  : Bool := false
  /-- BAL_SET of the sweep in progress arrived at HI (R413). -/
  whole     : Bool := false
  /-- The last sweep completed; whether its results are due at the next boundary; and the last one whose results were written. -/
  last      : Option Sweep := none
  complete  : Bool := false
  shown     : Option Sweep := none
  /-- R415: stroke of the completion boundary. -/
  lastDone  : Stroke := 0
  /-- R423 counters. -/
  sweeps    : Word := 0
  late      : Nat := 0
  failovers : Nat := 0
  crcErr    : Nat := 0
  timeouts  : Nat := 0
  lateRec   : Option Stroke := none
  sweepUs   : Nat := 0
  /-- R420: consecutive sweeps in which no monitor answered. -/
  lossRun   : Nat := 0
  /-- R411: request mask of CHAIN_BAL, HOLD_S and the ticks since reset at which it was set. -/
  bal       : BitVec 512 := 0
  holdS     : Nat := 0
  holdFrom  : Nat := 0
  /-- R413: the masks of the last BAL_SET from LO. -/
  balSent   : BitVec 512 := 0
  /-- R416: strokes of the last 0x0705 and 0x0706 records of each position. -/
  cellRec   : List (Option Stroke) := List.replicate 32 none
  tempRec   : List (Option Stroke) := List.replicate 32 none
  /-- R426: positions that were absent in the last sweep that the module transmitted. -/
  absentWas : Word := 0
  /-- Frames sent, newest first. -/
  tx        : List ChainTx := []
  deriving DecidableEq, Repr, Inhabited

/-! ### Cell state estimation (chapter 13) -/

/-- A string of EST_CONFIG (R427, R454). -/
structure StrCfg where
  chainB : Bool
  first  : Nat
  count  : Nat
  deriving DecidableEq, Repr, Inhabited

/-- EST_CONFIG (R454), defaults of FUNC_ON. -/
structure EstCfg where
  strings   : List StrCfg := []
  qNom      : Word := 0
  iRest     : Word := 0x3F000000
  curErr    : Word := 0x3CA3D70A
  shareErr  : Word := 0x3CF5C28F
  driftPh   : Word := 0x3B03126F
  floor_    : Nat := 3277
  ceil_     : Nat := 31130
  restS     : Nat := 30
  timeoutS  : Nat := 120
  taperS    : Nat := 60
  balDelta  : Nat := 328
  taperLo   : Word := 0x3F800000
  taperHi   : Word := 0x40A00000
  uStart    : Nat := 3277
  capReset  : Bool := false
  deriving DecidableEq, Repr, Inhabited

/-- The estimator's figures for one cell (chapter 13). -/
structure Cell where
  c      : Rat := 0
  r      : Rat := 0
  u      : Rat := 1
  q      : Rat := 0
  v1     : Rat := 0
  v2     : Rat := 0
  /-- The cell has been set from its first sweep since START. -/
  inited : Bool := false
  cycles : Nat := 0
  /-- Latest voltage in V, temperature and limit temperature in °C. -/
  volt   : Option Rat := none
  temp   : Option Rat := none
  limit  : Option Rat := none
  /-- Stroke of the latest voltage. -/
  voltAt : Stroke := 0
  deriving DecidableEq, Repr, Inhabited

/-- A learning cycle of a string (R443). -/
structure Cycle where
  startC  : List Rat
  startQ  : Int
  startAbs : Nat
  startAt : Stroke
  deriving DecidableEq, Repr, Inhabited

/-- State of one string: its reported SOC (R434), learning cycle, taper windows and cuts. -/
structure StrSt where
  soc      : Rat := 0
  /-- R434: the reported value has been set since START. -/
  socSet   : Bool := false
  cycle    : Option Cycle := none
  /-- Strokes for which the taper window of charge and of discharge has held. -/
  taperChg : Nat := 0
  taperDis : Nat := 0
  cutChg   : Bool := false
  cutDis   : Bool := false
  cutTemp  : Bool := false
  noSweep  : Bool := false
  deriving DecidableEq, Repr, Inhabited

/-- A record copy in NOR (R445). -/
structure NorRec where
  /-- Words of a lifetime record. -/
  words : List Word := []
  /-- Capacity and cycle count of each cell, and the serial of each of the 64 positions, of a capacity record. -/
  caps  : List (Rat × Nat) := []
  serials : List (Option (BitVec 64)) := []
  deriving DecidableEq, Repr, Inhabited

/-- An entry of a commit log (R445): the kind, SEQ, the slot, the copy's length in bytes, the copy's CRC-32 and the entry's own. -/
structure NorEntry where
  kind    : Nat
  seq     : Nat
  slot    : Nat
  bytes   : Nat
  copyCrc : Word
  ownCrc  : Word
  deriving DecidableEq, Repr, Inhabited

/-- The NOR of one kind of record (R445): two copy slots, of which one that is erased or not wholly programmed holds none, and a commit
log in two sectors, each with its oldest entry first. -/
structure NorKind where
  copies : List (Option NorRec) := [none, none]
  log    : List (List NorEntry) := [[], []]
  /-- The sector into which entries are programmed. -/
  sector : Nat := 0
  deriving DecidableEq, Repr, Inhabited

/-- Where a record write stands (R445). -/
inductive NorPhase where
  | erasing
  | waiting
  deriving DecidableEq, Repr, Inhabited

/-- A record write in progress: kind (0 capacity, 1 lifetime, 2 policy), phase, whether the first programming failed, and the policy record that
a POLICY_SET writes. -/
structure NorWrite where
  kind   : Nat
  phase  : NorPhase
  retry  : Bool
  policy : List Word := []
  deriving DecidableEq, Repr, Inhabited

/-- The estimator function. -/
structure Est where
  cfg       : EstCfg := {}
  /-- R455 model table, words 2–157; empty while none is written. -/
  model     : List Word := []
  /-- 1,024 cells: chain A's 512, then chain B's. -/
  cells     : List Cell := List.replicate 1024 {}
  strs      : List StrSt := List.replicate 8 {}
  /-- R442 ANCHOR_REQ and ANCHOR. -/
  anchorReq : Bool := false
  anchor    : Bool := false
  anchorAt  : Stroke := 0
  /-- R435: cells anchored in this hold. -/
  anchored  : List Nat := []
  /-- R434: stroke since which the stack has been at rest in every run; none while it is not. -/
  restFrom  : Option Stroke := none
  /-- R434: reported SOC of the stack. -/
  socStack  : Rat := 0
  socSet    : Bool := false
  unanchored : Bool := false
  uMax      : Rat := 0
  lastAnchor : Stroke := 0
  /-- R431: stroke, Q_CMD and QABS_CMD at the last run. -/
  lastRun   : Option Stroke := none
  lastQ     : Int := 0
  lastAbs   : Nat := 0
  /-- R439: no sweep since START. -/
  init_     : Bool := true
  /-- R433: sweeps of each chain seen by the last run. -/
  seenA     : Word := 0
  seenB     : Word := 0
  /-- R452: stroke of the last commit of the estimator area or of START. -/
  lastCommit : Stroke := 0
  lastDq    : Nat := 0
  rejects   : Nat := 0
  /-- R459: lifetime record words 3–288. -/
  life      : List Word := List.replicate 286 0
  /-- R447: seconds of EST RUNNING, and seconds at the last save. -/
  runS      : Nat := 0
  saveS     : Nat := 0
  /-- R445: the NOR of the capacity record and of the lifetime record. -/
  norCap    : NorKind := {}
  norLife   : NorKind := {}
  /-- R445, R448: the write in progress and what waits behind it. -/
  writing   : Option NorWrite := none
  duCap     : Bool := false
  duLife    : Bool := false
  deriving DecidableEq, Repr, Inhabited

/-! ### Thermal, power and ledger (chapter 14) -/

/-- Temperatures and the operating point. -/
structure Thermal where
  /-- R462: last three conversions of each sensor in 1/16 °C, newest first; none is broken. Entry 24. -/
  conv      : List (List (Option Int)) := List.replicate 5 [some 800, some 800, some 800]
  /-- R490 configuration, and the accepted one that waits for the next evaluation. -/
  tThrottle : Nat := 100
  boostEn   : Bool := false
  divideMode : Bool := false
  fMax      : Nat := 1
  next      : Option (Nat × Bool × Bool × Nat) := none
  /-- R469 PT. -/
  pt        : Nat := 1
  /-- R469: µs since PT last moved, µs for which every evaluation has found the dies cool (none: the last one has not). -/
  sinceMove : Nat := 100000
  coolFor   : Option Nat := none
  /-- R470: the same for boost's condition; boost in force. -/
  boostFor  : Option Nat := none
  boosting  : Bool := false
  /-- R467: the point at which the PLLs in use run, and SKIP in force. -/
  point     : Nat := 1
  skip      : Nat := 0
  /-- R52: the general tiles run from PLL_TA1 and PLL_TB1. -/
  pll1      : Bool := false
  /-- R269: effective frequency in Hz used for budgets, and one that applies from the next boundary. -/
  fTile     : Nat := 1600000000
  fNext     : Option Nat := none
  /-- R468: the plan (PLL point, SKIP) last asked for. -/
  goal      : Nat × Nat := (1, 0)
  /-- R472: a plan that only changes SKIP and applies at the next boundary. -/
  skipNext  : Option (Nat × Nat) := none
  /-- R473: a move in progress: its plan, whether it raises the frequency, the rails up, the PLL count run out, the ramp of
  R60 begun, the switch completed. -/
  moving    : Option (Nat × Nat) := none
  rising    : Bool := false
  railsUp   : Bool := true
  pllUp     : Bool := true
  ramping   : Bool := false
  switched  : Bool := false
  /-- R473: the plan that is deferred until the move has ended. -/
  deferred  : Option (Nat × Nat) := none
  /-- R491 THROTTLED_MS, in ticks of 10 ns. -/
  throttledTicks : Nat := 0
  /-- R464: alarms of sensors 2–4. -/
  alarms    : List Bool := [false, false, false, false, false]
  /-- R463: the last conversion of the sensor was broken. -/
  broken    : List Bool := [false, false, false, false, false]
  /-- R465: shutdown latched: sensor and temperature. -/
  shutdown  : Option (Nat × Int) := none
  /-- R574: the stroke and MOD_STATUS at the shutdown's latch. -/
  shutAt    : Stroke × Word := (0, 0)
  /-- R465: the 1 ms point of the shutdown has passed. -/
  sdReleased : Bool := false
  deriving DecidableEq, Repr, Inhabited

/-- How the module is powered (R32, R33, R48). -/
inductive Life where
  /-- No regulator runs; every pin is in its unpowered state. -/
  | unpowered
  /-- Feeds present, the Clerk held in reset. -/
  | inReset
  /-- Reset released, the mailboxes not yet open, or open. -/
  | up
  deriving DecidableEq, Repr, Inhabited

/-- Where a loss of both feeds stands (R32). -/
inductive FeedLoss where
  | none
  | lost
  | authDropped
  | released
  deriving DecidableEq, Repr, Inhabited

/-- Feeds, hold-up and the pins that the power stage of the module drives. -/
structure Power where
  life      : Life := .up
  feedA     : Bool := true
  feedB     : Bool := true
  /-- R31: the input switch is open for over-voltage. -/
  ovA       : Bool := false
  ovB       : Bool := false
  /-- R30: the hold-up store is fully charged. -/
  charged   : Bool := false
  loss      : FeedLoss := .none
  /-- R33: the 4 ms point has passed; the module waits for 100 ms of feed. -/
  needCold  : Bool := false
  /-- R531: the regulators left regulation since the last reset. -/
  regOff    : Bool := false
  /-- R466 latch in the feed stage. -/
  sdLatch   : Bool := false
  /-- R78, R134: the module waits for REFCLK; and the RESET_CAUSE of the reset that waits with it, 0 for CLOCK_LOSS (R79). -/
  refLost   : Bool := false
  waitCause : Nat := 0
  deriving DecidableEq, Repr, Inhabited

/-- The integers of one job and one output (R481). -/
structure LCell where
  job     : Word
  out     : Nat
  lineN   : List Int := [0, 0, 0, 0]
  lineS   : List Int := [0, 0, 0, 0]
  hasS    : Bool := false
  strokes : Nat := 0
  ovr     : Nat := 0
  damaged : Bool := false
  deriving DecidableEq, Repr, Inhabited

/-- Sums of one stroke and one output (R225): S_VI, S_V, S_I, S_W and the over-range mark. -/
structure OutSum where
  vi   : Int := 0
  v    : Int := 0
  i    : Int := 0
  w    : Int := 0
  ovr  : Bool := false
  deriving DecidableEq, Repr, Inhabited

/-- One entry of the compute energy table (R478). -/
structure JobEnergy where
  job     : Word
  uj      : Nat
  runs    : Nat
  aborted : Nat
  cycles  : Nat
  deriving DecidableEq, Repr, Inhabited

/-- The LEDGER function. -/
structure Ledger where
  cells    : List LCell := []
  /-- R479: the job tagged on each output. -/
  tags     : List Word := List.replicate 24 0
  /-- R480: pending tag of each output. -/
  pend     : List (Option (Word × Stroke)) := List.replicate 24 none
  /-- R481: host jobs that are open. -/
  jobs     : List Word := []
  /-- R483: SSC_S recorded for a job. -/
  sscS     : List (Word × Nat) := []
  lost     : Nat := 0
  lastAdded : Stroke := 0
  /-- R225: sums of the present stroke. -/
  sums     : List OutSum := List.replicate 24 {}
  /-- R224: tick of the next conversion of the present stroke. -/
  convTick : Nat := 0
  /-- R516: sums of the last 64 strokes, newest first, on a standby. -/
  history  : List (Stroke × List OutSum × Bool) := []
  /-- R499: stroke of the last 0x0910 record of each output. -/
  ovrRec   : List (Option Stroke) := List.replicate 24 none
  /-- R482: a START, STOP or table change takes effect at the next boundary: the new state. -/
  live     : FState := .off
  /-- R478 compute energy table, and OVERFLOW. -/
  energy   : List JobEnergy := []
  overflow : Nat := 0
  ovfArmed : Bool := true
  deriving DecidableEq, Repr, Inhabited

/-! ### Pairing (chapter 15) -/

/-- PSTATE (R500). -/
inductive PState where
  | standby
  | claiming
  | active
  | releasing
  deriving DecidableEq, Repr, Inhabited

/-- PAIR_CONFIG (R527), defaults of FUNC_ON. -/
structure PairCfg where
  tRelease  : Nat := 20
  hbMiss    : Nat := 3
  hbPeriod  : Nat := 1
  autoStart : Bool := true
  holdStrokes : Nat := 20000
  ramp      : Nat := 2000
  deriving DecidableEq, Repr, Inhabited

/-- Where a handover stands (R513). -/
inductive Handover where
  | no
  /-- Step 1: the loop opens; true for PAIR_HANDOVER, false for PAIR STOP; whether authority is handed over; stroke of the command. -/
  | opening (cmd : Bool) (hands : Bool) (cmdAt : Stroke)
  /-- Step 3: released at the given stroke; stroke of the command. -/
  | released (cmd : Bool) (since : Stroke) (cmdAt : Stroke)
  deriving DecidableEq, Repr, Inhabited

/-- The PAIR function. -/
structure Pair where
  cfg       : PairCfg := {}
  pstate    : PState := .standby
  /-- R89 ACTIVE: shelf role. -/
  active    : Bool := false
  /-- AUTH_GNT after the filter, and AUTH_REQ. -/
  gnt       : Bool := false
  req       : Bool := false
  /-- R48: PAIR has started since the reset, so a change of AUTH_GNT counts. -/
  begun     : Bool := false
  /-- SLOT_ID strap: true slot 1. Entry 25. -/
  slot1     : Bool := false
  /-- R503: latched vetoes, bit c for VETO_CAUSE c; and the first cause. -/
  vetoes    : BitVec 16 := 0
  firstVeto : Nat := 0
  /-- R504: strokes without a token in a row; the token of the present stroke. -/
  noToken   : Nat := 0
  token     : Bool := false
  /-- R509: strokes left of the initial listen. -/
  listen    : Nat := 0
  /-- R506: strokes since the last valid beat on each path; none before the first. -/
  sinceHb   : Option Nat := none
  sinceRope : Option Nat := none
  silentHb  : Bool := true
  silentRope : Bool := true
  /-- Newest valid partner beat, the strokes since it, and on which path it came. -/
  beat      : Option Line := none
  beatAge   : Nat := 0
  beatOnHb  : Bool := true
  /-- R326: newest valid beat on the HB link and its age. -/
  hbBeat    : Option Line := none
  /-- R508 row 3: consecutive beats that show GNT while this module holds the grant. -/
  gntBeats  : Nat := 0
  /-- R506: the alarms that changes of the paths have set. -/
  alarmHb   : Bool := false
  alarmRope : Bool := false
  seq       : BitVec 8 := 0
  bad       : Nat := 0
  cfgMismatch : Bool := false
  /-- R508 row 5: the rise of an unused grant has been recorded. -/
  unusedRec : Bool := false
  /-- R508 row 13: strokes for which the claim has stood, row of the claim, record written. -/
  claimAge  : Nat := 0
  claimRow  : Nat := 0
  claimRec  : Bool := false
  takeovers : Nat := 0
  handovers : Nat := 0
  change    : Stroke := 0
  handover  : Handover := .no
  /-- R515. -/
  sync      : Bool := false
  pkgMismatch : Bool := false
  /-- R515: the packages that hold state areas on the active module, as the last snapshot named them. -/
  pkgNeeds  : List PkgNeed := []
  snapshot  : Bool := false
  mirrored  : Option Stroke := none
  /-- R514: newest mirrored stroke sent. -/
  mirrorSent : Stroke := 0
  /-- R514: mirror lines received and not yet applied, oldest first; the items last sent; I_NOW of the mirrored
  estimator; the partner's host-loss count, none without host loss. -/
  mirrorIn  : List (Stroke × List MirrorItem) := []
  mirrorOut : List MirrorItem := []
  mirrorI   : Word := 0
  mirrorHold : Option Nat := none
  /-- R514: newest content of each mirrored state area, and the stroke of the newest mirrored estimator state. -/
  mirrorAreas : List MirrorItem := []
  mirrorEstAt : Option Stroke := none
  /-- R514: jobs closed since the last mirror was sent. -/
  mirrorCloses : List Word := []
  /-- Beats sent: the last one, and how many. -/
  lastBeat  : Line := []
  /-- R505: bytes of the beat that left on HB_TX at the last boundary, and the rope line with the member address that it went to; none where
  the path was closed or no beat was due. -/
  hbOut     : List Byte := []
  ropeBeat  : Option (Nat × Line) := none
  beatsSent : Nat := 0
  deriving DecidableEq, Repr, Inhabited

/-! ### Boot and security (chapter 16) -/

/-- One image slot (R533, R541): slot state byte and the image's words from its manifest on; words behind them are erased. -/
structure Slot where
  /-- R541 slot state. -/
  stateByte : Byte := 0xFF
  image     : List Word := []
  deriving DecidableEq, Repr, Inhabited

/-- The values that rules take from the trim record (R585): gains and offsets of VSNS_STACK, VSNS_BUS, ISNS_PH0–11 and IOUT0–23
in this order, ε_V and ε_I(0–23), the voltages of IVR0 and IVR1 at P0–P7 in mV, of the rails on IVR2 and IVR3, and the energy and leakage
coefficients, taken as FP32 words (entry 177). -/
structure TrimRec where
  serial   : BitVec 64
  gains    : List Rat
  offsets  : List Int
  eps      : List Word
  ivr0     : List Nat
  ivr1     : List Nat
  rails    : List Nat
  energy   : List Word
  leak     : List Word
  deriving DecidableEq, Repr, Inhabited

/-- A die's copy of the trim record (R533): its bytes, of which the last 192 are the signer block, and the values that they hold in a layout that
the manual does not give (entry 177). -/
structure TrimCopy where
  bytes  : List Byte
  values : TrimRec
  deriving DecidableEq, Repr, Inhabited

/-- The trim record as production leaves it: serial 1, gains 1, offsets and ε zero, 800 mV on every rail. Entry 26. -/
def TrimCopy.factory : TrimCopy :=
  { bytes := factoryTrim
    values :=
      { serial := 1, gains := List.replicate 38 1, offsets := List.replicate 38 0, eps := List.replicate 25 0, ivr0 := List.replicate 8 800,
        ivr1 := List.replicate 8 800, rails := List.replicate 6 800, energy := [], leak := [] } }

/-- Boot, firmware and attestation. -/
structure Boot where
  /-- R89 IMAGE: true image B. -/
  imageB    : Bool := false
  slotA     : Slot
  slotB     : Slot
  /-- R532 BOOT_SKIP latches. -/
  skipA     : Bool := false
  skipB     : Bool := false
  /-- R542 rollback counter as each die holds it. -/
  counter0  : Nat := 0
  counter1  : Nat := 0
  /-- R532: the boot watchdog runs. -/
  watchdog  : Bool := false
  /-- R540 recovery. -/
  recovery  : Bool := false
  /-- R532, R535: an Assayer reset has been asked for. -/
  resetReq  : Bool := false
  /-- R535: SHA-512 of the root key, as the boot ROM holds it. -/
  romHash   : List Word := factoryRootHash
  /-- R533: the trim record on die 0 and on die 1, the certificates and the PUF helper data on each, with their signer blocks. -/
  trim0     : TrimCopy := TrimCopy.factory
  trim1     : TrimCopy := TrimCopy.factory
  cert0     : List Byte := factoryCerts
  cert1     : List Byte := factoryCerts
  helper0   : List Byte := factoryHelper
  helper1   : List Byte := factoryHelper
  /-- R533, R549: the policy slots of the two dies and their commit entries. -/
  policies  : NorKind := {}
  /-- R538, R543, R547: manifest of the running image, and whether it is confirmed. -/
  running   : List Word := []
  runConf   : Bool := false
  /-- R534 lock of the NOR controller. -/
  norLock   : Bool := false
  /-- R551 WRITING, COPYING, DONE_BYTES, TOTAL_BYTES, and the image being written. -/
  writing   : Option (List Word) := none
  copying   : Bool := false
  /-- R32: the write or the copy waits for a feed before its first NOR write. -/
  norHeld   : Bool := false
  doneBytes : Nat := 0
  totalBytes : Nat := 0
  /-- R545. -/
  identityBad : Bool := false
  /-- R556 stored certificates, as Posin read them at boot. -/
  certs     : List Byte := []
  /-- R548: record in force as 128 words, its slot, and the largest SEQ held. -/
  policy    : Option (List Word) := none
  policySlot : Nat := 0
  policySeq : Nat := 0
  /-- R546: stored entries (24 words each), LOG_COUNT and the chain value. -/
  mlog      : List (List Word) := []
  mlogCount : Nat := 0
  mlogHash  : List Word := List.replicate 16 0
  /-- R546: TYPE 0x0003: die from which the trim record was taken. -/
  trimDie   : Nat := 0
  /-- R227, R585: offsets O_V and O_I(0–23) in 1/256 code, and O of the other inputs (VSNS_STACK, ISNS_PH0–11). -/
  oV        : Int := 0
  oI        : List Int := List.replicate 24 0
  oVstack   : Int := 0
  oPh       : List Int := List.replicate 12 0
  /-- R585: gains as exact numbers. -/
  gV        : Rat := 1
  gI        : List Rat := List.replicate 24 1
  gVstack   : Rat := 1
  gPh       : List Rat := List.replicate 12 1
  /-- R471, R585: voltages of IVR0 and IVR1 at P0 to P7 in mV, from the trim record. -/
  ivr0      : List Nat := []
  ivr1      : List Nat := []
  /-- R471, R585: voltages in mV of the fixed-tile, Clerk and converter-control rails on IVR2 and of the SRAM, network and well-interface rails
  on IVR3. -/
  rails     : List Nat := []
  /-- R477, R585: the energy and the leakage coefficients, as FP32 words. -/
  energy    : List Word := []
  leak      : List Word := []
  /-- R585: ε_V and ε_I in codes. -/
  epsV      : Rat := 0
  epsI      : List Rat := List.replicate 24 0
  deriving DecidableEq, Repr, Inhabited

/-! ### Diagnostics (chapter 17) -/

/-- Where a panic stands (R561). -/
structure PanicSt where
  cause  : BitVec 16
  dumped : Bool
  deriving DecidableEq, Repr, Inhabited

/-- Counters, NOR summaries and the panic in progress. -/
structure Diag where
  /-- R576: counters of groups 0x01 to 0x07. -/
  host     : List Nat := List.replicate 8 0
  memory   : List Nat := List.replicate 13 0
  markers  : List Nat := List.replicate 24 0
  overRange : List Nat := List.replicate 38 0
  compute  : List Nat := List.replicate 9 0
  perf     : List Nat := List.replicate 11 0
  clerk    : List Nat := List.replicate 7 0
  /-- R574: the NOR summaries that are programmed and not erased, newest first, 128 words each, and how many were ever programmed. -/
  summaries : List (List Word) := []
  sumCount : Nat := 0
  /-- R574: how many of the newest summaries no boot has reported yet. -/
  fresh    : Nat := 0
  /-- R574: types of summaries skipped since the last boot. -/
  skipped  : List Nat := []
  panic    : Option PanicSt := none
  deriving DecidableEq, Repr, Inhabited

/-! ### The whole state -/

/-- An image slot as production leaves it: a written, confirmed image. Entry 26. -/
def Slot.factory : Slot := { stateByte := 0xE7, image := factoryImage }

/-- The state of the module. -/
structure State where
  clk     : Clocks := {}
  clerk   : Clerk := {}
  mbs     : List Mailbox := [{}, {}, {}, {}]
  evt     : Events := {}
  msix    : Msix := {}
  /-- R111: the 27 functions: IDs 0x01–0x07, then 0x10–0x23. -/
  funcs   : List FuncRec := List.replicate 27 {}
  /-- R118 to R121: claimed resources and their owners, by rising resource ID. -/
  claims  : List (Nat × Nat) := []
  link    : Link := {}
  pumps   : List Pump := List.replicate 8 {}
  mem     : Mem := {}
  tiles   : List Tile := List.replicate 48 {}
  lists   : Lists := {}
  pipe    : Pipe := {}
  rope    : Rope := {}
  stage   : Stage := {}
  traces  : List Trace := [{}, {}]
  chainA  : Chain := {}
  chainB  : Chain := {}
  est     : Est := {}
  therm   : Thermal := {}
  power   : Power := {}
  ledger  : Ledger := {}
  pair    : Pair := {}
  boot    : Boot := { slotA := Slot.factory, slotB := Slot.factory }
  diag    : Diag := {}
  /-- The model's own counter of free values (entry 3). -/
  free    : Nat := 0
  /-- The commands that wait, first in, first out (entry 4). -/
  pending : List Instr := []
  deriving DecidableEq, Repr, Inhabited

/-- The module right after a cold reset has been released: feeds present, REFCLK qualified, nothing booted yet (R48, R102,
R531). -/
def State.reset : State := {}

end Sys2Proof.Machine
end

