-- ==== Sys2Proof/Machine/Ops.lean ====
section
/-! DEFINITION. The operations that every part of the model shares: device memory, event records, MSI-X messages, function
states, claims, and the frame of a mailbox command (chapter 4, R193, R503). -/

namespace Sys2Proof

/-- Payload word `i`, numbered as R94 numbers it. -/
def Req.w (r : Req) (i : Nat) : Word := r.payload.getD (i - 2) 0

end Sys2Proof

namespace Sys2Proof.Machine

/-- What a step that always completes answers. -/
abbrev Out := Host.Outcome State Fault Refusal

/-! ### Free values and the stroke -/

/-- A fresh free value for each use: the counter of entry 3 advances. -/
def takeFree (s : State) : State × Nat := ({ s with free := s.free + 1 }, s.free)

/-- The present stroke count as a number. -/
def now (s : State) : Nat := s.clk.stroke.toNat

/-- Ticks of 10 ns on the stroke timebase since the release of reset, which no change of the stroke count shifts. -/
def ticksNow (s : State) : Nat := s.clk.base + s.clk.tick

/-- A stroke in the past by the count that replaces `old` with `n` (R71). -/
def strokeRebase (old n : Nat) (k : Stroke) : Stroke := BitVec.ofNat 64 (k.toNat + n - old)

/-- The present stroke count's low word. -/
def strokeLo (s : State) : Word := lo32 (now s)
def strokeHi (s : State) : Word := hi32 (now s)

/-- Strokes that a time in microseconds lasts, rounded up, at the divider in force (R8). -/
def strokesOfUs (s : State) (us : Nat) : Nat := (us * 100 + s.clk.strokeDiv - 1) / s.clk.strokeDiv

/-- A step in which no command waits (entry 4): one tick of 10 ns passes (R70), once PLL_REF has locked (R59, R71) and while ref has
a source (R78); the last tick of a stroke, STROKE_DIV − 1 at most, lasts until STROKE_BOUNDARY. -/
def idleTick (s : State) : State :=
  if s.power.life = .up ∧ (s.clk.plls.getD 0 {}).locked ∧ s.clk.refSrc.isSome then
    { s with clk := { s.clk with tick := min (s.clk.tick + 1) (min s.clk.strokeLen s.clk.strokeDiv - 1) } }
  else s

/-! ### Device memory (R181) -/

/-- R190: the bytes of an ECC word: 128 bits in the well, 64 bits in SRAM. -/
def eccBytes (a : Nat) : Nat := if a < 0x2000000000 then 16 else 8

/-- The ECC word in which an address lies. -/
def eccWord (a : Nat) : Nat := a / eccBytes a * eccBytes a

/-- Writes bytes at a device address; an ECC word that is wholly overwritten is no longer damaged (R192). -/
def memWrite (a : Nat) (bs : List Byte) (s : State) : State :=
  { s with mem := { s.mem with
      cells := cellsWrite s.mem.cells a bs,
      damaged := s.mem.damaged.filter fun k => !(decide (a ≤ k) && decide (k + eccBytes k ≤ a + bs.length)) } }

/-- A word is found uncorrectable: it stays so until a write covers it (R192). -/
def memDamage (addr : Nat) (s : State) : State :=
  { s with mem := { s.mem with damaged := insertNat (eccWord addr) s.mem.damaged } }

/-- Writes words at a device address, low byte first (R4). -/
def memWriteWords (a : Nat) (ws : List Word) (s : State) : State := memWrite a (bytesOf ws) s

/-- Reads bytes from a device address. -/
def memRead (s : State) (a n : Nat) : List Byte := cellsRead s.mem.cells a n

/-- Reads one word. -/
def memWord (s : State) (a : Nat) : Word := w32 (leNat (memRead s a 4))

/-- Reads `n` words. -/
def memWords (s : State) (a n : Nat) : List Word := (List.range n).map fun i => memWord s (a + 4 * i)

/-- The first uncorrectable ECC word that a range of bytes meets, as its address (R192). -/
def damagedWord (s : State) (a n : Nat) : Option Nat :=
  s.mem.damaged.find? fun k => decide (k < a + n) && decide (a < k + eccBytes k)

/-! ### Writes within a stroke (R185, R261, R262) -/

/-- A write that every reader sees at once: of the host, which R185 does not hold back, and of a pump descriptor at its write-back
(R151). It also joins the writes of the stroke, so that an older one does not land over it. -/
def openWrite (a : Nat) (bs : List Byte) (s : State) : State :=
  let s := memWrite a bs s
  if s.mem.writes.isEmpty || bs.isEmpty then s
  else { s with mem := { s.mem with writes := s.mem.writes ++ [{ addr := a, bytes := bs, seen := [.every] }] } }

/-- A write that waits for the stroke boundary; those named see it already. A write of no bytes is none. -/
def pendWrite (seen : List Seer) (a : Nat) (bs : List Byte) (s : State) : State :=
  let w := s.mem.writes
  { s with mem := { s.mem with writes := if bs.isEmpty then w else w ++ [{ addr := a, bytes := bs, seen := seen }] } }

/-- The same for words. -/
def pendWords (seen : List Seer) (a : Nat) (ws : List Word) : State → State := pendWrite seen a (bytesOf ws)

/-- One write takes its place in memory. -/
def writeLand (w : PendWrite) (s : State) : State :=
  if w.bytes.isEmpty then memDamage w.addr s else memWrite w.addr w.bytes s

/-- Memory as a reader sees it within the stroke: what stood at the boundary, and the writes that it sees (R185). -/
def seeAs (r : Seer) (s : State) : State :=
  (s.mem.writes.filter fun w => w.bytes.isEmpty || w.seen.contains .every || w.seen.contains r).foldl (fun t w => writeLand w t) s

/-- What `f` does where it reads memory as `r` sees it; its own writes wait as all do. -/
def inView (r : Seer) (f : State → State) (s : State) : State :=
  let u := f (seeAs r s)
  { u with mem := { u.mem with cells := s.mem.cells, damaged := s.mem.damaged } }

/-- What `a` sees is seen by `b` from now on. -/
def seenJoin (a b : Seer) (s : State) : State :=
  let go (w : PendWrite) : PendWrite := if w.seen.contains a && !w.seen.contains b then { w with seen := b :: w.seen } else w
  { s with mem := { s.mem with writes := s.mem.writes.map go } }

/-- The writes after the first `n` are seen by `b`. -/
def seenFrom (n : Nat) (b : Seer) (s : State) : State :=
  { s with mem := { s.mem with
      writes := s.mem.writes.take n ++ (s.mem.writes.drop n).map fun w => { w with seen := b :: w.seen } } }

/-- R185: every write completed before the boundary is seen by every reader. -/
def writesLand (s : State) : State :=
  let t := s.mem.writes.foldl (fun t w => writeLand w t) s
  { t with mem := { t.mem with writes := [] } }

/-- Writes bytes into host memory by bus mastering (R105, R147, R151). -/
def hostWrite (a : Nat) (bs : List Byte) (s : State) : State :=
  { s with mem := { s.mem with host := cellsWrite s.mem.host a bs } }

/-! ### MSI-X (R110) -/

/-- Vector `v` is masked, by its own entry or by the function mask. -/
def vecMasked (s : State) (v : Nat) : Bool := s.msix.funMask || bit (s.msix.table.getD (4 * v + 3) 0) 0

/-- The message of a vector is sent. -/
def vecSend (v : Nat) (s : State) : State :=
  { s with msix := { s.msix with sent := s.msix.sent.modify v (· + 1) } }

/-- A message of vector `v` falls due: lost while MSI-X Enable is 0, pending while masked, else sent. R110 does not say what becomes of one
that falls due in D3hot or with Bus Master Enable 0: the model sends it as in D0 (entry 52, DESIGN CHOICE). -/
def msixDue (v : Nat) (s : State) : State :=
  if !s.msix.enable then s
  else if vecMasked s v then { s with msix := { s.msix with pba := setBit s.msix.pba v true } }
  else vecSend v s

/-- A pending message of a vector that is no longer masked is sent once. -/
def msixFlush (v : Nat) (s : State) : State :=
  if s.msix.enable && !vecMasked s v && s.msix.pba.getLsbD v then
    vecSend v { s with msix := { s.msix with pba := setBit s.msix.pba v false } }
  else s

/-- The same for every vector. -/
def msixFlushAll (s : State) : State := (List.range 32).foldl (fun t v => msixFlush v t) s

/-! ### Event records (R105 to R109) -/

/-- R107 ENABLED: a ring is set and bus mastering is enabled (R161: neither in D3hot nor while the link is down). -/
def evtEnabled (s : State) : Bool := decide (s.evt.log2 ≠ 0) && s.link.bme && s.link.up && !s.link.d3hot

/-- R105: there is room for a record; a CONS that is out of range leaves none (R106). R561: after a panic the ring stops taking
records. -/
def evtRoom (s : State) : Bool :=
  evtEnabled s && decide ((s.evt.prod - s.evt.cons).toNat < 2 ^ s.evt.log2) && s.diag.panic.isNone

/-- The words of a record: severity, source, code, sequence number, stroke, tick and DATA words 5–15. -/
def evtLine (s : State) (sev src code : Nat) (data : List Word) : Line :=
  [packW [(sev, 28), (src, 16), (code, 0)], s.evt.seq, strokeLo s, strokeHi s, w32 (s.clk.tick % 2 ^ 20)] ++ fit 11 0 data

/-- Writes a record into the host ring and advances EVT_PROD. -/
def evtWrite (r : Line) (s : State) : State :=
  let slot := s.evt.prod.toNat % 2 ^ s.evt.log2
  let s := hostWrite (s.evt.base + 64 * slot) (bytesOf r) s
  { s with evt := { s.evt with prod := s.evt.prod + 1, wroteRing := true } }

/-- R108: a record is dropped. -/
def evtDrop (s : State) : State :=
  { s with
    evt := { s.evt with dropped := satAdd 65535 s.evt.dropped 1, overflow := true }
    diag := { s.diag with host := bump s.diag.host 7 1 } }

/-- A record is created: it takes the next SEQ and joins the event tail. -/
def evtCreate (r : Line) (s : State) : State :=
  { s with evt := { s.evt with
      seq := s.evt.seq + 1, tail := lastN 1024 (s.evt.tail ++ [r]), made := s.evt.made + 1
      stageMade := s.evt.stageMade + if fld (r.getD 0 0) 16 8 = 1 then 1 else 0 } }

/-- R108: a created record goes to the ring, to the internal queue, or is dropped. -/
def evtPlace (r : Line) (s : State) : State :=
  if evtEnabled s then (if evtRoom s then evtWrite r s else evtDrop s)
  else if s.evt.queue.length < 256 then { s with evt := { s.evt with queue := s.evt.queue ++ [r] } }
  else evtDrop s

/-- The module writes an event record; after a panic the record only takes its SEQ and joins the event tail (R561). -/
def emit (sev src code : Nat) (data : List Word) (s : State) : State :=
  let r := evtLine s sev src code data
  let s := evtCreate r s
  if s.diag.panic.isSome then s else evtPlace r s

/-- R108: queued records go to the ring while there is room. -/
def evtDrainQueue : List Line → State → State
  | [], s => { s with evt := { s.evt with queue := [] } }
  | r :: t, s =>
    if evtRoom s then evtDrainQueue t (evtWrite r s) else { s with evt := { s.evt with queue := r :: t } }

/-- R108: when a ring is set or space returns: the queued records, then an overflow record. -/
def evtDrain (s : State) : State :=
  let s := evtDrainQueue s.evt.queue s
  if s.evt.queue.isEmpty && decide (s.evt.dropped ≠ 0) && evtRoom s then
    let r := evtLine s 1 0 1 [w32 s.evt.dropped]
    evtWrite r (evtCreate r { s with evt := { s.evt with dropped := 0 } })
  else s

/-! ### Functions (R111 to R117) -/

/-- Index of a function ID in the list of functions. -/
def fnIdx (f : Nat) : Option Nat :=
  if 1 ≤ f ∧ f ≤ 7 then some (f - 1) else if 0x10 ≤ f ∧ f ≤ 0x23 then some (f - 0x10 + 7) else none

/-- The record of a function. -/
def fnRec (s : State) (f : Nat) : FuncRec := s.funcs.getD ((fnIdx f).getD 27) {}

/-- The state of a function. -/
def fnState (s : State) (f : Nat) : FState := (fnRec s f).state

def fnRunning (s : State) (f : Nat) : Bool := decide (fnState s f = .running)
def fnFaulted (s : State) (f : Nat) : Bool := decide (fnState s f = .faulted)

/-- STATE as registers and records carry it (R124). -/
def FState.num : FState → Nat
  | .off => 0
  | .stopped => 1
  | .running => 2
  | .faulted => 3

/-- The function IDs of R111. -/
def fnIds : List Nat := [1, 2, 3, 4, 5, 6, 7] ++ (List.range 20).map (0x10 + ·)

/-- R89 ANY_FAULTED. -/
def anyFaulted (s : State) : Bool := s.funcs.any fun f => decide (f.state = .faulted)

/-- A function changes its state: the stroke of the change, the record of code 0x0002 (R117), and on entry into FAULTED the
cause, the count and vector 5. Entering the state it is in changes nothing. -/
def fnSet (f : Nat) (new : FState) (cause : Nat) (s : State) : State :=
  match fnIdx f with
  | none => s
  | some i =>
    let r := s.funcs.getD i {}
    if r.state = new then s
    else
      let flt := decide (new = .faulted)
      let r' : FuncRec :=
        { state := new, change := s.clk.stroke,
          faultCount := if flt then satAdd 65535 r.faultCount 1 else r.faultCount,
          faultCause := if flt then BitVec.ofNat 16 cause else r.faultCause }
      let s := { s with funcs := s.funcs.set i r' }
      let s := emit (if flt then 3 else 0) f 2 [packW [(f, 8), (r.state.num, 2), (new.num, 0)]] s
      if flt then msixDue 5 s else s

/-- A function goes FAULTED with a cause. -/
def fnFault (f cause : Nat) (s : State) : State := fnSet f .faulted cause s

/-! ### Claims (R118 to R121) -/

/-- The owner of a resource, if any. -/
def claimOwner (s : State) (res : Nat) : Option Nat := (s.claims.find? fun c => c.1 = res).map (·.2)

/-- Puts a claim into the list, by rising resource ID, one entry for each resource. -/
def claimInsert (res owner : Nat) : List (Nat × Nat) → List (Nat × Nat)
  | [] => [(res, owner)]
  | c :: t => if res < c.1 then (res, owner) :: c :: t else if res = c.1 then (res, owner) :: t else c :: claimInsert res owner t

/-- The first resource of a rising list that another owner holds: that owner and the resource. -/
def claimConflict (s : State) (owner : Nat) : List Nat → Option (Nat × Nat)
  | [] => none
  | r :: t =>
    match claimOwner s r with
    | some o => if o = owner then claimConflict s owner t else some (o, r)
    | none => claimConflict s owner t

/-- Takes claims on every resource of a list. -/
def claimAll (owner : Nat) (rs : List Nat) (s : State) : State :=
  { s with claims := rs.foldl (fun l r => claimInsert r owner l) s.claims }

/-- Releases every claim of an owner. -/
def claimRelease (owner : Nat) (s : State) : State := { s with claims := s.claims.filter fun c => c.2 ≠ owner }

/-- How many resources an owner holds. -/
def claimCount (s : State) (owner : Nat) : Nat := (s.claims.filter fun c => c.2 = owner).length

/-! ### The Assayer's veto and host loss (R503, R520) -/

/-- The module drops AUTH_REQ, with vector 5 when it was high (R110). -/
def dropReq (s : State) : State :=
  if s.pair.req then msixDue 5 { s with pair := { s.pair with req := false } } else s

/-- R503: a veto latches: AUTH_REQ drops, PSTATE becomes STANDBY after the release, record 0x0A07. -/
def vetoLatch (cause : Nat) (s : State) : State :=
  if s.pair.vetoes.getLsbD cause then s
  else
    let s := { s with pair := { s.pair with
      firstVeto := if s.pair.vetoes = 0 then cause else s.pair.firstVeto,
      vetoes := setBit s.pair.vetoes cause true } }
    dropReq (emit 3 6 0x0A07 [strokeLo s, packW [(cause, 8), (1, 0)]] s)

/-- R500, R503, R512: the module leaves its pair state for another; leaving ACTIVE writes record 0x0A02 and sends vector 6. -/
def pairLeave (new : PState) (num : Nat) (s : State) : State :=
  if s.pair.pstate = new then s
  else
    let was := s.pair.active
    let s := { s with pair := { s.pair with pstate := new, active := false, change := s.clk.stroke } }
    if was then msixDue 6 (emit 1 6 0x0A02 [strokeLo s, w32 num] s) else s

/-- R503: a veto is released; after the release of the last one the module has PSTATE STANDBY. -/
def vetoRelease (cause : Nat) (s : State) : State :=
  if s.pair.vetoes.getLsbD cause then
    let v := setBit s.pair.vetoes cause false
    let s := { s with pair := { s.pair with
      vetoes := v,
      firstVeto := if v = 0 then 0 else if s.pair.firstVeto = cause then
        ((List.range 16).find? fun i => v.getLsbD i).getD 0 else s.pair.firstVeto } }
    let s := emit 3 6 0x0A07 [strokeLo s, packW [(cause, 8)]] s
    if v = 0 then pairLeave .standby 0 s else s
  else s

/-- Some veto is latched. -/
def vetoed (s : State) : Bool := decide (s.pair.vetoes ≠ 0)

/-- R162, R520: host loss is declared. -/
def hostLossDeclare (s : State) : State :=
  if s.link.hostLoss then s
  else
    let s := { s with link := { s.link with hostLoss := true, holdLeft := s.pair.cfg.holdStrokes, holdExpired := false } }
    emit 1 6 0x0A0A [strokeLo s, 1] s

/-- R162, R520: host loss ends. -/
def hostLossEnd (s : State) : State :=
  if s.link.hostLoss then
    let s := { s with link := { s.link with hostLoss := false, holdLeft := 0, holdExpired := false } }
    emit 1 6 0x0A0A [strokeLo s, 0] s
  else s

/-! ### The mailbox protocol (R93 to R104, R582) -/

/-- The completion codes of R103. -/
inductive Code where
  | ok
  | badCmd
  | badLen
  | state
  | resource
  | auth
  | busy
  | range
  | notAuthority
  | timeout
  | fault
  | role
  | conflict
  deriving DecidableEq, Repr, Inhabited

/-- STATUS of a completion code. -/
def Code.num : Code → Nat
  | .ok => 0
  | .badCmd => 1
  | .badLen => 2
  | .state => 3
  | .resource => 4
  | .auth => 5
  | .busy => 6
  | .range => 7
  | .notAuthority => 8
  | .timeout => 9
  | .fault => 10
  | .role => 11
  | .conflict => 12

/-- What a command's body answers: a response at once, or a wait for an event that completes it. -/
inductive Answer where
  | now (c : Code) (detail : Nat) (rsp : List Word)
  | later (w : Waiting)
  deriving DecidableEq, Repr, Inhabited

/-- OK with a response payload. -/
def okR (rsp : List Word) : Answer := .now .ok 0 rsp

/-- A failure without a payload. -/
def errR (c : Code) (detail : Nat) : Answer := .now c detail []

/-- E_CONFLICT (R120): the holder in detail, the resource in word 3. -/
def conflictR (holder res : Nat) : Answer := .now .conflict holder [w32 res]

/-- E_ROLE (R103): ROPE_ROLE in bits [1:0], ACTIVE in bit 2. -/
def roleR (s : State) : Answer := errR .role (s.clerk.ropeRole + 4 * b2n s.pair.active)

/-- Response word 0 (R93 +0x10). -/
def rspWord0 (c detail len : Nat) : Word := packW [(len, 16), (detail, 8), (c, 0)]

/-- Writes the completion into a mailbox log entry, if the log still holds it (R568). -/
def logDone (s : State) (idx : Nat) (w0 : Word) (log : List LogEntry) : List LogEntry :=
  let first := s.clerk.logCount - log.length
  if idx < first then log else log.modify (idx - first) fun e => { e with done := strokeLo s, rsp0 := w0 }

/-- R96 steps 4 and 5: the response is written and the mailbox completes. -/
def complete (n : Nat) (c : Code) (detail : Nat) (rsp : List Word) (s : State) : State :=
  let m := s.mbs.getD n {}
  match m.busy with
  | none => s
  | some p =>
    let m' : Mailbox := { m with
      rsp := rsp, rspTag := p.tag, rspStroke := strokeLo s, status := BitVec.ofNat 8 c.num,
      detail := BitVec.ofNat 8 detail, busy := none, done := true, completed := m.completed + 1 }
    let k := bump s.diag.clerk n 1
    let s := { s with
      mbs := s.mbs.set n m'
      clerk := { s.clerk with log := logDone s p.logIdx (rspWord0 c.num detail rsp.length) s.clerk.log }
      diag := { s.diag with clerk := if c = .ok then k else bump k 4 1 } }
    if m.irqEn then msixDue n s else s

/-- The mailbox whose command waits for something that a predicate accepts. -/
def waitingMb (p : Waiting → Bool) (s : State) : Option Nat :=
  (List.range 4).find? fun n => match (s.mbs.getD n {}).busy with
    | some b => p b.waits
    | none => false

/-- Completes the command that waits for `w`, if there is one. -/
def answer (w : Waiting) (c : Code) (detail : Nat) (rsp : List Word) (s : State) : State :=
  match waitingMb (fun x => decide (x = w)) s with
  | some n => complete n c detail rsp s
  | none => s

/-- Completes every command that waits for `w`. -/
def answerAll (w : Waiting) (c : Code) (detail : Nat) (rsp : List Word) (s : State) : State :=
  (List.range 4).foldl
    (fun t n => match (t.mbs.getD n {}).busy with
      | some b => if b.waits = w then complete n c detail rsp t else t
      | none => t) s

/-- The mailbox whose command in progress acts on a function (R100, R124 BUSY_MB). -/
def actingMb (s : State) (f : Nat) : Option Nat :=
  (List.range 4).find? fun n => match (s.mbs.getD n {}).busy with
    | some b => b.acts.contains f
    | none => false

/-- What a mailbox command declares to the header checks of R582. -/
structure Cmd where
  /-- The opcode. -/
  op     : Nat
  /-- R104: some group defines the opcode. -/
  known  : Bool := true
  /-- R101: the mailboxes that accept it. -/
  onMb   : Fin 4 → Bool
  /-- R95: the header LENGTH values that it allows. -/
  lenOk  : Nat → Bool
  /-- R100: the functions it acts on. -/
  acts   : List Nat := []
  /-- R540: the boot ROM's recovery accepts it, on mailbox 1. -/
  rescue : Bool := false

/-- R101 for the commands of mailboxes 1 to 3, of mailbox 0, and of any mailbox. -/
def mbHigh (n : Fin 4) : Bool := n.val ≠ 0
def mbZero (n : Fin 4) : Bool := n.val = 0
def mbAny (_ : Fin 4) : Bool := true

/-- The header checks of R582, in their order, after the recovery's own (R540). -/
def headerBad (s : State) (c : Cmd) (r : Req) : Option Answer :=
  if s.boot.recovery && !(c.rescue && decide (r.mb = 1)) then some (errR .state 0xFE)
  else if !c.known then some (errR .badCmd 0)
  else if !c.onMb r.mb then some (errR .badCmd 1)
  else if r.length.toNat > 1023 then some (errR .badLen 0)
  else if !c.lenOk r.length.toNat then some (errR .badLen 0)
  else match c.acts.findSome? (fun f => actingMb s f) with
    | some n => some (errR .busy n)
    | none => none

/-- R96 step 1: what the host writes into the mailbox before and with the doorbell (R94). -/
def mbPost (op : Nat) (r : Req) (s : State) : State :=
  { s with mbs := s.mbs.modify r.mb.val fun m => { m with
      word0 := packW [(r.length.toNat, 16), (op, 0)], tag := r.tag, irqEn := r.irqEn,
      reqArea := r.payload ++ m.reqArea.drop r.payload.length } }

/-- R96 step 2: the doorbell starts the command; host loss ends (R162) and the mailbox log gains an entry (R568). -/
def mbStart (op : Nat) (acts : List Nat) (r : Req) (s : State) : State :=
  let s := hostLossEnd s
  let e : LogEntry :=
    { mb := r.mb.val, word0 := packW [(r.length.toNat, 16), (op, 0)], tag := r.tag, rung := strokeLo s,
      done := 0xFFFFFFFF, rsp0 := 0, payload := fit 11 0 (r.payload.take r.length.toNat) }
  { s with
    mbs := s.mbs.modify r.mb.val fun m => { m with
      done := false,
      busy := some { opcode := BitVec.ofNat 16 op, tag := r.tag, acts := acts, waits := .body,
                     logIdx := s.clerk.logCount } }
    clerk := { s.clerk with logCount := s.clerk.logCount + 1, log := lastN 4096 (s.clerk.log ++ [e]) } }

/-- Leaves a command in progress, with what it waits for. -/
def mbWait (n : Nat) (w : Waiting) (s : State) : State :=
  { s with mbs := s.mbs.modify n fun m => { m with busy := m.busy.map fun b => { b with waits := w } } }

/-- Carries out an answer on a mailbox. -/
def mbAnswer (n : Nat) (a : Answer) (s : State) : State :=
  match a with
  | .now c d rsp => complete n c d rsp s
  | .later w => mbWait n w s

/-- R97: a doorbell while BUSY is 1. -/
def mbOverrun (n : Nat) (s : State) : State :=
  { s with
    mbs := s.mbs.modify n fun m => { m with overrun := true }
    diag := { s.diag with host := bump s.diag.host (3 + n) 1 } }

/-- The host's access reaches the module: the link is up, not in D3hot, reset is released (R161). -/
def hostReaches (s : State) : Bool := s.link.up && !s.link.d3hot && decide (s.power.life = .up)

/-- One mailbox command, from the doorbell on: dropped (R98, R161), overrun (R97), refused by a header check (R582), or
carried out by its body. Of a payload word that is written while BUSY = 1 the manual lets the command read the old or the new value
(R97): the model uses the values at the doorbell, and such a write is no command of its own (entry 125, DESIGN CHOICE). -/
def mailbox (c : Cmd) (r : Req) (body : State → State × Answer) (s : State) : Out :=
  if !hostReaches s then .next s
  else
    let s := mbPost c.op r s
    if !s.clerk.mbOpen then .next s
    else if (s.mbs.getD r.mb.val {}).busy.isSome then .next (mbOverrun r.mb.val s)
    else
      match headerBad s c r with
      | some a => .next (mbAnswer r.mb.val a (mbStart c.op [] r s))
      | none =>
        let p := body (mbStart c.op c.acts r s)
        .next (mbAnswer r.mb.val p.2 p.1)

/-- A query: a body that leaves the state as it is. -/
def asks (q : State → Answer) (s : State) : State × Answer := (s, q s)

/-- A body that answers an error and changes nothing, or goes on. -/
def guardE (e : Option Answer) (s : State) (go : State → State × Answer) : State × Answer :=
  match e with
  | some a => (s, a)
  | none => go s

/-- The error of the outcomes table of R113 for a configuration command of a function. -/
def cfgBad (s : State) (f : Nat) : Option Answer :=
  match fnState s f with
  | .off => some (errR .state 0)
  | .stopped => none
  | .running => some (errR .state 0)
  | .faulted => some (errR .fault f)

/-- The error of R113 for a command that acts on a running function. -/
def runBad (s : State) (f : Nat) : Option Answer :=
  match fnState s f with
  | .off => some (errR .state 0)
  | .stopped => some (errR .state 0)
  | .running => none
  | .faulted => some (errR .fault f)

/-- E_RANGE of the first offending word. -/
def rangeBad (l : List (Bool × Nat)) : Option Answer := (firstBad l).map (errR .range)

/-- The first error of a list. -/
def firstErr : List (Option Answer) → Option Answer
  | [] => none
  | none :: t => firstErr t
  | some a :: _ => some a

/-- The words of a host job descriptor, or the error of R142 and R143: its address words, its length in bytes. -/
def descRead (addr len : Nat) (addrWord : Nat) (d : HostRead) : Except Answer (List Word) :=
  if addr % 64 ≠ 0 then .error (errR .range addrWord)
  else if len % 64 ≠ 0 ∨ len < 64 ∨ 65536 < len then .error (errR .badLen 1)
  else match d with
    | .words ws => .ok (fit (len / 4) 0 ws)
    | _ => .error (errR .timeout 1)

end Sys2Proof.Machine
end

