-- ==== Sys2Proof/Machine/Digest.lean ====
section
/-! DEFINITION. SHA-512 (FIPS 180-4), Ed25519 (RFC 8032), the signer block (R535) and the measurement log (R546). -/

namespace Sys2Proof.Machine

/-- A continuation on a list of numbers that have been evaluated (`withNat`). -/
def withNats {α : Type} : List Nat → (List Nat → α) → α
  | [], k => k []
  | x :: t, k => withNat x fun y => withNats t fun u => k (y :: u)

/-! ### SHA-512 -/

/-- A number modulo 2^64, and a 64-bit number rotated to the right. -/
def low64 (x : Nat) : Nat := x % 0x10000000000000000
def rotr64 (n x : Nat) : Nat := Nat.lor (Nat.shiftRight x n) (low64 (Nat.shiftLeft x (64 - n)))

/-- The sum of three numbers bit by bit. -/
def xor3 (a b c : Nat) : Nat := Nat.xor a (Nat.xor b c)

/-- The eighty constants of section 4.2.3, in two halves. -/
def roundConsts : List Nat :=
  [0x428a2f98d728ae22, 0x7137449123ef65cd, 0xb5c0fbcfec4d3b2f, 0xe9b5dba58189dbbc,
   0x3956c25bf348b538, 0x59f111f1b605d019, 0x923f82a4af194f9b, 0xab1c5ed5da6d8118,
   0xd807aa98a3030242, 0x12835b0145706fbe, 0x243185be4ee4b28c, 0x550c7dc3d5ffb4e2,
   0x72be5d74f27b896f, 0x80deb1fe3b1696b1, 0x9bdc06a725c71235, 0xc19bf174cf692694,
   0xe49b69c19ef14ad2, 0xefbe4786384f25e3, 0xfc19dc68b8cd5b5, 0x240ca1cc77ac9c65,
   0x2de92c6f592b0275, 0x4a7484aa6ea6e483, 0x5cb0a9dcbd41fbd4, 0x76f988da831153b5,
   0x983e5152ee66dfab, 0xa831c66d2db43210, 0xb00327c898fb213f, 0xbf597fc7beef0ee4,
   0xc6e00bf33da88fc2, 0xd5a79147930aa725, 0x6ca6351e003826f, 0x142929670a0e6e70,
   0x27b70a8546d22ffc, 0x2e1b21385c26c926, 0x4d2c6dfc5ac42aed, 0x53380d139d95b3df,
   0x650a73548baf63de, 0x766a0abb3c77b2a8, 0x81c2c92e47edaee6, 0x92722c851482353b] ++
  [0xa2bfe8a14cf10364, 0xa81a664bbc423001, 0xc24b8b70d0f89791, 0xc76c51a30654be30,
   0xd192e819d6ef5218, 0xd69906245565a910, 0xf40e35855771202a, 0x106aa07032bbd1b8,
   0x19a4c116b8d2d0c8, 0x1e376c085141ab53, 0x2748774cdf8eeb99, 0x34b0bcb5e19b48a8,
   0x391c0cb3c5c95a63, 0x4ed8aa4ae3418acb, 0x5b9cca4f7763e373, 0x682e6ff3d6b2b8a3,
   0x748f82ee5defb2fc, 0x78a5636f43172f60, 0x84c87814a1f0ab72, 0x8cc702081a6439ec,
   0x90befffa23631e28, 0xa4506cebde82bde9, 0xbef9a3f7b2c67915, 0xc67178f2e372532b,
   0xca273eceea26619c, 0xd186b8c721c0c207, 0xeada7dd6cde0eb1e, 0xf57d4f7fee6ed178,
   0x6f067aa72176fba, 0xa637dc5a2c898a6, 0x113f9804bef90dae, 0x1b710b35131c471b,
   0x28db77f523047d84, 0x32caab7b40c72493, 0x3c9ebe0a15c9bebc, 0x431d67c49c100d4c,
   0x4cc5d4becb3e42b6, 0x597f299cfc657e2a, 0x5fcb6fab3ad6faec, 0x6c44198c4a475817]

/-- The initial hash value of section 5.3.5. -/
def startHash : List Nat :=
  [0x6a09e667f3bcc908, 0xbb67ae8584caa73b, 0x3c6ef372fe94f82b, 0xa54ff53a5f1d36f1,
   0x510e527fade682d1, 0x9b05688c2b3e6c1f, 0x1f83d9abfb41bd6b, 0x5be0cd19137e2179]

/-- The rounds over their constants, the next sixteen words of the message schedule and the eight working variables. -/
def rounds : List Nat → List Nat → Nat → Nat → Nat → Nat → Nat → Nat → Nat → Nat → List Nat
  | [], _, a, b, c, d, e, f, g, h => [a, b, c, d, e, f, g, h]
  | k :: ks, w, a, b, c, d, e, f, g, h =>
    let w0 := w.getD 0 0
    let w1 := w.getD 1 0
    let w14 := w.getD 14 0
    withNat (low64 (xor3 (rotr64 19 w14) (rotr64 61 w14) (Nat.shiftRight w14 6) + w.getD 9 0 +
        xor3 (rotr64 1 w1) (rotr64 8 w1) (Nat.shiftRight w1 7) + w0)) fun next =>
    withNat (low64 (h + xor3 (rotr64 14 e) (rotr64 18 e) (rotr64 41 e) + Nat.xor g (Nat.land e (Nat.xor f g)) + k + w0)) fun t =>
    withNat (low64 (t + xor3 (rotr64 28 a) (rotr64 34 a) (rotr64 39 a) + Nat.lor (Nat.land a b) (Nat.land c (Nat.lor a b)))) fun a' =>
    withNat (low64 (d + t)) fun e' =>
    rounds ks (w.drop 1 ++ [next]) a' a b c e' e f g

/-- One block of sixteen words. -/
def shaBlock (v w : List Nat) : List Nat :=
  let x (i : Nat) : Nat := v.getD i 0
  (v.zip (rounds roundConsts w (x 0) (x 1) (x 2) (x 3) (x 4) (x 5) (x 6) (x 7))).map fun p => low64 (p.1 + p.2)

/-- Blocks one after another. -/
def shaBlocks : Nat → List Nat → List Nat → List Nat
  | 0, _, v => v
  | n + 1, w, v => withNats (shaBlock v (w.take 16)) fun u => shaBlocks n (w.drop 16) u

/-- A number from bytes, most significant first. -/
def beNat (bs : List Byte) : Nat := bs.foldl (fun a b => withNat (a * 256 + b.toNat) id) 0

/-- `n` bytes of a number, most significant first. -/
def beBytes (n v : Nat) : List Byte := (natBytes n v).reverse

/-- 64-bit words from bytes, most significant byte first. -/
def beWords : Nat → List Byte → List Nat
  | 0, _ => []
  | n + 1, bs => beNat (bs.take 8) :: beWords n (bs.drop 8)

/-- A message with its padding, as 64-bit words: the bit 1, zeros, the message's length in bits. -/
def shaPad (m : List Byte) : List Nat :=
  let n := m.length
  let p := m ++ [0x80] ++ List.replicate ((239 - n % 128) % 128) 0
  beWords ((n + 17 + (239 - n % 128) % 128) / 8) (p ++ beBytes 16 (8 * n))

/-- The SHA-512 digest of a message, as 64 bytes. -/
def sha512 (m : List Byte) : List Byte :=
  let w := shaPad m
  (shaBlocks (w.length / 16) w startHash).flatMap (beBytes 8)

/-- The digest of words, as sixteen words. -/
def digestOf (ws : List Word) : List Word := wordsOf (sha512 (bytesOf ws))

/-! ### Ed25519 (RFC 8032 section 5.1)

Numbers modulo the prime `p`; points in extended coordinates `x/z`, `y/z`, `t = xy/z`. -/

def edP : Nat := 0x7fffffffffffffffffffffffffffffffffffffffffffffffffffffffffffffed
/-- The order of the base point. -/
def edL : Nat := 2 ^ 252 + 27742317777372353535851937790883648493

def edAdd (a b : Nat) : Nat := (a + b) % edP
def edSub (a b : Nat) : Nat := (a + (edP - b)) % edP
def edMul (a b : Nat) : Nat := a * b % edP

/-- A power, by the bits of an exponent of `n` bits from the lowest on: `r` is the result so far. -/
def edPow : Nat → Nat → Nat → Nat → Nat
  | 0, _, _, r => r
  | n + 1, b, e, r => withNat (if e % 2 = 1 then edMul r b else r) fun r => withNat (edMul b b) fun b => edPow n b (e / 2) r

/-- The curve's constant `d`, and a square root of −1. -/
def edD : Nat := 37095705934669439343138083508754565189542113879843219016388785533085940283555
def edI : Nat := 19681161376707505956807079304988542015446066515923890162744021073123829784752

structure EdPoint where
  x : Nat
  y : Nat
  z : Nat
  t : Nat
  deriving DecidableEq, Repr

/-- The point with its coordinates evaluated. -/
def edPoint (x y z t : Nat) : EdPoint := withNat x fun x => withNat y fun y => withNat z fun z => withNat t fun t => ⟨x, y, z, t⟩

def edZero : EdPoint := ⟨0, 1, 1, 0⟩
def edBase : EdPoint :=
  ⟨15112221349535400772501151409588531511454012693041857206046113283949847762202,
   46316835694926478169428394003475163141307993866256225615783033603165251855960, 1,
   46827403850823179245072216630277197565144205554125654976674165829533817101731⟩

/-- Addition of points (section 5.1.4). -/
def edPlus (p q : EdPoint) : EdPoint :=
  withNat (edMul (edSub p.y p.x) (edSub q.y q.x)) fun a => withNat (edMul (edAdd p.y p.x) (edAdd q.y q.x)) fun b =>
  withNat (edMul (edMul p.t q.t) (edAdd edD edD)) fun c => withNat (edMul (edAdd p.z p.z) q.z) fun d =>
  withNat (edSub b a) fun e => withNat (edSub d c) fun f => withNat (edAdd d c) fun g => withNat (edAdd b a) fun h =>
  edPoint (edMul e f) (edMul g h) (edMul f g) (edMul e h)

/-- `n` bits of two numbers, from the highest on: `r` becomes `2r` and then takes in the points whose bits are 1. -/
def edSum (a b : Nat) (p q pq : EdPoint) : Nat → EdPoint → EdPoint
  | 0, r => r
  | n + 1, r =>
    let d := edPlus r r
    let r := if a.testBit n then (if b.testBit n then edPlus d pq else edPlus d p) else if b.testBit n then edPlus d q else d
    match r with
    | ⟨x, y, z, t⟩ => edSum a b p q pq n ⟨x, y, z, t⟩

/-- Decoding of a point (section 5.1.3). -/
def edDecode (bs : List Byte) : Option EdPoint :=
  let n := leNat bs
  let y := n % 2 ^ 255
  let u := edSub (edMul y y) 1
  let v := edAdd (edMul edD (edMul y y)) 1
  let x2 := edMul u (edPow 255 v (edP - 2) 1)
  let r := edPow 255 x2 ((edP + 3) / 8) 1
  withNat (if edMul r r = x2 then r else edMul r edI) fun x =>
  if edP ≤ y ∨ edMul x x ≠ x2 ∨ (x = 0 ∧ n.testBit 255) then none
  else
    let x := if decide (x % 2 = 1) = n.testBit 255 then x else edP - x
    some (edPoint x y 1 (edMul x y))

/-- Eight times a point. -/
def edEight (p : EdPoint) : EdPoint := let d := edPlus p p; let e := edPlus d d; edPlus e e

/-- Two points are the same. -/
def edSame (p q : EdPoint) : Bool := decide (edMul p.x q.z = edMul q.x p.z) && decide (edMul p.y q.z = edMul q.y p.z)

/-- Verification of a signature (section 5.1.7): a key of 32 bytes, a message, a signature of 64 bytes. RFC 8032 lets the group equation be
checked with the cofactor or without; the model takes it with the cofactor (entry 176). -/
def ed25519 (key msg sig : List Byte) : Bool :=
  match edDecode key, edDecode (sig.take 32) with
  | some a, some r =>
    let s := leNat (sig.drop 32)
    let k := leNat (sha512 (sig.take 32 ++ key ++ msg)) % edL
    let n := ⟨edSub 0 a.x, a.y, a.z, edSub 0 a.t⟩
    decide (sig.length = 64) && decide (key.length = 32) && decide (s < edL) &&
      edSame (edEight (edSum s k edBase n (edPlus edBase n) 253 edZero)) (edEight r)
  | _, _ => false

/-- The same over words. -/
def ed25519Words (key msg sig : List Word) : Bool := ed25519 (bytesOf key) (bytesOf msg) (bytesOf sig)

/-! ### The signer block (R535) -/

/-- R535: an object ends in a signer block of 192 bytes. `root` is the ROOT_KEY, whose hash is judged apart; KEY_SIG, KEY_ROLE and SIG hold. -/
def signerOk (root : List Byte) (role : Nat) (obj : List Byte) : Bool :=
  let b := obj.drop (obj.length - 192)
  decide (192 ≤ obj.length) && decide ((b.getD 32 0).toNat = role) && ed25519 root (b.take 36) ((b.drop 36).take 64) &&
  ed25519 (b.take 32) (obj.take (obj.length - 64)) (b.drop 128)

/-! ### The measurement log (R546) -/

/-- An entry of the log: INDEX, TYPE and ID, INFO, DIGEST. -/
def measEntry (index type id : Nat) (info digest : List Word) : List Word :=
  [w32 index, packW [(type, 16), (id, 0)]] ++ fit 4 0 info ++ fit 16 0 digest ++ [0, 0]

/-- The chain takes in an entry; the log stores it while it holds fewer than 65,536. -/
def measPut (e : List Word) (s : State) : State :=
  { s with boot := { s.boot with
      mlog := if s.boot.mlogCount < 65536 then s.boot.mlog ++ [e] else s.boot.mlog
      mlogCount := s.boot.mlogCount + 1
      mlogHash := wordsOf (sha512 (bytesOf (s.boot.mlogHash ++ e))) } }

/-- A measurement; entry 65,535 is the one that says the log is full. -/
def measure (type id : Nat) (info digest : List Word) (s : State) : State :=
  let s := if s.boot.mlogCount = 65535 then measPut (measEntry 65535 0x000A 0 [] []) s else s
  measPut (measEntry s.boot.mlogCount type id info digest) s

end Sys2Proof.Machine
end

