-- ==== Sys2Proof/Machine/Flags.lean ====
section
/-! DEFINITION. The sticky arithmetic flags of a segment (R210): their bits, and how results gather them. -/

namespace Sys2Proof.Machine

/-- Arithmetic flags of R210 in their bit order; bits 7 and 6 are reserved and zero. -/
abbrev Flg := BitVec 8

/-- A NaN from operands that are not NaN, or a NaN converted to an integer. -/
def fINV : Flg := 1
/-- A floating-point result overflowed. -/
def fOVF : Flg := 2
/-- An integer result saturated. -/
def fSAT : Flg := 4
/-- A bracket result is unbounded although no bracketed input was. -/
def fUNB : Flg := 8
/-- A bracket result is void. -/
def fVOID : Flg := 16
/-- A ledger accumulator wrapped (R223). -/
def fLOVF : Flg := 32

/-- The values of a list of results. -/
def valsOf {α : Type} (l : List (α × Flg)) : List α := l.map (·.1)

/-- The flags that a list of results sets (R210: a flag is set by any operation). -/
def flagsOf {α : Type} (l : List (α × Flg)) : Flg := l.foldl (fun f x => f ||| x.2) 0

end Sys2Proof.Machine
end

