-- ==== Sys2Proof/Machine/Fp.lean ====
section
/-! DEFINITION. Number formats, rounding and floating-point arithmetic (R196 to R209): values are exact rationals, and every
result is rounded once from its exact value. -/

namespace Sys2Proof.Machine

/-! ### Formats (R196) -/

/-- A binary format: exponent and mantissa widths, bias, and whether its top exponent holds infinities and NaNs as IEEE
754 has them. E4M3 keeps one NaN code in its top exponent; E2M1 has neither. -/
structure Fmt where
  eb   : Nat
  mb   : Nat
  bias : Nat
  ieee : Bool
  nan1 : Bool
  deriving DecidableEq, Repr, Inhabited

def fp64 : Fmt := { eb := 11, mb := 52, bias := 1023, ieee := true, nan1 := false }
def fp32 : Fmt := { eb := 8, mb := 23, bias := 127, ieee := true, nan1 := false }
def fp16 : Fmt := { eb := 5, mb := 10, bias := 15, ieee := true, nan1 := false }
def bf16 : Fmt := { eb := 8, mb := 7, bias := 127, ieee := true, nan1 := false }
def e5m2 : Fmt := { eb := 5, mb := 2, bias := 15, ieee := true, nan1 := false }
def e4m3 : Fmt := { eb := 4, mb := 3, bias := 7, ieee := false, nan1 := true }
def e2m1 : Fmt := { eb := 2, mb := 1, bias := 1, ieee := false, nan1 := false }

/-- A floating-point value: NaN, an infinity, a zero with its sign, or another real number. -/
inductive FVal where
  | nan
  | inf (neg : Bool)
  | zero (neg : Bool)
  | num (r : Rat)
  deriving DecidableEq, Repr, Inhabited

/-- 2 to an integer power. -/
def pow2 (e : Int) : Rat := if 0 ≤ e then (2 ^ e.toNat : Nat) else mkRat 1 (2 ^ (-e).toNat)

/-- The sign bit's position. -/
def Fmt.width (f : Fmt) : Nat := 1 + f.eb + f.mb

/-- The magnitude code of the largest finite value. -/
def Fmt.maxCode (f : Fmt) : Nat :=
  let all := 2 ^ (f.eb + f.mb) - 1
  if f.ieee then (2 ^ f.eb - 1) * 2 ^ f.mb - 1 else if f.nan1 then all - 1 else all

/-- The value of a finite magnitude code. -/
def Fmt.mag (f : Fmt) (code : Nat) : Rat :=
  let e := code / 2 ^ f.mb
  let m := code % 2 ^ f.mb
  if e = 0 then m * pow2 (1 - f.bias - f.mb) else ((2 ^ f.mb + m : Nat) : Rat) * pow2 ((e : Int) - f.bias - f.mb)

/-- The canonical NaN (R197); a format without one has no use for it. -/
def Fmt.nanCode (f : Fmt) : Nat :=
  if f.ieee then (2 ^ f.eb - 1) * 2 ^ f.mb + 2 ^ (f.mb - 1) else 2 ^ (f.eb + f.mb) - 1

/-- The code of an infinity, without its sign. -/
def Fmt.infCode (f : Fmt) : Nat := (2 ^ f.eb - 1) * 2 ^ f.mb

/-- Reads a code. -/
def Fmt.dec (f : Fmt) (code : Nat) : FVal :=
  let neg := decide (code / 2 ^ (f.eb + f.mb) % 2 = 1)
  let m := code % 2 ^ (f.eb + f.mb)
  if m ≤ f.maxCode then
    (if m = 0 then .zero neg else .num (if neg then - f.mag m else f.mag m))
  else if f.ieee && decide (m = f.infCode) then .inf neg
  else .nan

/-- The rounding directions of R205. -/
inductive RMode where
  | nearest
  | toZero
  | up
  | down
  deriving DecidableEq, Repr, Inhabited

/-- floor(log2 p/d) for positive p and d. -/
def floorLog2 (p d : Nat) : Int :=
  let k : Int := (Nat.log2 p : Int) - Nat.log2 d
  if (if 0 ≤ k then d * 2 ^ k.toNat ≤ p else d ≤ p * 2 ^ (-k).toNat) then k else k - 1

/-- Rounds a non-negative quotient n/d to an integer, for a number of the given sign. -/
def roundQ (m : RMode) (neg : Bool) (n d : Nat) : Nat :=
  let q := n / d
  let r := n % d
  if r = 0 then q
  else match m with
    | .nearest => if 2 * r < d then q else if d < 2 * r then q + 1 else if q % 2 = 0 then q else q + 1
    | .toZero => q
    | .up => if neg then q else q + 1
    | .down => if neg then q + 1 else q

/-- The magnitude code of a positive number n/d rounded in a format whose exponent had no upper end. -/
def Fmt.roundMag (f : Fmt) (m : RMode) (neg : Bool) (n d : Nat) : Nat :=
  let e := max (floorLog2 n d) (1 - (f.bias : Int))
  let sh := (f.mb : Int) - e
  let q := if 0 ≤ sh then roundQ m neg (n * 2 ^ sh.toNat) d else roundQ m neg n (d * 2 ^ (-sh).toNat)
  (e + f.bias - 1).toNat * 2 ^ f.mb + q

/-- A code with its sign bit. -/
def Fmt.signed (f : Fmt) (neg : Bool) (m : Nat) : Nat := if neg then m + 2 ^ (f.eb + f.mb) else m

/-- R204: what an overflow writes: infinity or the largest finite value; E4M3 has no infinity and takes NaN. -/
def Fmt.over (f : Fmt) (sat neg : Bool) : Nat × Flg :=
  if sat then (f.signed neg f.maxCode, fOVF)
  else if f.ieee then (f.signed neg f.infCode, fOVF)
  else if f.nan1 then (f.nanCode, fOVF ||| fINV)
  else (f.signed neg f.maxCode, fOVF)

/-- Writes a value in a format (R204): the code and the flags. -/
def Fmt.enc (f : Fmt) (m : RMode) (sat : Bool) : FVal → Nat × Flg
  | .nan => (f.nanCode, 0)
  | .inf neg => if f.ieee then (f.signed neg f.infCode, 0) else f.over sat neg
  | .zero neg => (f.signed neg 0, 0)
  | .num r =>
    let neg := decide (r < 0)
    let c := f.roundMag m neg r.num.natAbs r.den
    if f.maxCode < c then f.over sat neg else (f.signed neg c, 0)

/-- The value of a rational: a positive zero, or the number. -/
def ofRat (r : Rat) : FVal := if r = 0 then .zero false else .num r

/-- The real number that a finite value stands for; NaN and the infinities stand for none. -/
def FVal.toRat? : FVal → Option Rat
  | .zero _ => some 0
  | .num r => some r
  | _ => none

def FVal.rat (v : FVal) : Rat := v.toRat?.getD 0

def FVal.isNan (v : FVal) : Bool := decide (v = .nan)

def FVal.isInf : FVal → Bool
  | .inf _ => true
  | _ => false

def FVal.isZero : FVal → Bool
  | .zero _ => true
  | _ => false

/-- The sign of a value; NaN has none. -/
def FVal.neg? : FVal → Bool
  | .nan => false
  | .inf n => n
  | .zero n => n
  | .num r => decide (r < 0)

def FVal.negate : FVal → FVal
  | .nan => .nan
  | .inf n => .inf !n
  | .zero n => .zero !n
  | .num r => .num (-r)

def FVal.abs : FVal → FVal
  | .nan => .nan
  | .inf _ => .inf false
  | .zero _ => .zero false
  | .num r => .num (if r < 0 then -r else r)

/-! ### Exact sums and products -/

/-- The exact product of two values; infinity times zero is a NaN that sets INV (R205). -/
def fMul (a b : FVal) : FVal × Flg :=
  let n := Bool.xor a.neg? b.neg?
  match a, b with
  | .nan, _ => (.nan, 0)
  | _, .nan => (.nan, 0)
  | .inf _, .zero _ => (.nan, fINV)
  | .zero _, .inf _ => (.nan, fINV)
  | .inf _, _ => (.inf n, 0)
  | _, .inf _ => (.inf n, 0)
  | .zero _, _ => (.zero n, 0)
  | _, .zero _ => (.zero n, 0)
  | .num x, .num y => (.num (x * y), 0)

/-- The exact sum of a list of terms: infinities of opposite sign give NaN with INV; an exact zero is +0 unless every term
was −0 (R197). -/
def fSum (ts : List FVal) : FVal × Flg :=
  if ts.any FVal.isNan then (.nan, 0)
  else
    let p := ts.any fun t => decide (t = .inf false)
    let n := ts.any fun t => decide (t = .inf true)
    if p && n then (.nan, fINV)
    else if p then (.inf false, 0)
    else if n then (.inf true, 0)
    else
      let r := ts.foldl (fun a t => a + t.rat) (0 : Rat)
      if r = 0 then (.zero (ts.all fun t => decide (t = .zero true)), 0) else (.num r, 0)

/-! ### FP32 words -/

/-- The value of an FP32 word. -/
def f32 (w : Word) : FVal := fp32.dec w.toNat

/-- An exact value rounded to FP32 and written as a word, with flags; overflow gives an infinity (R205). -/
def toF32 (m : RMode) (v : FVal) : Word × Flg := let p := fp32.enc m false v; (w32 p.1, p.2)

/-- A value rounded to nearest in FP32. -/
def rn32 (v : FVal) : Word := (toF32 .nearest v).1

/-- A rational rounded to nearest in FP32. -/
def ratF32 (r : Rat) : Word := rn32 (ofRat r)

/-- The real number of an FP32 word; zero for a NaN or an infinity. -/
def f32Rat (w : Word) : Rat := (f32 w).rat

/-- Finite and not NaN. -/
def f32Finite (w : Word) : Bool := (f32 w).toRat?.isSome

/-- FP32 addition, subtraction, product and fused multiply-add, rounded to nearest once. -/
def fpAdd (a b : Word) : Word × Flg :=
  let s := fSum [f32 a, f32 b]; let r := toF32 .nearest s.1; (r.1, r.2 ||| s.2)
def fpSub (a b : Word) : Word × Flg :=
  let s := fSum [f32 a, (f32 b).negate]; let r := toF32 .nearest s.1; (r.1, r.2 ||| s.2)
def fpMul (a b : Word) : Word × Flg :=
  let s := fMul (f32 a) (f32 b); let r := toF32 .nearest s.1; (r.1, r.2 ||| s.2)
def fpFma (a b c : Word) : Word × Flg :=
  let p := fMul (f32 a) (f32 b)
  let s := fSum [p.1, f32 c]
  let r := toF32 .nearest s.1
  (r.1, r.2 ||| s.2 ||| p.2)

/-- Division of FP32 values, rounded to nearest once. -/
def fpDiv (a b : Word) : Word × Flg :=
  let n := Bool.xor (f32 a).neg? (f32 b).neg?
  match f32 a, f32 b with
  | .nan, _ => (w32 fp32.nanCode, 0)
  | _, .nan => (w32 fp32.nanCode, 0)
  | .inf _, .inf _ => (w32 fp32.nanCode, fINV)
  | .zero _, .zero _ => (w32 fp32.nanCode, fINV)
  | .inf _, _ => (rn32 (.inf n), 0)
  | _, .inf _ => (rn32 (.zero n), 0)
  | .zero _, _ => (rn32 (.zero n), 0)
  | _, .zero _ => (rn32 (.inf n), 0)
  | .num x, .num y => toF32 .nearest (.num (x / y))

/-- Comparison of two values that are not NaN: below, with −0 below +0 where `zeros` says so (R205 max and min). -/
def fLt (zeros : Bool) (a b : FVal) : Bool :=
  match a, b with
  | .nan, _ => false
  | _, .nan => false
  | .inf x, .inf y => x && !y
  | .inf x, _ => x
  | _, .inf y => !y
  | .zero x, .zero y => zeros && x && !y
  | x, y => decide (x.rat < y.rat)

/-- The larger and the smaller of two values; a NaN gives NaN, and +0 counts as larger than −0. -/
def fMax (a b : FVal) : FVal := if a.isNan || b.isNan then .nan else if fLt true a b then b else a
def fMin (a b : FVal) : FVal := if a.isNan || b.isNan then .nan else if fLt true a b then a else b

/-- One unit in the last place of an FP32 value (R217). -/
def ulp32 (w : Word) : Rat :=
  let e := fld w 23 8
  pow2 ((max e 1 : Nat) - 127 - 23 : Int)

/-! ### Transcendentals of the vector unit (R205, R206) -/

/-- One unit in the last place of FP32 at a real number. -/
def ulpAt (r : Rat) : Rat := if r = 0 then pow2 (-149) else pow2 (max (floorLog2 r.num.natAbs r.den) (-126) - 23)

/-- R206: the unit's own value where it lies within 2 units in the last place of an exact result between two bounds; any other word
counts as the nearest one. -/
def nearExact (b : Rat × Rat) (free : Word) : Word :=
  let u := 2 * min (ulpAt b.1) (ulpAt b.2)
  match (f32 free).toRat? with
  | some v => if b.2 - u ≤ v ∧ v ≤ b.1 + u then free else ratF32 ((b.1 + b.2) / 2)
  | none => ratF32 ((b.1 + b.2) / 2)

/-- Binary places in which the bounds below are computed. -/
def encBits : Nat := 320

/-- A quotient rounded down or up. -/
def divTo (up : Bool) (n d : Nat) : Nat := if up then (n + d - 1) / d else n / d

/-- Terms y^k / k! from the k-th on, in units of 2^(−320): a sum below or above theirs, for y below 1. -/
def expTail (up : Bool) (y : Nat) : Nat → Nat → Nat → Nat
  | 0, _, t => if up then 2 * t else t
  | n + 1, k, t => t + expTail up y n (k + 1) (divTo up (t * y) (2 ^ encBits * (k + 1)))

/-- Repeated squaring of a fixed-point number. -/
def squares (up : Bool) : Nat → Nat → Nat
  | 0, v => v
  | n + 1, v => squares up n (divTo up (v * v) (2 ^ encBits))

/-- A bound on exp of a number from 0 to 104: the series at a 256th of it, squared eight times. -/
def expBound (up : Bool) (x : Rat) : Rat :=
  mkRat (squares up 8 (expTail up (divTo up (x.num.natAbs * 2 ^ encBits) (x.den * 256)) 50 0 (2 ^ encBits))) (2 ^ encBits)

/-- Bounds on exp(x) for x from −104 to 104. -/
def expIn (x : Rat) : Rat × Rat :=
  if 0 ≤ x then (expBound false x, expBound true x) else (1 / expBound true (-x), 1 / expBound false (-x))

/-- Terms z^(2k+1) / (2k+1) from the k-th on, with zz = z², for z up to 1/3. -/
def artTail (up : Bool) (zz : Nat) : Nat → Nat → Nat → Nat
  | 0, _, p => if up then 2 * p else 0
  | n + 1, k, p => divTo up p (2 * k + 1) + artTail up zz n (k + 1) (divTo up (p * zz) (2 ^ encBits))

/-- A bound on log m for m from 1 to 2: twice the area tangent of (m − 1)/(m + 1). -/
def logBound (up : Bool) (m : Rat) : Rat :=
  let q := (m - 1) / (m + 1)
  let z := divTo up (q.num.natAbs * 2 ^ encBits) q.den
  mkRat (2 * artTail up (divTo up (z * z) (2 ^ encBits)) 100 0 z) (2 ^ encBits)

/-- Bounds on log r for a positive r. -/
def logIn (r : Rat) : Rat × Rat :=
  let e := floorLog2 r.num.natAbs r.den
  let m := r / pow2 e
  let ln2 (up : Bool) : Rat := e * logBound (if e < 0 then !up else up) 2
  (ln2 false + logBound false m, ln2 true + logBound true m)

/-- Bounds on tanh r for a positive r: (E − 1)/(E + 1) with E = exp 2r; above 20 the function is 1 within 2^(−50). -/
def tanhIn (r : Rat) : Rat × Rat :=
  if 20 ≤ r then (1 - pow2 (-50), 1)
  else let e := expIn (2 * r); ((e.1 - 1) / (e.1 + 1), (e.2 - 1) / (e.2 + 1))

/-- exp: exact at zero, the limits at the infinities; a result beyond the range overflows, and any other is the unit's own value
within the bound of R206. -/
def vExp (x : Word) : Word × Flg :=
  match f32 x with
  | .nan => (w32 fp32.nanCode, 0)
  | .inf true => (0, 0)
  | .inf false => (w32 fp32.infCode, 0)
  | .zero _ => (0x3F800000, 0)
  | .num r =>
    if 104 < r then (w32 fp32.infCode, fOVF)
    else if r < -104 then (nearExact (0, pow2 (-150)) (Config.vecExp x), 0)
    else
      let b := expIn r
      if (f32 (ratF32 b.1)).isInf then (w32 fp32.infCode, fOVF) else (nearExact b (Config.vecExp x), 0)

/-- log: NaN with INV below zero, minus infinity at the zeros, exact at one. -/
def vLog (x : Word) : Word × Flg :=
  match f32 x with
  | .nan => (w32 fp32.nanCode, 0)
  | .inf true => (w32 fp32.nanCode, fINV)
  | .inf false => (w32 fp32.infCode, 0)
  | .zero _ => (w32 (fp32.signed true fp32.infCode), 0)
  | .num r =>
    if r < 0 then (w32 fp32.nanCode, fINV) else if r = 1 then (0, 0) else (nearExact (logIn r) (Config.vecLog x), 0)

/-- tanh: exact at zero, the limits at the infinities, never outside −1 to 1. -/
def vTanh (x : Word) : Word × Flg :=
  match f32 x with
  | .nan => (w32 fp32.nanCode, 0)
  | .inf true => (0xBF800000, 0)
  | .inf false => (0x3F800000, 0)
  | .zero n => (w32 (fp32.signed n 0), 0)
  | .num r =>
    let b := if r < 0 then let u := tanhIn (-r); (-u.2, -u.1) else tanhIn r
    let w := nearExact b (Config.vecTanh x)
    (rn32 (fMax (.num (-1)) (fMin (.num 1) (f32 w))), 0)

/-- A positive result within one unit in the last place of an exact value between two neighbours: the unit takes the lower
or the upper, which the manual leaves open. -/
def vNear (lo hi : Word × Flg) (pick : Int) : Word × Flg := if pick % 2 = 0 then lo else hi

/-- reciprocal: the signed infinities at the zeros, exact powers of two exact, otherwise within one unit. -/
def vRecip (x : Word) : Word × Flg :=
  match f32 x with
  | .nan => (w32 fp32.nanCode, 0)
  | .inf n => (w32 (fp32.signed n 0), 0)
  | .zero n => (w32 (fp32.signed n fp32.infCode), 0)
  | .num r => vNear (toF32 .down (.num (1 / r))) (toF32 .up (.num (1 / r))) (Config.vecRecipErr x)

/-- The largest natural number whose square is at most n. -/
def isqrt (n : Nat) : Nat := Nat.sqrt n

/-- reciprocal square root: NaN with INV below zero, exact powers of two exact, otherwise within one unit: a truncation of the root
scaled by 2^200, and its successor. R205 gives no value at the zeros: the model takes the infinity of the zero's sign, without a flag (entry
166, DESIGN CHOICE). -/
def vRsqrt (x : Word) : Word × Flg :=
  match f32 x with
  | .nan => (w32 fp32.nanCode, 0)
  | .inf true => (w32 fp32.nanCode, fINV)
  | .inf false => (0, 0)
  | .zero n => (w32 (fp32.signed n fp32.infCode), 0)
  | .num r =>
    if r < 0 then (w32 fp32.nanCode, fINV)
    else
      let q := r.den * 2 ^ 400 / r.num.natAbs
      let k := isqrt q
      let exact := decide (k * k * r.num.natAbs = r.den * 2 ^ 400)
      let lo := mkRat k (2 ^ 200)
      let hi := mkRat (if exact then k else k + 1) (2 ^ 200)
      vNear (toF32 .down (.num lo)) (toF32 .up (.num hi)) (Config.vecRsqrtErr x)

/-! ### Integers (R204, R205) -/

/-- A number rounded to an integer. -/
def ratRound (m : RMode) (r : Rat) : Int :=
  let neg := decide (r < 0)
  let q : Int := roundQ m neg r.num.natAbs r.den
  if neg then -q else q

/-- R204: saturation to a signed range, with SAT. -/
def satInt (lo hi v : Int) : Int × Flg := if v < lo then (lo, fSAT) else if hi < v then (hi, fSAT) else (v, 0)

/-- A value converted to a signed integer of `bits` bits: NaN gives 0 with INV; beyond the range it saturates. -/
def fToInt (m : RMode) (bits : Nat) (v : FVal) : Int × Flg :=
  let hi : Int := 2 ^ (bits - 1) - 1
  match v with
  | .nan => (0, fINV)
  | .inf n => (if n then -hi - 1 else hi, fSAT)
  | v => satInt (-hi - 1) hi (ratRound m v.rat)

/-! ### Binary64 (R227) -/

/-- A rational rounded to nearest in binary64. -/
def rn64 (r : Rat) : Rat := (fp64.dec (fp64.enc .nearest false (ofRat r)).1).rat

end Sys2Proof.Machine
end

