-- ==== Sys2Proof/Machine/Bracket.lean ====
section
/-! DEFINITION. Bracket arithmetic, its conversions and the ledger's joule conversion (R211 to R227). -/

namespace Sys2Proof.Machine

/-! ### Brackets in FP32 (R211, R212) -/

/-- A bracketed FP32 value as its two words. -/
structure Br where
  c : Word
  g : Word
  deriving DecidableEq, Repr, Inhabited

/-- The classes of R212. -/
inductive BClass where
  | valid
  | unbounded
  | void
  deriving DecidableEq, Repr, Inhabited

/-- The class of a midpoint and a radius. -/
def classOf (c g : FVal) : BClass :=
  if c.isNan || g.isNan then .void
  else if g.neg? && !g.isZero then .void
  else if c.isInf || g.isInf then .unbounded
  else .valid

def Br.cls (x : Br) : BClass := classOf (f32 x.c) (f32 x.g)

/-- The void bracket: canonical NaNs. -/
def brVoid : Br := { c := w32 fp32.nanCode, g := w32 fp32.nanCode }

/-- The midpoint of an unbounded result where no rule gives one: free, but never a NaN (entry 8). -/
def midFree (xs : List Br) : Word :=
  let c := Config.unboundedMid (xs.flatMap fun x => [x.c, x.g])
  if (f32 c).isNan then 0 else c

/-- An unbounded bracket with a midpoint: radius + infinity. -/
def brUnb (xs : List Br) (c : Word) : Br := { c := if (f32 c).isNan then midFree xs else c, g := w32 fp32.infCode }

/-- A result from a rounded midpoint and an exact radius, for valid operands (R219): overflow gives an unbounded result with
UNB, a NaN midpoint a void one. -/
def brMake (c : Word) (rad : Rat) : Br × Flg :=
  match f32 c with
  | .nan => (brVoid, fVOID ||| fINV)
  | .inf _ => (brUnb [] c, fUNB)
  | _ =>
    let g := (toF32 .up (ofRat rad)).1
    if (f32 g).isInf then (brUnb [] c, fUNB) else ({ c := c, g := g }, 0)

/-- The midpoint of an exact value, with the radius that the terms and the exact residual give. -/
def brFrom (exact : Rat) (zeroNeg : Bool) (terms : Rat) : Br × Flg :=
  let c := rn32 (if exact = 0 then .zero zeroNeg else .num exact)
  brMake c (terms + (f32Rat c - exact).abs)

/-- R219: what void or unbounded operands make of an operation; `mid` is the midpoint that rounding would give. -/
def brSpecial (xs : List Br) (mid : Word) : Option (Br × Flg) :=
  if xs.any fun x => decide (x.cls = .void) then some (brVoid, fVOID)
  else if xs.any fun x => decide (x.cls = .unbounded) then some (brUnb xs mid, 0)
  else none

/-- Midpoint and radius as rationals. -/
def Br.a (x : Br) : Rat := f32Rat x.c
def Br.r (x : Br) : Rat := f32Rat x.g

/-- ADD and SUB (R217). -/
def brAdd (x y : Br) : Br × Flg :=
  (brSpecial [x, y] (fpAdd x.c y.c).1).getD
    (brFrom (x.a + y.a) (decide (f32 x.c = .zero true) && decide (f32 y.c = .zero true)) (x.r + y.r))

def brNeg (x : Br) : Br := { x with c := x.c ^^^ 0x80000000 }

def brSub (x y : Br) : Br × Flg := brAdd x (brNeg y)

/-- MUL. -/
def brMul (x y : Br) : Br × Flg :=
  (brSpecial [x, y] (fpMul x.c y.c).1).getD
    (brFrom (x.a * y.a) (Bool.xor (f32 x.c).neg? (f32 y.c).neg?) (x.a.abs * y.r + x.r * y.a.abs + x.r * y.r))

/-- FMA. -/
def brFma (x y z : Br) : Br × Flg :=
  (brSpecial [x, y, z] (fpFma x.c y.c z.c).1).getD
    (brFrom (x.a * y.a + z.a)
      (decide ((fMul (f32 x.c) (f32 y.c)).1 = .zero true) && decide (f32 z.c = .zero true))
      (x.a.abs * y.r + x.r * y.a.abs + x.r * y.r + z.r))

/-- SCALE by an exact constant: an infinite or NaN constant gives the midpoint that the product gives (R219). -/
def brScale (k : Word) (x : Br) : Br × Flg :=
  let m := (fpMul k x.c).1
  (brSpecial [x] m).getD
    (if f32Finite k then brFrom (f32Rat k * x.a) (Bool.xor (f32 k).neg? (f32 x.c).neg?) ((f32Rat k).abs * x.r) else brMake m 0)

/-- The end rule of R217. -/
def brEnds (lo hi : Rat) : Br × Flg :=
  let c := ratF32 ((lo + hi) / 2)
  let m := f32Rat c
  brMake c (max (hi - m) (m - lo))

/-- An end rounded outward to FP32: below the range it is minus infinity, above it plus infinity. -/
def endF (up : Bool) (r : Rat) : FVal := f32 (toF32 (if up then .up else .down) (ofRat r)).1

/-- The rounded ends RD(a − α) and RU(a + α) of a valid bracket. -/
def brLoHi (x : Br) : FVal × FVal := (endF false (x.a - x.r), endF true (x.a + x.r))

/-- The end rule on ends of which one may be infinite: the midpoint overflows, and the result is unbounded with UNB; a NaN end gives a
NaN midpoint (R219). Two ends of -0 sum to -0 (R197). -/
def brEndsF (e : FVal × FVal) : Br × Flg :=
  match e.1.toRat?, e.2.toRat? with
  | some lo, some hi => if e = (.zero true, .zero true) then brMake 0x80000000 0 else brEnds lo hi
  | _, _ => brMake (rn32 (fSum [e.1, e.2]).1) 0

/-- RELU: an unbounded operand gives the end-rule bracket of its range, from 0 to plus infinity, whose midpoint overflows (R219). -/
def brRelu (x : Br) : Br × Flg :=
  if x.cls = .unbounded then brEndsF (.zero false, .inf false)
  else (brSpecial [x] (w32 fp32.nanCode)).getD
    (let e := brLoHi x; brEndsF (fMax e.1 (.zero false), fMax e.2 (.zero false)))

/-- CLAMP: to finite constants an unbounded operand gives the bracket of its range. -/
def brClamp (p q : FVal) (x : Br) : Br × Flg :=
  let cut (e : FVal × FVal) : Br × Flg := brEndsF (fMin (fMax e.1 p) q, fMin (fMax e.2 p) q)
  if x.cls = .unbounded ∧ p.toRat?.isSome ∧ q.toRat?.isSome then cut (.inf true, .inf false)
  else (brSpecial [x] (w32 fp32.nanCode)).getD (cut (brLoHi x))

/-- MAX and MIN. -/
def brMax (x y : Br) : Br × Flg :=
  let e := brLoHi x
  let f := brLoHi y
  (brSpecial [x, y] (w32 fp32.nanCode)).getD (brEndsF (fMax e.1 f.1, fMax e.2 f.2))

def brMin (x y : Br) : Br × Flg :=
  let e := brLoHi x
  let f := brLoHi y
  (brSpecial [x, y] (w32 fp32.nanCode)).getD (brEndsF (fMin e.1 f.1, fMin e.2 f.2))

/-- An end through a vector function widened by 4 units in its last place. -/
def widened (f : Word → Word × Flg) (x : FVal) (up : Bool) : FVal :=
  let v := (f (rn32 x)).1
  match (f32 v).toRat? with
  | some r => endF up (if up then r + 4 * ulp32 v else r - 4 * ulp32 v)
  | none => f32 v

/-- TANH: an unbounded operand gives ⟨0, 1⟩. -/
def brTanh (x : Br) : Br × Flg :=
  if x.cls = .unbounded then brEnds (-1) 1
  else (brSpecial [x] 0).getD
    (let e := brLoHi x; brEndsF (fMax (.num (-1)) (widened vTanh e.1 false), fMin (.num 1) (widened vTanh e.2 true)))

/-- The larger finite value below an overflow: what EXP's lower end is at least where its own result overflows. -/
def belowOver (v : FVal) : FVal := if v = .inf false then fp32.dec fp32.maxCode else v

/-- EXP. -/
def brExp (x : Br) : Br × Flg :=
  (brSpecial [x] (w32 fp32.nanCode)).getD
    (let e := brLoHi x; brEndsF (fMax (.zero false) (belowOver (widened vExp e.1 false)), widened vExp e.2 true))

/-- RESID (R216): the radius grows by the declared residual. An infinite one makes the result unbounded with UNB, with midpoint 0 too, for
which infinity × 0 has no stated value (entry 165, DESIGN CHOICE). -/
def brResid (rAbs rRel : Word) (x : Br) : Br × Flg :=
  (brSpecial [x] x.c).getD
    (if f32Finite rAbs && f32Finite rRel then brMake x.c (x.r + f32Rat rAbs + f32Rat rRel * x.a.abs)
     else (brUnb [x] x.c, fUNB))

/-- ATTACH (R215, R217): a plain value with a declared radius. -/
def brAttach (v r : Word) : Br × Flg :=
  let b : Br := { c := v, g := r }
  match b.cls with
  | .void => (brVoid, fVOID)
  | .unbounded => (brUnb [] v, fUNB)
  | .valid => (b, 0)

/-- One level of the tree of R208. -/
def treeLevel {α : Type} (f : α → α → α) : List α → List α
  | [] => []
  | [x] => [x]
  | x :: y :: t => f x y :: treeLevel f t

/-- The balanced tree of R208: `n` levels suffice for 2^n elements. -/
def treeFold {α : Type} (f : α → α → α) (d : α) : Nat → List α → α
  | _, [] => d
  | 0, x :: _ => x
  | _ + 1, [x] => x
  | n + 1, l => treeFold f d n (treeLevel f l)

/-- SUM of a vector of brackets: the tree of R208, each step as ADD, flags gathered. -/
def brSum (xs : List Br) : Br × Flg :=
  let r := treeFold (fun p q => let r := brAdd p.1 q.1; (r.1, r.2 ||| p.2 ||| q.2)) ({ c := 0, g := 0 }, 0) 64
    (xs.map fun x => (x, 0))
  if r.1.cls = .void then (brVoid, r.2 ||| fVOID) else r

/-! ### BF16 brackets (R211, R220) -/

/-- A bracketed BF16 word as a bracketed FP32 value: exact. -/
def brOfBf16 (w : Word) : Br := { c := w <<< 16, g := w &&& 0xFFFF0000 }

/-- A bracketed FP32 value in bracketed BF16. -/
def brToBf16 (x : Br) : Word × Flg :=
  match x.cls with
  | .void => (packW [(bf16.nanCode, 0), (bf16.nanCode, 16)], fVOID)
  | .unbounded => (packW [((bf16.enc .nearest false (f32 x.c)).1, 0), (bf16.infCode, 16)], 0)
  | .valid =>
    let c := (bf16.enc .nearest false (f32 x.c)).1
    match (bf16.dec c).toRat? with
    | none => (packW [(c, 0), (bf16.infCode, 16)], fUNB)
    | some m =>
      let g := (bf16.enc .up false (ofRat (x.r + (x.a - m).abs))).1
      (packW [(c, 0), (g, 16)], if (bf16.dec g).isInf then fUNB else 0)

/-! ### BW32 (R211, R212, R220, R221) -/

/-- A bracket in watts: midpoint and radius words. -/
structure Bw where
  c : Word
  g : Word
  deriving DecidableEq, Repr, Inhabited

def bwVoid : Bw := { c := 0x80000000, g := 0xFFFFFFFF }

def Bw.cls (x : Bw) : BClass :=
  if x.c = 0x80000000 then .void else if x.g = 0xFFFFFFFF then .unbounded else .valid

/-- Midpoint and radius in 1/16 W. -/
def Bw.mid (x : Bw) : Int := x.c.toInt
def Bw.rad (x : Bw) : Nat := x.g.toNat

/-- A BW32 from exact integers: a midpoint outside the range takes the nearer end with an unbounded radius, and a radius that
reaches 0xFFFF_FFFF is written so. -/
def bwMake (c : Int) (g : Nat) : Bw :=
  if 2147483647 < c then { c := 0x7FFFFFFF, g := 0xFFFFFFFF }
  else if c < -2147483647 then { c := 0x80000001, g := 0xFFFFFFFF }
  else { c := i32 c, g := w32 (min g 0xFFFFFFFF) }

/-- An unbounded BW32 with a midpoint. -/
def bwUnb (c : Int) : Bw := bwMake c 0xFFFFFFFF

/-- The least integer not below a rational. -/
def ratCeil (r : Rat) : Int := -((-r).floor)

/-- Bracketed FP32 watts to BW32: a valid bracket whose result is unbounded sets UNB, a void one VOID (R210). -/
def bwOfBr (x : Br) : Bw × Flg :=
  match x.cls with
  | .void => (bwVoid, fVOID)
  | .unbounded => match f32 x.c with
    | .inf n => (bwUnb (if n then -2147483647 else 2147483647), 0)
    | _ => (bwUnb (ratRound .nearest (16 * x.a)), 0)
  | .valid =>
    let c := ratRound .nearest (16 * x.a)
    let b := bwMake c (ratCeil (16 * x.r + (16 * x.a - c).abs)).toNat
    (b, if b.cls = .unbounded then fUNB else 0)

/-- BW32 to bracketed FP32 watts. -/
def brOfBw (x : Bw) : Br × Flg :=
  match x.cls with
  | .void => (brVoid, fVOID)
  | .unbounded => (brUnb [] (ratF32 (mkRat x.mid 16)), 0)
  | .valid =>
    let c := ratF32 (mkRat x.mid 16)
    brMake c (mkRat x.rad 16 + (mkRat x.mid 16 - f32Rat c).abs)

/-- The sum of BW32 brackets (R221), in exact integers; none of its ends is cut here. -/
def bwSum (xs : List Bw) : BClass × Int × Nat :=
  (if xs.any fun x => decide (x.cls = .void) then .void
   else if xs.any fun x => decide (x.cls = .unbounded) then .unbounded else .valid,
   xs.foldl (fun a x => a + x.mid) 0, xs.foldl (fun a x => a + x.rad) 0)

/-! ### Ledger integers (R222, R223, R227) -/

/-- R223: one term at a shift enters an accumulator; LOVF when the exact sum leaves the 96-bit range. -/
def ledgerAdd (acc : BitVec 96) (t : Int) (shift : Nat) : BitVec 96 × Flg :=
  let s := acc.toInt + t * 2 ^ shift
  (BitVec.ofInt 96 s, if s < -(2 ^ 95) ∨ 2 ^ 95 - 1 < s then fLOVF else 0)

/-- R222: a ledger integer as it lies in memory: 96 bits and copies of bit 95. -/
def ledgerWords (v : BitVec 96) : List Word :=
  [v.extractLsb' 0 32, v.extractLsb' 32 32, v.extractLsb' 64 32, if v.getLsbD 95 then 0xFFFFFFFF else 0]

/-- The integer that four words hold. -/
def ledgerOf (ws : List Word) : BitVec 96 := (ws.getD 2 0 ++ ws.getD 1 0) ++ ws.getD 0 0

/-- R227: the exact form X of one output and job. -/
def ledgerX (svi sv si sw oV oI : Int) : Int := 65536 * svi - 256 * oI * sv - 256 * oV * si + oV * oI * sw

/-- R227: microjoules, in binary64 steps rounded to nearest each. -/
def ledgerJoules (x : Int) (kV kI tick : Rat) : Int :=
  let e := rn64 x
  let e := rn64 (e * kV)
  let e := rn64 (e * kI)
  let e := rn64 (e * tick)
  ratRound .nearest (rn64 (e * rn64 (mkRat 1000000 65536)))

end Sys2Proof.Machine
end

