-- ==== Sys2Proof/Machine/Roles.lean ====
section
/-! DEFINITION. Roles, function IDs and the predicates over them that several chapters share (R14 to R18, R54 to R57). -/

namespace Sys2Proof.Machine

/-! ### Function IDs (R111) -/

def fSTAGE : Nat := 1
def fCHAINA : Nat := 2
def fCHAINB : Nat := 3
def fEST : Nat := 4
def fROPE : Nat := 5
def fPAIR : Nat := 6
def fLEDGER : Nat := 7
/-- Queue `q` of engine `e`: engines 0 to 3 are CISTERN0 to CISTERN3, engine 4 is FIXED. -/
def fQueue (e q : Nat) : Nat := 0x10 + 4 * e + q
/-- FIXED.Q0. -/
def fFIXED0 : Nat := 0x20

/-- A function other than OFF holds a configuration. -/
def fnOn (s : State) (f : Nat) : Bool := decide (fnState s f ≠ .off)

/-- RUNNING or FAULTED: the states that hold claims (R112). -/
def fnLive (s : State) (f : Nat) : Bool := fnRunning s f || fnFaulted s f

/-! ### Rope and shelf roles -/

/-- ROPE runs in a role that the module has not released (R45). -/
def onRope (s : State) : Bool := fnRunning s fROPE && decide (s.clerk.ropeRole ≠ 0) && !s.rope.released

/-- R17: the active module of the manager pair heads the rope. -/
def headsRope (s : State) : Bool := onRope s && decide (s.clerk.ropeRole = 2) && s.pair.active

/-- R54: the timing head of a rope: the module that heads it, or the active module of a standalone pair. -/
def timingHead (s : State) : Bool := onRope s && s.pair.active && decide (s.clerk.ropeRole = 2 ∨ s.clerk.ropeRole = 1)

/-- R54: a follower on a rope. -/
def follower (s : State) : Bool := onRope s && !timingHead s

/-- R57: a follower that runs from REFCLK runs as an island. -/
def islandTiming (s : State) : Bool := follower s && decide (s.clk.refSrc = some .refclk)

/-- R80 TIMING. -/
def timingNum (s : State) : Nat :=
  if timingHead s then 1 else if islandTiming s then 3 else if follower s then 2 else 0

/-! ### Reference inputs (R55 to R57) -/

/-- REF_SRC as CLOCK_QUERY and records carry it. -/
def refNum : Option RefIn → Nat
  | none => 0
  | some .refclk => 1
  | some .ropeA => 2
  | some .ropeB => 3

/-- The input is qualified (R56). -/
def refQual (s : State) : RefIn → Bool
  | .refclk => s.clk.qualRefclk
  | .ropeA => s.clk.qualA
  | .ropeB => s.clk.qualB

/-- R55: the inputs that ref may take, the most preferred first. -/
def refEligible (s : State) : List RefIn :=
  if follower s then (if s.clk.prefB then [.ropeB, .ropeA, .refclk] else [.ropeA, .ropeB, .refclk]) else [.refclk]

/-- The most preferred qualified input. -/
def refBest (s : State) : Option RefIn := (refEligible s).find? (refQual s)

/-- R75, R481: at this tick ref takes its source from a REFCLK with declared spread. -/
def spreadNow (s : State) : Bool := decide (s.clk.sscPpm ≠ 0) && decide (s.clk.refSrc = some .refclk)

/-- R67: a clock has changed during the gate, so the two clocks of a measurement have no one ratio. -/
def measureBlur (s : State) : State :=
  { s with clk := { s.clk with measure := s.clk.measure.map fun m => { m with ratio := none } } }

/-- R57: ref moves to another input: the switch count, the record and the ledger's spread mark. -/
def refSwitch (new : RefIn) (s : State) : State :=
  if s.clk.refSrc = some new then s
  else
    let old := refNum s.clk.refSrc
    let s := measureBlur { s with clk := { s.clk with refSrc := some new, refSwitches := satAdd 65535 s.clk.refSwitches 1 } }
    let s := { s with clk := { s.clk with spreadSeen := s.clk.spreadSeen || spreadNow s } }
    emit 0 0 9 [packW [(old, 8), (refNum (some new), 0)]] s

/-- R57: ref follows the most preferred qualified input, if there is one. -/
def refSelect (s : State) : State :=
  match refBest s with
  | some i => refSwitch i s
  | none => s

/-- The loop domain runs: the module is up, PLL_LOOP's count has run out (R59) and the domain shows edges. -/
def loopClock (s : State) : Bool :=
  decide (s.power.life = .up) && !s.power.refLost && (s.clk.plls.getD 15 {}).locked &&
    decide ((s.clk.domains.getD 15 {}).declared ≠ .stopped)

/-- GDCLK_A and GDCLK_B toggle (R36): each converter-control die has its loop clock, and STAGE, which owns the pins, has started
since the reset (R48, R50; entry 112). Both dies take one loop domain, so both pins run or stand together. -/
def gdclkRuns (s : State) : Bool := loopClock s && s.stage.gdDriven

/-! ### Gate mask and configuration in force (R64, R66) -/

/-- Gate bit `b` is set. -/
def gateOn (s : State) (b : Nat) : Bool := s.clk.gate.getLsbD b

/-- The function that uses the peripheral of a gate bit while RUNNING or FAULTED (R66, R382). -/
def gateUser (s : State) (b : Nat) : Option Nat :=
  if (b ≤ 3 ∨ b = 11) ∧ fnLive s fROPE then some fROPE
  else if b = 4 ∧ fnLive s fCHAINA then some fCHAINA
  else if b = 5 ∧ fnLive s fCHAINB then some fCHAINB
  else if b = 9 ∧ fnLive s fSTAGE ∧ s.stage.cfg.markEn.toNat % 4096 ≠ 0 then some fSTAGE
  else if b = 10 ∧ fnLive s fSTAGE ∧ s.stage.cfg.markEn.toNat / 4096 ≠ 0 then some fSTAGE
  else if b = 20 ∧ fnLive s fPAIR then some fPAIR
  else none

/-- R66: who protects a gate bit: the function that uses it, or the owner of the claim on it. -/
def gateHolder (s : State) (b : Nat) : Option Nat := (gateUser s b).or (claimOwner s (0x100 + b))

/-- STROKE_DIV and LOOP_DIV as they stand after an accepted STROKE_CONFIG (R81). -/
def divsSet (s : State) : Nat × Nat := s.clk.nextDivs.getD (s.clk.strokeDiv, s.clk.loopDiv)

/-- No function works: every one is OFF or STOPPED (R81). -/
def allQuiet (s : State) : Bool := s.funcs.all fun f => decide (f.state = .off ∨ f.state = .stopped)

/-! ### Frequencies in force and their limits (R52, R60, R63, R580) -/

/-- R467: effective frequency of a point in Hz. -/
def pointHz (p : Nat) : Nat :=
  [1800000000, 1600000000, 1400000000, 1200000000, 1000000000, 800000000, 600000000, 400000000].getD p 0

/-- The PLL that a domain runs from (R52). -/
def pllOf (s : State) (d : Nat) : Nat :=
  if d = 3 ∨ d = 6 then (if s.therm.pll1 then 4 else 3)
  else if d = 4 ∨ d = 7 then (if s.therm.pll1 then 6 else 5)
  else if d = 5 then 7
  else if d ≤ 2 then d
  else if d = 17 then 16
  else d

/-- noc in MHz as NOC_SEL sets it (R82). -/
def nocSelMHz (s : State) : Nat := if s.clk.nocSel = 1 then 800 else if s.clk.nocSel = 2 then 1200 else 1000

/-- The divider at which Posin runs a domain: twice the tiles' for a halved SRAM die, that of NOC_SEL for noc (entry 21). -/
def domBase (s : State) (d : Nat) : Nat :=
  if d = 6 then (if s.clk.halfA then 4 else 2)
  else if d = 7 then (if s.clk.halfB then 4 else 2)
  else if d = 8 then (if s.clk.nocSel = 0 then 2 else 1 + Config.nocDivider s.clk.nocSel % 255)
  else 2

/-! ### Rope ports -/

/-- Changes the rope function's own state. -/
def ropeMod (f : Rope → Rope) (s : State) : State := { s with rope := f s.rope }

/-- Changes one port. -/
def portMod (p : Nat) (f : Port → Port) (s : State) : State := ropeMod (fun x => { x with ports := x.ports.modify p f }) s
def portOf (s : State) (p : Nat) : Port := s.rope.ports.getD p {}

/-- R319, R349, R352: `n` lines have failed their CRC on a port; they are dropped. -/
def crcFail (p n : Nat) (s : State) : State :=
  if n = 0 then s
  else portMod p (fun y => { y with crcErr := satAdd (2 ^ 32 - 1) y.crcErr n, crcNow := y.crcNow + n }) s

/-- The two ropes as a Bool: true is rope B. -/
def ropeB? : RopeSide → Bool
  | .a => false
  | .b => true

/-- R188: a rope is whole as the module sees it: at the timing head by its state under R334, elsewhere by the module's own two links and
the last frame header (entry 160). True is rope B. -/
def ropeWhole (s : State) (b : Bool) : Bool :=
  if timingHead s then decide ((if b then s.rope.stateB else s.rope.stateA) = .whole)
  else
    let up (p : Nat) : Bool := decide ((portOf s p).link = .up)
    up (if b then 2 else 0) && up (if b then 3 else 1) && !(if b then s.rope.wrapB else s.rope.wrapA)

/-- R188, R325: a request to a member leaves on the rope with fewer hops, or on the whole rope where the other is not; true is rope B. With
as many hops on both it leaves on rope A (entry 160). -/
def askRope (s : State) (member : Nat) : Bool :=
  let m := s.rope.cfg.members
  let d := (member + m - s.rope.cfg.addr) % m
  match ropeWhole s false, ropeWhole s true with
  | true, false => false
  | false, true => true
  | _, _ => decide (m - d < d)

/-- R188: a response leaves on the other rope than the request came on, or on the whole rope where one is not. -/
def replyRope (s : State) (came : Bool) : Bool :=
  match ropeWhole s false, ropeWhole s true with
  | true, false => false
  | false, true => true
  | _, _ => !came

/-- The port on which a rope's lines arrive (R320), and the one on which the partner's do (R325). -/
def portIn : RopeSide → Nat
  | .a => 0
  | .b => 2
def partnerPort (s : State) : Nat := if s.rope.cfg.addr % 2 = 0 then 2 else 0

/-- The frequency of R52 at which Posin runs a domain, in MHz. -/
def domNominal (s : State) (d : Nat) : Rat :=
  let tile : Rat := mkRat (pointHz s.therm.point) 1000000
  if d = 3 ∨ d = 4 then tile
  else if d = 6 then (if s.clk.halfA then tile / 2 else tile)
  else if d = 7 then (if s.clk.halfB then tile / 2 else tile)
  else if d = 8 then nocSelMHz s
  else if 11 ≤ d ∧ d ≤ 14 then mkRat 10625 8
  else [100, 800, 250, 0, 0, 1200, 0, 0, 0, 600, 1000, 0, 0, 0, 0, 400, 40, 40].getD d 0

/-- The frequency that a domain takes from its PLL and its divider, in MHz against a ref of 100 MHz: a raw divider scales what
Posin set, a raw multiplier gives the PLL's output as that many times ref (R580). -/
def domMHz (s : State) (d : Nat) : Rat :=
  let x := s.clk.domains.getD d {}
  let div : Rat := (x.rawDiv.getD (domBase s d) : Nat)
  match x.mult with
  | some m => 100 * (m.toNat : Rat) / div
  | none => domNominal s d * (domBase s d : Nat) / div

/-- noc in MHz in force (R80), rounded down. -/
def nocMHz (s : State) : Nat :=
  let x := s.clk.domains.getD 8 {}
  (domMHz s 8 * (x.rawDiv.getD (domBase s 8) : Nat) / (x.divider : Nat)).floor.toNat

/-- R82: the dividers of sramA, sramB and noc stand where they head. -/
def ratiosDone (s : State) : Bool :=
  [6, 7, 8].all fun d =>
    let x := s.clk.domains.getD d {}
    !x.switching && decide (x.divider = x.target)

/-- R82: the last divider step that a CLOCK_CONFIG waits for answers it. -/
def ratiosAnswer (was : Bool) (s : State) : State := if !was && ratiosDone s then answerAll .ratios .ok 0 [] s else s

/-- R60: the divider at which a domain ends on its source. -/
def domGoal (s : State) (d : Nat) : Nat := ((s.clk.domains.getD d {}).rawDiv).getD (domBase s d)

/-- R63: a cistern's SRAM dies run neither at the tiles' frequency nor at half of it: reads of their SRAM fail. -/
def sramOff (s : State) (c : Nat) : Bool :=
  let t := domMHz s (if c < 2 then 3 else 4)
  let m := domMHz s (if c < 2 then 6 else 7)
  decide (m ≠ t ∧ 2 * m ≠ t)

/-- R63: noc runs slower than the well: the well's read-return queues overflow. -/
def nocSlow (s : State) : Bool := decide (domMHz s 8 < domMHz s 9)

/-- R63: tileF exceeds eight times assayer: the Assayer samples the fixed tiles outside its window. -/
def assayerSlow (s : State) : Bool := decide (8 * domMHz s 2 < domMHz s 5)

/-- R63: loop is not four times ref: the duplicate engines drift apart. -/
def loopDrifts (s : State) : Bool := decide (domMHz s 15 ≠ 400)

/-- R63: chain is not twenty times 2 MHz: no frame keeps its CRC. -/
def chainDrifts (s : State) : Bool := decide (domMHz s 16 * domMHz s 0 ≠ 4000)

end Sys2Proof.Machine
end

