-- ==== Sys2Proof/Machine/Memory.lean ====
section
/-! DEFINITION. The device address map, who may reach what, and memory error records (R164, R172, R181 to R183, R187,
R190 to R195). -/

namespace Sys2Proof.Machine

/-! ### Tiles (R164 to R166) -/

/-- Cistern of a device tile number, and the tile's index within it. -/
def tileCist (t : Nat) : Nat := t / 12
def tileIdx (t : Nat) : Nat := t % 12

/-- R164: index 11 of each cistern is its fixed tile. -/
def tileFixed (t : Nat) : Bool := tileIdx t = 11

/-- R166: the members of a fixed pair, on die A and on die B. -/
def pairTiles (p : Nat) : Nat × Nat := if p = 0 then (11, 35) else (23, 47)

/-- The pair that a fixed tile belongs to, and its partner. -/
def tilePair (t : Nat) : Nat := if t = 11 ∨ t = 35 then 0 else 1
def tilePartner (t : Nat) : Nat := if t < 24 then t + 24 else t - 24

/-! ### Regions (R181) -/

/-- The regions of the device address map; a cistern's SRAM is divided as R172 states. -/
inductive Region where
  | wellDevice
  | wellPublished
  | wellHost
  | wellPosin
  | wellDump
  | cistGeneral (c : Nat)
  | cistInbound (c : Nat)
  | cistPrivate (c : Nat)
  | tileLocal (t : Nat)
  | selfLocal
  | unmapped
  deriving DecidableEq, Repr, Inhabited

/-- Bases that many rules name. -/
def aPublished : Nat := 0x1800000000
def aTrace : Nat := 0x1810000000
def aHost : Nat := 0x1840000000
def aPosin : Nat := 0x1FB0000000
def aDump : Nat := 0x1FF0000000
def aWellEnd : Nat := 0x2000000000
def aSelf : Nat := 0xFF00000000

/-- Base of a cistern's SRAM window. -/
def aCist (c : Nat) : Nat := 0x8000000000 + c * 0x100000000

/-- Base of a tile's local SRAM. -/
def aLocal (t : Nat) : Nat := 0x9000000000 + tileCist t * 0x100000000 + tileIdx t * 0x400000

/-- The region of one device address. -/
def regionOf (a : Nat) : Region :=
  if a < aPublished then .wellDevice
  else if a < aHost then .wellPublished
  else if a < aPosin then .wellHost
  else if a < aDump then .wellPosin
  else if a < aWellEnd then .wellDump
  else if 0x8000000000 ≤ a ∧ a < 0x8400000000 then
    let c := (a - 0x8000000000) / 0x100000000
    let o := a % 0x100000000
    if o < 0x5800000 then .cistGeneral c
    else if o < 0x5900000 then .cistInbound c
    else if o < 0x6000000 then .cistPrivate c
    else .unmapped
  else if 0x9000000000 ≤ a ∧ a < 0x9400000000 then
    let c := (a - 0x9000000000) / 0x100000000
    let o := a % 0x100000000
    if o < 12 * 0x400000 then .tileLocal (c * 12 + o / 0x400000) else .unmapped
  else if aSelf ≤ a ∧ a < aSelf + 0x400000 then .selfLocal
  else .unmapped

/-- The end of the region in which an address lies; an unmapped address counts as one byte. -/
def regionEnd (a : Nat) : Nat :=
  match regionOf a with
  | .wellDevice => aPublished
  | .wellPublished => aHost
  | .wellHost => aPosin
  | .wellPosin => aDump
  | .wellDump => aWellEnd
  | .cistGeneral c => aCist c + 0x5800000
  | .cistInbound c => aCist c + 0x5900000
  | .cistPrivate c => aCist c + 0x6000000
  | .tileLocal t => aLocal t + 0x400000
  | .selfLocal => aSelf + 0x400000
  | .unmapped => a + 1

/-- The regions that a range of bytes touches; a range touches at most twelve before it meets an unmapped address. -/
def regionsIn : Nat → Nat → Nat → List Region
  | 0, _, _ => []
  | k + 1, a, n =>
    if n = 0 then []
    else
      let e := regionEnd a
      regionOf a :: (if a + n ≤ e then [] else regionsIn k e (n - (e - a)))

/-- The regions of a range. -/
def regionsOf (a n : Nat) : List Region := regionsIn 64 a n

/-- REGION of R195: tile-local, cistern SRAM, fixed banks (R172: the fixed partition and the fixed tile's local SRAM), well. The table
has no code for an unmapped address, which a record 0x0012 may carry: the model writes 3 for it (entry 118, DESIGN CHOICE). -/
def regionNum (a : Nat) : Nat :=
  match regionOf a with
  | .tileLocal t => if tileFixed t then 2 else 0
  | .selfLocal => 0
  | .cistGeneral _ => 1
  | .cistInbound _ => 2
  | .cistPrivate _ => 2
  | _ => 3

/-- A device address as a tile reaches it: SELF names its own local SRAM (R181). -/
def tileAddr (t a : Nat) : Nat := if aSelf ≤ a ∧ a < aSelf + 0x400000 then aLocal t + (a - aSelf) else a

/-! ### Rights of tiles (R172, R175, R182) -/

/-- A tile may read a region. -/
def tileReads (t : Nat) : Region → Bool
  | .wellDevice => true
  | .wellPublished => true
  | .wellHost => true
  | .cistGeneral _ => !tileFixed t
  | .cistInbound c => tileFixed t && decide (c = tileCist t)
  | .cistPrivate c => !tileFixed t || decide (c = tileCist t)
  | .tileLocal u => decide (u = t)
  | .selfLocal => true
  | _ => false

/-- A tile may write a region. -/
def tileWrites (t : Nat) : Region → Bool
  | .wellDevice => true
  | .wellPublished => true
  | .wellHost => true
  | .cistGeneral _ => !tileFixed t
  | .cistInbound c => !tileFixed t || decide (c = tileCist t)
  | .cistPrivate c => tileFixed t && decide (c = tileCist t)
  | .tileLocal u => decide (u = t)
  | .selfLocal => true
  | _ => false

/-- A tile may read, or write, a whole range. -/
def tileMayRead (t a n : Nat) : Bool := (regionsOf a n).all (tileReads t)
def tileMayWrite (t a n : Nat) : Bool := (regionsOf a n).all (tileWrites t)

/-! ### Reads that fail (R63, R193) -/

/-- R63: reads that broken frequency limits make uncorrectable: of a cistern's SRAM and its general tiles' local SRAM while the SRAM
dies run at a wrong ratio, and of the well where a read-return queue overflows while noc is slower than well (a free choice). -/
def clockBroken (s : State) (a : Nat) : Bool := match regionOf a with
  | .cistGeneral c => sramOff s c
  | .tileLocal t => !tileFixed t && sramOff s (tileCist t)
  | .unmapped => false
  | .selfLocal => false
  | .cistInbound _ => false
  | .cistPrivate _ => false
  | _ => nocSlow s && Config.wellOverflow s.clk.stroke a

/-- The first ECC word of a range that a read finds uncorrectable (R193), as its address. -/
def damagedIn (s : State) (a n : Nat) : Option Nat :=
  if n = 0 then none else if clockBroken s a then some (eccWord a) else damagedWord s a n

/-! ### Memory records and counters (R191, R193, R195) -/

/-- DATA words 5–8 of the memory records. -/
def memData (func tile reader region addr member count : Nat) : List Word :=
  [packW [(func, 24), (tile, 16), (reader, 8), (region, 0)], lo32 addr,
   packW [(member, 16), (addr / 2 ^ 32 % 65536, 0)], w32 count]

/-- R193: a reader meets an uncorrectable error: the record 0x0010 and the region's counter. -/
def uncorrectable (func tile reader addr : Nat) (s : State) : State :=
  let r := regionNum addr
  let s := { s with diag := { s.diag with memory := bump s.diag.memory (2 * r + 1) 1 } }
  emit 2 0 0x0010 (memData func tile reader r addr 0 1) s

/-- R183: a blocked access: the record 0x0012 and its counter. -/
def blocked (func tile reader addr : Nat) (s : State) : State :=
  let s := { s with diag := { s.diag with memory := bump s.diag.memory 10 1 } }
  emit 1 0 0x0012 (memData func tile reader (regionNum addr) addr 0 1) s

/-- R189: a remote access fails or is refused: the record 0x0014 and its counter. -/
def remoteFailed (func tile reader addr member : Nat) (s : State) : State :=
  let s := { s with diag := { s.diag with memory := bump s.diag.memory 11 1 } }
  emit 1 0 0x0014 (memData func tile reader 5 addr member 1) s

/-- R191: a correctable error is counted; past 256 in a second the region writes one record. -/
def correctable (addr : Nat) (s : State) : State :=
  let r := regionNum addr
  let n := s.mem.corrSec.getD r 0 + 1
  let due := decide (256 < n) && !(s.mem.corrRec.getD r true)
  let s := { s with
    diag := { s.diag with memory := bump s.diag.memory (2 * r) 1 }
    mem := { s.mem with corrSec := s.mem.corrSec.set r n,
                        corrRec := if due then s.mem.corrRec.set r true else s.mem.corrRec } }
  if due then emit 1 0 0x0011 (memData 0 0xFF 7 r addr 0 n) s else s

/-- A 64-bit word is found uncorrectable: writes of the stroke before it do not repair it (R192). -/
def markDamaged (addr : Nat) (s : State) : State :=
  let s := memDamage addr s
  if s.mem.writes.isEmpty then s
  else { s with mem := { s.mem with writes := s.mem.writes ++ [{ addr := addr, bytes := [], seen := [] }] } }

/-- Adds to a performance counter of group 0x06 (R576). -/
def perfAdd (i n : Nat) (s : State) : State := { s with diag := { s.diag with perf := bump s.diag.perf i n } }

/-- A read of a range that lies in the well counts its bytes (R576). -/
def inWell (a : Nat) : Bool := decide (a < aWellEnd)

/-- The REF area (R281). -/
def aRef : Nat := 0x17FFFFF000

/-- R139: the published and host regions, whose lines the host may cache: before the module writes one it takes ownership with
RdOwnNoData, so no host copy is left and the host reads what was written. -/
def coherent (a n : Nat) : Bool := decide (aPublished < a + n) && decide (a < aPosin)

/-- Writes bytes in a writer's name (R185, R139). -/
def seenBytes (who : Seer) (a : Nat) (bs : List Byte) : State → State :=
  pendWrite (if coherent a bs.length then [who, .host] else [who]) a bs
def seenWords (who : Seer) (a : Nat) (ws : List Word) : State → State := seenBytes who a (bytesOf ws)

/-- The same, and counts the bytes that go to the well. -/
def devWrite (who : Seer) (a : Nat) (bs : List Byte) (s : State) : State :=
  let s := seenBytes who a bs s
  if inWell a then perfAdd 6 bs.length s else s

/-- Counts a read of well bytes. -/
def readCount (a n : Nat) (s : State) : State := if inWell a then perfAdd 5 n s else s

end Sys2Proof.Machine
end

