-- ==== Sys2Proof/Machine/Lists.lean ====
section
/-! DEFINITION. List images, their fields and operands, cycle counts and capacity (R228 to R253, R272, R281, R336). -/

namespace Sys2Proof.Machine

/-! ### Policy keys (R548, R550) -/

/-- A flag of the policy in force: 0 REQ_SIGNED_MODELS, 1 REQ_SIGNED_LISTS, 2 DENY_RAW. -/
def policyFlag (s : State) (b : Nat) : Bool := match s.boot.policy with
  | some ws => bit (ws.getD 0 0) b
  | none => false

/-- A signature of 16 words over words verifies under one of the policy's MODEL_KEYS. -/
def policySigns (s : State) (msg sig : List Word) : Bool := match s.boot.policy with
  | some ws => (List.range (ws.getD 12 0).toNat).any fun k =>
      decide (k < 4) && ed25519Words ((ws.drop (16 + 8 * k)).take 8) msg sig
  | none => false

/-! ### Element formats (R232) -/

/-- Bytes of a run of `n` elements of a format. -/
def fmtBytes (f n : Nat) : Nat :=
  match f with
  | 0x0 => 4 * n
  | 0x1 => 2 * n
  | 0x2 => 2 * n
  | 0x3 => n
  | 0x4 => n
  | 0x5 => n
  | 0x6 => n
  | 0x7 => (n + 1) / 2
  | 0x8 => n
  | 0x9 => (n + 1) / 2
  | 0xA => 4 * n
  | 0xB => 4 * n
  | 0xC => 8 * n
  | _ => 8 * n

/-- The formats that the vector and scan units read and write (R200). -/
def vecFmt (f : Nat) : Bool := decide (f ≤ 4) || decide (f = 8) || decide (f = 10)

/-- MX formats. -/
def mxFmt (f : Nat) : Bool := decide (5 ≤ f) && decide (f ≤ 7)

/-- R200: a pair of GEMM operands, and the accumulator format it gives (0 FP32, 0xA INT32, 0xC bracketed FP32). -/
def gemmAcc (a b : Nat) : Option Nat :=
  if (a = 3 ∨ a = 4) ∧ (b = 3 ∨ b = 4) then some 0
  else if (a = 5 ∨ a = 6) ∧ (b = 5 ∨ b = 6) then some 0
  else if a = 7 ∧ b = 7 then some 0
  else if a = 1 ∧ b = 1 then some 0
  else if a = 2 ∧ b = 2 then some 0
  else if a = 8 ∧ (b = 8 ∨ b = 9) then some 10
  else if a = 11 ∧ b = 11 then some 12
  else none

/-- R200: the formats in which a pair's results may be written. -/
def gemmOut (a c : Nat) : Bool :=
  if a = 1 then decide (c = 0 ∨ c = 1)
  else if a = 2 then decide (c = 0 ∨ c = 2)
  else if a = 8 then decide (c = 10)
  else if a = 11 then decide (c = 12 ∨ c = 11)
  else decide (c ≤ 4)

/-! ### Images (R233, R234) -/

/-- Word `j` of entry `i` of an image. -/
def ew (img : List Word) (i j : Nat) : Word := img.getD (16 * i + j) 0

/-- Entry `i`. -/
def entryOf (img : List Word) (i : Nat) : Line := fit 16 0 ((img.drop (16 * i)).take 16)

/-- The header's fields. -/
structure Header where
  engine   : Nat
  queue    : Nat
  signed   : Bool
  once     : Bool
  dormant  : Bool
  nArea    : Nat
  nSeg     : Nat
  nCmd     : Nat
  jobTag   : Word
  phase    : Nat
  period   : Nat
  shedMode : Nat
  fallback : Nat
  deriving DecidableEq, Repr, Inhabited

def headerOf (img : List Word) : Header :=
  let w := ew img 0
  { engine := fld (w 0) 16 3, queue := fld (w 0) 14 2, signed := bit (w 0) 13, once := bit (w 0) 12,
    dormant := bit (w 0) 11, nArea := fld (w 0) 8 3, nSeg := fld (w 0) 0 7, nCmd := fld (w 1) 0 16, jobTag := w 2,
    phase := fld (w 3) 8 6, period := fld (w 3) 0 7, shedMode := fld (w 4) 16 2, fallback := fld (w 4) 0 16 }

/-- Function ID of the queue that a header names. -/
def Header.fid (h : Header) : Nat := fQueue h.engine h.queue

def isPeriod (p : Nat) : Bool := [1, 2, 4, 8, 16, 32, 64].contains p

/-- Entry numbers at which segments and commands begin. -/
def Header.segAt (h : Header) : Nat := 1 + h.nArea
def Header.cmdAt (h : Header) : Nat := 1 + h.nArea + h.nSeg
def Header.entries (h : Header) : Nat := h.cmdAt + h.nCmd

def areaOf (e : Line) : Area :=
  let w (j : Nat) : Word := e.getD j 0
  { mirror := bit (w 0) 29, state := bit (w 0) 28, fmt := fld (w 0) 24 4, fbMax := fld (w 0) 0 8,
    base := (w 1).toNat + fld (w 2) 0 16 * 2 ^ 32, factor := fld (w 2) 16 16, size := (w 3).toNat, add := w 4 }

def segOf (e : Line) : Seg :=
  let w (j : Nat) : Word := e.getD j 0
  { firstCmd := fld (w 0) 16 16, cmds := fld (w 0) 0 16, mask := fld (w 1) 0 16, cyc := (w 2).toNat,
    waitNs := (w 3).toNat, ext := (w 4).toNat, slot := fld (w 5) 0 6 }

def areasOf (img : List Word) : List Area :=
  (List.range (headerOf img).nArea).map fun i => areaOf (entryOf img (1 + i))

def segsOf (img : List Word) : List Seg :=
  (List.range (headerOf img).nSeg).map fun i => segOf (entryOf img ((headerOf img).segAt + i))

def cmdsOf (img : List Word) : List Line :=
  (List.range (headerOf img).nCmd).map fun i => entryOf img ((headerOf img).cmdAt + i)

/-! ### Command fields (R240 to R249) -/

/-- An address field: the word that begins it. -/
def addrAt (e : Line) (j : Nat) : Nat := (e.getD j 0).toNat + fld (e.getD (j + 1) 0) 0 16 * 2 ^ 32

/-- The opcode of a command. -/
def opcOf (e : Line) : Nat := fld (e.getD 0 0) 24 8

/-- What check 5 finds in an entry: the word, and whether it is a count above 2^24 (E_BADLEN 1). -/
abbrev Bad := Option (Nat × Bool)

/-- A word has a bit outside a mask. -/
def outside (e : Line) (j : Nat) (mask : Word) : Bool × Nat × Bool := (decide (e.getD j 0 &&& ~~~mask ≠ 0), j, false)

/-- An address field: the bits above 48 are reserved. -/
def addrBad (e : Line) (j : Nat) : List (Bool × Nat × Bool) := [outside e (j + 1) 0xFFFF]

/-- Words that a command does not list. -/
def zeros (e : Line) (js : List Nat) : List (Bool × Nat × Bool) := js.map fun j => outside e j 0

/-- A field test that fails with E_RANGE at its word. -/
def bad (b : Bool) (j : Nat) : Bool × Nat × Bool := (b, j, false)

/-- An element count above 2^24. -/
def tooLong (e : Line) (j : Nat) : Bool × Nat × Bool := (decide (2 ^ 24 < fld (e.getD j 0) 0 25), j, true)

/-- R216, R246: a radius or residual that is negative or NaN. -/
def negRadius (w : Word) : Bool := (f32 w).isNan || ((f32 w).neg? && !(f32 w).isZero)

def loadStoreBad (e : Line) : List (Bool × Nat × Bool) :=
  [outside e 0 0xFF000000, bad (decide ((e.getD 1 0).toNat % 4 ≠ 0)) 1] ++ addrBad e 1 ++
  [bad (decide ((e.getD 3 0).toNat % 4 ≠ 0)) 3] ++ addrBad e 3 ++
  [outside e 5 0x7FFFFF, bad (decide ((e.getD 5 0).toNat % 4 ≠ 0)) 5, bad (decide (4194304 < (e.getD 5 0).toNat)) 5,
   outside e 6 0xFFFF] ++ zeros e [9, 10, 11, 12, 13, 14, 15]

def gemmBad (e : Line) : List (Bool × Nat × Bool) :=
  let a := fld (e.getD 0 0) 20 4
  let b := fld (e.getD 0 0) 16 4
  let c := fld (e.getD 0 0) 12 4
  let acc := gemmAcc a b
  [outside e 0 0xFFFFFC00, bad acc.isNone 0, bad (!gemmOut a c) 0,
   bad (bit (e.getD 0 0) 11 && decide (acc ≠ some c)) 0] ++
  addrBad e 1 ++ addrBad e 3 ++ addrBad e 5 ++ [outside e 8 0xFFFFFF] ++
  (if mxFmt a then [outside e 13 0xFFFF, outside e 15 0xFFFF] else zeros e [12, 13, 14, 15])

def scanBad (e : Line) : List (Bool × Nat × Bool) :=
  let w0 := e.getD 0 0
  let mode := fld w0 12 4
  let t := fld w0 8 4
  let d := fld (e.getD 10 0) 0 16
  let x := fld (e.getD 11 0) 0 17
  [outside e 0 0xFFFFFFE0, bad (!vecFmt (fld w0 20 4)) 0, bad (!vecFmt (fld w0 16 4)) 0, bad (decide (1 < mode)) 0,
   bad (decide (t = 0 ∨ 11 < t)) 0, bad (decide (mode = 1) && decide (t ≠ 1)) 0] ++
  addrBad e 1 ++ addrBad e 3 ++ addrBad e 5 ++ addrBad e 7 ++
  [outside e 9 0x1FFFFFF, tooLong e 9, outside e 10 0xFFFF, bad (decide (mode = 1) && decide (d = 0 ∨ 256 < d)) 10,
   outside e 11 0x1FFFF, bad (decide (mode = 0) && decide (65535 < x)) 11,
   bad (decide (mode = 1) && decide (x = 0 ∨ 65536 < x)) 11] ++
  zeros e [13, 14, 15]

def vecBad (e : Line) : List (Bool × Nat × Bool) :=
  let w0 := e.getD 0 0
  let op := fld w0 16 8
  let y := fld w0 8 4
  let o := fld w0 4 4
  [bad (decide (0x0F < op)) 0, bad (!vecFmt (fld w0 12 4)) 0,
   bad (if op = 0x0F then decide (y ≠ 0) || bit w0 0 || !mxFmt o
     else (if 1 ≤ op ∧ op ≤ 7 then !vecFmt y else decide (13 < y)) || !vecFmt o) 0] ++
  addrBad e 1 ++ addrBad e 3 ++ addrBad e 5 ++ addrBad e 7 ++
  [outside e 9 0x1FFFFFF, tooLong e 9] ++ zeros e [12, 13, 14, 15]

def reduceBad (e : Line) : List (Bool × Nat × Bool) :=
  let w0 := e.getD 0 0
  [outside e 0 0xFFFFFF02, bad (decide (2 < fld w0 16 8)) 0, bad (!vecFmt (fld w0 12 4)) 0, bad (!vecFmt (fld w0 8 4)) 0] ++
  addrBad e 1 ++ zeros e [3, 4] ++ addrBad e 5 ++ zeros e [7, 8] ++
  [outside e 9 0x1FFFFFF, tooLong e 9, outside e 10 0xFFFF] ++ zeros e [11, 12, 13, 14, 15]

def bracketFmtBad (op x o : Nat) : Bool :=
  let b (f : Nat) : Bool := decide (f = 11 ∨ f = 12)
  if op = 0 then !(decide (x ≤ 4) && b o)
  else if op = 0x0E then !((b x || decide (x = 13)) && (b o || decide (o = 13)) && decide (x ≠ o))
  else !(b x && b o)

def bracketBad (e : Line) : List (Bool × Nat × Bool) :=
  let w0 := e.getD 0 0
  let op := fld w0 16 8
  [outside e 0 0xFFFFFF01, bad (decide (0x0E < op)) 0, bad (bracketFmtBad op (fld w0 12 4) (fld w0 8 4)) 0] ++
  addrBad e 1 ++ addrBad e 3 ++ addrBad e 5 ++ addrBad e 7 ++
  [outside e 9 0x1FFFFFF, tooLong e 9,
   bad (negRadius (e.getD 12 0) && (decide (op = 0x0C) || (decide (op = 0) && !bit w0 0))) 12,
   bad (negRadius (e.getD 13 0) && decide (op = 0x0C)) 13] ++ zeros e [14, 15]

/-- The checks of LEDGER (R247). SHIFT32 is a bit of ADD32 only; what it does with another LOP R247 leaves open, and the model rejects it
there with E_RANGE, as R7 has a reserved bit rejected (entry 124, DESIGN CHOICE). -/
def ledgerBad (e : Line) : List (Bool × Nat × Bool) :=
  let w0 := e.getD 0 0
  let n := fld w0 0 7
  [outside e 0 0xFFF83F7F, bad (decide (4 < fld w0 20 4)) 0, bad (bit w0 19 && decide (fld w0 20 4 ≠ 1)) 0,
   bad (decide (n = 0 ∨ 64 < n ∨ 64 < fld w0 8 6 + n)) 0, bad (decide ((e.getD 1 0).toNat % 16 ≠ 0)) 1] ++
  addrBad e 1 ++ [outside e 3 0xFFFFFF] ++ zeros e [4, 5, 6, 7, 8, 9, 10, 11, 12, 13, 14, 15]

def onlyWord0 (e : Line) (mask : Word) : List (Bool × Nat × Bool) :=
  outside e 0 mask :: zeros e [1, 2, 3, 4, 5, 6, 7, 8, 9, 10, 11, 12, 13, 14, 15]

def ropeCmdBad (members : Nat) (e : Line) : List (Bool × Nat × Bool) :=
  let n := (e.getD 5 0).toNat
  [outside e 0 0xFF0007FF, bad (decide (members ≤ fld (e.getD 0 0) 0 11)) 0,
   bad (decide ((e.getD 1 0).toNat % 64 ≠ 0)) 1] ++ addrBad e 1 ++
  [bad (decide ((e.getD 3 0).toNat % 64 ≠ 0)) 3, outside e 4 0xFF, outside e 5 0x7FFFFF,
   bad (decide (n % 64 ≠ 0 ∨ n < 64 ∨ 4194304 < n)) 5] ++ zeros e [6, 7, 8, 9, 10, 11, 12, 13, 14, 15]

/-- Check 5 on one command. -/
def cmdBad (members : Nat) (e : Line) : Bad :=
  firstOf (match opcOf e with
    | 0x01 => loadStoreBad e
    | 0x02 => loadStoreBad e
    | 0x03 => gemmBad e
    | 0x04 => scanBad e
    | 0x05 => vecBad e
    | 0x06 => reduceBad e
    | 0x07 => bracketBad e
    | 0x08 => ledgerBad e
    | 0x09 => bad (decide (1 < fld (e.getD 0 0) 16 8)) 0 :: onlyWord0 e 0xFFFF003F
    | 0x0A => onlyWord0 e 0xFF00F13F
    | 0x0B => ropeCmdBad members e
    | 0x0C => ropeCmdBad members e
    | 0x0D => onlyWord0 e 0xFF00013F
    | _ => [bad true 0])

/-- Check 5 on the header, an area entry and a segment entry. -/
def headerResBad (e : Line) : Bad :=
  firstOf ([outside e 0 0xFF07FF7F, outside e 1 0xFFFF, bad (decide (fld (e.getD 1 0) 0 16 = 0)) 1, outside e 3 0x3F7F,
    outside e 4 0x3FFFF] ++
    zeros e [5, 6, 7, 8, 9, 10, 11, 12, 13, 14, 15])

def areaBad (engine : Nat) (e : Line) : Bad :=
  let a := areaOf e
  firstOf ([outside e 0 0x3F0000FF, bad (a.mirror && decide (engine = 4)) 0, bad (decide (13 < a.fmt)) 0,
    bad (decide (a.fbMax = 0)) 0, bad (decide (a.base % 64 ≠ 0)) 1, bad (decide (a.factor < 0x100)) 2,
    bad (decide (a.size % 64 ≠ 0 ∨ a.size < 64 ∨ 16384 < a.size)) 3,
    bad (if a.fmt = 11 ∨ a.fmt = 12 then negRadius a.add else if a.fmt = 13 then false else decide (a.add ≠ 0)) 4] ++
    zeros e [5, 6, 7, 8, 9, 10, 11, 12, 13, 14, 15])

def segBad (e : Line) : Bad :=
  firstOf ([outside e 1 0xFFFF, outside e 5 0x3F] ++
    zeros e [6, 7, 8, 9, 10, 11, 12, 13, 14, 15])

/-- Check 5: the first offending entry and what is wrong with it. -/
def entriesBad (members : Nat) (img : List Word) : Option (Nat × Nat × Bool) :=
  let h := headerOf img
  (List.range h.entries).findSome? fun i =>
    (if i = 0 then headerResBad (entryOf img 0)
     else if i < h.segAt then areaBad h.engine (entryOf img i)
     else if i < h.cmdAt then segBad (entryOf img i)
     else cmdBad members (entryOf img i)).map fun b => (i, b.1, b.2)

/-! ### Structure (check 6 of R251) -/

def isHalt (e : Line) : Bool := decide (opcOf e = 0x0D)

/-- Number of tiles or pairs that a mask selects. -/
def maskCount (m : Nat) : Nat := ((List.range 16).filter fun i => m.testBit i).length

/-- The first segment that breaks the order, range, mask, SLOT or HALT rules of R238: its index and the word. Where the ranges end
short of N_CMD the last segment is the one whose range is wrong. -/
def segsBad (engine period nCmd : Nat) (cmds : List Line) : Nat → Nat → Nat → List Seg → Option (Nat × Nat)
  | i, next, _, [] => if next = nCmd then none else some (i - 1, 0)
  | i, next, slot, g :: t =>
    let e := (firstBad [(decide (g.firstCmd ≠ next), 0), (decide (g.cmds = 0), 0),
      (decide (nCmd < g.firstCmd + g.cmds), 0),
      (decide (g.mask = 0) || decide (g.mask / (if engine = 4 then 4 else 2048) ≠ 0), 1),
      (decide (period ≤ g.slot), 5), (decide (g.slot < slot), 5)]).map fun w => (i, w)
    match e with
    | some x => some x
    | none => segsBad engine period nCmd cmds (i + 1) (next + g.cmds) g.slot t

/-- A segment's commands: the last is a HALT and no other is; SCAN's T is no larger than the mask. -/
def segCmdsBad (cmds : List Line) (g : Seg) : Option (Nat × Nat) :=
  (List.range g.cmds).findSome? fun i =>
    let e := cmds.getD (g.firstCmd + i) []
    (firstBad [(isHalt e != decide (i + 1 = g.cmds), 0),
      (decide (opcOf e = 4) && decide (maskCount g.mask < fld (e.getD 0 0) 8 4), 0)]).map fun w => (g.firstCmd + i, w)

/-- The first area with which the list's areas hold more than 16,384 bytes (R235). -/
def sizeBad : Nat → Nat → List Area → Option Nat
  | _, _, [] => none
  | i, sum, x :: t => if 16384 < sum + x.size then some i else sizeBad (i + 1) (sum + x.size) t

/-- Check 6: the first offending entry and word. -/
def structureBad (img : List Word) : Option (Nat × Nat) :=
  let h := headerOf img
  let cmds := cmdsOf img
  match segsBad h.engine h.period h.nCmd cmds 0 0 0 (segsOf img) with
  | some (i, w) => some (h.segAt + i, w)
  | none =>
    match (segsOf img).findSome? (segCmdsBad cmds) with
    | some (i, w) => some (h.cmdAt + i, w)
    | none => (sizeBad 0 0 (areasOf img)).map fun i => (1 + i, 3)

/-! ### Operand ranges (R168, R175, R237, R265) -/

/-- A device address as a command of an engine names it and a tile reaches it: FIXED lists name the fixed banks in the
window of C0, and each fixed tile takes its own cistern's (R265); SELF is the tile's local SRAM. -/
def listAddr (engine t a : Nat) : Nat :=
  if engine = 4 ∧ aCist 0 + 0x5800000 ≤ a ∧ a < aCist 0 + 0x6000000 then aCist (tileCist t) + (a - aCist 0)
  else tileAddr t a

/-- R168: the regions that a tile's units read and write directly. -/
def unitReads (t : Nat) : Region → Bool
  | .tileLocal u => decide (u = t)
  | .selfLocal => true
  | .cistGeneral c => !tileFixed t && decide (c = tileCist t)
  | .cistPrivate c => decide (c = tileCist t)
  | .cistInbound c => tileFixed t && decide (c = tileCist t)
  | _ => false

def unitWrites (t : Nat) : Region → Bool
  | .tileLocal u => decide (u = t)
  | .selfLocal => true
  | _ => false

/-- A range that a command declares: first word of its address field, address, bytes, whether it is written, and whether
the units (rather than the load/store path) reach it. -/
structure Range where
  word  : Nat
  addr  : Nat
  bytes : Nat
  write : Bool
  unit  : Bool
  deriving DecidableEq, Repr, Inhabited

/-- Rows of a strided operand. -/
def rowRanges (word base rows bytes stride : Nat) (write unit : Bool) : List Range :=
  if bytes = 0 then [] else
  (List.range rows).map fun r => { word := word, addr := base + r * stride, bytes := bytes, write := write, unit := unit }

/-- One contiguous operand of the units. -/
def oneRange (word base bytes : Nat) (write : Bool) : List Range :=
  if bytes = 0 then [] else [{ word := word, addr := base, bytes := bytes, write := write, unit := true }]

def mxBlocks (k : Nat) : Nat := (k + 31) / 32

/-- VEC operations with a second and a third operand. -/
def vopTwo (op : Nat) : Bool := (decide (1 ≤ op) && decide (op ≤ 7))
def vopThree (op : Nat) : Bool := decide (op = 4)

def bopTwo (op : Nat) : Bool := [1, 2, 3, 4, 8, 9].contains op

/-- Every range that a command declares. The local side of LOAD and STORE is marked as the units' own (R241). -/
def cmdRanges (e : Line) : List Range :=
  let w0 := e.getD 0 0
  match opcOf e with
  | 0x01 =>
    let n := fld (e.getD 5 0) 0 23
    let rows := fld (e.getD 6 0) 0 16 + 1
    rowRanges 1 (addrAt e 1) rows n (e.getD 7 0).toNat false false ++
    rowRanges 3 (addrAt e 3) rows n (e.getD 8 0).toNat true true
  | 0x02 =>
    let n := fld (e.getD 5 0) 0 23
    let rows := fld (e.getD 6 0) 0 16 + 1
    (rowRanges 1 (addrAt e 1) rows n (e.getD 7 0).toNat true true).map (fun r => { r with write := true }) ++
    rowRanges 3 (addrAt e 3) rows n (e.getD 8 0).toNat true false
  | 0x03 =>
    let m := fld (e.getD 7 0) 0 16
    let n := fld (e.getD 7 0) 16 16
    let k := fld (e.getD 8 0) 0 24
    let a := fld w0 20 4
    if m = 0 ∨ n = 0 then [] else
    rowRanges 1 (addrAt e 1) m (fmtBytes a k) (e.getD 9 0).toNat false true ++
    rowRanges 3 (addrAt e 3) n (fmtBytes (fld w0 16 4) k) (e.getD 10 0).toNat false true ++
    rowRanges 5 (addrAt e 5) m (fmtBytes (fld w0 12 4) n) (e.getD 11 0).toNat true true ++
    (if mxFmt a then oneRange 12 (addrAt e 12) (m * mxBlocks k) false ++ oneRange 14 (addrAt e 14) (n * mxBlocks k) false
     else [])
  | 0x04 =>
    let len := fld (e.getD 9 0) 0 25
    let d := fld (e.getD 10 0) 0 16
    let i := fmtBytes (fld w0 20 4) (len * d)
    let o := fmtBytes (fld w0 16 4) (len * d)
    if fld w0 12 4 = 1 then
      oneRange 1 (addrAt e 1) i false ++ oneRange 3 (addrAt e 3) i false ++ oneRange 5 (addrAt e 5) i false ++
      oneRange 7 (addrAt e 7) o true
    else
      oneRange 1 (addrAt e 1) i false ++ oneRange 3 (addrAt e 3) i false ++
      (if fld (e.getD 11 0) 0 17 = 0 then [] else oneRange 5 (addrAt e 5) o true) ++
      (if bit w0 6 then oneRange 7 (addrAt e 7) (4 * d) false else []) ++
      (if bit w0 5 then oneRange 7 (addrAt e 7) (4 * d) true else [])
  | 0x05 =>
    let n := fld (e.getD 9 0) 0 25
    let op := fld w0 16 8
    let x := fld w0 12 4
    oneRange 1 (addrAt e 1) (fmtBytes x n) false ++
    (if op = 0x0F then oneRange 3 (addrAt e 3) (mxBlocks n) true
     else if vopTwo op then oneRange 3 (addrAt e 3) (fmtBytes (fld w0 8 4) (if bit w0 0 then min n 1 else n)) false else []) ++
    (if vopThree op then oneRange 5 (addrAt e 5) (fmtBytes x n) false else []) ++
    oneRange 7 (addrAt e 7) (fmtBytes (fld w0 4 4) n) true
  | 0x06 =>
    let len := fld (e.getD 9 0) 0 25
    let c := fld (e.getD 10 0) 0 16
    oneRange 1 (addrAt e 1) (fmtBytes (fld w0 12 4) (len * c)) false ++
    oneRange 5 (addrAt e 5) (fmtBytes (fld w0 8 4) c) true
  | 0x07 =>
    let n := fld (e.getD 9 0) 0 25
    let op := fld w0 16 8
    let x := fld w0 12 4
    oneRange 1 (addrAt e 1) (fmtBytes x n) false ++
    (if op = 0 ∧ bit w0 0 then oneRange 3 (addrAt e 3) (4 * n) false
     else if bopTwo op then oneRange 3 (addrAt e 3) (fmtBytes x n) false else []) ++
    (if op = 4 then oneRange 5 (addrAt e 5) (fmtBytes x n) false else []) ++
    oneRange 7 (addrAt e 7) (fmtBytes (fld w0 8 4) (if op = 0x0D then 1 else n)) true
  | 0x08 =>
    let n := fld (e.getD 3 0) 0 24
    let c := fld w0 0 7
    match fld w0 20 4 with
    | 1 => oneRange 1 (addrAt e 1) (4 * n) false
    | 2 => oneRange 1 (addrAt e 1) (8 * n) false
    | 3 => oneRange 1 (addrAt e 1) (16 * c) true
    | 4 => oneRange 1 (addrAt e 1) (16 * c) false
    | _ => []
  | 0x0B => [{ word := 1, addr := addrAt e 1, bytes := fld (e.getD 5 0) 0 23, write := false, unit := false }]
  | 0x0C => [{ word := 1, addr := addrAt e 1, bytes := fld (e.getD 5 0) 0 23, write := true, unit := false }]
  | _ => []

/-- The engine of a queue's function ID. -/
def engineOf (fid : Nat) : Nat := (fid - 0x10) / 4
def queueNo (fid : Nat) : Nat := (fid - 0x10) % 4

/-- The tiles that a segment of an engine runs on. -/
def segTiles (engine mask : Nat) : List Nat :=
  if engine = 4 then
    (if mask.testBit 0 then [11, 35] else []) ++ (if mask.testBit 1 then [23, 47] else [])
  else ((List.range 11).filter fun t => mask.testBit t).map fun t => engine * 12 + t

/-- Two ranges of bytes overlap. -/
def overlap (a n b m : Nat) : Bool := decide (a < b + m) && decide (b < a + n) && decide (n ≠ 0) && decide (m ≠ 0)

/-- The whole memory of an area (R235): the status line and two copies. -/
def Area.span (a : Area) : Nat := 64 + 2 * a.size

/-- R183, R168, R175: a tile of an engine may make an access; a range past the end of its region is none (R272). -/
def accessOk (engine t : Nat) (r : Range) : Bool :=
  let a := listAddr engine t r.addr
  let rs := regionsOf a r.bytes
  decide (rs.length ≤ 1) && if r.unit then rs.all (if r.write then unitWrites t else unitReads t)
  else rs.all (if r.write then tileWrites t else tileReads t)

/-- The memory that chapters 9 to 14 reserve (R281, R336, R381, R415, R428, R485): base, size, and whether the model with ROLE 1 writes it.
The others are written by the Clerk, or by the built-in list that the table names, which no admission meets. -/
def reservedRanges : List (Nat × Nat × Bool) :=
  ((List.range 4).map fun c => (aCist c, 0x1000, false)) ++
  [(aCist 2 + 0x1000, 0x1000, false)] ++
  ((List.range 4).map fun c => (aCist c + 0x5800000, 0x1000, false)) ++
  [(aCist 0 + 0x5801000, 0x1000, true), (aCist 2 + 0x5801000, 0x1000, true),
   (aCist 0 + 0x5802000, 0x2000, false), (aCist 2 + 0x5802000, 0x2000, false),
   (aCist 1 + 0x5880000, 0x80000, false), (aCist 3 + 0x5880000, 0x80000, false),
   (aCist 1 + 0x5F00000, 0x10000, false), (aCist 3 + 0x5F00000, 0x10000, false),
   (0x17FFFFF000, 0x1000, false), (aPublished, 0x1000, false), (aPublished + 0x1000, 0x1000, true),
   (aPublished + 0x2000, 0x3000, false), (aPublished + 0x40000, 0xC0000, false)]

/-- A write of a list of a package's role touches memory that is reserved for others. -/
def reservedWrite (role a n : Nat) : Bool :=
  reservedRanges.any fun r => overlap a n r.1 r.2.1 && !(r.2.2 && decide (role = 1))

/-- Every area of the installed lists, mirrors included. -/
def mirrorBase (a : Nat) : Nat := aCist (((a - aCist 0) / 0x100000000 + 2) % 4) + a % 0x100000000

/-- The fixed banks as FIXED lists name them (R265). -/
def namesBanks (engine a : Nat) : Bool :=
  decide (engine = 4) && decide (aCist 0 + 0x5800000 ≤ a) && decide (a < aCist 0 + 0x6000000)

/-- The tiles that some segment of a list runs on. -/
def listTiles (engine : Nat) (segs : List Seg) : List Nat :=
  (List.range 48).filter fun t => segs.any fun g => (segTiles engine g.mask).contains t

/-- Where an area stands: once, or with its mirror, or once for each member of the pairs of a FIXED list (R235, R265). -/
def areaBases (engine : Nat) (segs : List Seg) (x : Area) : List Nat :=
  if namesBanks engine x.base then (listTiles engine segs).map fun t => listAddr engine t x.base
  else if x.mirror then [x.base, mirrorBase x.base] else [x.base]

/-- The areas of a list at each place where they stand. -/
def placed (engine : Nat) (segs : List Seg) (xs : List Area) : List Area :=
  xs.flatMap fun x => (areaBases engine segs x).map fun b => { x with base := b }

/-- Every area of the installed lists, wherever it stands. -/
def otherAreas (s : State) : List Area := s.lists.inst.flatMap fun l => placed (engineOf l.queue) l.segs l.areas

/-- One installed list. -/
def instOf (s : State) (id : Nat) : Option Inst := s.lists.inst.find? fun l => l.id = id

/-- R237: the owner names an area only through the range of copy 0; the mirror place of a MIRROR area is no such range. -/
def ownAccessBad (own : List Area) (a n : Nat) : Bool :=
  own.any fun x =>
    (overlap a n x.base x.span && !(decide (x.base + 64 ≤ a) && decide (a + n ≤ x.base + 64 + x.size))) ||
    (x.mirror && overlap a n (mirrorBase x.base) x.span)

/-- An area entry that stands at the same place with the same fields in both lists: such a one a list shares with its FALLBACK_LIST
(R251 check 7), and it owns it as well (R237). -/
def sharedAreas (own fb : List Area) : List Area := fb.filter fun x => own.contains x

/-- The areas of a list's FALLBACK_LIST. -/
def fallbackAreas (s : State) (id : Nat) : List Area := match instOf s id with
  | some f => placed (engineOf f.queue) f.segs f.areas
  | none => []

/-- R296: the span of a bucket. -/
def bucketBytes (st log2 : Nat) : Nat := 4096 + 2 ^ log2 * (if 0x50 ≤ st then 1024 else if 0x30 ≤ st then 16 else 4)

/-- R299: a range that begins in a bucket and runs past the end of its sample array. -/
def pastBucket (s : State) (a n : Nat) : Bool :=
  s.pipe.buckets.any fun b =>
    let e := b.base + bucketBytes b.stream b.log2len
    decide (b.base ≤ a) && decide (a < e) && decide (e < a + n)

/-- Check 7 on one access of one tile. `shared` are the areas that the list shares with its FALLBACK_LIST. -/
def rangeBad7 (s : State) (rank engine : Nat) (own shared : List Area) (t : Nat) (r : Range) : Bool :=
  let a := listAddr engine t r.addr
  !accessOk engine t r || pastBucket s a r.bytes || (r.write && reservedWrite rank a r.bytes) || ownAccessBad own r.addr r.bytes ||
  (r.write && (otherAreas s).any fun x => overlap a r.bytes x.base x.span && !shared.contains x)

/-- The ranges that an installed list declares to write, by address and bytes. -/
def declaredWrites (l : Inst) : List (Nat × Nat) :=
  let e := engineOf l.queue
  l.segs.flatMap fun g => (segTiles e g.mask).flatMap fun t =>
    ((l.cmds.drop g.firstCmd).take g.cmds).flatMap fun c =>
      ((cmdRanges c).filter (·.write)).map fun r => (listAddr e t r.addr, r.bytes)

/-- R237: an installed list declares to write a part of a new area; one that shares the area owns it too. -/
def writtenByOther (s : State) (shared : List Area) (y : Area) : Bool :=
  s.lists.inst.any fun l => !(shared.contains y && (placed (engineOf l.queue) l.segs l.areas).contains y) &&
    (declaredWrites l).any fun r => overlap y.base y.span r.1 r.2

/-- Check 7 on an area: whole in one region that a tile of the list writes, apart from reserved memory, from other lists' areas and from
what they write (R237, R272). -/
def areaBad7 (s : State) (rank engine : Nat) (segs : List Seg) (shared : List Area) (x : Area) : Bool :=
  let reached (t : Nat) : Bool :=
    let rs := regionsOf (listAddr engine t x.base) x.span
    decide (rs.length ≤ 1) && rs.all (tileWrites t)
  !((listTiles engine segs).any reached) ||
  (placed engine segs [x]).any fun y => reservedWrite rank y.base y.span || writtenByOther s shared y ||
    (otherAreas s).any fun z => overlap y.base y.span z.base z.span && !(decide (y = z) && shared.contains z)

/-- R235: a MIRROR area lies in a cistern. -/
def mirrorOk (x : Area) : Bool := !x.mirror || (decide (aCist 0 ≤ x.base) && decide (x.base < aCist 4))

/-- The areas of an image whose entries are not among those that await a place, by their entry numbers. -/
def areasPlaced (unplaced : List Nat) (xs : List Area) : List (Nat × Area) :=
  ((List.range xs.length).zip xs).filter fun p => !unplaced.contains (1 + p.1)

/-- Check 7: the first offending entry and word. An entry with an address in a section that has no place has no range yet (R305). -/
def rangesBad (s : State) (rank : Nat) (unplaced : List Nat) (img : List Word) : Option (Nat × Nat) :=
  let h := headerOf img
  let segs := segsOf img
  let own := areasPlaced unplaced (areasOf img)
  let shared := sharedAreas (placed h.engine segs (own.map (·.2))) (fallbackAreas s h.fallback)
  match own.find? (fun p => !mirrorOk p.2 || areaBad7 s rank h.engine segs shared p.2) with
  | some p => some (1 + p.1, 1)
  | none =>
    segs.findSome? fun g =>
      (List.range g.cmds).findSome? fun i =>
        let n := h.cmdAt + g.firstCmd + i
        if unplaced.contains n then none
        else (cmdRanges (entryOf img n)).findSome? fun r =>
          if (segTiles h.engine g.mask).any fun t => rangeBad7 s rank h.engine (own.map (·.2)) shared t r
          then some (n, r.word) else none

/-! ### Cycles (R170, R171, R250) -/

def ceilDiv (a b : Nat) : Nat := (a + b - 1) / b

/-- The factor F of R170 times 2, for an input format; R250 gives 4 for FP32 and INT32. -/
def fmtF2 (f : Nat) : Nat :=
  if f = 7 then 1 else if f = 1 ∨ f = 2 then 4 else if f = 11 then 16 else if f = 0 ∨ f = 10 then 8 else 2

/-- H of R250 for a tile: 2 while its cistern's SRAM runs at half the tile clock; the fixed banks keep tileF (R172). -/
def sramH (s : State) (t : Nat) : Nat :=
  if tileFixed t then 1 else if (if t < 24 then s.clk.halfA else s.clk.halfB) then 2 else 1

/-- R170. -/
def cGemm (m n k f2 : Nat) : Nat := ceilDiv m 64 * ceilDiv n 64 * (ceilDiv (k * f2) 2 + 64)

/-- Compute cycles of a command on a tile (R250). -/
def cmdCycles (s : State) (t : Nat) (e : Line) : Nat :=
  let w0 := e.getD 0 0
  let h := sramH s t
  match opcOf e with
  | 0x01 => h * (fld (e.getD 6 0) 0 16 + 1) * ceilDiv (fld (e.getD 5 0) 0 23) 512 + 32
  | 0x02 => h * (fld (e.getD 6 0) 0 16 + 1) * ceilDiv (fld (e.getD 5 0) 0 23) 512 + 32
  | 0x03 => cGemm (fld (e.getD 7 0) 0 16) (fld (e.getD 7 0) 16 16) (fld (e.getD 8 0) 0 24) (fmtF2 (fld w0 20 4))
  | 0x04 =>
    let l := fld (e.getD 9 0) 0 25
    let d := fld (e.getD 10 0) 0 16
    let tt := fld w0 8 4
    let win := fld (e.getD 11 0) 0 17
    let f2 := fmtF2 (fld w0 20 4)
    if fld w0 12 4 = 1 then
      ceilDiv l 64 * ceilDiv (win + 63) 64 * (ceilDiv (d * f2) 2 + ceilDiv d 64 * (ceilDiv (64 * f2) 2 + 64) + 128) + 32
    else if tt ≤ 1 then ceilDiv d 256 * l + 32
    else 2 * ceilDiv d 256 * ceilDiv l tt + 48 * tt
  | 0x05 =>
    let op := fld w0 16 8
    let r := if op = 0x0F then 2 else if 8 ≤ op ∧ op ≤ 0x0C then 4 else 1
    ceilDiv (fld (e.getD 9 0) 0 25) 256 * r + 16
  | 0x06 => fld (e.getD 10 0) 0 16 * (ceilDiv (fld (e.getD 9 0) 0 25) 256 + 24)
  | 0x07 =>
    let op := fld w0 16 8
    ceilDiv (fld (e.getD 9 0) 0 25) 256 * (if op = 0x0A ∨ op = 0x0B then 16 else 4) + 24
  | 0x08 =>
    let n := fld (e.getD 3 0) 0 24
    match fld w0 20 4 with
    | 0 => 8
    | 1 => n + 16
    | 2 => 2 * n + 16
    | _ => 2 * fld w0 0 7 + 16
  | 0x0B => h * ceilDiv (fld (e.getD 5 0) 0 23) 512 + 32
  | 0x0C => h * ceilDiv (fld (e.getD 5 0) 0 23) 512 + 32
  | _ => 8

/-! ### Budgets and capacity (R239, R252, R253) -/

/-- F_TILE of an engine in Hz: the frequency that applies from the next boundary, and 1.2 GHz for FIXED. -/
def fEngine (s : State) (engine : Nat) : Nat := if engine = 4 then 1200000000 else s.therm.fNext.getD s.therm.fTile

/-- The same at the present boundary. -/
def fEngineNow (s : State) (engine : Nat) : Nat := if engine = 4 then 1200000000 else s.therm.fTile

/-- R239. -/
def budget (f : Nat) (g : Seg) : Nat := g.cyc + ceilDiv (g.waitNs * f) 1000000000

/-- R252: CAP_TILE at a frequency and CAP_EXT, at a stroke divider. -/
def capTile (f div : Nat) : Nat := f * div * 98 / 10000000000
def capExt (div : Nat) : Nat := 4300 * div

/-- R229: a segment occupies a slot of the frame. -/
def occupies (period phase : Nat) (g : Seg) (slot : Nat) : Bool :=
  decide ((slot + 64 - (phase + g.slot) % 64) % period = 0)

/-- R252: a list counts in the sums unless it is DORMANT and not standing in, suspended, or replaced. A standing list that is
suspended keeps its place for the time after (R271). -/
def counts (l : Inst) : Bool :=
  (!l.dormant || l.standing) && (decide (l.shed = .none) || decide (l.shed = .stretched))

/-- The unit of a budget sum: a general tile, or a fixed pair by its die-A member. -/
def onTile (engine mask tile : Nat) : Bool :=
  if engine = 4 then (decide (tile = 11) && mask.testBit 0) || (decide (tile = 23) && mask.testBit 1)
  else decide (tileCist tile = engine) && !tileFixed tile && mask.testBit (tileIdx tile)

/-- What one list adds to a tile in a slot. -/
def listLoad (f : Nat) (l : Inst) (tile slot : Nat) : Nat :=
  ((l.segs.filter fun g => onTile (engineOf l.queue) g.mask tile && occupies l.period l.phase g slot).map (budget f)).sum

/-- The budget total of a tile in a slot. -/
def tileLoad (ls : List Inst) (f tile slot : Nat) : Nat := ((ls.filter counts).map fun l => listLoad f l tile slot).sum

/-- EXT_BYTES of a slot, module-wide. -/
def extLoad (ls : List Inst) (slot : Nat) : Nat :=
  ((ls.filter counts).map fun l => ((l.segs.filter fun g => occupies l.period l.phase g slot).map (·.ext)).sum).sum

/-- The tiles and pairs that budget sums run over, by device tile number; a pair stands under its die-A member. -/
def loadTiles : List Nat := (List.range 48).filter fun t => t ≠ 35 ∧ t ≠ 47

/-- The tiles of one engine in the order of SCHED_QUERY. -/
def engineTiles (engine : Nat) : List Nat :=
  if engine = 4 then [11, 23] else (List.range 11).map fun t => engine * 12 + t

/-- The largest value of a function over a list, and the first element that has it. -/
def maxOver (f : Nat → Nat) : List Nat → Nat × Nat
  | [] => (0, 0)
  | x :: t => let r := maxOver f t; if r.1 ≤ f x then (f x, x) else r

/-- The largest budget total of a tile over the slots, and the lowest slot that has it. -/
def tilePeak (ls : List Inst) (f tile : Nat) : Nat × Nat := maxOver (tileLoad ls f tile) (List.range 64)

/-- The largest excess over CAP_TILE on any tile: cycles, the lowest such tile, the lowest slot (R252, R253). -/
def cycleExcess (s : State) (ls : List Inst) (div : Nat) : Nat × Nat × Nat :=
  loadTiles.foldl (fun best t =>
    let f := fEngine s (if tileFixed t then 4 else tileCist t)
    let p := tilePeak ls f t
    let x := p.1 - capTile f div
    if best.1 < x then (x, t, p.2) else best) (0, 0, 0)

/-- The excess over CAP_EXT. -/
def extExcess (ls : List Inst) (div : Nat) : Nat := (maxOver (extLoad ls) (List.range 64)).1 - capExt div

/-- A shortfall of R253: tile SRAM, cistern SRAM, well pages, cycles with tile and slot, queue slots, bandwidth. -/
structure Short where
  tileSram : Nat := 0
  cistSram : Nat := 0
  well     : Nat := 0
  cycles   : Nat := 0
  tile     : Nat := 0
  slot     : Nat := 0
  qslots   : Nat := 0
  bw       : Nat := 0
  deriving DecidableEq, Repr, Inhabited

def Short.any (x : Short) : Bool :=
  decide (0 < x.tileSram) || decide (0 < x.cistSram) || decide (0 < x.well) || decide (0 < x.cycles) ||
  decide (0 < x.qslots) || decide (0 < x.bw)

/-- The response of E_RESOURCE (R253). -/
def Short.words (x : Short) : List Word :=
  let b (n : Nat) : Nat := if n = 0 then 0 else 1
  [packW [(b x.tileSram, 0), (b x.cistSram, 1), (b x.well, 2), (b x.cycles, 3), (b x.qslots, 4), (b x.bw, 5)],
   w32 x.tileSram, w32 x.cistSram, w32 x.well, w32 x.cycles, packW [(x.tile, 16), (x.slot, 0)], w32 x.qslots, w32 x.bw]

/-- Lists of one queue. -/
def queueLists (s : State) (fid : Nat) : List Inst := s.lists.inst.filter fun l => l.queue = fid

/-- R252 for a set of lists of which some queue gains `n`. -/
def shortOf (s : State) (ls : List Inst) (div : Nat) (qslots : Nat) : Short :=
  let c := cycleExcess s ls div
  { cycles := c.1, tile := c.2.1, slot := c.2.2, qslots := qslots, bw := extExcess ls div }

/-! ### An installed list from an image -/

/-- The flags that a list sets (R261, R263), in ascending order as R120 checks them. -/
def flagsSet (cmds : List Line) : List Nat :=
  (List.range 64).filter fun f => cmds.any fun e =>
    decide (opcOf e = 0x0A ∨ (opcOf e = 0x0D ∧ bit (e.getD 0 0) 8)) && decide (fld (e.getD 0 0) 0 6 = f)

/-- The list that an image installs. -/
def instFrom (id modelId : Nat) (b : Option BuiltIn) (img : List Word) : Inst :=
  let h := headerOf img
  { id := id, queue := h.fid, once := h.once, dormant := h.dormant, jobTag := h.jobTag, period0 := h.period,
    period := h.period, phase := h.phase, phase0 := h.phase, stretch := decide (h.shedMode = 1), fallback := h.fallback,
    areas := areasOf img, segs := segsOf img, cmds := cmdsOf img, setsFlags := flagsSet (cmdsOf img), builtin := b,
    modelId := modelId }

/-- The next free LIST_ID after the last one assigned (R275): non-zero, unique among installed lists. -/
def nextId (s : State) : Nat :=
  let c := (List.range (s.lists.inst.length + 1)).map fun i => (s.lists.lastId + i) % 65535 + 1
  (c.find? fun n => (instOf s n).isNone).getD 1

end Sys2Proof.Machine
end

