-- ==== Sys2Proof/Machine/Runs.lean ====
section
/-! DEFINITION. Installed lists and their runs: status lines, commit, abort, fallback, shedding and restoring, and the list
commands (R236, R251 to R279, R477, R478). -/

namespace Sys2Proof.Machine

/-! ### Installed lists -/

/-- Changes one installed list. -/
def instSet (id : Nat) (f : Inst → Inst) (s : State) : State :=
  { s with lists := { s.lists with inst := s.lists.inst.map fun l => if l.id = id then f l else l } }

/-- The places of a list's area. -/
def Inst.bases (l : Inst) (x : Area) : List Nat := areaBases (engineOf l.queue) l.segs x

/-- R236: a new status line. -/
def statusNew (id base : Nat) : State → State := seenWords .clerk base (w32 id :: List.replicate 15 0)

/-- Installs a list: its status lines are written, its flags claimed in the name of its queue (R236, R263, R275). -/
def listInstall (l : Inst) (s : State) : State :=
  let s := { s with lists := { s.lists with inst := s.lists.inst ++ [l], lastId := l.id } }
  let s := claimAll l.queue (l.setsFlags.map (0x400 + ·)) s
  (l.areas.flatMap l.bases).foldl (fun t b => statusNew l.id b t) s

/-- R271: a list is replaced by its FALLBACK_LIST, which stands in for no other list. -/
def standsOnlyFor (s : State) (l : Inst) : Bool :=
  decide (l.shed = .replaced) &&
  !s.lists.inst.any fun x => decide (x.id ≠ l.id) && decide (x.shed = .replaced) && decide (x.fallback = l.fallback)

/-- Removes a list: its flags are released unless another list of the queue sets them; its areas keep their contents (R276). The
list that stood in for it stands in no longer. Capacity grows, so shed lists are restored at the next boundary (R271). -/
def listDrop (id : Nat) (s : State) : State :=
  match instOf s id with
  | none => s
  | some l =>
    let ends (x : Inst) : Inst := if standsOnlyFor s l ∧ x.id = l.fallback then { x with standing := false } else x
    let rest := (s.lists.inst.filter fun x => x.id ≠ id).map ends
    let held := (rest.filter fun x => x.queue = l.queue).flatMap (·.setsFlags)
    { s with
      lists := { s.lists with inst := rest, shedOrder := s.lists.shedOrder.filter (· ≠ id), restoreDue := true }
      claims := s.claims.filter fun c =>
        !(decide (c.2 = l.queue) && decide (0x400 ≤ c.1) && l.setsFlags.contains (c.1 - 0x400) &&
          !held.contains (c.1 - 0x400)) }

/-! ### Status lines and copies (R236, R237) -/

def curOf (s : State) (base : Nat) : Nat := b2n (bit (memWord s base) 24)
def validOf (s : State) (base : Nat) : Bool := bit (memWord s base) 31
def fbCountOf (s : State) (base : Nat) : Nat := fld (memWord s base) 16 8

/-- Address of the current copy and of the staging copy. -/
def currentCopy (s : State) (base size : Nat) : Nat := base + 64 + curOf s base * size
def stagingCopy (s : State) (base size : Nat) : Nat := base + 64 + (1 - curOf s base) * size

/-- R257: the first words of a status line after a commit: CUR flips, VALID is set, the fallback fields clear. -/
def statusCommit (s : State) (commit : Nat) (flags : Flg) (base : Nat) : List Word :=
  let w := memWord s base
  let w4 := memWord s (base + 16)
  [packW [(1, 31), (1 - curOf s base, 24), (fld w 0 16, 0)], lo32 commit, hi32 commit, memWord s (base + 12) + 1,
   packW [(flags.toNat, 8), (fld w4 0 8, 0)]]

/-- R259: a status line after a fallback flip. -/
def statusFallback (commit cause : Nat) (unb : Bool) (base : Nat) (s : State) : State :=
  let w := memWord s base
  let w4 := memWord s (base + 16)
  memWriteWords base
    [packW [(1, 31), (1, 30), (b2n unb, 29), (1 - curOf s base, 24), (min 255 (fbCountOf s base + 1), 16), (fld w 0 16, 0)],
     lo32 commit, hi32 commit, memWord s (base + 12), packW [(fld w4 8 8, 8), (cause, 0)]] s

/-- R236: only ABORT is written. -/
def statusAbort (cause base : Nat) (s : State) : State :=
  memWriteWords (base + 16) [packW [(fld (memWord s (base + 16)) 8 8, 8), (cause, 0)]] s

/-! ### Fallback contents (R258) -/

/-- A radius of bracketed FP32 after inflation, or unbounded. -/
def inflate32 (factor : Nat) (add : Word) (unb : Bool) (x : Br) : Br :=
  match x.cls with
  | .void => x
  | .unbounded => if unb then { x with g := w32 fp32.infCode } else x
  | .valid =>
    if unb || (f32 add).isInf then { x with g := w32 fp32.infCode }
    else { x with g := (toF32 .up (ofRat (mkRat factor 256 * x.r + f32Rat add))).1 }

/-- The same for bracketed BF16, rounded upward to BF16. -/
def inflate16 (factor : Nat) (add : Word) (unb : Bool) (w : Word) : Word :=
  let x := brOfBf16 w
  match x.cls with
  | .void => w
  | .unbounded => if unb then packW [(fld w 0 16, 0), (bf16.infCode, 16)] else w
  | .valid =>
    let g := if unb || (f32 add).isInf then bf16.infCode
      else (bf16.enc .up false (ofRat (mkRat factor 256 * x.r + f32Rat add))).1
    packW [(fld w 0 16, 0), (g, 16)]

/-- The same for BW32. -/
def inflateBw (factor : Nat) (add : Word) (unb : Bool) (x : Bw) : Bw :=
  match x.cls with
  | .void => x
  | .unbounded => x
  | .valid =>
    { x with g := if unb then 0xFFFFFFFF else w32 (min (ceilDiv (factor * x.rad) 256 + add.toNat) 0xFFFFFFFF) }

/-- Words in pairs through a function. -/
def mapPairs (f : Word → Word → List Word) : List Word → List Word
  | a :: b :: t => f a b ++ mapPairs f t
  | l => l

/-- The fallback copy of an area from its current copy. -/
def fallbackWords (x : Area) (unb : Bool) (ws : List Word) : List Word :=
  if x.fmt = 12 then mapPairs (fun c g => let y := inflate32 x.factor x.add unb ⟨c, g⟩; [y.c, y.g]) ws
  else if x.fmt = 11 then ws.map (inflate16 x.factor x.add unb)
  else if x.fmt = 13 then mapPairs (fun c g => let y := inflateBw x.factor x.add unb ⟨c, g⟩; [y.c, y.g]) ws
  else ws

/-! ### Records of chapter 8 (R279) -/

def listRecord (sev code fid id seg act : Nat) (more : List Word) (s : State) : State :=
  emit sev fid code (packW [(id, 16), (seg, 8), (act, 0)] :: more) s

/-- Adds to a compute counter of group 0x05. -/
def computeAdd (i : Nat) (s : State) : State := { s with diag := { s.diag with compute := bump s.diag.compute i 1 } }

/-! ### Die temperatures (R462, R463) -/

/-- A conversion as it counts: a broken one is taken as 150 °C (R463). -/
def convValue : Option Int → Int
  | some v => v
  | none => 2400

/-- The median of three numbers. -/
def median3 (a b c : Int) : Int := max (min a b) (min (max a b) c)

/-- The conversions of a sensor, newest first. -/
def convOf (s : State) (n : Nat) : List (Option Int) := s.therm.conv.getD n []

/-- R462, R463: the die temperature of a sensor, in 1/16 °C. -/
def dieTemp (s : State) (n : Nat) : Int :=
  let c := convOf s n
  if 2 ≤ (c.filter (·.isNone)).length then 2400
  else median3 (convValue (c.getD 0 none)) (convValue (c.getD 1 none)) (convValue (c.getD 2 none))

/-! ### Compute energy (R477, R478) -/

/-- R468: the point in force. F_MAX = P1 does not cap boost, and PT at P1 does not either (entry 40). -/
def pointInForce (x : Thermal) : Nat :=
  if x.boosting then max (if x.fMax = 1 then 0 else x.fMax) (if x.pt = 1 then 0 else x.pt) else max x.fMax (max x.pt 1)

/-- R471, R538: the voltage of IVR0 or IVR1 at a point in mV, by the trim record's table; at power-on, before the trim record is loaded, its
own voltage. -/
def railAt (s : State) (ivr p : Nat) : Nat := match if ivr = 0 then s.boot.ivr0 else s.boot.ivr1 with
  | [] => Config.ivrPowerOn ivr
  | v => v.getD p 0

/-- The output of IVR0 or IVR1 in mV: the table's voltage at the PLL's point, free while the rails move (entry 41). -/
def railMv (s : State) (ivr : Nat) : Nat :=
  if s.therm.moving.isSome && !s.therm.railsUp then (Config.powerFigure s.clk.stroke (20 + ivr)).toNat
  else
    let p := match s.therm.moving with
      | some p => if s.therm.rising || s.therm.switched then p.1 else s.therm.point
      | none => s.therm.point
    railAt s ivr p

/-- The rail voltage of an engine's tiles on a die, in mV: at the point in force for the general tiles, the fixed-tile rail for the others. -/
def tileRail (s : State) (engine die : Nat) : Nat := if engine = 4 then s.boot.rails.headD 0 else railAt s die (pointInForce s.therm)

/-- R477: the energy in µJ of an engine's tiles on one die: the activity counts with their coefficients, and the leakage over the cycles. The
coefficients are taken at the rail's voltage and the die's temperature when the run ends (entry 9). -/
def dieEnergy (s : State) (engine die : Nat) (a : Nat × List Nat) : Rat :=
  let v := tileRail s engine die
  (a.2.zipIdx.map fun x => max 0 (Config.energyAt s.boot.energy x.2 v) * x.1).sum +
    max 0 (Config.leakAt s.boot.leak v (dieTemp s die)) * a.1 / fEngineNow s engine

/-- R477: the energy of a run in whole µJ; the manual does not say how the sum is rounded to them. -/
def runEnergy (s : State) (l : Inst) (r : Run) : Nat :=
  let e := dieEnergy s (engineOf l.queue) 0 r.dieA + dieEnergy s (engineOf l.queue) 1 r.dieB
  e.floor.toNat + b2n (decide (e.den ≠ 1) && Config.energyUp e)

/-- A segment's cycles and counts on a tile enter its run. -/
def Run.take (t : Nat) (g : TileSeg) (r : Run) : Run :=
  let add (a : Nat × List Nat) : Nat × List Nat := (a.1 + g.used, (List.range 21).map fun i => a.2.getD i 0 + g.acts.getD i 0)
  { r with cycles := r.cycles + g.used, dieA := if t < 24 then add r.dieA else r.dieA, dieB := if t < 24 then r.dieB else add r.dieB }

/-- So do those of every tile that still runs a segment of the list. -/
def runGather (id : Nat) (s : State) (r : Run) : Run :=
  (List.range 48).foldl (fun r t => match (s.tiles.getD t {}).seg with
    | some g => if g.listId = id then r.take t g else r
    | none => r) r

/-- Adds a charge to the entry of a job, creating it; with 4,096 entries held the charge goes to JOB_TAG 0. -/
def jobCharge (job : Word) (uj cycles : Nat) (aborted : Bool) (l : List JobEnergy) : List JobEnergy :=
  let add (e : JobEnergy) : JobEnergy := { e with
    uj := min (2 ^ 64 - 1) (e.uj + uj), runs := e.runs + 1, aborted := e.aborted + b2n aborted,
    cycles := e.cycles + cycles }
  if l.any fun e => e.job = job then l.map fun e => if e.job = job then add e else e
  else l ++ [add { job := job, uj := 0, runs := 0, aborted := 0, cycles := 0 }]

/-- R477, R478: a run is charged when it commits or aborts. -/
def energyCharge (l : Inst) (r : Run) (aborted : Bool) (s : State) : State :=
  let uj := runEnergy s l r
  let held := (s.ledger.energy.any fun e => e.job = l.jobTag) || decide (s.ledger.energy.length < 4096)
  if held then
    { s with ledger := { s.ledger with energy := jobCharge l.jobTag uj r.cycles aborted s.ledger.energy } }
  else
    let arm := s.ledger.ovfArmed
    let s := { s with ledger := { s.ledger with
      energy := jobCharge 0 uj r.cycles aborted s.ledger.energy, overflow := satAdd (2 ^ 32 - 1) s.ledger.overflow 1,
      ovfArmed := false } }
    if arm then emit 1 0 0x0906 [strokeLo s, l.jobTag] s else s

/-! ### The end of a run -/

/-- Tiles that run a segment of a list become free; points where they met or waited are forgotten. Which lines the commands in progress on
the other tiles had written is open (R256): the model writes none of them (entry 167, DESIGN CHOICE). -/
def runClear (id cause : Nat) (s : State) : State :=
  let clear (t : Tile) : Tile := match t.seg with
    | some g => if g.listId = id then
        { t with seg := none, waiting := none, count := (g.budget, g.used), lastAbort := if cause = 0 then t.lastAbort else cause }
      else t
    | none => t
  { s with
    tiles := s.tiles.map clear
    lists := { s.lists with
      signals := s.lists.signals.filter fun a => a.listId ≠ id
      barriers := s.lists.barriers.filter fun a => a.listId ≠ id
      carries := s.lists.carries.filter fun a => a.listId ≠ id } }

/-- The last slot of a list's segments: the stroke of the run's last segment. -/
def lastSlot (l : Inst) : Nat := (l.segs.map (·.slot)).foldl max 0

/-- Words that the load/store path copies from `src`, as they are written at `dst`: none that an uncorrectable word of the source feeds
(R192); such words keep what the destination holds, and each damaged word is recorded (R193). -/
def cleanCopy (v : State) (fid src dst : Nat) (ws : List Word) (s : State) : State :=
  if (damagedIn v src (4 * ws.length)).isNone then seenWords .path dst ws s
  else ws.zipIdx.foldl (fun t x =>
    match damagedIn v (src + 4 * x.2) 4 with
    | none => seenWords .path (dst + 4 * x.2) [x.1] t
    | some d => if d = src + 4 * x.2 ∨ x.2 = 0 then uncorrectable fid 0xFF 2 d t else t) s

/-- R258: the abort with which an area reaches FB_MAX. -/
def maxReached (l : Inst) (x : Area) (s : State) : Bool :=
  let v := seeAs .path s
  let b0 := (l.bases x).headD x.base
  !x.state && validOf v b0 && decide (fbCountOf v b0 + 1 = x.fbMax)

/-- R258: the fallback of one area is built in its staging copies by the load/store path; it flips at the boundary of R259. -/
def fallbackArea (l : Inst) (due seg cause : Nat) (x : Area) (s : State) : State :=
  let bs := l.bases x
  let b0 := bs.headD x.base
  let v := seeAs .path s
  let takes := !x.state && validOf v b0
  if !takes then
    { s with lists := { s.lists with
        flips := s.lists.flips ++ [{ bases := bs, cause := cause, takes := false, unbounded := false, due := due }] } }
  else
    let n := fbCountOf v b0 + 1
    let unb := decide (x.fbMax ≤ n)
    let s := bs.foldl (fun t b =>
      let cur := currentCopy v b x.size
      cleanCopy v l.queue cur (stagingCopy v b x.size) (fallbackWords x unb (memWords v cur (x.size / 4))) t) s
    let s := { s with lists := { s.lists with
      flips := s.lists.flips ++ [{ bases := bs, cause := cause, takes := true, unbounded := unb, due := due }] } }
    if n = x.fbMax then listRecord 2 0x0105 l.queue l.id seg cause [] s else s

/-- R279: at most one 0x0101 record per list in any 1,024 strokes; aborts in between are counted. -/
def abortRecord (l : Inst) (seg tile cause used : Nat) (s : State) : State :=
  let due := match l.lastRec with
    | some k => decide (1024 ≤ now s - k.toNat)
    | none => true
  let n := satAdd 65535 l.recAborts 1
  if due then
    listRecord 1 0x0101 l.queue l.id seg cause [packW [(tile, 24), (n, 0)], w32 used]
      (instSet l.id (fun x => { x with lastRec := some s.clk.stroke, recAborts := 0 }) s)
  else instSet l.id (fun x => { x with recAborts := n }) s

/-- A ONCE list is removed after its run, with record 0x0104 (R275); a LIST_REMOVE that waited for it is answered (R276). The
record of a run that committed names the last segment, whose HALT committed it. -/
def onceGone (l : Inst) (seg cause : Nat) (s : State) : State :=
  if l.once then
    let s := listRecord 0 0x0104 l.queue l.id seg cause [] (listDrop l.id s)
    if l.removing then answer (.listRemove l.id) .ok 0 [] s else s
  else s

/-- PEAK of R277: the fraction of its budget that a segment has used. -/
def peakOf (used b : Nat) : Nat := if b = 0 then 1024 else min 1024 (used * 1024 / b)

/-- R276: a removal that waited for the end of the run takes effect. -/
def removalDue (id : Nat) (s : State) : State :=
  match instOf s id with
  | some l => if l.removing then answer (.listRemove id) .ok 0 [] (listDrop id s) else s
  | none => s

/-- R210: the arithmetic flags that the segment in progress of a list has set on its tiles so far. -/
def liveFlags (id : Nat) (s : State) : Flg :=
  s.tiles.foldl (fun f t => if (t.seg.map (·.listId)) = some id then f ||| t.flags else f) 0

/-- R277: the largest fraction of its budget that the segment in progress of a list has used on a tile so far, by the commands it
has completed there. -/
def livePeak (id : Nat) (s : State) : Nat :=
  s.tiles.foldl (fun p t => match t.seg with
    | some g => if g.listId = id then max p (peakOf g.used g.budget) else p
    | none => p) 0

/-- R274: a queue that is STOPPED or RUNNING goes FAULTED and runs nothing: runs in progress end without commit and without
fallback, and a STOP that waits is answered E_FAULT (R114). -/
def queueFaulted (stop : State → State) (fid cause : Nat) (s : State) : State :=
  if fnState s fid = .off ∨ fnState s fid = .faulted then s
  else answer (.funcStop fid) .fault fid [] (stop (fnFault fid cause s))

/-- R273, R260: a run ends without commit and without fallback. -/
def runStop (id : Nat) (s : State) : State :=
  match instOf s id with
  | some l =>
    let f := liveFlags id s
    let p := livePeak id s
    if l.run.isSome then removalDue id (runClear id 0 (instSet id (fun x => { x with
      run := none, sticky := x.sticky ||| ((x.run.map (·.flags)).getD 0 ||| f), peak := max x.peak p }) s)) else s
  | none => s

/-- Every run of a queue's lists ends so. -/
def queueStopRuns (fid : Nat) (s : State) : State := (queueLists s fid).foldl (fun t l => runStop l.id t) s

/-- R274: a queue that is STOPPED or RUNNING goes FAULTED and runs nothing. -/
def queueFault (fid cause : Nat) (s : State) : State := queueFaulted (queueStopRuns fid) fid cause s

/-- R256, R258, R236: the run of a list aborts. An area of a FIXED.Q0 list that reaches FB_MAX faults that queue (R268), unless the
abort is a MISMATCH, which faults it itself (R267). -/
def runAbort (id seg tile cause used bseg : Nat) (s : State) : State :=
  match instOf s id with
  | none => s
  | some l =>
    match l.run with
    | none => s
    | some r =>
      let due := r.start.toNat + lastSlot l
      let fl := r.flags ||| liveFlags id s
      let pk := max (livePeak id s) (peakOf used bseg)
      let stop (g : TileSeg) : TileSeg := if g.listId = id then { g with used := used } else g
      let s := { s with tiles := s.tiles.modify tile fun x => { x with seg := x.seg.map stop } }
      let r' := runGather id s r
      let s := runClear id cause s
      let s := instSet id (fun x => { x with
        run := none, aborts := satAdd 65535 x.aborts 1, lastAbort := cause, peak := max x.peak pk,
        sticky := x.sticky ||| fl }) s
      let s := computeAdd (cause - 1) s
      let full := l.areas.any fun x => maxReached l x s
      let s := l.areas.foldl (fun t x => fallbackArea l due seg cause x t) s
      let s := abortRecord l seg tile cause used s
      let s := removalDue id (onceGone l seg cause (energyCharge l r' true s))
      if full ∧ l.queue = fFIXED0 ∧ cause ≠ 5 then queueFault fFIXED0 0x0302 s else s

/-- R257: a run commits: the load/store path flips every area's status lines. -/
def runCommit (id : Nat) (s : State) : State :=
  match instOf s id with
  | none => s
  | some l =>
    match l.run with
    | none => s
    | some r =>
      let s := runClear id 0 s
      let v := seeAs .path s
      let s := (l.areas.flatMap l.bases).foldl (fun t b => seenWords .path b (statusCommit v (now s + 1) r.flags b) t) s
      let s := instSet id (fun x => { x with run := none, runs := x.runs + 1, sticky := x.sticky ||| r.flags }) s
      removalDue id (onceGone l (l.segs.length - 1) 0 (energyCharge l r false s))

/-! ### Streaks (R194, R267) -/

/-- A queue's streak of strokes with an abort of one cause, at an abort: the count, and FAULTED at the sixteenth. MEMORY and ACCESS each
keep a streak of their own, so a mix of the two faults nothing (entry 120, DESIGN CHOICE). FIXED.Q0 follows the pair rules instead
(R194). -/
def streakAbort (fid cause : Nat) (s : State) : State :=
  let i := fid - 0x10
  let k := s.lists.streaks.getD i {}
  let put (k : Streak) (s : State) : State := { s with lists := { s.lists with streaks := s.lists.streaks.set i k } }
  if fid = fFIXED0 then s
  else if cause = 3 ∧ k.memNow = false then
    let s := put { k with memory := k.memory + 1, memNow := true } s
    if 15 ≤ k.memory then queueFault fid 0x0201 s else s
  else if cause = 4 ∧ k.accNow = false then
    let s := put { k with access := k.access + 1, accNow := true } s
    if 15 ≤ k.access then queueFault fid 0x0202 s else s
  else if cause = 5 ∧ k.misNow = false then
    let s := put { k with mismatch := k.mismatch + 1, misNow := true } s
    if 15 ≤ k.mismatch then queueFault fid 0x0203 s else s
  else s

/-- At a stroke boundary a streak that gained nothing in the stroke ends. -/
def streakBoundary (s : State) : State :=
  { s with lists := { s.lists with streaks := s.lists.streaks.map fun k =>
      { memory := if k.memNow then k.memory else 0, access := if k.accNow then k.access else 0,
        mismatch := if k.misNow then k.mismatch else 0 } } }

/-- An abort of a segment with the streak that its cause feeds. -/
def segAbort (id seg tile cause used bseg : Nat) (s : State) : State :=
  match instOf s id with
  | none => s
  | some l => streakAbort l.queue cause (runAbort id seg tile cause used bseg s)

/-! ### Boundary work on lists (R229, R254, R259, R269 to R271, R273) -/

/-- R259: fallbacks whose boundary has come flip their status lines. `k` is the stroke that ends. -/
def flipsBoundary (k : Nat) (s : State) : State :=
  let due := s.lists.flips.filter fun f => f.due ≤ k
  let s := { s with lists := { s.lists with flips := s.lists.flips.filter fun f => k < f.due } }
  due.foldl (fun t f => f.bases.foldl (fun u b =>
    if f.takes then statusFallback (k + 1) f.cause f.unbounded b u else statusAbort f.cause b u) t) s

/-- The tiles and slots where R252's cycle limit fails. -/
def failing (s : State) (ls : List Inst) : List (Nat × Nat) :=
  loadTiles.flatMap fun t =>
    let f := fEngineNow s (if tileFixed t then 4 else tileCist t)
    ((List.range 64).filter fun j => capTile f s.clk.strokeDiv < tileLoad ls f t j).map fun j => (t, j)

/-- A list has a segment on a failing tile in a failing slot; the first such. -/
def failsAt (l : Inst) (fs : List (Nat × Nat)) : Option (Nat × Nat) :=
  fs.find? fun p => l.segs.any fun g => onTile (engineOf l.queue) g.mask p.1 && occupies l.period l.phase g p.2

/-- R269: the next list to shed: Q3, then Q2, then Q1, highest LIST_ID first; never Q0 or FIXED. -/
def shedNext (ls : List Inst) (fs : List (Nat × Nat)) : Option (Inst × (Nat × Nat)) :=
  let cand (q : Nat) : List Inst := ls.filter fun l =>
    counts l && decide (queueNo l.queue = q) && decide (engineOf l.queue < 4) && (failsAt l fs).isSome
  let top (l : List Inst) : Option Inst := l.foldl (fun b x => match b with
    | some y => if y.id < x.id then some x else b
    | none => some x) none
  ((top (cand 3)).or ((top (cand 2)).or (top (cand 1)))).bind fun l => (failsAt l fs).map fun p => (l, p)

/-- R269: PERIOD doubles until the list no longer occupies the slot; none where it still does at 64. -/
def stretchTo (l : Inst) (tile slot : Nat) : Nat → Nat → Option Nat
  | 0, _ => none
  | k + 1, p =>
    if 64 < p then none
    else if l.segs.any fun g => onTile (engineOf l.queue) g.mask tile && occupies p l.phase g slot
    then stretchTo l tile slot k (2 * p) else some p

/-- Marks a list as shed, last shed first. -/
def shedMark (id : Nat) (s : State) : State :=
  { s with lists := { s.lists with shedOrder := id :: s.lists.shedOrder.filter (· ≠ id) } }

/-- The run in progress of a list that is shed ends with cause SHED (R270); the segment and the tile of its record are free, since no
segment has failed. -/
def shedRun (l : Inst) (s : State) : State :=
  match l.run with
  | some _ =>
    let p := takeFree s
    segAbort l.id (Config.freeNat p.2 % 256) (Config.freeNat p.2 / 256 % 256) 6 0 1 p.1
  | none => s

/-- R252: an installed list fits where it stands: in every tile and slot that it occupies, and in the bandwidth of every slot. -/
def listFits (id : Nat) (s : State) : Bool :=
  ((instOf s id).bind fun x => failsAt x (failing s s.lists.inst)).isNone &&
  decide (extExcess s.lists.inst s.clk.strokeDiv = 0)

/-- One shedding with its record (R269, R270): 0 suspended, 1 stretched, 2 replaced. -/
def shedOne (l : Inst) (p : Nat × Nat) (s : State) : State :=
  let done (act : Nat) (s : State) : State :=
    listRecord 1 0x0102 l.queue l.id 0 act [] (computeAdd 6 (shedMark l.id s))
  let suspend (s : State) : State :=
    let s := instSet l.id (fun x => { x with shed := .suspended, period := x.period0 }) (shedRun l s)
    done 0 s
  if (instOf (shedRun l s) l.id).isNone then listRecord 1 0x0102 l.queue l.id 0 0 [] (computeAdd 6 (shedRun l s))
  else if queueNo l.queue = 2 ∧ l.stretch then
    match stretchTo l p.1 p.2 7 (2 * l.period) with
    | some n => done 1 (instSet l.id (fun x => { x with shed := .stretched, period := n }) (shedRun l s))
    | none => suspend s
  else if queueNo l.queue = 1 ∧ l.fallback ≠ 0 ∧ (instOf s l.fallback).isSome then
    let try_ := instSet l.fallback (fun x => { x with standing := true })
      (instSet l.id (fun x => { x with shed := .replaced }) (shedRun l s))
    if listFits l.fallback try_ then done 2 try_ else suspend s
  else suspend s

/-- R269: lists are shed one at a time until every tile and slot fits or no candidate is left. -/
def shedAll : Nat → State → State
  | 0, s => s
  | n + 1, s =>
    match shedNext s.lists.inst (failing s s.lists.inst) with
    | none => s
    | some (l, p) => shedAll n (shedOne l p s)

/-- Enough sheddings for every list to be stretched six times, replaced and suspended. -/
def shedFuel (s : State) : Nat := 10 * s.lists.inst.length

/-- A shed list as it would stand restored (R271). -/
def restored (l : Inst) : Inst := { l with shed := .none, period := l.period0, phase := l.phase0 }

/-- R271: a FALLBACK_LIST no longer stands in: its run in progress ends with SHED; where it had itself been shed that ends too, and so does
the list that stands in for it alone. -/
def fallbackEnds : Nat → Nat → State → State
  | 0, _, s => s
  | n + 1, id, s =>
    match instOf s id with
    | none => s
    | some f =>
      let next := standsOnlyFor s f
      let s := instSet id (fun x => { restored x with standing := false }) (shedRun f s)
      let s := { s with lists := { s.lists with shedOrder := s.lists.shedOrder.filter (· ≠ id) } }
      if next then fallbackEnds n f.fallback s else s

/-- R271: a shed list is restored if it fits: its fallback steps back, and a run of the fallback in progress ends with SHED.
A list that a young history keeps replaced (R298) stays so. -/
def restoreOne (id : Nat) (s : State) : State :=
  match instOf s id with
  | none => s
  | some l =>
    if l.young then s
    else
      let ends := standsOnlyFor s l
      let try_ := instSet id restored (if ends then instSet l.fallback (fun x => { x with standing := false }) s else s)
      if listFits id try_ then
        let s := instSet id restored (if ends then fallbackEnds 16 l.fallback s else s)
        let s := { s with lists := { s.lists with shedOrder := s.lists.shedOrder.filter (· ≠ id) } }
        listRecord 0 0x0103 l.queue id 0 0 [] (computeAdd 7 s)
      else s

/-- R271: the shed lists are tried in the reverse order of shedding. -/
def restoreAll (s : State) : State := s.lists.shedOrder.foldl (fun t id => restoreOne id t) s

/-- R271: at a boundary, after capacity has grown by a removal or a queue stop. -/
def restoreBoundary (s : State) : State :=
  if s.lists.restoreDue then restoreAll { s with lists := { s.lists with restoreDue := false } } else s

/-- A run of a list begins in stroke `k` (R229, R273). -/
def beginsIn (s : State) (k : Nat) (l : Inst) : Bool :=
  fnRunning s l.queue && counts l && decide (k % l.period = l.phase % l.period) && decide (l.from_.toNat ≤ k) &&
    l.run.isNone && !l.removing

/-- Runs begin in stroke k. -/
def runsBegin (k : Nat) (s : State) : State :=
  let go (l : Inst) : Inst :=
    if beginsIn s k l then { l with run := some { start := BitVec.ofNat 64 k, done := [], flags := 0, cycles := 0 } } else l
  { s with lists := { s.lists with inst := s.lists.inst.map go } }

/-! ### Admission (R251) -/

/-- A failure inside an image: the word in detail, the entry in word 3. -/
def imgErr (c : Code) (detail entry : Nat) : Answer := .now c detail [w32 entry]

/-- Check 2: the header's ranges and the image's size in bytes, which R234 gives. -/
def headerCheck (n : Nat) (img : List Word) : Option Answer :=
  let h := headerOf img
  let w0 := ew img 0 0
  match firstBad
    [(decide (fld w0 24 8 ≠ 1), 0), (decide (4 < h.engine), 0), (decide (4 < h.nArea), 0),
     (decide (h.nSeg = 0 ∨ 64 < h.nSeg), 0), (!isPeriod h.period, 3),
     (decide (h.period ≤ h.phase), 3), (decide (1 < h.shedMode), 4)] with
  | some w => some (imgErr .range w 0)
  | none =>
    if n ≠ 64 * (h.entries + b2n h.signed) then some (errR .badLen 1) else none

/-- Check 3: the queue that the header names. -/
def queueCheck (s : State) (fid : Nat) : Option Answer :=
  match fnState s fid with
  | .off => some (errR .state 0)
  | .faulted => some (errR .fault fid)
  | .running => if queueNo fid = 0 then some (errR .state 0) else none
  | .stopped => none

/-- Check 4: with REQ_SIGNED_LISTS the image is signed by a model key (R550). -/
def listSigned (s : State) (img : List Word) : Bool :=
  let h := headerOf img
  h.signed && policySigns s (img.take (16 * h.entries)) (img.drop (16 * h.entries))

/-- Check 8. -/
def fallbackOk (s : State) (h : Header) : Bool :=
  decide (h.fallback = 0) || (match instOf s h.fallback with
    | some f => f.dormant && decide (f.queue = h.fid)
    | none => false)

/-- The list holds ROPE_GET or ROPE_PUT. -/
def usesRope (cmds : List Line) : Bool := cmds.any fun e => decide (opcOf e = 0x0B ∨ opcOf e = 0x0C)

/-- Checks 5 to 10 on an image for a rank of lists. -/
def bodyCheck (s : State) (rank : Nat) (unplaced : List Nat) (img : List Word) : Option Answer :=
  let h := headerOf img
  match entriesBad s.rope.cfg.members img with
  | some (i, w, long) => some (if long then imgErr .badLen 1 i else imgErr .range w i)
  | none =>
    match structureBad img with
    | some (i, w) => some (imgErr .range w i)
    | none =>
      match rangesBad s rank unplaced img with
      | some (i, w) => some (imgErr .range w i)
      | none =>
        if !fallbackOk s h then some (imgErr .range 4 0)
        else if usesRope (cmdsOf img) && !fnRunning s fROPE then some (errR .state 5)
        else (claimConflict s h.fid ((flagsSet (cmdsOf img)).map (0x400 + ·))).map fun c => conflictR c.1 c.2

/-- Check 11: the shortfall that one more list would cause (R252). -/
def submitShort (s : State) (l : Inst) : Short :=
  let q := (queueLists s l.queue).length
  shortOf s (s.lists.inst ++ [l]) (divsSet s).1 (if 16 ≤ q then q + 1 - 16 else 0)

/-- The stroke in which a list's first run begins (R273, R275). -/
def firstRun (s : State) (l : Inst) : Nat :=
  let n := now s + 1
  n + (l.phase + l.period - n % l.period) % l.period

/-- The answer of LIST_SUBMIT on an image of `n` bytes. -/
def submitImage (n : Nat) (img : List Word) (s : State) : State × Answer :=
  let h := headerOf img
  match firstErr [headerCheck n img, queueCheck s h.fid] with
  | some a => (s, a)
  | none =>
    if policyFlag s 1 && !listSigned s img then
      (emit 1 0 0x0B07 [strokeLo s, 0x0301] s, errR .auth 1)
    else match bodyCheck s 0 [] img with
      | some a => (s, a)
      | none =>
        let l := { instFrom (nextId s) 0 none img with from_ := s.clk.stroke + 1 }
        let sh := submitShort s l
        if sh.any then (s, .now .resource 0 sh.words)
        else
          let first := if fnRunning s l.queue && !l.dormant then lo32 (firstRun s l) else 0
          (listInstall l s, okR [w32 l.id, first])

/-- Where an image in the well may lie (R275). -/
def wellImageOk (a n : Nat) : Bool :=
  decide (a % 64 = 0) && (regionsOf a n).all fun r => decide (r = .wellDevice ∨ r = .wellHost)

/-- R193: the Clerk meets an uncorrectable error in a read: E_FAULT with detail 0, and the record. -/
def clerkRead (s : State) (a n : Nat) : Option State := (damagedIn (seeAs .clerk s) a n).map fun d => uncorrectable 0 0xFF 6 d s

/-- The image of a LIST_SUBMIT as words, where its address lets it be read (R275): SRC = 0 a host job descriptor, SRC = 1 the well. -/
def submitWords (s : State) (r : Req) (desc : HostRead) : List Word :=
  let n := (r.w 5).toNat
  let a := wide (r.w 3) (r.w 4)
  if bit (r.w 2) 0 then (if n ≤ 1048576 ∧ wellImageOk a n then memWords (seeAs .clerk s) a ((n + 3) / 4) else [])
  else match descRead a n 3 desc with
    | .ok ws => ws
    | .error _ => []

/-- What LIST_SUBMIT does after its header checks. An image in the well whose BYTES is no whole number of words has no size that
agrees (R251 check 2). -/
def listSubmitBody (r : Req) (desc : HostRead) (s : State) : State × Answer :=
  let n := (r.w 5).toNat
  guardE (rangeBad [(decide (fld (r.w 2) 1 31 ≠ 0), 2), (bit (r.w 2) 0 && decide (fld (r.w 4) 16 16 ≠ 0), 4)]) s fun s =>
    if bit (r.w 2) 0 then
      let a := wide (r.w 3) (r.w 4)
      if a % 64 ≠ 0 then (s, errR .range 3)
      else if n < 192 ∨ 1048576 < n then (s, errR .badLen 1)
      else if !wellImageOk a n then (s, errR .range 3)
      else match clerkRead s a n with
        | some s => (s, errR .fault 0)
        | none => submitImage n (submitWords s r desc) s
    else match descRead (wide (r.w 3) (r.w 4)) n 3 desc with
      | .error a => (s, a)
      | .ok ws => submitImage n ws s

/-- The queue that a LIST_SUBMIT acts on (R100): that of the image's header. -/
def submitActs (s : State) (r : Req) (desc : HostRead) : List Nat :=
  let ws := submitWords s r desc
  if ws.isEmpty then [] else [(headerOf ws).fid]

/-- LIST_SUBMIT (R275). -/
def execListSubmit (r : Req) (desc : HostRead) (s : State) : Out :=
  mailbox { op := 0x0301, onMb := mbHigh, lenOk := (· = 4), acts := submitActs s r desc } r (listSubmitBody r desc) s

/-! ### LIST_REMOVE, LIST_QUERY and SCHED_QUERY (R276 to R278) -/

/-- The checks of LIST_REMOVE. -/
def listRemoveBad (s : State) (r : Req) : Option Answer :=
  let id := fld (r.w 2) 0 16
  if fld (r.w 2) 16 16 ≠ 0 then some (errR .range 2)
  else match instOf s id with
    | none => some (errR .range 2)
    | some l =>
      firstErr
        [if s.lists.inst.any fun x => x.fallback = id then some (errR .state 1) else none,
         if fnRunning s l.queue ∧ queueNo l.queue = 0 then some (errR .state 0) else none]

/-- The queue that a list command acts on (R100): that of the list that word 2 names. -/
def queueActs (s : State) (r : Req) : List Nat := ((instOf s (fld (r.w 2) 0 16)).map (·.queue)).toList

/-- What LIST_REMOVE does after its header checks. -/
def listRemoveBody (r : Req) (s : State) : State × Answer :=
  guardE (listRemoveBad s r) s fun s =>
    let id := fld (r.w 2) 0 16
    match instOf s id with
    | none => (s, errR .range 2)
    | some l =>
      if l.run.isSome ∧ fnRunning s l.queue then
        (instSet id (fun x => { x with removing := true }) s, .later (.listRemove id))
      else (listDrop id s, okR [])

/-- LIST_REMOVE (R276): at once, or when the run in progress has ended. -/
def execListRemove (r : Req) (s : State) : Out :=
  mailbox { op := 0x0302, onMb := mbHigh, lenOk := (· = 1), acts := queueActs s r } r (listRemoveBody r) s

/-- SHED of R277. -/
def Shed.num : Shed → Nat
  | .none => 0
  | .suspended => 1
  | .stretched => 2
  | .replaced => 3

/-- The response of LIST_QUERY (R277). -/
def listWords (l : Inst) : List Word :=
  [packW [(l.id, 16), (l.queue, 8), (l.shed.num, 1), (b2n l.standing, 0)], packW [(l.phase, 8), (l.period, 0)],
   w32 l.runs, packW [(l.aborts, 16), (l.peak, 0)], packW [(l.sticky.toNat, 8), (l.lastAbort, 0)]]

/-- What LIST_QUERY does after its header checks. -/
def listQueryBody (r : Req) (s : State) : State × Answer :=
  let id := fld (r.w 2) 0 16
  match instOf s id with
  | none => (s, errR .range 2)
  | some l =>
    if fld (r.w 2) 16 16 ≠ 0 then (s, errR .range 2)
    else (instSet id (fun x => { x with sticky := 0 }) s, okR (listWords l))

/-- LIST_QUERY (R277): STICKY is cleared by the query that returns it. -/
def execListQuery (r : Req) (s : State) : Out :=
  mailbox { op := 0x0303, onMb := mbHigh, lenOk := (· = 1), acts := queueActs s r } r (listQueryBody r) s

/-- The response of SCHED_QUERY (R278), by the F_TILE and the stroke of the next boundary (R252). -/
def schedWords (s : State) (engine : Nat) : List Word :=
  let f := fEngine s engine
  [w32 (capTile f (divsSet s).1), w32 (maxOver (extLoad s.lists.inst) (List.range 64)).1] ++
  (engineTiles engine).map fun t => let p := tilePeak s.lists.inst f t; packW [(p.1, 6), (p.2, 0)]

/-- SCHED_QUERY (R278). -/
def execSchedQuery (r : Req) : State → Out :=
  mailbox { op := 0x0304, onMb := mbHigh, lenOk := (· = 1) } r (asks fun s =>
    let e := fld (r.w 2) 0 3
    if fld (r.w 2) 3 29 ≠ 0 ∨ 4 < e then errR .range 2 else okR (schedWords s e))

/-! ### Queue START (R273) -/

/-- START re-checks every list of the queue that is neither DORMANT nor suspended, and the rope. -/
def queueStartBad (s : State) (fid : Nat) : Option Answer :=
  let ls := (queueLists s fid).filter fun l => !l.dormant && decide (l.shed ≠ .suspended)
  let sh := if ls.isEmpty then {} else shortOf s s.lists.inst (divsSet s).1 0
  if sh.any then some (.now .resource 0 sh.words)
  else if (ls.any fun l => usesRope l.cmds) && !fnRunning s fROPE then some (errR .state 5)
  else none

/-- START: runs may begin from the next boundary. -/
def queueStart (fid : Nat) (s : State) : State :=
  let go (l : Inst) : Inst := if l.queue = fid then { l with from_ := s.clk.stroke + 1 } else l
  { s with lists := { s.lists with inst := s.lists.inst.map go } }

/-- R228: FUNC_OFF removes the queue's lists. -/
def queueOff (fid : Nat) (s : State) : State := (queueLists s fid).foldl (fun t l => listDrop l.id t) s

end Sys2Proof.Machine
end

