-- ==== Sys2Proof/Machine/Models.lean ====
section
/-! DEFINITION. The model pool, packages and buckets: MODEL_LOAD, MODEL_UNLOAD, MODEL_QUERY, BUCKET_SET and BUCKET_QUERY, and the
stream writer (R280, R281, R295 to R306, R310 to R314, R584). -/

namespace Sys2Proof.Machine

/-! ### Places in memory (R301, R303) -/

/-- A span of memory: first address and bytes. -/
abbrev Span := Nat × Nat

/-- The free spans between two addresses, given the used ones by rising address. -/
def freeSpans (lo hi : Nat) : List Span → List Span
  | [] => if lo < hi then [(lo, hi - lo)] else []
  | u :: t =>
    if u.1 + u.2 ≤ lo ∨ hi ≤ u.1 then freeSpans lo hi t
    else (if lo < u.1 then [(lo, u.1 - lo)] else []) ++ freeSpans (max lo (u.1 + u.2)) hi t

/-- Puts a span into a list by rising address. -/
def spanInsert (u : Span) : List Span → List Span
  | [] => [u]
  | v :: t => if u.1 ≤ v.1 then u :: v :: t else v :: spanInsert u t

/-- The free spans, their starts rounded up to a unit. -/
def freeAligned (unit lo hi : Nat) (used : List Span) : List Span :=
  (freeSpans lo hi (used.foldr spanInsert [])).filterMap fun f =>
    let a := (f.1 + unit - 1) / unit * unit
    if a < f.1 + f.2 then some (a, f.1 + f.2 - a) else none

/-- The largest free run. -/
def largestRun (fs : List Span) : Nat := (fs.map (·.2)).foldl max 0

/-- How many places a span offers. -/
def places (unit size : Nat) (f : Span) : Nat := if size ≤ f.2 then (f.2 - size) / unit + 1 else 0

/-- The `k`-th place. -/
def placeAt (unit size : Nat) : Nat → List Span → Option Nat
  | _, [] => none
  | k, f :: t => if k < places unit size f then some (f.1 + k * unit) else placeAt unit size (k - places unit size f) t

/-- The place that the Clerk takes among those that fit; which one is open (entry 33). Without a choice it is the lowest. -/
def placeIn (unit size : Nat) (free : Option Nat) (fs : List Span) : Option Nat :=
  let n := (fs.map (places unit size)).sum
  if n = 0 then none else placeAt unit size ((free.map fun f => Config.placeChoice f % n).getD 0) fs

def poolLo : Nat := 0x0800000000
def poolHi : Nat := 0x17FFFFF000

/-- Bytes of one sample of a stream (R295). -/
def sampleBytes (st : Nat) : Nat := if 0x50 ≤ st then 1024 else if 0x30 ≤ st then 16 else 4

/-- Sections of the loaded packages. -/
def allSections (s : State) : List Section := s.pipe.pkgs.flatMap (·.sections)

/-- What is used of the pool: buckets and KIND 4 sections. -/
def poolUsed (s : State) : List Span :=
  (s.pipe.buckets.map fun b => (b.base, bucketBytes b.stream b.log2len)) ++
  (((allSections s).filter fun c => c.kind = 4).map fun c => (c.base, c.size))

/-! ### Sections (R303) -/

/-- The cisterns whose memory a section takes. -/
def Section.cists (c : Section) : List Nat := if c.kind = 1 then [c.cist] else [c.cist % 4, (c.cist + 2) % 4]

/-- The tiles whose local SRAM a section takes. -/
def Section.tiles (c : Section) : List Nat := segTiles c.cist c.mask

/-- A section entry as read: kind, cistern, mask, size, its initial data, and the offset that a KIND 3 section requires. -/
structure SectIn where
  kind  : Nat
  cist  : Nat
  mask  : Nat
  size  : Nat
  off   : Nat
  bytes : Nat
  fixed : Nat
  deriving DecidableEq, Repr, Inhabited

def sectOf (e : Line) : SectIn :=
  let w (j : Nat) : Word := e.getD j 0
  { kind := fld (w 0) 28 4, cist := fld (w 0) 16 8, mask := fld (w 0) 0 11, size := (w 1).toNat, off := (w 2).toNat,
    bytes := (w 3).toNat, fixed := (w 4).toNat }

/-- The offset that a KIND 3 section requires is one that R281 leaves to it: from 0x580_4000 on and off the landed frame, or, in a ROLE 1
package, that of the forecast or the step area of C0 and C2. -/
def fixedOk (role : Nat) (c : SectIn) : Bool :=
  decide (c.kind ≠ 3 ∨ c.fixed = 0xFFFFFFFF) ||
  (decide (0x5804000 ≤ c.fixed ∧ c.fixed + c.size ≤ 0x5900000) &&
    !(decide (c.cist % 2 = 1) && overlap c.fixed c.size 0x5880000 0x80000)) ||
  (decide (role = 1 ∧ c.cist % 2 = 0 ∧ c.size ≤ 0x800) && decide (c.fixed = 0x5801000 ∨ c.fixed = 0x5801800))

/-- Check 5 of R305 on a section entry: the first offending word. -/
def sectBad (role pkgBytes : Nat) (e : Line) : Option Nat :=
  let c := sectOf e
  firstBad ([(decide (e.getD 0 0 &&& 0x0F00F800 ≠ 0), 0), (decide (5 < c.kind), 0),
    (decide (c.kind ≤ 3) && decide (3 < c.cist), 0), (decide (4 ≤ c.kind) && decide (c.cist ≠ 0), 0),
    (decide (c.kind = 0) && decide (c.mask = 0), 0), (decide (c.kind ≠ 0) && decide (c.mask ≠ 0), 0),
    (decide (c.size % (if 4 ≤ c.kind then 4096 else 64) ≠ 0), 1),
    (decide (c.off ≠ 0) && decide (pkgBytes < c.off + c.bytes), 2), (decide (c.size < c.bytes), 3),
    ((decide (c.kind ≠ 3) && decide (c.fixed ≠ 0)) || !fixedOk role c, 4)] ++
    ((List.range 11).map fun i => (decide (e.getD (5 + i) 0 ≠ 0), 5 + i)))

/-- The memory in which a kind of section lies: base, end, and the spans that are reserved there (R281). -/
def sectHome (c : SectIn) (cist : Nat) : Nat × Nat × List Span :=
  let b := aCist cist
  match c.kind with
  | 0 => (0, 0x400000, [])
  | 1 => (b, b + 0x5800000, [(b, 0x1000), (aCist 2 + 0x1000, 0x1000)])
  | 2 => (b + 0x5900000, b + 0x6000000, [(aCist 1 + 0x5F00000, 0x10000), (aCist 3 + 0x5F00000, 0x10000)])
  | 3 => (b + 0x5804000, b + 0x5900000, [(aCist 1 + 0x5880000, 0x80000), (aCist 3 + 0x5880000, 0x80000)])
  | 4 => (poolLo, poolHi, [])
  | _ => (aPublished + 0x1000000, aTrace, [])

/-- Spans that loaded sections and the new ones use in the memory of a section, seen in one cistern's or tile's offsets. -/
def sectUsed (s : State) (mine : List Section) (c : SectIn) (cist tile : Nat) : List Span :=
  let all := allSections s ++ mine
  match c.kind with
  | 0 => (all.filter fun x => decide (x.kind = 0) && x.tiles.contains tile).map fun x => (x.base - aSelf, x.size)
  | 4 => poolUsed s ++ ((mine.filter fun x => x.kind = 4).map fun x => (x.base, x.size))
  | 5 => (all.filter fun x => x.kind = 5).map fun x => (x.base, x.size)
  | k => (all.filter fun x => decide (x.kind = k) && x.cists.contains cist).map fun x =>
      (aCist cist + x.base % 0x100000000, x.size)

/-- The spans that a section's two cisterns, or all its tiles, share, at the offsets of the first. -/
def sectBusy (s : State) (mine : List Section) (c : SectIn) : List Span :=
  if c.kind = 0 then (segTiles c.cist c.mask).flatMap fun t => sectUsed s mine c c.cist t
  else if 2 ≤ c.kind ∧ c.kind ≤ 3 then
    let o := (c.cist + 2) % 4
    (sectUsed s mine c c.cist 0 ++ (sectHome c c.cist).2.2) ++
    ((sectUsed s mine c o 0 ++ (sectHome c o).2.2.filter fun u => decide (aCist o ≤ u.1) && decide (u.1 < aCist (o + 1))).map
      fun u => (aCist c.cist + u.1 % 0x100000000, u.2))
  else sectUsed s mine c c.cist 0 ++ (sectHome c c.cist).2.2

/-- The unit in which a section is placed. -/
def sectUnit (c : SectIn) : Nat := if 4 ≤ c.kind then 4096 else 64

/-- The free spans for a section. -/
def sectFree (s : State) (mine : List Section) (c : SectIn) : List Span :=
  let h := sectHome c c.cist
  freeAligned (sectUnit c) h.1 h.2.1 (sectBusy s mine c)

/-- The section that a place makes: KIND 0 by its SELF address, the others by their device address. -/
def sectPlaced (c : SectIn) (a : Nat) : Section :=
  { kind := c.kind, cist := c.cist, mask := c.mask, base := if c.kind = 0 then aSelf + a else a, size := c.size }

/-- Spans that new and loaded sections use in the two cisterns of a KIND 3 section with a required offset, at the offsets of the first. -/
def fixedBusy (s : State) (mine : List Section) (c : SectIn) : List Span :=
  let o := (c.cist + 2) % 4
  sectUsed s mine c c.cist 0 ++ (sectUsed s mine c o 0).map fun u => (aCist c.cist + u.1 % 0x100000000, u.2)

/-- A KIND 3 section requires an offset. -/
def SectIn.isFixed (c : SectIn) : Bool := decide (c.kind = 3 ∧ c.fixed ≠ 0xFFFFFFFF)

/-- Places one section: the fixed offset where KIND 3 asks for one, else a free place. -/
def placeSect (s : State) (mine : List Section) (c : SectIn) (free : Option Nat) : Option Section :=
  if c.isFixed then
    let a := aCist c.cist + c.fixed
    if (fixedBusy s mine c).any fun u => overlap a c.size u.1 u.2 then none else some (sectPlaced c a)
  else if c.size = 0 then some (sectPlaced c (sectHome c c.cist).1)
  else (placeIn (sectUnit c) c.size free (sectFree s mine c)).map (sectPlaced c)

/-- Places every section in order; none in a place where one does not fit. -/
def placeEach (s : State) (free : Option Nat) : List Section → List SectIn → List (Option Section)
  | _, [] => []
  | mine, c :: t =>
    let p := placeSect s mine c (free.map (· + mine.length))
    p :: placeEach s free (mine ++ p.toList) t

/-- The places of a package's sections: as the Clerk chooses them, or each the lowest one where that choice leaves one without a place. -/
def placeAll (s : State) (free : Nat) (cs : List SectIn) : List (Option Section) :=
  let xs := placeEach s (some free) [] cs
  if xs.all Option.isSome then xs else placeEach s none [] cs

/-- A section as it would lie at the start of its memory, for the checks of a package whose sections do not all fit. -/
def sectNominal (c : SectIn) : Section :=
  sectPlaced c (if c.isFixed then aCist c.cist + c.fixed else (sectHome c c.cist).1)

/-- The bytes by which a section without a place falls short (R306): in the worst tile of its mask, at its offset, or against the
largest free run; for the well against the pool's largest free run, where that is short. -/
def sectGap (s : State) (mine : List Section) (c : SectIn) : Nat :=
  let here := c.size - largestRun (sectFree s mine c)
  if c.kind = 0 then
    let worst := (c.size - ((segTiles c.cist c.mask).map fun t =>
      largestRun (freeAligned 64 0 0x400000 (sectUsed s mine c c.cist t))).foldl min c.size)
    if worst = 0 then here else worst
  else if c.isFixed then c.size
  else if c.kind = 5 then
    let pool := c.size - largestRun (freeAligned 4096 poolLo poolHi (poolUsed s))
    if pool = 0 then here else pool
  else here

/-- The sections that find no place, with their shortfalls. -/
def sectGaps (s : State) : List Section → List (SectIn × Option Section) → List (SectIn × Nat)
  | _, [] => []
  | mine, q :: t => match q.2 with
    | some x => sectGaps s (mine ++ [x]) t
    | none => (q.1, sectGap s mine q.1) :: sectGaps s mine t

/-- R306: the memory words of a shortfall. -/
def memShort (s : State) (cs : List (SectIn × Option Section)) (x : Short) : Short :=
  let gs := sectGaps s [] cs
  let worst (p : SectIn → Bool) : Nat := ((gs.filter fun g => p g.1).map (·.2)).foldl max 0
  { x with
    tileSram := worst fun c => decide (c.kind = 0)
    cistSram := worst fun c => decide (1 ≤ c.kind) && decide (c.kind ≤ 3)
    well := (worst (fun c => decide (4 ≤ c.kind)) + 4095) / 4096 }

/-- A section is zero-filled and takes its initial data (R303). -/
def sectFill (pkg : List Word) (c : SectIn) (x : Section) (s : State) : State :=
  let data := if c.off = 0 then [] else ((bytesOf pkg).drop c.off).take c.bytes
  let bs := data ++ List.replicate (c.size - data.length) 0
  let at_ : List Nat :=
    if c.kind = 0 then x.tiles.map fun t => aLocal t + (x.base - aSelf)
    else if c.kind = 2 ∨ c.kind = 3 then x.cists.map fun k => aCist k + x.base % 0x100000000
    else [x.base]
  at_.foldl (fun t a => seenBytes .clerk a bs t) s

/-! ### Built-in packages (R280, R584) -/

/-- A segment of a built-in list: its only command in the model is its HALT (entry 34). -/
def bSeg (i mask cyc wait ext : Nat) : Seg :=
  { firstCmd := i, cmds := 1, mask := mask, cyc := cyc, waitNs := wait, ext := ext, slot := i }

def haltCmd (sig : Bool) (f : Nat) : Line := packW [(0x0D, 24), (b2n sig, 8), (f, 0)] :: List.replicate 15 0

def bArea (mirror : Bool) (fmt fb base factor size add : Nat) : Area :=
  { mirror := mirror, state := false, fmt := fmt, fbMax := fb, base := base, factor := factor, size := size, add := w32 add }

/-- A built-in list with its segments and areas. -/
def bList (b : BuiltIn) (fid period phase : Nat) (dormant stretch : Bool) (segs : List Seg) (areas : List Area)
    (flags : List Nat) (modelId : Nat) : Inst :=
  { id := 0, queue := fid, once := false, dormant := dormant, jobTag := 0, period0 := period, period := period,
    phase := phase, phase0 := phase, stretch := stretch, fallback := 0, areas := areas, segs := segs,
    cmds := segs.mapIdx fun i _ => haltCmd (!flags.isEmpty && decide (i + 1 = segs.length)) (flags.headD 0),
    setsFlags := flags, builtin := some b, modelId := modelId }

def aForecast : Nat := aCist 0 + 0x5801000
def aStep : Nat := aCist 0 + 0x5801800
def aEstArea : Nat := aCist 2 + 0x5802000
def aRecord : Nat := aPublished
def aFcCopy : Nat := aPublished + 0x1000
/-- ALLOCATE's target area (R336), as FIXED lists name the fixed banks. -/
def aTargets : Nat := aCist 0 + 0x5F00000

/-- The areas that FORECAST and PERSIST share. -/
def fcAreas : List Area :=
  [bArea true 13 8 aForecast 0x180 576 160, bArea true 0 255 aStep 0x100 128 0, bArea false 13 8 aFcCopy 0x180 576 160]

/-- The lists of a built-in package in their order of installation: dormant ones first. -/
def builtinLists (id variant : Nat) : List Inst :=
  if id = 1 then
    [bList .dispatch fFIXED0 1 0 false false [bSeg 0 1 3600 600 8192]
       [bArea false 0 4 aRef 0x100 320 0, bArea false 0 255 aRecord 0x100 64 0] [63] 1,
     bList .allocate fFIXED0 1 0 false false [bSeg 0 2 40000 4000 0] [bArea false 0 255 aTargets 0x100 8256 0] [] 1,
     bList .estimate (fQueue 2 2) 16 8 false true [bSeg 0 0x700 24000 6000 65536]
       [bArea true 0 255 aEstArea 0x100 448 0] [] 1]
  else
    let n := 2 ^ variant
    [bList .persist (fQueue 0 1) 1 0 true false [bSeg 0 0xF 30000 3000 1048576] fcAreas [] 2,
     bList .forecast (fQueue 0 1) n 0 false false
       ((List.range n).map fun i => bSeg i 0xFF (60000 / n) (6000 / n) (2097152 / n)) fcAreas [] 2]

/-- A package as it is to be loaded: its lists with the images' fallbacks as they stand, sections and header figures. -/
structure PkgIn where
  modelId  : Nat
  role     : Nat
  variant  : Nat
  sects    : List SectIn
  lists    : List Inst
  inputs   : List Nat
  minHist  : Nat
  rAbs     : Word
  rRel     : Word
  bytes    : List Word
  deriving DecidableEq, Repr, Inhabited

/-- The built-in packages (R280, R298). -/
def builtinPkg (id variant : Nat) : PkgIn :=
  { modelId := id, role := if id = 1 then 2 else 1, variant := variant, sects := [], lists := builtinLists id variant,
    inputs := if id = 2 then [0] else [], minHist := 0, rAbs := if id = 2 then 0x437A0000 else 0,
    rRel := if id = 2 then 0x3C800000 else 0, bytes := Config.builtinPackage id }

/-! ### User packages (R301, R302, R304) -/

/-- The package header's fields. -/
def pkgSect (ws : List Word) : Nat := fld (ew ws 0 1) 24 8
def pkgList (ws : List Word) : Nat := fld (ew ws 0 1) 16 8
def pkgReloc (ws : List Word) : Nat := fld (ew ws 0 1) 0 16
def pkgSigned (ws : List Word) : Bool := bit (ew ws 0 2) 0

/-- Where the list images begin, in entries. -/
def pkgListsAt (ws : List Word) : Nat := 1 + pkgSect ws + (pkgReloc ws + 3) / 4

/-- The list images, back to back: each as its words, as far as the package holds them. -/
def pkgImages : Nat → List Word → List (List Word)
  | 0, _ => []
  | n + 1, ws =>
    let h := headerOf ws
    let k := 16 * (h.entries + b2n h.signed)
    ws.take k :: pkgImages n (ws.drop k)

def imagesOf (ws : List Word) : List (List Word) := pkgImages (min 16 (pkgList ws)) (ws.drop (16 * pkgListsAt ws))

/-- The package header's checks: the first offending word. -/
def pkgHeaderBad (ws : List Word) (n : Nat) : Option Nat :=
  let w (j : Nat) : Word := ew ws 0 j
  let id := fld (w 0) 0 16
  firstBad ([(decide (fld (w 0) 24 8 ≠ 1), 0), (decide (fld (w 0) 18 6 ≠ 0), 0), (decide (fld (w 0) 16 2 = 3), 0),
    (decide (id < 0x100), 0), (decide (pkgSect ws = 0 ∨ 32 < pkgSect ws), 1),
    (decide (pkgList ws = 0 ∨ 16 < pkgList ws), 1), (decide (fld (w 2) 1 31 ≠ 0), 2), (decide ((w 8).toNat ≠ n), 8)] ++
    ((List.range 7).map fun i => (decide (w (9 + i) ≠ 0), 9 + i)))

/-- The images and what precedes them fit into the package. -/
def pkgLayoutOk (ws : List Word) : Bool :=
  decide (16 * pkgListsAt ws + ((imagesOf ws).map (·.length)).sum + 16 * b2n (pkgSigned ws) ≤ ws.length) &&
  (imagesOf ws).all fun i => decide (16 ≤ i.length) && decide (i.length = 16 * ((headerOf i).entries + b2n (headerOf i).signed))

/-- One relocation: list index, byte offset, section, ADD (R304). -/
def relocOf (ws : List Word) (i : Nat) : Nat × Nat × Nat × Nat :=
  let w (j : Nat) : Word := ws.getD (16 * (1 + pkgSect ws) + 4 * i + j) 0
  (fld (w 0) 24 8, fld (w 0) 0 24, fld (w 1) 0 8, (w 2).toNat + fld (w 3) 0 16 * 2 ^ 32)

/-- The address that a list of an engine uses for a section. -/
def sectAddr (engine : Nat) (x : Section) : Nat :=
  if engine = 4 ∧ (x.kind = 2 ∨ x.kind = 3) then aCist 0 + x.base % 0x100000000 else x.base

/-- The images with every relocation applied, or none where one leaves its section or names no list or section. -/
def relocate (ws : List Word) (xs : List Section) (imgs : List (List Word)) : Option (List (List Word)) :=
  (List.range (pkgReloc ws)).foldl (fun acc i => acc.bind fun ims =>
    let r := relocOf ws i
    match ims[r.1]?, xs[r.2.2.1]? with
    | some im, some x =>
      if r.2.1 % 4 ≠ 0 ∨ im.length < r.2.1 / 4 + 2 ∨ x.size ≤ r.2.2.2 then none
      else
        let a := sectAddr (headerOf im).engine x + r.2.2.2
        let k := r.2.1 / 4
        some (ims.set r.1 ((im.set k (lo32 a)).set (k + 1)
          (packW [(fld (im.getD (k + 1) 0) 16 16, 16), (a / 2 ^ 32 % 65536, 0)])))
    | _, _ => none) (some imgs)

/-- The entries of a list into which a relocation would write the address of a section that has no place. -/
def openEntries (ws : List Word) (xs : List (Option Section)) (list : Nat) : List Nat :=
  (List.range (pkgReloc ws)).filterMap fun i =>
    let r := relocOf ws i
    if r.1 = list ∧ (xs.getD r.2.2.1 none).isNone then some (r.2.1 / 64) else none

/-- The package of an image from host or well memory, with its lists as relocated. -/
def userPkg (ws : List Word) (imgs : List (List Word)) : PkgIn :=
  let w (j : Nat) : Word := ew ws 0 j
  let ids := (natBytes 4 (w 6).toNat ++ natBytes 4 (w 7).toNat).map (·.toNat)
  { modelId := fld (w 0) 0 16, role := fld (w 0) 16 2, variant := 0,
    sects := (List.range (pkgSect ws)).map fun i => sectOf (entryOf ws (1 + i)),
    lists := imgs.map (instFrom 0 (fld (w 0) 0 16) none), inputs := ids.filter (· ≠ 0xFF), minHist := (w 5).toNat,
    rAbs := w 3, rRel := w 4, bytes := ws }

/-! ### MODEL_LOAD (R305, R310) -/

/-- The mailbox of a command that waits and acts on a function: it is not the command whose body runs. -/
def waitingActs (s : State) (f : Nat) : Option Nat :=
  (List.range 4).find? fun n => match (s.mbs.getD n {}).busy with
    | some b => decide (b.waits ≠ .body) && b.acts.contains f
    | none => false

/-- Check 1: the queues that the lists name. That another mailbox's command acts on one of them comes before their states (R582). -/
def pkgQueues (s : State) (ls : List Inst) : Option Answer :=
  firstErr [(ls.findSome? fun l => waitingActs s l.queue).map (errR .busy), ls.findSome? fun l => queueCheck s l.queue]

/-- Check 4: not loaded yet, inputs set, and one ROLE 1 package at most. -/
def pkgPresent (s : State) (p : PkgIn) : Option Answer :=
  if s.pipe.pkgs.any fun q => q.modelId = p.modelId then some (errR .state 6)
  else if p.inputs.any fun i => !(s.pipe.buckets.any fun b => b.stream = i) then some (errR .state 4)
  else if p.role = 1 ∧ (s.pipe.pkgs.any fun q => q.role = 1) then some (errR .state 7)
  else none

/-- Check 5 on the residual. -/
def pkgResidual (p : PkgIn) : Option Answer :=
  if negRadius p.rAbs then some (errR .range 3) else if negRadius p.rRel then some (errR .range 4) else none

/-- The LIST_IDs that a package's DORMANT lists take if they are installed first. -/
def dormantIds (s : State) (ls : List Inst) : List Nat :=
  ((ls.filter (·.dormant)).foldl (fun (p : State × List Nat) l =>
    let n := nextId p.1
    ({ p.1 with lists := { p.1.lists with inst := p.1.lists.inst ++ [{ l with id := n }], lastId := n } }, p.2 ++ [n])) (s, [])).2

/-- R305: a package's lists name each other as FALLBACK_LIST: one names the LIST_ID that a DORMANT one of them takes (entry 172). -/
def namesOwn (s : State) (ls : List Inst) : Bool :=
  let ids := dormantIds s ls
  ls.any fun l => decide (l.fallback ≠ 0) && ids.contains l.fallback

/-- R305: lists install in image order; where the package's lists name each other, the DORMANT ones first. -/
def orderOf {α : Type} (named : Bool) (dormant : α → Bool) (xs : List α) : List α :=
  if named then xs.filter dormant ++ xs.filter fun x => !dormant x else xs

/-- FORECAST names PERSIST, which was installed before it (R298). -/
def withFallback (s : State) (l : Inst) : Inst :=
  if l.builtin = some .forecast then { l with fallback := s.lists.lastId } else l

/-- Installs the lists of a package one after another; the IDs they take. -/
def installAll (s : State) (ls : List Inst) : State × List Nat :=
  ls.foldl (fun (p : State × List Nat) l =>
    let l := { withFallback p.1 l with id := nextId p.1, from_ := p.1.clk.stroke + 1 }
    (listInstall l p.1, p.2 ++ [l.id])) (s, [])

/-- An image of a package: as it stands there, after relocation, and its entries with an address in a section that has no place. -/
structure PkgImage where
  raw      : List Word
  placed   : List Word
  unplaced : List Nat
  deriving DecidableEq, Repr, Inhabited

/-- A list as the checks of the next one meet it: without what has no place yet. -/
def instPlaced (id : Nat) (x : PkgImage) : Inst :=
  let l := instFrom id 0 none x.placed
  let at_ := (headerOf x.placed).cmdAt
  { l with
    areas := (areasPlaced x.unplaced l.areas).map (·.2)
    cmds := l.cmds.mapIdx fun i c => if x.unplaced.contains (at_ + i) then haltCmd false 0 else c }

/-- Checks 2 and 4 to 10 of R251 on the images of a package, each against the lists installed before it. Where a policy asks for signed
lists, a package's verified signature covers them (R550); without one each list's own counts, over the image as it stands in the package
(entry 130). -/
def imagesBad (role : Nat) (covered : Bool) : State → List PkgImage → Option Answer
  | _, [] => none
  | s, x :: t =>
    match firstErr [headerCheck (4 * x.placed.length) x.placed,
      if policyFlag s 1 && !covered && !listSigned s x.raw then some (errR .auth 1) else none,
      bodyCheck s role x.unplaced x.placed] with
    | some a => some a
    | none => imagesBad role covered (listInstall (instPlaced (nextId s) x) s) t

/-- A refused signature is recorded (R550). -/
def authRecord (op : Nat) (a : Answer) (s : State) : State :=
  if a = errR .auth 1 then emit 1 0 0x0B07 [strokeLo s, w32 op] s else s

/-- The shortfall of a package (R252, R305 step 6, R306). -/
def pkgShort (s : State) (p : PkgIn) (xs : List (Option Section)) : Short :=
  let excess := (p.lists.map (·.queue)).foldl (fun n q =>
    max n ((queueLists s q).length + (p.lists.filter fun l => l.queue = q).length - 16)) 0
  memShort s (p.sects.zip xs) (shortOf s (s.lists.inst ++ p.lists) (divsSet s).1 excess)

/-- S_FC of R307: PERIOD and the SLOT of the last segment of the package's forecaster. -/
def sfcOf (ls : List Inst) : Nat := match ls.find? fun l => !l.dormant with
  | some l => l.period0 + lastSlot l
  | none => 0

/-- R303: the areas of a ROLE 1 package are KIND 3 sections at the offsets of R281. -/
def role1Ok (p : PkgIn) : Bool :=
  decide (p.role ≠ 1) ||
  [0x5801000, 0x5801800].all fun o => p.sects.any fun c => decide (c.kind = 3 ∧ c.cist % 2 = 0 ∧ c.fixed = o)

/-- R300: the strokes, at most 256, that package 0x0002 takes to rebuild FORECAST's state; how many is open (entry 131). -/
def anchorOf (p : PkgIn) (s : State) : Nat := if p.modelId = 2 then 1 + Config.freeNat (now s) % 256 else 0

/-- The package is loaded: sections filled, lists installed, the measurement made (R303, R305, R546). -/
def pkgInstall (p : PkgIn) (xs : List Section) (s : State) : State × List Nat :=
  let s := (p.sects.zip xs).foldl (fun t q => sectFill p.bytes q.1 q.2 t) s
  let r := installAll s (orderOf (namesOwn s p.lists) (·.dormant) p.lists)
  let s := { r.1 with pipe := { r.1.pipe with pkgs := r.1.pipe.pkgs ++
    [{ modelId := p.modelId, role := p.role, variant := p.variant, listIds := r.2, sections := xs, inputs := p.inputs,
       minHist := p.minHist, rAbs := p.rAbs, rRel := p.rRel, young := false, stand := false,
       anchor := anchorOf p s, digest := digestOf p.bytes }] } }
  (measure 6 p.modelId [w32 p.variant, strokeLo s, strokeHi s] (digestOf p.bytes) s, r.2)

/-- MODEL_LOAD once the package stands: check 6, then the load. -/
def pkgLoad (p : PkgIn) (xs : List (Option Section)) (s : State) : State × Answer :=
  let sh := pkgShort s p xs
  if sh.any ∨ xs.any Option.isNone then (s, .now .resource 0 sh.words)
  else
    let r := pkgInstall p (xs.filterMap id) s
    (r.1, okR [w32 p.modelId, packW [(p.lists.length, 0), (if p.role = 1 then sfcOf p.lists else 0, 8)]])

/-- The signature entry that ends a package verifies under one of the policy's MODEL_KEYS. -/
def pkgPolicySigned (s : State) (ws : List Word) : Bool :=
  pkgSigned ws && policySigns s (ws.take (ws.length - 16)) (ws.drop (ws.length - 16))

/-- MODEL_LOAD of a built-in package. Its image's signature is its vendor's (entry 173); REQ_SIGNED_MODELS asks of it what it asks of
any package. -/
def loadBuiltin (id variant : Nat) (s : State) : State × Answer :=
  let p := builtinPkg id variant
  if policyFlag s 0 ∧ pkgQueues s p.lists = none ∧ pkgPolicySigned s p.bytes = false then
    (emit 1 0 0x0B07 [strokeLo s, 0x0310] s, errR .auth 1)
  else guardE (firstErr [pkgQueues s p.lists, pkgPresent s p,
    (claimConflict s fFIXED0 (p.lists.flatMap fun l => l.setsFlags.map (0x400 + ·))).map fun c => conflictR c.1 c.2]) s
    (pkgLoad p [])

/-- The key that a ROLE 2 package must be signed with: SIGNER_KEY of the running image's manifest (R535, R536, R550). -/
def signerKey (s : State) : List Word := (s.boot.running.drop 976).take 8

/-- Check 3: signatures. -/
def pkgAuth (s : State) (ws : List Word) : Option Answer :=
  if fld (ew ws 0 0) 16 2 = 2 ∧
      (pkgSigned ws && ed25519Words (signerKey s) (ws.take (ws.length - 16)) (ws.drop (ws.length - 16))) = false then
    some (errR .auth 2)
  else if policyFlag s 0 && !pkgPolicySigned s ws then some (errR .auth 1)
  else none

/-- MODEL_LOAD of a package from host or well memory. -/
def loadUser (ws : List Word) (n : Nat) (s : State) : State × Answer :=
  let imgs := imagesOf ws
  match firstErr [pkgQueues s ((imgs.filter fun i => (headerOf i).engine ≤ 4).map (instFrom 0 0 none)), (pkgHeaderBad ws n).map fun w => imgErr .range w 0,
      if pkgLayoutOk ws then none else some (errR .badLen 1)] with
  | some a => (s, a)
  | none =>
    match pkgAuth s ws with
    | some a => (emit 1 0 0x0B07 [strokeLo s, 0x0310] s, a)
    | none =>
      let p := userPkg ws imgs
      match firstErr [pkgPresent s p, pkgResidual p,
          (List.range (pkgSect ws)).findSome? fun i =>
            (sectBad p.role n (entryOf ws (1 + i))).map fun w => imgErr .range w (1 + i),
          if role1Ok p then none else some (errR .range 4)] with
      | some a => (s, a)
      | none =>
        let f := takeFree s
        let xs := placeAll s f.2 p.sects
        match relocate ws ((p.sects.zip xs).map fun q => q.2.getD (sectNominal q.1)) imgs with
        | none => (f.1, errR .range 0)
        | some ims =>
          let all := (imgs.zip ims).mapIdx fun i q => ({ raw := q.1, placed := q.2, unplaced := openEntries ws xs i } : PkgImage)
          match imagesBad p.role (pkgPolicySigned s ws) s
              (orderOf (namesOwn s (userPkg ws ims).lists) (fun x => (headerOf x.placed).dormant) all) with
          | some a => (authRecord 0x0310 a f.1, a)
          | none => pkgLoad (userPkg ws ims) xs f.1

/-- The field checks of MODEL_LOAD. -/
def modelLoadBad (r : Req) : Option Answer :=
  let src := fld (r.w 2) 0 2
  let bi := fld (r.w 2) 8 8
  let va := fld (r.w 2) 16 2
  let a := wide (r.w 3) (r.w 4)
  let n := (r.w 5).toNat
  firstErr
    [rangeBad [(decide (r.w 2 &&& 0xFFFC00FC ≠ 0), 2), (decide (src = 3), 2),
       (if src = 2 then decide (bi ≠ 1 ∧ bi ≠ 2) || decide (2 < va) || (decide (va ≠ 0) && decide (bi ≠ 2))
        else decide (bi ≠ 0) || decide (va ≠ 0), 2),
       (decide (src = 2) && decide (r.w 3 ≠ 0), 3), (decide (src = 2) && decide (r.w 4 ≠ 0), 4),
       (decide (src = 2) && decide (n ≠ 0), 5),
       (decide (src = 1) && decide (fld (r.w 4) 16 16 ≠ 0), 4), (decide (src = 1) && decide (a % 64 ≠ 0), 3)],
     if (src = 1 ∧ (n < 128 ∨ 0xFFFFFFC0 < n)) ∨ (src = 0 ∧ n < 128) then some (errR .badLen 1) else none,
     if src = 1 ∧ (wellImageOk a n = false ∨ overlap a n poolLo (poolHi - poolLo)) then some (errR .range 3) else none]

/-- The queues on which a MODEL_LOAD acts, as far as the request names them (R100): those of a built-in package's lists. A package in
memory names its own once it has been read. -/
def modelLoadActs (r : Req) : List Nat :=
  let bi := fld (r.w 2) 8 8
  if fld (r.w 2) 0 2 = 2 ∧ (bi = 1 ∨ bi = 2) then (builtinLists bi 0).map (·.queue) else []

/-- MODEL_LOAD (R310). -/
def execModelLoad (r : Req) (desc : HostRead) : State → Out :=
  mailbox { op := 0x0310, onMb := mbHigh, lenOk := (· = 4), acts := modelLoadActs r } r fun s =>
    guardE (modelLoadBad r) s fun s =>
      let n := (r.w 5).toNat
      let a := wide (r.w 3) (r.w 4)
      match fld (r.w 2) 0 2 with
      | 2 => loadBuiltin (fld (r.w 2) 8 8) (fld (r.w 2) 16 2) s
      | 1 => match clerkRead s a n with
        | some s => (s, errR .fault 0)
        | none => loadUser (memWords (seeAs .clerk s) a (n / 4)) n s
      | _ => match descRead a n 3 desc with
        | .error e => (s, e)
        | .ok ws => loadUser ws n s

/-! ### MODEL_UNLOAD and MODEL_QUERY (R311, R312) -/

def pkgOf (s : State) (id : Nat) : Option Pkg := s.pipe.pkgs.find? fun p => p.modelId = id

/-- The checks of MODEL_UNLOAD. -/
def modelUnloadBad (s : State) (r : Req) : Option Answer :=
  if fld (r.w 2) 16 16 ≠ 0 then some (errR .range 2)
  else match pkgOf s (fld (r.w 2) 0 16) with
    | none => some (errR .range 2)
    | some p =>
      let ls := p.listIds.filterMap (instOf s)
      firstErr [if ls.any fun l => decide (queueNo l.queue = 0) && fnRunning s l.queue then some (errR .state 0) else none,
        if s.lists.inst.any fun l => p.listIds.contains l.fallback && !p.listIds.contains l.id then some (errR .state 1)
        else none]

/-- An area's VALID is cleared. -/
def areaClear (base : Nat) (s : State) : State := seenWords .clerk base [memWord s base &&& 0x7FFFFFFF] s

/-- R311: without a ROLE 1 package the forecast and step areas hold nothing valid, so that DISPATCH runs on unbounded forecasts
(entry 127). -/
def forecastClear (s : State) : State :=
  ([aForecast, mirrorBase aForecast, aStep, mirrorBase aStep, aFcCopy]).foldl (fun t b => areaClear b t) s

/-- R311: the package goes once its lists are gone: its sections are free, and the unloading is measured (R546). -/
def unloadDone (id : Nat) (s : State) : State :=
  match pkgOf s id with
  | none => s
  | some p =>
    if p.listIds.any fun i => (instOf s i).isSome then s
    else
      let s := { s with pipe := { s.pipe with pkgs := s.pipe.pkgs.filter fun q => q.modelId ≠ id } }
      let s := if p.role = 1 then forecastClear s else s
      measure 7 id [w32 p.variant, strokeLo s, strokeHi s] p.digest s

/-- R276: a list of a package goes at once, or when its run in progress has ended. -/
def unloadList (s : State) (id : Nat) : State :=
  match instOf s id with
  | none => s
  | some l =>
    if l.run.isSome ∧ fnRunning s l.queue then instSet id (fun x => { x with removing := true }) s
    else listDrop id s

/-- The unloads whose lists have all gone: their commands answer. -/
def unloadsDue (s : State) : State :=
  s.pipe.pkgs.foldl (fun t p =>
    if (waitingMb (fun w => decide (w = .modelUnload p.modelId)) t).isSome ∧ (p.listIds.any fun i => (instOf t i).isSome) = false
    then answer (.modelUnload p.modelId) .ok 0 [] (unloadDone p.modelId t) else t) s

/-- The queues that an unload acts on (R100): those of the package's lists. -/
def unloadActs (s : State) (r : Req) : List Nat :=
  match pkgOf s (fld (r.w 2) 0 16) with
  | none => []
  | some p => (p.listIds.filterMap (instOf s)).map (·.queue)

/-- What MODEL_UNLOAD does after its header checks. -/
def modelUnloadBody (r : Req) (s : State) : State × Answer :=
  guardE (modelUnloadBad s r) s fun s =>
    let id := fld (r.w 2) 0 16
    match pkgOf s id with
    | none => (s, errR .range 2)
    | some p =>
      let s := p.listIds.foldl unloadList s
      if p.listIds.any fun i => (instOf s i).isSome then (s, .later (.modelUnload id))
      else (unloadDone id s, okR [])

/-- MODEL_UNLOAD (R311). -/
def execModelUnload (r : Req) (s : State) : Out :=
  mailbox { op := 0x0311, onMb := mbHigh, lenOk := (· = 1), acts := unloadActs s r } r (modelUnloadBody r) s

/-- ANCHORING of R312. -/
def anchoring (s : State) (p : Pkg) : Bool :=
  decide (p.anchor ≠ 0) || (p.listIds.filterMap (instOf s)).any fun l => l.areas.any fun x => x.state && !validOf s ((l.bases x).headD x.base)

/-- The response of MODEL_QUERY: the lists still installed, and the sections; a built-in package has none (entry 34). -/
def modelWords (s : State) (p : Pkg) : List Word :=
  let ls := p.listIds.filterMap (instOf s)
  let ids := ls.map (·.id)
  let bs := p.sections.map (·.base)
  [packW [(p.modelId, 16), (ids.length, 8), (bs.length % 64, 2), (b2n p.young, 1), (b2n (anchoring s p), 0)]] ++
  ((List.range 8).map fun i => packW [(ids.getD (2 * i) 0, 0), (ids.getD (2 * i + 1) 0, 16)]) ++
  [w32 (if p.role = 1 then sfcOf ls else 0)] ++
  bs.flatMap fun b => [lo32 b, hi32 b]

/-- MODEL_QUERY (R312). -/
def execModelQuery (r : Req) : State → Out :=
  mailbox { op := 0x0312, onMb := mbHigh, lenOk := (· = 1) } r (asks fun s =>
    if fld (r.w 2) 16 16 ≠ 0 then errR .range 2
    else match pkgOf s (fld (r.w 2) 0 16) with
      | none => errR .range 2
      | some p => okR (modelWords s p))

/-! ### Buckets (R295 to R298, R313, R314) -/

/-- R295: the streams. -/
def isStream (n : Nat) : Bool :=
  decide (n ≤ 4) || (decide (0x10 ≤ n) && decide (n < 0x28)) || (decide (0x30 ≤ n) && decide (n < 0x48)) ||
  decide (n = 0x50 ∨ n = 0x51)

/-- Streams with a sample for every DECIM strokes. -/
def perStroke (n : Nat) : Bool := decide (n < 0x30)

/-- The empty sample of a stream. -/
def emptySample (st : Nat) : List Byte :=
  if 0x50 ≤ st then (List.replicate 512 [0x00#8, 0x80#8]).flatten
  else if 0x30 ≤ st then List.replicate 16 0 else wordBytes 0x7FC00000

/-- The header line of a bucket (R296). -/
def bucketHeader (b : Bucket) : List Word :=
  [packW [(1, 24), (b.stream, 16), (b.log2len, 0)], w32 b.decim, lo32 b.written, hi32 b.written, lo32 b.lastStroke.toNat,
   hi32 b.lastStroke.toNat, lo32 b.epochN, hi32 b.epochN, w32 (min b.gaps 0xFFFFFFFF)] ++ List.replicate 7 0

def bucketOf (s : State) (st : Nat) : Option Bucket := s.pipe.buckets.find? fun b => b.stream = st

def bucketSet (st : Nat) (f : Bucket → Bucket) (s : State) : State :=
  { s with pipe := { s.pipe with buckets := s.pipe.buckets.map fun b => if b.stream = st then f b else b } }

/-- A bucket's slots are filled with the empty sample and its header is written. -/
def bucketFill (b : Bucket) (s : State) : State :=
  let s := seenBytes .clerk (b.base + 4096) ((List.replicate (2 ^ b.log2len) (emptySample b.stream)).flatten) s
  seenWords .clerk b.base (bucketHeader b) s

/-- One sample, then the header (R297). -/
def bucketPut (st : Nat) (sample : Option (List Byte)) (last : Option Nat) (s : State) : State :=
  match bucketOf s st with
  | none => s
  | some b =>
    let a := b.base + 4096 + b.written % 2 ^ b.log2len * sampleBytes st
    let b' := { b with
      written := b.written + 1, gaps := if sample.isNone then b.gaps + 1 else b.gaps,
      lastStroke := match last with
        | some k => BitVec.ofNat 64 k
        | none => b.lastStroke
      sum := 0, count := 0, missing := 0 }
    memWriteWords b.base (bucketHeader b') (bucketSet st (fun _ => b') (memWrite a (sample.getD (emptySample st)) s))

/-- One stroke's value enters a per-stroke bucket; at the end of a window its mean is written (R295, R297). -/
def bucketStroke (st k : Nat) (v : Option Word) (s : State) : State :=
  match bucketOf s st with
  | none => s
  | some b =>
    let b' := match v with
      | some w => if f32Finite w then { b with sum := b.sum + f32Rat w, count := b.count + 1 }
                  else { b with missing := b.missing + 1 }
      | none => { b with missing := b.missing + 1 }
    let s := bucketSet st (fun _ => b') s
    if b'.count + b'.missing < b.decim then s
    else bucketPut st (if b'.count = 0 then none else some (wordBytes (ratF32 (b'.sum / b'.count)))) (some k) s

/-- The checks of BUCKET_SET. -/
def bucketSetBad (s : State) (r : Req) : Option Answer :=
  let st := fld (r.w 2) 0 8
  let l := fld (r.w 2) 8 5
  let d := fld (r.w 2) 16 12
  firstErr
    [rangeBad [(decide (r.w 2 &&& 0xF000E000 ≠ 0), 2), (!isStream st, 2),
       (decide (l ≠ 0) && (decide (l < 10 ∨ 24 < l) || decide (d = 0) || (!perStroke st && decide (d ≠ 1))), 2)],
     if l = 0 then
       (if s.pipe.pkgs.any fun p => p.inputs.contains st then some (errR .state 3) else none)
     else if (bucketOf s st).isSome then some (errR .state 2) else none]

/-- BUCKET_SET with a length: a place in the pool, or the shortfall in pages (R306). -/
def bucketNew (st l d : Nat) (s : State) : State × Answer :=
  let n := bucketBytes st l
  let f := takeFree s
  let fs := freeAligned 4096 poolLo poolHi (poolUsed s)
  match placeIn 4096 n (some f.2) fs with
  | none => (s, .now .resource 0 { (default : Short) with well := (n - largestRun fs + 4095) / 4096 }.words)
  | some a =>
    let b : Bucket := { stream := st, base := a, log2len := l, decim := d, written := 0, lastStroke := 0, epochN := 0,
                        gaps := 0, sum := 0, count := 0, missing := 0 }
    (bucketFill b { f.1 with pipe := { f.1.pipe with buckets := f.1.pipe.buckets ++ [b] } }, okR [lo32 a, hi32 a])

/-- BUCKET_SET (R313). -/
def execBucketSet (r : Req) : State → Out :=
  mailbox { op := 0x0313, onMb := mbHigh, lenOk := (· = 1) } r fun s =>
    guardE (bucketSetBad s r) s fun s =>
      let st := fld (r.w 2) 0 8
      if fld (r.w 2) 8 5 = 0 then
        ({ s with pipe := { s.pipe with buckets := s.pipe.buckets.filter fun b => b.stream ≠ st } },
         okR (match bucketOf s st with
           | some b => [lo32 b.base, hi32 b.base]
           | none => [0, 0]))
      else bucketNew st (fld (r.w 2) 8 5) (fld (r.w 2) 16 12) s

/-- BUCKET_QUERY (R314). -/
def execBucketQuery (r : Req) : State → Out :=
  mailbox { op := 0x0314, onMb := mbHigh, lenOk := (· = 1) } r fun s =>
    let st := fld (r.w 2) 0 8
    if fld (r.w 2) 8 24 ≠ 0 ∨ isStream st = false then (s, errR .range 2)
    else match bucketOf s st with
      | some b => match clerkRead s b.base 64 with
        | some t => (t, errR .fault 0)
        | none => (s, okR ([lo32 b.base, hi32 b.base] ++ memWords (seeAs .clerk s) b.base 16))
      | none => (s, okR (List.replicate 18 0))

/-! ### YOUNG (R298) -/

/-- MIN_HIST of a package; 2^MEAN_LOG2 for package 0x0002. -/
def minHist (s : State) (p : Pkg) : Nat := if p.modelId = 2 then 2 ^ s.pipe.live.meanLog2 else p.minHist

/-- Some input bucket holds too few samples. -/
def isYoung (s : State) (p : Pkg) : Bool :=
  p.inputs.any fun i => match bucketOf s i with
    | some b => decide (min b.written (2 ^ b.log2len) < minHist s p)
    | none => true

/-- A list of a package that is young or rebuilds its state is replaced by its FALLBACK_LIST, or may be restored again. -/
def youngList (stand : Bool) (id : Nat) (s : State) : State :=
  match instOf s id with
  | none => s
  | some l =>
    if l.fallback = 0 ∨ l.dormant then s
    else if stand then
      if l.shed ≠ .none then instSet id (fun x => { x with young := true }) s
      else
        let s := instSet l.fallback (fun x => { x with standing := true })
          (instSet id (fun x => { x with shed := .replaced, young := true }) (shedRun l s))
        listRecord 1 0x0102 l.queue id 0 2 [] (computeAdd 6 (shedMark id s))
    else instSet id (fun x => { x with young := false }) s

/-- A loaded package changes. -/
def pkgMod (id : Nat) (f : Pkg → Pkg) (s : State) : State :=
  { s with pipe := { s.pipe with pkgs := s.pipe.pkgs.map fun q => if q.modelId = id then f q else q } }

/-- R300: the rebuilding of FORECAST's state goes on while its queue runs. -/
def anchorStep (s : State) (p : Pkg) : Nat := if fnRunning s (fQueue 0 1) then p.anchor - 1 else p.anchor

/-- R298 and R300 at a boundary: YOUNG with the record of each change (R318), and the lists that a fallback stands in for. -/
def youngBoundary (k : Nat) (s : State) : State :=
  s.pipe.pkgs.foldl (fun t p =>
    let y := isYoung t p
    let n := anchorStep t p
    let z := y || decide (n ≠ 0)
    let t := pkgMod p.modelId (fun q => { q with young := y, stand := z, anchor := n }) t
    let t := if y = p.young then t else emit 0 0x20 0x0113 [lo32 k, w32 p.modelId] t
    if z = p.stand then t
    else
      let t := p.listIds.foldl (fun u id => youngList z id u) t
      if z then t else restoreAll t) s

end Sys2Proof.Machine
end

