-- ==== Sys2Proof/Machine/Stage.lean ====
section
/-! DEFINITION. The storage converter: its commands, states and trace capture (R380 to R394). -/

namespace Sys2Proof.Machine

/-! ### Areas that the module itself publishes (R235, R236) -/

/-- A copy is written and becomes current at a boundary. -/
def publish (commit base size : Nat) (ws : List Word) (s : State) : State :=
  memWriteWords base (statusCommit s commit 0 base) (memWriteWords (stagingCopy s base size) ws s)

/-- The same within a stroke: it is seen from the next boundary on (R185). -/
def publishLater (commit base size : Nat) (ws : List Word) (s : State) : State :=
  seenWords .clerk base (statusCommit s commit 0 base) (seenWords .clerk (stagingCopy s base size) ws s)

/-! ### Outputs and states (R356, R378, R383, R384) -/

/-- Changes the converter's own state. -/
def stMod (f : Stage → Stage) (s : State) : State := { s with stage := f s.stage }

/-- R356: every phase parked and ORING_ON low. -/
def stParked (x : Stage) : Stage := { x with parked := true, oring := false, duty := 0, dutyNext := 0 }

/-- The loop engines go idle with the phases parked. -/
def stIdle (x : Stage) : Stage :=
  { stParked x with
    loop := .idle, modeV := false, modeReq := none, ssOring := false, ssRun := 0, scCount := 0, fastRun := 0, lowBus := 0,
    zeroRun := 0, uvPending := false, iApp := 0, x := 0, z := 0, y := 0, vApp := 0, iMref := 0, ev := 0, eErr := 0,
    iRefEntry := 0, stopAfterOpen := false }

/-- LOOP of R392. -/
def LoopSt.num : LoopSt → Nat
  | .idle => 0
  | .softStart => 1
  | .retryWait => 2
  | .closed => 3
  | .opening => 4
  | .open_ => 5

/-- An event record of STAGE (R395). -/
def stRecord (sev code detail : Nat) (s : State) : State := emit sev fSTAGE code [strokeLo s, w32 detail] s

/-- A RUNNING STAGE goes FAULTED with its phases parked; commands that wait for it answer E_FAULT (R384, R114). -/
def stageFault (cause : Nat) (s : State) : State :=
  if fnRunning s fSTAGE then
    let s := fnFault fSTAGE cause (stMod stIdle s)
    answer (.funcStop fSTAGE) .fault fSTAGE [] (answer .loopOpen .fault fSTAGE [] s)
  else s

/-- A RUNNING STAGE enters STOPPED with its phases parked and releases its claims. -/
def stageStopped (s : State) : State :=
  if fnRunning s fSTAGE then
    let s := fnSet fSTAGE .stopped 0 (claimRelease fSTAGE (stMod stIdle s))
    answer (.funcStop fSTAGE) .ok 0 [] (answer .loopOpen .ok 0 [] s)
  else s

/-- R500: the module has authority. -/
def authority (s : State) : Bool := s.pair.gnt && decide (s.pair.pstate = .active)

/-- The phases of PHASE_EN (R353). -/
def phases (c : StageCfg) : List Nat := (List.range 12).filter fun p => c.phaseEn.getLsbD p
def nPh (c : StageCfg) : Nat := (phases c).length

/-- T_SAMPLE in ticks of 10 ns, in ns and in µs (R69). -/
def sampleTicks (s : State) : Nat := s.clk.strokeDiv / s.clk.loopDiv
def sampleNs (s : State) : Nat := 10 * sampleTicks s
def sampleUs (s : State) : Rat := mkRat (sampleTicks s) 100

/-- The action of a FAULT_IN pin (R376). -/
def finAction (c : StageCfg) (n : Nat) : Nat := c.finAct.toNat / 16 ^ n % 16

/-- A FAULT_IN pin with action 4 is asserted (R365). -/
def gridIn (s : State) : Bool :=
  (List.range 4).any fun n => decide (finAction s.stage.cfg n = 4) && s.stage.faultIn.getD n false

/-! ### START, STOP and CLEAR (R368, R382, R383, R384) -/

/-- D_LO (R355). -/
def dLo (s : State) : Word := ratF32 (mkRat s.stage.cfg.dMinNs (sampleNs s))

/-- An attempt of soft start begins: every enabled phase switches, with the duty that the ramp starts from (R368). -/
def softBegin (attempt : Nat) (s : State) : State :=
  let d := dLo s
  stMod (fun x => { stIdle x with loop := .softStart, parked := false, attempt := attempt, duty := d, dutyNext := d }) s

/-- Soft start begins with its first attempt; written coefficients take effect (R368, R388). -/
def softStart (s : State) : State := stMod (fun x => { x with liveCoefs := x.coefs }) (softBegin 1 s)

/-- Check 8 of R382. -/
def voltsOk (c : StageCfg) (hold : Word) : Bool :=
  decide (f32Rat c.vmEnter < f32Rat hold) && decide (f32Rat hold < f32Rat c.ovClear) &&
  decide (f32Rat c.ovClear < f32Rat c.ovLevel) && (!c.uvEn || decide (f32Rat c.uvLevel < f32Rat c.vmEnter))

/-- Check 10 of R382. -/
def coefsOk (k : Coefs) : Bool := !(f32 k.kpI).isZero && !(f32 k.kiI).isZero && !(f32 k.kpV).isZero

/-- The gate bits that the MARK inputs of MARK_EN need (R64). -/
def markGates (c : StageCfg) : List Nat :=
  (if c.markEn.toNat % 4096 ≠ 0 then [9] else []) ++ (if c.markEn.toNat / 4096 ≠ 0 then [10] else [])

/-- Dead times in ns (R355). -/
def deadNs (c : StageCfg) : Rat := mkRat ((c.dtLh + c.dtHl : Nat) * 5) 16

/-- The pins that STAGE claims (R382 check 12), in rising order. -/
def stagePins (c : StageCfg) : List Nat :=
  ((List.range 24).filter fun n => c.markEn.getLsbD n) ++
  (((List.range 4).filter fun n => finAction c n ≠ 0).map (0x20 + ·))

/-- The checks of STAGE START, in the order of R382. -/
def stageStartBad (s : State) : Option Answer :=
  let c := s.stage.cfg
  let q := f32Rat
  let t := sampleNs s
  firstErr
    [if authority s then none else some (errR .notAuthority 0),
     if fnRunning s fFIXED0 then none else some (errR .state 0x20),
     ((markGates c).find? fun b => !gateOn s b).map fun b => errR .state (0x80 + b),
     (firstOf
       [(!(decide (0 < q c.kVstack) && decide (0 < q c.kVbus) && decide (0 < q c.kIph) && decide (0 < q c.kIout)), 1),
        (!(decide (2500 ≤ t) && decide (t ≤ 20000) && decide (c.pwmMinNs ≤ t) && decide (t ≤ c.pwmMaxNs)), 2),
        (!decide ((c.dMinNs : Rat) + deadNs c ≤ mkRat t 4), 3),
        (!(decide (q c.iPhCont ≤ q c.iPhMax) && decide (mkRat 5 4 * q c.iPhMax ≤ q c.iFast) &&
           decide (q c.iFast ≤ 32768 * q c.kIph)), 4),
        (!voltsOk c c.vHold, 5), (!decide (q c.vstkMin < q c.vstkMax), 6), (!coefsOk s.stage.coefs, 7),
        (!(decide (q c.vstkMin ≤ q s.stage.vstack) && decide (q s.stage.vstack ≤ q c.vstkMax) &&
           decide (q c.vmEnter ≤ q s.stage.vbus) && decide (q s.stage.vbus ≤ q c.ovClear)), 8)]).map (errR .range),
     (claimConflict s fSTAGE (stagePins c)).map fun c => conflictR c.1 c.2]

/-- STAGE START: claims, RUNNING, soft start; MODE_SEL returns to 0 (R383). -/
def stageStart (s : State) : State :=
  let s := claimAll fSTAGE (stagePins s.stage.cfg) s
  stMod (fun x => { x with
      modeSel := 0, fastTrips := 0, xchk := 0, gdDriven := true })
    (softStart (fnSet fSTAGE .running 0 s))

/-- The loop opens (R389, R370): at once from soft start or a retry wait, along a ramp from the closed loop. -/
def loopOpening (s : State) : State :=
  match s.stage.loop with
  | .softStart => stMod (fun x => { stIdle x with loop := .open_ }) s
  | .retryWait => stMod (fun x => { stIdle x with loop := .open_ }) s
  | .closed =>
    let tUs := ratF32 (4 * mkRat s.clk.strokeDiv 100)
    let a := fpDiv (s.stage.iApp &&& 0x7FFFFFFF) tUs
    stMod (fun x => { x with
      loop := .opening, openSlew := rn32 (fMax (f32 x.cfg.refSlew) (f32 a.1)) }) s
  | _ => s

/-- STAGE STOP (R383). -/
def stageStopCmd (s : State) : State × Answer :=
  if !s.stage.modeV && decide (s.stage.loop = .closed ∨ s.stage.loop = .opening) then
    (stMod (fun x => { x with stopAfterOpen := true }) (loopOpening s), .later (.funcStop fSTAGE))
  else (stageStopped s, okR [])

/-- The fault condition of STAGE is gone (R384). -/
def stageCondGone (s : State) (test : TestResult) : Bool :=
  let c := s.stage.cfg
  match (fnRec s fSTAGE).faultCause.toNat with
  | 0x0601 => decide (test = .passed)
  | 0x0603 => decide (1000000 ≤ s.stage.belowOv * sampleTicks s)
  | 0x0604 => decide (f32Rat c.uvLevel ≤ f32Rat s.stage.vbus)
  | 0x0607 => (List.range 4).all fun n => decide (finAction c n ≠ 3) || !s.stage.faultIn.getD n false
  | 0x0608 => decide ((s.clk.domains.getD 15 {}).declared = .none)
  | _ => true

/-- STAGE_CLEAR: STOPPED with the latch released; the vetoes of R503 that stand for its fault end. -/
def stageClear (s : State) : State :=
  let s := stMod (fun x => { stIdle x with ovLatch := false }) s
  vetoRelease 3 (vetoRelease 2 (fnSet fSTAGE .stopped 0 (claimRelease fSTAGE s)))

/-! ### STAGE_CONFIG and LOOP_COEF (R387, R388) -/

/-- A finite FP32 field within a range. -/
def fIn (w : Word) (lo hi : Rat) : Bool := f32Finite w && decide (lo ≤ f32Rat w) && decide (f32Rat w ≤ hi)

/-- The fields of STAGE_CONFIG that are out of range, by word (R387). -/
def stageConfigBad (r : Req) : Option Answer :=
  let w := r.w
  let f (i lo n a b : Nat) : Bool := !(decide (a ≤ fld (w i) lo n) && decide (fld (w i) lo n ≤ b))
  let q (i : Nat) (lo hi : Rat) : Bool × Nat := (!fIn (w i) lo hi, i)
  let pos (i : Nat) : Bool × Nat := (!(f32Finite (w i) && decide (0 ≤ f32Rat (w i))), i)
  rangeBad
    [(decide (fld (w 2) 12 20 ≠ 0) || decide (fld (w 2) 0 12 = 0), 2), (decide (fld (w 3) 24 8 ≠ 0), 3),
     (decide (fld (w 4) 16 16 ≠ 0) || (List.range 4).any (fun n => decide (4 < fld (w 4) (4 * n) 4)), 4),
     pos 5, pos 6, pos 7, pos 8, (f 9 16 16 2500 20000 || f 9 0 16 2500 20000, 9),
     (decide (fld (w 10) 27 5 ≠ 0) || decide (fld (w 10) 11 5 ≠ 0) || f 10 16 11 32 1600 || f 10 0 11 32 1600, 10),
     (decide (fld (w 11) 16 16 ≠ 0) || f 11 0 16 50 2000, 11), q 12 1 500, q 13 1 500,
     (f 14 16 16 1 65535 || f 14 0 16 1 10000, 14), (!f32Finite (w 15), 15), q 16 0 1000, q 17 0 1000, q 18 100 400,
     q 19 100 400, q 20 40 60, q 21 40 60, q 22 20 55,
     (decide (fld (w 23) 24 7 ≠ 0) || f 23 0 24 1 16000000, 23), q 24 40 58, q 25 40 58,
     (f 26 24 8 1 255 || f 26 8 16 1 65535 || f 26 0 8 1 255, 26), q 27 (mkRat 1 100) 100, q 28 (mkRat 1 10) 1000,
     (f 29 16 16 1 10000 || f 29 8 8 1 255, 29), (decide (fld (w 30) 16 16 ≠ 0) || f 30 0 16 20 50000, 30),
     q 31 (mkRat 1 2) 1, q 32 (mkRat 1 2) 1]

/-- The configuration that STAGE_CONFIG carries. -/
def stageCfgOf (r : Req) : StageCfg :=
  let w := r.w
  { phaseEn := BitVec.ofNat 12 (w 2).toNat, markEn := BitVec.ofNat 24 (w 3).toNat, finAct := BitVec.ofNat 16 (w 4).toNat,
    kVstack := w 5, kVbus := w 6, kIph := w 7, kIout := w 8, pwmMaxNs := fld (w 9) 16 16, pwmMinNs := fld (w 9) 0 16,
    dtHl := fld (w 10) 16 11, dtLh := fld (w 10) 0 11, dMinNs := fld (w 11) 0 16, iPhCont := w 12, iPhMax := w 13,
    fastN := fld (w 14) 16 16, i2tMs := fld (w 14) 0 16, iFast := w 15, iStkDis := w 16, iStkChg := w 17,
    vstkMin := w 18, vstkMax := w 19, ovLevel := w 20, ovClear := w 21, uvLevel := w 22, uvEn := bit (w 23) 31,
    uvDelayUs := fld (w 23) 0 24, vHold := w 24, vmEnter := w 25, xchkN := fld (w 26) 24 8,
    modeExitMs := fld (w 26) 8 16, debounce := fld (w 26) 0 8, refSlew := w 27, vSlew := w 28,
    ssRetryMs := fld (w 29) 16 16, ssScCount := fld (w 29) 8 8, refHold := fld (w 29) 0 8, ssRampUs := fld (w 30) 0 16,
    etaDis := w 31, etaChg := w 32 }

/-- STAGE_CONFIG (R387). -/
def execStageConfig (r : Req) : State → Out :=
  mailbox { op := 0x0601, onMb := mbZero, lenOk := (· = 31), acts := [fSTAGE] } r fun s =>
    guardE (firstErr [cfgBad s fSTAGE, stageConfigBad r]) s fun s =>
      (stMod (fun x => { x with cfg := stageCfgOf r }) s, okR [])

/-- The checks of LOOP_COEF (R388). -/
def loopCoefBad (s : State) (r : Req) : Option Answer :=
  firstErr
    [match fnState s fSTAGE with
      | .off => some (errR .state 0)
      | .faulted => some (errR .fault fSTAGE)
      | .running => if s.stage.loop = .open_ then none else some (errR .state 1)
      | .stopped => none,
     rangeBad [(!fIn (r.w 2) 0 1, 2), (!fIn (r.w 3) 0 1, 3), (!fIn (r.w 4) 0 1000, 4), (!fIn (r.w 5) 0 1000, 5),
               (!fIn (r.w 6) 0 1000, 6)]]

/-- LOOP_COEF (R388): the coefficients take effect at the next START or LOOP_CLOSE. -/
def execLoopCoef (r : Req) : State → Out :=
  mailbox { op := 0x0602, onMb := mbZero, lenOk := (· = 5), acts := [fSTAGE] } r fun s =>
    guardE (loopCoefBad s r) s fun s =>
      (stMod (fun x => { x with coefs := { kpI := r.w 2, kiI := r.w 3, kiS := r.w 4, kpV := r.w 5, kiV := r.w 6 } }) s,
       okR [])

/-! ### LOOP_OPEN, LOOP_CLOSE and STAGE_MODE (R389 to R391) -/

/-- LOOP_OPEN (R389): a closed loop opens along a ramp, and the answer follows the parking. -/
def execLoopOpen (r : Req) : State → Out :=
  mailbox { op := 0x0603, onMb := mbZero, lenOk := (· = 0), acts := [fSTAGE] } r fun s =>
    guardE (firstErr [runBad s fSTAGE, if s.stage.modeV then some (errR .state 2) else none]) s fun s =>
      let t := loopOpening s
      if t.stage.loop = .opening then (t, .later .loopOpen) else (t, okR [])

/-- LOOP_OPEN_PARKED (R389): I_APP has reached zero, the phases park, the waiting commands are answered, and a STOP in
progress enters STOPPED. Idle unless the loop is opening and I_APP is zero. -/
def execLoopOpenParked (s : State) : Out :=
  if s.stage.loop = .opening ∧ (f32 s.stage.iApp).isZero then
    let stop := s.stage.stopAfterOpen
    let s := answer .loopOpen .ok 0 [] (stMod (fun x => { stIdle x with loop := .open_ }) s)
    .next (if stop then stageStopped s else s)
  else .next s

/-- The checks of LOOP_CLOSE (R390, R500). -/
def loopCloseBad (s : State) : Option Answer :=
  firstErr
    [if fnRunning s fSTAGE ∧ s.stage.loop = .open_ then none else some (errR .state 1),
     if authority s then none else some (errR .notAuthority 0),
     if coefsOk s.stage.coefs then none else some (errR .range 7)]

/-- LOOP_CLOSE (R390). -/
def execLoopClose (r : Req) : State → Out :=
  mailbox { op := 0x0604, onMb := mbZero, lenOk := (· = 0), acts := [fSTAGE] } r fun s =>
    guardE (loopCloseBad s) s fun s => (softStart s, okR [])

/-- The checks of STAGE_MODE (R391, R500). -/
def stageModeBad (s : State) (r : Req) : Option Answer :=
  firstErr
    [runBad s fSTAGE, rangeBad [(decide (fld (r.w 2) 2 30 ≠ 0) || decide (fld (r.w 2) 0 2 = 3), 2)],
     if fld (r.w 2) 0 2 = 2 ∧ s.stage.loop ≠ .closed then some (errR .state 1) else none,
     rangeBad [(decide (r.w 3 ≠ 0) && !(f32Finite (r.w 3) && voltsOk s.stage.cfg (r.w 3)), 3)],
     if authority s then none else some (errR .notAuthority 0)]

/-- STAGE_MODE (R391): acts from the next sample boundary. -/
def execStageMode (r : Req) : State → Out :=
  mailbox { op := 0x0605, onMb := mbZero, lenOk := (· = 2), acts := [fSTAGE] } r fun s =>
    guardE (stageModeBad s r) s fun s =>
      (stMod (fun x => { x with
        modeReq := some (fld (r.w 2) 0 2), cfg := { x.cfg with vHold := if r.w 3 = 0 then x.cfg.vHold else r.w 3 } }) s,
       okR [])

/-! ### Stroke means and STAGE_QUERY (R380, R392) -/

/-- A mean over the samples of a stroke; zero where the stroke had none. -/
def StageSums.mean (x : StageSums) (v : Rat) : Rat := if x.n = 0 then 0 else v / x.n

/-- A mean as FP32. -/
def StageSums.fp (x : StageSums) (v : Rat) : Word := ratF32 (x.mean v)

/-- A_LIM (R373). -/
def aLim (c : StageCfg) : Word :=
  fpMul (fpSub (fpMul c.iPhMax c.iPhMax).1 (fpMul c.iPhCont c.iPhCont).1).1 (ratF32 c.i2tMs) |>.1

/-- The largest A / A_LIM of the enabled phases. -/
def aRatio (s : State) : Word :=
  (phases s.stage.cfg).foldl (fun m p =>
    rn32 (fMax (f32 m) (f32 (fpDiv (s.stage.i2t.getD p 0) (aLim s.stage.cfg)).1))) 0

/-- ETA_MEAS (R392). -/
def etaMeas (m : StageSums) : Word :=
  let i := m.mean m.pin
  let o := m.mean m.pstor
  if i.abs < 2000 then 0 else if 0 < i then ratF32 (o / i) else if o = 0 then 0 else ratF32 (i / o)

/-- Word 3 of STAGE_QUERY. -/
def stageWord3 (s : State) : Word :=
  let x := s.stage
  packW [(b2n (gridIn s), 15), (b2n x.uvPending, 14), (x.attempt - 1, 12), (b2n x.oring, 11), (b2n x.refStarved, 10),
    (b2n x.foldback, 9), (b2n x.ovLatch, 8), (x.modeSel, 6), (b2n x.modeV, 5), (x.loop.num, 2),
    ((fnState s fSTAGE).num, 0)]

/-- The response of STAGE_QUERY (R392). -/
def stageWords (s : State) : List Word :=
  let m := s.stage.means
  let vals := [m.fp m.iApp, m.fp m.iStk, m.fp m.iMref, m.fp m.iMean, m.fp m.vstack, m.fp m.vbus, m.fp m.pin, m.fp m.pstor,
    s.stage.pDis, s.stage.pChg, m.fp m.duty, m.fp m.aMax] ++ (m.iph.map m.fp)
  let tail := [m.fp m.vApp, etaMeas m] ++ m.iout.map fun i => ratF32 (m.mean m.vbus * m.mean i)
  let zero (l : List Word) : List Word := if s.stage.loop = .idle then l.map fun _ => 0 else l
  [stageWord3 s] ++ zero vals ++ [w32 (min s.stage.fastTrips 0xFFFFFFFF)] ++ zero tail

/-- STAGE_QUERY (R392). -/
def execStageQuery (r : Req) : State → Out :=
  mailbox { op := 0x0606, onMb := mbZero, lenOk := (· = 0) } r (asks fun s => okR (stageWords s))

/-! ### Trace capture (R385, R386, R393, R394) -/

/-- Owner and buffer of a die's trace capture (R118, R119). -/
def traceOwner (d : Nat) : Nat := 0x30 + d
def traceOf (s : State) (d : Nat) : Trace := s.traces.getD d {}
def traceSet (d : Nat) (t : Trace) (s : State) : State := { s with traces := s.traces.set d t }

/-- A capture is armed until it ends or is disarmed. -/
def Trace.busy (t : Trace) : Bool := decide (t.st = .armed) || decide (t.st = .triggered)

/-- The checks of TRACE_ARM, in the order ranges, gate bits, claims, armed (R393, R582). -/
def traceArmBad (s : State) (r : Req) : Option Answer :=
  let w := r.w 2
  let d := fld w 28 1
  let gates := [6 + d] ++ (if fld w 24 4 = 1 then [10] else [])
  let need := (if fld w 24 4 = 1 then [20 + fld w 22 2] else []) ++ [0x200 + d]
  firstErr
    [rangeBad
      [(decide (w &&& 0xE01F00FF ≠ 0) || decide (4 < fld w 24 4) || decide (fld w 8 8 = 0), 2),
       (decide (fld (r.w 3) 15 11 ≠ 0) || decide (16384 < fld (r.w 3) 0 15), 3)],
     (gates.find? fun b => !gateOn s b).map fun b => errR .state (0x80 + b),
     (claimConflict s (traceOwner d) need).map fun c => conflictR c.1 c.2,
     if (traceOf s d).busy then some (errR .busy 0) else none]

/-- The gate bit of a die's trace buffers (R64). -/
def traceOn (s : State) (d : Nat) : Bool := gateOn s (6 + d)

/-- The newest accepted edge of a capture's trigger pin with its polarity, in ticks since reset (R41, R393). -/
def traceEdge (s : State) (t : Trace) : Option Nat :=
  let m := s.pipe.marks.getD (20 + t.markSel) {}
  if t.rising then m.rise else m.fall

/-- What a capture has seen of edges and of STAGE's records before the first that may trigger it (R386). -/
def traceSeen (s : State) (t : Trace) : Trace := { t with markAt := traceEdge s t, stageAt := s.evt.stageMade }

/-- TRACE_ARM (R393): recording starts at the next sample. -/
def execTraceArm (r : Req) : State → Out :=
  mailbox { op := 0x0607, onMb := mbZero, lenOk := (· = 3) } r fun s =>
    guardE (traceArmBad s r) s fun s =>
      let w := r.w 2
      let d := fld w 28 1
      let need := (if fld w 24 4 = 1 then [20 + fld w 22 2] else []) ++ [0x200 + d]
      let t := traceOf s d
      (claimAll (traceOwner d) need (traceSet d (traceSeen s
        { t with st := .armed, trig := fld w 24 4, markSel := fld w 22 2, rising := bit w 21, decim := fld w 8 8,
                 probeEng := fld (r.w 3) 29 3, probe := fld (r.w 3) 26 3, pre := fld (r.w 3) 0 15, thresh := r.w 4,
                 points := [], count := 0, skip := 0, left := 0, probeNow := 0, probeWas := 0 }) s), okR [])

/-- TRACE_DISARM (R394): nothing is copied, and the claims are released. A write to a gated trace unit is dropped (R65). -/
def execTraceDisarm (r : Req) : State → Out :=
  mailbox { op := 0x0608, onMb := mbZero, lenOk := (· = 1) } r fun s =>
    guardE (rangeBad [(decide (fld (r.w 2) 1 31 ≠ 0), 2)]) s fun s =>
      let d := fld (r.w 2) 0 1
      if traceOn s d && (traceOf s d).busy then
        (claimRelease (traceOwner d) (traceSet d { traceOf s d with st := .idle } s), okR [])
      else (s, okR [])

/-- The state of a capture as TRACE_QUERY carries it (R394). -/
def TraceSt.num : TraceSt → Nat
  | .idle => 0
  | .armed => 1
  | .triggered => 2
  | .copied => 3

/-- TRACE_QUERY (R394); a gated trace unit reads as zero (R65). -/
def execTraceQuery (r : Req) : State → Out :=
  mailbox { op := 0x0609, onMb := mbZero, lenOk := (· = 1) } r (asks fun s =>
    if fld (r.w 2) 1 31 ≠ 0 then errR .range 2
    else if !traceOn s (fld (r.w 2) 0 1) then okR [0, 0]
    else okR [w32 (traceOf s (fld (r.w 2) 0 1)).st.num, w32 (traceOf s (fld (r.w 2) 0 1)).count])

/-- The trigger's condition (R393): an edge of the MARK pin and a record of STAGE since the last point that PRE asks for; a probe
trigger compares the last two samples. -/
def traceFires (s : State) (t : Trace) : Bool :=
  if t.trig = 1 then decide (traceEdge s t ≠ t.markAt)
  else if t.trig = 2 then decide (s.evt.stageMade ≠ t.stageAt)
  else if t.trig = 3 then fLt false (f32 t.thresh) (f32 t.probeNow) && !fLt false (f32 t.thresh) (f32 t.probeWas)
  else if t.trig = 4 then fLt false (f32 t.probeNow) (f32 t.thresh) && !fLt false (f32 t.probeWas) (f32 t.thresh)
  else true

/-- TRACE_TRIGGER (R386): accepted only after PRE points; recording goes on for 16,384 − PRE points. Idle otherwise. -/
def execTraceTrigger (die : Fin 2) (s : State) : Out :=
  let t := traceOf s die.val
  if traceOn s die.val ∧ t.st = .armed ∧ t.pre ≤ t.count ∧ traceFires s t then
    .next (traceSet die.val { t with
      st := .triggered, left := 16384 - t.pre, trigStroke := s.clk.stroke, trigTick := s.clk.tick } s)
  else .next s

/-- One sample of an armed capture: every DECIM samples a point of 64 values (R386). -/
def traceSample (d : Nat) (point : List Word) (s : State) : State :=
  let t := traceOf s d
  let t := { t with probeWas := t.probeNow, probeNow := point.getD (8 * t.probeEng + t.probe) 0 }
  let t := if t.count < t.pre then traceSeen s t else t
  if !traceOn s d || !t.busy || (decide (t.st = .triggered) && decide (t.left = 0)) then s
  else if t.skip ≠ 0 then traceSet d { t with skip := t.skip - 1 } s
  else traceSet d { t with
    points := (point :: t.points).take 16384, count := satAdd 16384 t.count 1, skip := t.decim - 1, ever := true,
    left := t.left - 1, endStroke := s.clk.stroke, endTick := s.clk.tick } s

/-- Base of a die's trace area (R386). -/
def traceBase (d : Nat) : Nat := aTrace + d * 0x00800000

/-- The buffers of a capture as they lie in the trace area: probe `i` of eight engines of eight probes, oldest first. -/
def traceBuffers (t : Trace) (base : Nat) (s : State) : State :=
  (List.range 64).foldl (fun u i =>
    seenWords .clerk (base + 0x1000 + i * 0x10000) (t.points.reverse.map fun p => p.getD i 0) u) s

/-- TRACE_COPIED (R386): the buffers and the header line are written, the claims released, record 0x0607. Idle unless a
triggered capture has recorded its last point. -/
def execTraceCopied (die : Fin 2) (s : State) : Out :=
  let d := die.val
  let t := traceOf s d
  if traceOn s d ∧ t.st = .triggered ∧ t.left = 0 then
    let n := t.seq + 1
    let s := traceBuffers t (traceBase d) s
    let s := seenWords .clerk (traceBase d)
      ([packW [(1, 31), (t.pre, 16), (t.decim, 8), (t.trig, 4)], lo32 t.trigStroke.toNat, hi32 t.trigStroke.toNat,
        w32 (t.trigTick % 2 ^ 20), n] ++ List.replicate 11 0) s
    let s := claimRelease (traceOwner d) (traceSet d { t with st := .copied, seq := n } s)
    .next (stRecord 0 0x0607 d s)
  else .next s

/-! ### The stroke boundary (R377, R380, R381) -/

/-- R377: a check of the sense chains fails on the means of a stroke in which the loop was closed throughout. -/
def senseBad (c : StageCfg) (m : StageSums) : Bool :=
  let im := m.mean m.iMean
  let i := m.mean m.pin
  let o := m.mean m.pstor
  let ratio (a b : Rat) : Bool := decide (b ≠ 0) && decide (mkRat 17 20 ≤ a / b) && decide (a / b ≤ 1)
  m.closed &&
    (((phases c).any fun p => decide (mkRat 1 4 * im.abs + 2 < (m.mean (m.iph.getD p 0) - im).abs)) ||
     (decide (2000 ≤ i.abs) && !(if 0 < i then ratio o i else ratio i o)))

/-- SENSE_CROSS_CHECK (R377): XCHK_N failing strokes in a row fault STAGE with veto 0x03. -/
def senseCheck (s : State) : State :=
  if senseBad s.stage.cfg s.stage.means then
    let n := s.stage.xchk + 1
    let s := stMod (fun x => { x with xchk := n }) s
    if s.stage.cfg.xchkN ≤ n ∧ fnRunning s fSTAGE then
      stageFault 0x0606 (vetoLatch 3 (stMod (fun x => { stParked x with xchk := 0 }) s))
    else s
  else stMod (fun x => { x with xchk := 0 }) s

/-- R380: the discharge and charge limits in exact watts. -/
def limits (s : State) : Rat × Rat :=
  let c := s.stage.cfg
  let m := s.stage.means
  let q := f32Rat
  let vb := m.mean m.vbus
  let vs := m.mean m.vstack
  let ph := nPh c * q c.iPhCont * mkRat 100 112 * vb
  if fnRunning s fSTAGE && decide (s.stage.loop = .closed) && !s.stage.modeV then
    (if vs ≤ q c.vstkMin then 0 else max 0 (min ph (q c.iStkDis * vs * q c.etaDis)),
     if q c.vstkMax ≤ vs then 0 else max 0 (min ph (q c.iStkChg * vs / q c.etaChg)))
  else (0, 0)

/-- R381: the words of STAGE's record of a stroke. -/
def stageRecord (k : Nat) (s : State) : List Word :=
  let x := s.stage
  let c := x.cfg
  let m := x.means
  [lo32 k, hi32 k, x.pDis, x.pChg, c.etaDis, c.etaChg, ratF32 (f32Rat c.refSlew * m.mean m.vstack * f32Rat c.etaDis),
   packW [(b2n x.ovLatch, 4), (b2n x.refStarved, 3), (b2n x.foldback, 2), (b2n x.modeV, 1),
          (b2n (decide (x.loop = .closed)), 0)],
   x.iApp, m.fp m.pin] ++ List.replicate 6 0

def aStage : Nat := aPublished + 0x2000

/-- What STAGE does at the boundary that ends stroke k: means, cross-check, limits, record. -/
def stageBoundary (k : Nat) (s : State) : State :=
  let s := stMod (fun x => { x with means := x.sums, sums := {}, sample := 0, cuts := [] }) s
  let s := senseCheck s
  let l := limits s
  let s := stMod (fun x => { x with pDis := ratF32 l.1, pChg := ratF32 l.2 }) s
  publish (k + 1) aStage 64 (stageRecord k s) s

end Sys2Proof.Machine
end

