-- ==== Sys2Proof/Machine/Loops.lean ====
section
/-! DEFINITION. The loop engines sample by sample, and the converter's protection events (R353 to R379, R385, R429). -/

namespace Sys2Proof.Machine

/-! ### FP32 steps of the engines (R359, R360): every operation is rounded, from left to right -/

def eAdd (a b : Word) : Word := (fpAdd a b).1
def eSub (a b : Word) : Word := (fpSub a b).1
def eMul (a b : Word) : Word := (fpMul a b).1
def eDiv (a b : Word) : Word := (fpDiv a b).1
def eMax (a b : Word) : Word := rn32 (fMax (f32 a) (f32 b))
def eMin (a b : Word) : Word := rn32 (fMin (f32 a) (f32 b))
def eNeg (a : Word) : Word := a ^^^ 0x80000000
def eClamp (x lo hi : Word) : Word := eMin (eMax x lo) hi
def eLe (a b : Word) : Bool := !(f32 a).isNan && !(f32 b).isNan && !fLt false (f32 b) (f32 a)
def eLt (a b : Word) : Bool := fLt false (f32 a) (f32 b)

/-- step(a, b, m) of R360: at most m towards b. -/
def eStep (a b m : Word) : Word :=
  if decide ((f32Rat b - f32Rat a).abs ≤ f32Rat m) then b
  else if f32Rat a < f32Rat b then eAdd a m else eSub a m

/-! ### Conversions (R44, R227, R357, R358) -/

/-- A code at full scale, and whether the input lay beyond it. -/
def adcCode (c : Int) : Int := min 32767 (max (-32768) c)
def adcOver (c : Int) : Bool := decide (c ≠ adcCode c)

/-- A converted value: offset in 1/256 code, scale constant times gain in binary64, then FP32. -/
def adcValue (c off : Int) (gain : Rat) (k : Word) : Word :=
  ratF32 ((adcCode c - mkRat off 256) * rn64 (f32Rat k * gain))

/-- What the loop engines read at a sample boundary. -/
structure Smp where
  vst   : Word
  vbus  : Word
  ip    : List Word
  iout  : List Word
  /-- Sum and mean of the enabled phase currents, and the stack-current estimate. -/
  sumI  : Word
  iMean : Word
  iEst  : Word
  /-- Phases that tripped the fast limit in the sample that ends. -/
  trips : BitVec 12
  /-- Over-range counters (R576 group 0x04) that the conversions move. -/
  overs : List Nat
  deriving DecidableEq, Repr, Inhabited

/-- The conversions of a sample; the estimate uses the duty of the sample that ends (R360). -/
def sampleOf (s : State) (codes : LoopCodes) (tripped : List Bool) : Smp :=
  let c := s.stage.cfg
  let b := s.boot
  let ip := (List.range 12).map fun p =>
    adcValue (codes.iph.getD p 0) (b.oPh.getD p 0) (b.gPh.getD p 1) c.kIph
  let sumI := (phases c).foldl (fun a p => eAdd a (ip.getD p 0)) 0
  let hit := (phases c).filter fun p => tripped.getD p false || s.stage.trips.getLsbD p
  { vst := adcValue codes.vstack b.oVstack b.gVstack c.kVstack, vbus := adcValue codes.vbus b.oV b.gV c.kVbus, ip := ip,
    iout := (List.range 24).map fun n => adcValue (codes.iout.getD n 0) (b.oI.getD n 0) (b.gI.getD n 1) c.kIout,
    sumI := sumI, iMean := eDiv sumI (ratF32 (nPh c)), iEst := eMul s.stage.duty sumI,
    trips := if s.stage.parked then 0 else hit.foldl (fun v p => setBit v p true) 0,
    overs := ((List.range 24).filter fun n => adcOver (codes.iout.getD n 0)) ++
      (if adcOver codes.vstack then [24] else []) ++ (if adcOver codes.vbus then [25] else []) ++
      (((List.range 12).filter fun p => adcOver (codes.iph.getD p 0)).map (26 + ·)) }

/-! ### Reference (R362, R363) -/

/-- The sample that is coming, counted from sample 0 of stroke 0. -/
def nextSample (s : State) : Nat := now s * s.clk.loopDiv + s.stage.sample + 1

/-- What the current profile gives for a sample: its entry, its last entry while the hold lasts, or nothing. -/
inductive RefAt where
  | entry (i : Word)
  | held (i : Word)
  | none
  deriving DecidableEq, Repr, Inhabited

/-- R363: the reference for a sample. -/
def refAt (s : State) (a : Nat) : RefAt :=
  let p := s.stage.profile
  let n := p.iRef.length
  let first := p.start.toNat * s.clk.loopDiv + p.sample
  if n = 0 then .none
  else if first ≤ a ∧ a < first + n then .entry (p.iRef.getD (a - first) 0)
  else if a ≤ first + n - 1 + s.stage.cfg.refHold * s.clk.loopDiv then .held (p.iRef.getD (n - 1) 0)
  else .none

/-- A copy of the REF area as a profile (R294). -/
def profileOf (ws : List Word) : Profile :=
  { start := BitVec.ofNat 64 (wide (ws.getD 0 0) (ws.getD 1 0)), sample := fld (ws.getD 2 0) 0 5
    iRef := (ws.drop 4).take (min 64 (fld (ws.getD 2 0) 8 7)) }

/-- R362: the shadow, every write to the REF area that has reached the well, becomes the profile, except where R367 and R389 ignore
the REF area. -/
def takeUpProfile (s : State) : State :=
  if s.stage.takeUp then
    let keep := s.stage.modeV || decide (s.stage.loop = .opening)
    let p := profileOf (memWords (writesLand s) s.stage.refStage 80)
    stMod (fun x => { x with takeUp := false, shadow := p, profile := if keep then x.profile else p }) s
  else s

/-- R363: a profile that again holds an entry for the coming sample ends REF_STARVED. -/
def refFound (s : State) : State :=
  match refAt s (nextSample s) with
  | .entry _ => stMod (fun x => { x with refStarved := false }) s
  | _ => s

/-- The reference of the coming sample enters the stack engine. -/
def refEnter (s : State) : State :=
  match refAt s (nextSample s) with
  | .entry i => stMod (fun x => { x with iRefEntry := i }) s
  | .held i => stMod (fun x => { x with iRefEntry := i }) s
  | .none => stMod (fun x => { x with iRefEntry := 0 }) s

/-- Closed current mode, including the ramp of LOOP_OPEN. -/
def currentMode (x : Stage) : Bool := (decide (x.loop = .closed) || decide (x.loop = .opening)) && !x.modeV

/-- REF_STARVED (R363): the hold has passed without an entry. Idle unless that is so in closed current mode. -/
def execRefStarved (s : State) : Out :=
  if s.stage.loop = .closed ∧ s.stage.modeV = false ∧ s.stage.refStarved = false ∧ refAt s (nextSample s) = .none then
    .next (stRecord 1 0x0605 (now s - s.stage.profile.start.toNat)
      (stMod (fun x => { x with refStarved := true, iRefEntry := 0 }) s))
  else .next s

/-! ### Engines (R355, R360) -/

/-- T_SAMPLE in µs as FP32. -/
def tUs (s : State) : Word := ratF32 (sampleUs s)

/-- D_HI. -/
def dHi (s : State) : Word := ratF32 (1 - ((s.stage.cfg.dMinNs : Rat) + deadNs s.stage.cfg) / sampleNs s)

/-- I_CAP. -/
def iCap (x : Stage) : Word := eDiv (if x.foldback then x.cfg.iPhCont else x.cfg.iPhMax) (ratF32 (mkRat 112 100))

/-- I_LIM of the stack engine. -/
def iLim (x : Stage) (iApp vst : Word) : Word :=
  let c := x.cfg
  let i := eClamp iApp (eNeg c.iStkChg) c.iStkDis
  let i := if eLe vst c.vstkMin then eMin i 0 else i
  if eLe c.vstkMax vst then eMax i 0 else i

/-- The stack engine's sequence (R360); while the loop opens, I_APP moves to zero at its own rate (R389). -/
def stackEngine (m : Smp) (s : State) : State :=
  stMod (fun x =>
    let c := x.cfg
    let opening := decide (x.loop = .opening)
    let iApp := eStep x.iApp (if opening then 0 else x.iRefEntry) (eMul (if opening then x.openSlew else c.refSlew) (tUs s))
    let lim := iLim x iApp m.vst
    let k := if eLe 0 lim then c.etaDis else eDiv (ratF32 1) c.etaChg
    let ff := eDiv (eMul (eMul lim m.vst) k) (eMul m.vbus (ratF32 (nPh c)))
    let zl := eMul (ratF32 (mkRat 1 10)) c.iPhMax
    let z := eClamp (eAdd x.z (eMul x.liveCoefs.kiS (eSub lim m.iEst))) (eNeg zl) zl
    { x with iApp := iApp, z := z, iMref := eClamp (eAdd ff z) (eNeg (iCap x)) (iCap x) }) s

/-- The bus engine's sequence (R360). The stack limit lowers I_MREF so that the estimate with the duty in force stays within
I_STK_DIS_MAX. -/
def busEngine (m : Smp) (s : State) : State :=
  stMod (fun x =>
    let c := x.cfg
    let vApp := eStep x.vApp c.vHold (eDiv (eMul c.vSlew (tUs s)) (ratF32 1000))
    let ev := eSub vApp m.vbus
    let yNew := eAdd x.y (eMul x.liveCoefs.kiV ev)
    let raw := eAdd (eMul x.liveCoefs.kpV ev) yNew
    let i := eClamp raw 0 (iCap x)
    let i := if (f32 x.duty).isZero then i else eMin i (eDiv c.iStkDis (eMul x.duty (ratF32 (nPh c))))
    let i := if eLe m.vst c.vstkMin then 0 else i
    { x with vApp := vApp, ev := ev, y := if i = raw then yNew else x.y, iMref := i,
             zeroRun := if eLe raw 0 then x.zeroRun + 1 else 0 }) s

/-- The phase engines' common duty (R360). -/
def phaseEngines (m : Smp) (s : State) : State :=
  stMod (fun x =>
    let e := eSub x.iMref m.iMean
    let xNew := eAdd x.x (eMul x.liveCoefs.kiI e)
    let raw := eAdd (eAdd (eDiv m.vbus m.vst) (eMul x.liveCoefs.kpI e)) xNew
    let d := eClamp raw (dLo s) (dHi s)
    { x with eErr := e, dutyNext := d, x := if d = raw ∧ m.trips = 0 then xNew else x.x }) s

/-- R372: what the fast limit makes of a period's edges: a cut high pulse ends at the cut and the low side takes the rest; a cut low
pulse ends at the cut and the high side conducts to the end of the period. -/
def pwmCut (c : StageCfg) (cuts : List FastTrip) (phase : Nat) : List Rat → List Rat
  | [a, on, off, low, e] =>
    let at_ (f : FastTrip) : Rat := mkRat (5 * f.at_) 16
    let mine (f : FastTrip) (side : Bool) : Bool := decide (f.phase.val = phase) && decide (f.low = side)
    match cuts.find? fun f => mine f false && decide (on ≤ at_ f) && decide (at_ f < off) with
    | some f => [a, on, at_ f, at_ f + mkRat (5 * c.dtHl) 16, e]
    | none => match cuts.find? fun f => mine f true && decide (low ≤ at_ f) && decide (at_ f < e) with
      | some f => [a, on, off, low, at_ f, at_ f + mkRat (5 * c.dtLh) 16, e]
      | none => [a, on, off, low, e]
  | l => l

/-- R354: the five edges of a switching phase in the period that belongs to the sample of a stroke, in ns from the stroke's start to
312.5 ps: low side off, high side on, high side off, low side on, low side off; where the fast limit has cut its low pulse, low side off,
high side on and high side off in place of the last. A parked phase and a phase outside PHASE_EN have none (R353, R356). -/
def pwmEdges (s : State) (sample phase : Nat) : Option (List Rat) :=
  let c := s.stage.cfg
  let x := s.stage
  if x.parked || x.ovLatch || !c.phaseEn.getLsbD phase then none
  else
    let t : Rat := sampleNs s
    let unit (v : Rat) : Rat := mkRat (5 * ratRound .nearest (v * mkRat 16 5)) 16
    let a := unit (sample * t + phase * t / 12)
    let on := a + mkRat (5 * c.dtLh) 16
    let off := unit (on + f32Rat x.duty * t)
    some (pwmCut c x.cuts phase [a, on, off, off + mkRat (5 * c.dtHl) 16, unit ((sample + 1) * t + phase * t / 12)])

/-- The duty of soft start for the coming sample (R368): a ramp from D_LO, then VBUS / VSTACK. -/
def softDuty (m : Smp) (s : State) : State :=
  stMod (fun x =>
    let r := eDiv m.vbus m.vst
    let frac := min 1 (x.ssRun * sampleUs s / x.cfg.ssRampUs)
    let d := if x.ssOring then r else eAdd (dLo s) (eMul (eSub r (dLo s)) (ratF32 frac))
    { x with dutyNext := eClamp d (dLo s) (dHi s), ssRun := x.ssRun + 1 }) s

/-! ### Steps of a sample boundary -/

/-- R362, R70, R358: time, the profile, the conversions, the duty that loads, and the trips of the ended sample. -/
def sampleBegin (m : Smp) (s : State) : State :=
  let s := refFound (takeUpProfile s)
  let s := { s with clk := { s.clk with tick := max s.clk.tick (s.stage.sample * sampleTicks s) } }
  let s := { s with diag := { s.diag with overRange := m.overs.foldl (fun l i => bump l i 1) s.diag.overRange } }
  stMod (fun x => { x with
    vstack := m.vst, vbus := m.vbus, iph := m.ip, iMean := m.iMean, iStkEst := m.iEst, duty := x.dutyNext,
    trips := 0, tripsLast := m.trips, belowOv := if eLt m.vbus x.cfg.ovClear then x.belowOv + 1 else 0,
    fastTrips := if m.trips = 0 then x.fastTrips else satAdd (2 ^ 32 - 1) x.fastTrips 1 }) s

/-- LOOP_MISMATCH (R361): veto 0x02, and a RUNNING STAGE faults with its phases parked. During an OV latch the latch stays and the
veto alone follows (R379). -/
def loopMismatch (check : LoopCheck) (s : State) : State :=
  if (check.mismatchA || check.mismatchB || loopDrifts s) && (decide (s.stage.loop ≠ .idle) || s.stage.ovLatch) then
    stageFault 0x0601 (vetoLatch 2 s)
  else s

/-- One I²t accumulator (R373), T_SAMPLE in ms. -/
def i2tNext (s : State) (a i : Word) : Word :=
  let c := s.stage.cfg
  eMax 0 (eAdd a (eMul (eSub (eMul i i) (eMul c.iPhCont c.iPhCont)) (ratF32 (sampleUs s / 1000))))

/-- FOLD_BACK (R373): every sample moves the accumulators; fold-back starts above A_LIM on any phase and ends once every accumulator
is below A_LIM / 2. -/
def foldBack (m : Smp) (s : State) : State :=
  let old := s.stage.i2t
  let a := (List.range 12).map fun p => i2tNext s (old.getD p 0) (m.ip.getD p 0)
  let lim := aLim s.stage.cfg
  let half := eDiv lim (ratF32 2)
  let s := stMod (fun x => { x with i2t := a }) s
  if s.stage.foldback then
    if a.all fun v => eLt v half then
      let p := ((List.range 12).find? fun p => !eLt (old.getD p 0) half).getD 0
      stRecord 1 0x0604 (p * 256) (stMod (fun x => { x with foldback := false }) s)
    else s
  else match (List.range 12).find? fun p => eLt lim (a.getD p 0) with
    | some p => stRecord 1 0x0604 (p * 256 + 1) (stMod (fun x => { x with foldback := true }) s)
    | none => s

/-- SOFT_START_ABORT (R369): the attempt ends; the fourth faults STAGE. -/
def softAbort (s : State) : State :=
  let n := s.stage.attempt
  let s := stRecord 1 0x0601 n s
  if 4 ≤ n then stageFault 0x0602 s
  else stMod (fun x => { stIdle x with loop := .retryWait }) s

/-- The fast limit's counts (R369, R372): short-circuit samples in soft start, FAST_PERSIST outside it. -/
def fastLimit (m : Smp) (s : State) : State :=
  let hit := decide (m.trips ≠ 0)
  match s.stage.loop with
  | .softStart =>
    let n := if hit then s.stage.scCount + 1 else 0
    let s := stMod (fun x => { x with scCount := n }) s
    if s.stage.cfg.ssScCount ≤ n then softAbort s else s
  | .closed =>
    let n := if hit then s.stage.fastRun + 1 else 0
    let s := stMod (fun x => { x with fastRun := n }) s
    if s.stage.cfg.fastN ≤ n then stageFault 0x0605 s else s
  | .opening =>
    let n := if hit then s.stage.fastRun + 1 else 0
    let s := stMod (fun x => { x with fastRun := n }) s
    if s.stage.cfg.fastN ≤ n then stageFault 0x0605 s else s
  | _ => s

/-- R379: a soft-start abort that arises at the boundary of a loop mismatch is recorded, though the mismatch decides the outputs. -/
def abortRecorded (m : Smp) (was s : State) : State :=
  if was.stage.loop = .softStart ∧ s.stage.loop ≠ .softStart ∧ m.trips ≠ 0 ∧ was.stage.cfg.ssScCount ≤ was.stage.scCount + 1 then
    stRecord 1 0x0601 was.stage.attempt s
  else s

/-- R375: whether the UV delay runs. -/
def uvWatch (s : State) : State :=
  stMod (fun x => { x with
    uvPending := fnRunning s fSTAGE && x.cfg.uvEn && eLt x.vbus x.cfg.uvLevel }) s

/-- Control passes to the bus engine (R365). -/
def toVoltage (s : State) : State :=
  stRecord 1 0x0603 1 (stMod (fun x => { x with modeV := true, y := x.iMref, vApp := x.vbus, zeroRun := 0, lowBus := 0 }) s)

/-- Control returns to the stack engine (R366). -/
def toCurrent (s : State) : State :=
  stRecord 1 0x0603 0 (stMod (fun x => { x with modeV := false, iApp := x.iStkEst, zeroRun := 0, lowBus := 0 }) s)

/-- The mode at a sample boundary: MODE_SEL takes effect, GRID_LOSS is counted (R365, R366, R367, R391). -/
def modeStep (s : State) : State :=
  let s := stMod (fun x => { x with modeSel := x.modeReq.getD x.modeSel, modeReq := none }) s
  let x := s.stage
  if x.modeV then (if x.modeSel = 1 then toCurrent s else s)
  else if x.loop ≠ .closed then stMod (fun x => { x with lowBus := 0 }) s
  else if x.modeSel = 2 then toVoltage s
  else if x.modeSel = 0 then
    let n := if eLt x.vbus x.cfg.vmEnter then x.lowBus + 1 else 0
    let s := stMod (fun x => { x with lowBus := n }) s
    if x.cfg.debounce ≤ n || gridIn s then toVoltage s else s
  else stMod (fun x => { x with lowBus := 0 }) s

/-- The engines compute the coming duty. -/
def enginesStep (m : Smp) (s : State) : State :=
  let x := s.stage
  if x.loop = .softStart then softDuty m s
  else if x.loop = .closed ∨ x.loop = .opening then
    phaseEngines m (if x.modeV then busEngine m s else stackEngine m (if x.loop = .closed then refEnter s else s))
  else stMod (fun x => { x with dutyNext := 0 }) s

/-- R429: the charge of the sample in µC. -/
def chargeStep (s : State) : State :=
  let x := s.stage
  let i : Word := if currentMode x then x.iApp else if x.modeV then x.iStkEst else 0
  let q := ratRound .nearest (f32Rat i * sampleUs s)
  stMod (fun x => { x with qCmd := x.qCmd + q, qAbs := x.qAbs + q.natAbs }) s

/-- P_IN and P_STOR of a sample (R377). -/
def pIn (d : Word) (m : Smp) : Word := eMul (eMul m.vst d) m.sumI
def pStor (m : Smp) : Word := eMul m.vbus m.sumI

/-- A sample enters the sums of its stroke (R282, R392). `d` is the duty of the sample that has ended. -/
def sumsStep (d : Word) (m : Smp) (s : State) : State :=
  stMod (fun x =>
    let u := x.sums
    let q := f32Rat
    let shut := decide (x.loop = .closed) && x.oring
    { x with sample := x.sample + 1, sums :=
      { n := u.n + 1, vstack := u.vstack + q m.vst, vbus := u.vbus + q m.vbus,
        iph := (List.range 12).map fun p => u.iph.getD p 0 + q (m.ip.getD p 0),
        iout := (List.range 24).map fun p => u.iout.getD p 0 + q (m.iout.getD p 0),
        load := u.load + m.iout.foldl (fun a i => a + q m.vbus * q i) 0,
        pin := u.pin + q (pIn d m), pstor := u.pstor + q (pStor m), iApp := u.iApp + q x.iApp, iStk := u.iStk + q m.iEst,
        iMref := u.iMref + q x.iMref, iMean := u.iMean + q m.iMean, duty := u.duty + q d, vApp := u.vApp + q x.vApp,
        aMax := u.aMax + q (aRatio s),
        ovr := u.ovr || !m.overs.isEmpty, vmode := u.vmode || x.modeV,
        closed := if u.n = 0 then shut else u.closed && shut } }) s

/-! ### Probes (R385) -/

/-- FP32 one and zero. -/
def eBool (b : Bool) : Word := if b then 0x3F800000 else 0

/-- The bus lies above OV_LEVEL while the filter of the OV circuit runs (R371, R374), as the loops' own conversion sees it (entry 156,
DESIGN CHOICE). -/
def ovPending (s : State) (m : Smp) : Bool := fnRunning s fSTAGE && eLt s.stage.cfg.ovLevel m.vbus

/-- The 64 probe values of a die for one point; zero while the engines are idle. The phase engine that the checker follows
rotates with the samples, from a start that the manual does not give. -/
def probes (die : Nat) (d : Word) (m : Smp) (s : State) : List Word :=
  let x := s.stage
  if x.loop = .idle then List.replicate 64 0
  else
    let phase (e : Nat) : List Word :=
      let p := 6 * die + e
      [x.iMref, m.ip.getD p 0, m.iMean, x.eErr, x.x, x.dutyNext, eDiv (x.i2t.getD p 0) (aLim x.cfg),
       eBool (x.tripsLast.getLsbD p)]
    let limited := decide (iLim x x.iApp m.vst ≠ x.iApp)
    let outer : List Word := if die = 0
      then [x.iRefEntry, x.iApp, m.iEst, x.z, m.vst, pIn d m, x.iMref, eBool (limited && !x.modeV)]
      else [x.vApp, m.vbus, x.ev, x.y, if x.modeV then x.iMref else 0, pStor m, eBool x.modeV, eBool (ovPending s m || x.uvPending)]
    let checked := (Config.checkerStart + nextSample s) % 6
    (List.range 6).flatMap phase ++ outer ++ [ratF32 checked, x.dutyNext, x.dutyNext, 0, 0, 0, 0, 0]

/-- SAMPLE_BOUNDARY (R358): conversions, profile, checks, protection, modes, engines, charge, sums and traces. Nothing happens
without a loop clock or after the stroke's last sample. -/
def execSampleBoundary (codes : LoopCodes) (check : LoopCheck) (tripped : List Bool) (s : State) : Out :=
  if !loopClock s || decide (s.clk.loopDiv ≤ s.stage.sample) then .next s
  else
    let m := sampleOf s codes tripped
    let d := s.stage.duty
    let b := sampleBegin m s
    let s := enginesStep m (modeStep (uvWatch (fastLimit m (foldBack m (abortRecorded m b (loopMismatch check b))))))
    let s := traceSample 1 (probes 1 d m s) (traceSample 0 (probes 0 d m s) s)
    .next (sumsStep d m (chargeStep s))

/-! ### Timed steps of soft start and voltage mode (R366, R368, R369) -/

/-- SOFT_START_RAMP_END (R368 step 3): ORING_ON rises. Idle outside step 2. -/
def execSoftStartRampEnd (s : State) : Out :=
  if loopClock s ∧ s.stage.loop = .softStart ∧ s.stage.ssOring = false then
    .next (stMod (fun x => { x with ssOring := true, oring := true }) s)
  else .next s

/-- SOFT_START_LOOP_CLOSE (R368 step 4): the loop closes in current mode. Idle outside step 3. -/
def execSoftStartLoopClose (s : State) : Out :=
  if loopClock s ∧ s.stage.loop = .softStart ∧ s.stage.ssOring = true then
    .next (stMod (fun x => { x with
      loop := .closed, modeV := false, x := 0, z := 0, iApp := 0, ssOring := false, fastRun := 0, lowBus := 0 }) s)
  else .next s

/-- SOFT_START_RETRY (R369): the next attempt begins. Idle outside a retry wait. -/
def execSoftStartRetry (s : State) : Out :=
  if loopClock s ∧ s.stage.loop = .retryWait then
    .next (softBegin (s.stage.attempt + 1) s)
  else .next s

/-- VOLTAGE_MODE_EXIT (R366). Idle unless I_MREF has stayed at its zero clamp for MODE_EXIT_MS with MODE_SEL = 0 and no grid
pin asserted. -/
def execVoltageModeExit (s : State) : Out :=
  if s.stage.modeV ∧ s.stage.modeSel = 0 ∧ gridIn s = false ∧
      s.stage.cfg.modeExitMs * 100000 ≤ s.stage.zeroRun * sampleTicks s then
    .next (toCurrent s)
  else .next s

/-! ### Protection events (R39, R372, R374 to R376) -/

/-- FAST_LIMIT_TRIP (R372): the pulse of a switching phase is cut, and the sample counts as tripped. -/
def execFastLimitTrip (trip : FastTrip) (s : State) : Out :=
  if s.stage.parked || !s.stage.cfg.phaseEn.getLsbD trip.phase.val then .next s
  else .next (stMod (fun x => { x with trips := setBit x.trips trip.phase.val true, cuts := x.cuts ++ [trip] }) s)

/-- OV_LATCH (R374): low sides on, high sides off, ORing open, FAULTED. Idle unless STAGE is RUNNING. -/
def execOvLatch (s : State) : Out :=
  if fnRunning s fSTAGE then
    .next (stMod (fun x => { x with ovLatch := true, parked := false, belowOv := 0 }) (stageFault 0x0603 s))
  else .next s

/-- UV_TRIP (R375). Idle unless the UV delay runs. -/
def execUvTrip (s : State) : Out :=
  if fnRunning s fSTAGE ∧ s.stage.cfg.uvEn ∧ s.stage.uvPending then .next (stageFault 0x0604 s) else .next s

/-- FAULT_IN_ASSERTED (R376): a pin that STAGE claims is recorded, in FAULTED too (R379); its action follows while STAGE is RUNNING,
action 4 at the next sample boundary (R365). -/
def execFaultInAsserted (pin : Fin 4) (s : State) : Out :=
  let s := stMod (fun x => { x with faultIn := x.faultIn.set pin.val true }) s
  let a := finAction s.stage.cfg pin.val
  if s.power.life = .up ∧ (fnRunning s fSTAGE ∨ fnFaulted s fSTAGE) ∧ a ≠ 0 then
    let s := stRecord 1 0x0606 (pin.val * 256 + a) s
    if a = 2 then .next (stageStopped s) else if a = 3 then .next (stageFault 0x0607 s) else .next s
  else .next s

/-- FAULT_IN_DEASSERTED (R376). -/
def execFaultInDeasserted (pin : Fin 4) (s : State) : Out :=
  .next (stMod (fun x => { x with faultIn := x.faultIn.set pin.val false }) s)

/-- The converter's part of a falling AUTH_GNT (R39, R374, R378): parked by hardware, the OV latch ends, a RUNNING STAGE
stops with record 0x0602. -/
def stageGrantLost (s : State) : State :=
  let l := s.stage.loop.num
  let s := stMod (fun x => { stParked x with ovLatch := false }) s
  if fnRunning s fSTAGE then stageStopped (stRecord 2 0x0602 l s) else s

end Sys2Proof.Machine
end

