-- ==== Sys2Proof/Machine/Pipeline.lean ====
section
/-! DEFINITION. The smoothing pipeline: marker edges, targets, the stroke input block, DISPATCH, PERSIST and FORECAST, and
the pipeline commands (R41, R281 to R297, R315 to R318, R441, R488, R489). -/

namespace Sys2Proof.Machine

/-! ### Current copies of areas (R236) -/

/-- The words of the current copy of an area. -/
def copyWords (s : State) (base size : Nat) : List Word := memWords s (currentCopy s base size) (size / 4)

/-- R192: the first uncorrectable word of an area's status line or current copy. -/
def areaDamage (s : State) (base size : Nat) : Option Nat :=
  (damagedIn s base 64).or (damagedIn s (currentCopy s base size) size)

/-- R193: the answer of a command that reads an area: of its current copy, zeros before its first commit; E_FAULT and record 0x0010 where a
word is uncorrectable. -/
def areaAnswer (base size : Nat) (f : List Word → Answer) (s : State) : State × Answer :=
  match areaDamage (seeAs .clerk s) base size with
  | some d => (uncorrectable 0 0xFF 6 d s, errR .fault 0)
  | none => (s, f (if validOf s base then copyWords s base size else List.replicate (size / 4) 0))

/-- COMMIT of a status line. -/
def commitOf (s : State) (base : Nat) : Nat := wide (memWord s (base + 4)) (memWord s (base + 8))

/-- Writes words into the staging copies of a list's area; the run's commit makes them current. -/
def stageArea (l : Inst) (i : Nat) (ws : List Word) (s : State) : State :=
  let x := l.areas.getD i default
  (l.bases x).foldl (fun t b => seenWords .path (stagingCopy t b x.size) (fit (x.size / 4) 0 ws) t) s

/-! ### Marker edges (R41, R283, R295) -/

/-- A pin of a marker is claimed by trace capture. -/
def markTraced (s : State) (n : Nat) : Bool := decide (claimOwner s n = some 0x30 ∨ claimOwner s n = some 0x31)

/-- An edge enters a list of edges in timestamp order. -/
def edgeInsert (e : Edge) : List Edge → List Edge
  | [] => [e]
  | x :: t => if e.stroke < x.stroke || (decide (e.stroke = x.stroke) && decide (e.tick < x.tick))
      then e :: x :: t else x :: edgeInsert e t

/-- Counts a dropped edge. -/
def markDrop (n : Nat) (s : State) : State := { s with diag := { s.diag with markers := bump s.diag.markers n 1 } }

/-- Ticks from a remembered instant, saturating; the first edge reads all ones (R295). -/
def ticksSince (at_ : Nat) : Option Nat → Word
  | some p => w32 (min 0xFFFFFFFF (at_ - p))
  | none => 0xFFFFFFFF

/-- An edge enters the block of the present stroke, which holds 64 of them (R283). -/
def edgeEnter (e : Edge) (s : State) : State :=
  if s.pipe.edges.length < 64 then { s with pipe := { s.pipe with edges := edgeInsert e s.pipe.edges } }
  else markDrop e.n { s with pipe := { s.pipe with markOvf := true } }

/-- An accepted edge joins the bucket of the present stroke (R295) and, where MARK_EN selects its input, the block; one within 20 ns before
the next boundary waits for the block of the next stroke (R283). -/
def edgeAccept (e : Edge) (s : State) : State :=
  let s := { s with pipe := { s.pipe with marked := s.pipe.marked ++ [e] } }
  if s.stage.cfg.markEn.getLsbD e.n && fnOn s fSTAGE && !markTraced s e.n then
    if e.tick + 2 < s.clk.strokeLen then edgeEnter e s
    else { s with pipe := { s.pipe with late := s.pipe.late ++ [e] } }
  else s

/-- MARK_EDGE (R41): an edge passes the receiver; one within 100 ns of the last accepted edge of its input is dropped, one exactly 10 ticks
after it too, although R40 accepts pulses of 100 ns. An edge in a tick by which a realigned stroke is longer than STROKE_DIV has no timestamp
under R70: it is neither stamped nor counted (entry 168, DESIGN CHOICE). Without the gate bit of its timestamp unit nothing is seen. -/
def execMarkEdge (n : Fin 24) (rising : Bool) (stroke : Stroke) (tick : BitVec 20) (s : State) : Out :=
  if !gateOn s (if n.val < 12 then 9 else 10) || !loopClock s || decide (stroke ≠ s.clk.stroke) ||
      decide (min s.clk.strokeDiv s.clk.strokeLen ≤ tick.toNat) then .next s
  else
    let m := s.pipe.marks.getD n.val {}
    let at_ := s.clk.base + tick.toNat
    let close := match m.last with
      | some p => decide (at_ ≤ p + 10) && decide (p ≤ at_ + 10)
      | none => false
    if close then .next (markDrop n.val s)
    else
      let e : Edge := { n := n.val, rising := rising, stroke := stroke, tick := tick.toNat,
                        since := ticksSince at_ (if rising then m.rise else m.fall) }
      let m' : MarkIn := { last := some at_, rise := if rising then some at_ else m.rise,
                           fall := if rising then m.fall else some at_ }
      .next (edgeAccept e { s with pipe := { s.pipe with marks := s.pipe.marks.set n.val m' } })

/-- An edge record (R295). -/
def edgeWords (e : Edge) : List Word :=
  [lo32 e.stroke.toNat, hi32 e.stroke.toNat, packW [(b2n e.rising, 31), (e.n, 24), (e.tick, 0)], e.since]

/-! ### The forecast area and M (R284, R287, R290) -/

/-- The stroke input block: bases in every cistern (R281), SIZE, and its newest copy as C0 holds it. -/
def blockBases : List Nat := (List.range 4).flatMap fun c => [aCist c, aCist c + 0x5800000]
def blockSize : Nat := 1216
def blockWords (s : State) : List Word := copyWords s (aCist 0) blockSize

/-- A forecast bracket. -/
def fcBracket (s : State) (j : Nat) : Bw :=
  let a := currentCopy s aForecast 576 + 8 * j
  { c := memWord s a, g := memWord s (a + 4) }

/-- M: bracket 64, or an unbounded bracket at LOAD_W while no forecast is valid or M is void. -/
def fcMean (s : State) : Bw :=
  let m := fcBracket s 64
  if validOf s aForecast && decide (m.cls ≠ .void) then m
  else bwUnb (ratRound .nearest (16 * f32Rat ((blockWords s).getD 4 0)))

/-! ### Targets (R287, R315, R488, R493, R520) -/

/-- One stroke of a ramp towards an end: the new value and whether the ramp goes on. -/
def rampStep (s : State) (v e slope : Rat) : Rat × Bool :=
  let d := slope * s.clk.strokeDiv / 100000000
  if (e - v).abs ≤ d then (e, false) else (if v < e then v + d else v - d, true)

/-- A target moves by one stroke; without a target it follows `m`, along its ramp until it has reached it (R287, R520). -/
def targetStep (s : State) (m : Rat) (t : TargetSt) : TargetSt :=
  match t.ramp with
  | some (e, k) =>
    let r := rampStep s t.value (if t.targeted then e else m) k
    { t with value := r.1, ramp := if r.2 then some (e, k) else none }
  | none => if t.targeted then t else { t with value := m }

/-- A host target takes effect. -/
def targetNew (p : TargetPend) (k : Nat) (m : Rat) (t : TargetSt) : TargetSt :=
  let ramp := if p.ramp = 0 then none else some ((p.value : Rat), (16 * p.ramp : Rat))
  { targeted := decide (p.scope ≠ 2), ramp := ramp, applied := BitVec.ofNat 64 k,
    value := if p.ramp ≠ 0 then t.value else if p.scope = 2 then m else p.value }

/-- The midpoint of M in 1/16 W. -/
def meanNow (s : State) : Rat := (fcMean s).mid
/-- The midpoint of Σ M. A new head has none before it sees a frame of its own, since R514 names neither Σ M nor N_ACTIVE: an untargeted
rope target stays as mirrored until then, and HOST_LOSS_RAMP is multiplied by the N_ACTIVE that the module last saw, 0 after reset (entry
159, DESIGN CHOICE). -/
def ropeMeanNow (s : State) : Rat := if s.rope.seen then (s.rope.sumM : Rat) else s.pipe.ropeTarget.value

/-- A pipeline event record (R318): the stroke of the block concerned. -/
def pipeRecord (sev code : Nat) (word : Word) (s : State) : State := emit sev fFIXED0 code [strokeLo s, word] s

/-- TARGET_APPLY (R287, R315, R493): at the boundary into stroke k ramps move, then a scheduled target and cap take effect. -/
def targetsBoundary (k : Nat) (s : State) : State :=
  let shelf : TargetSt :=
    if s.clerk.ropeRole = 0 then { s.pipe.target with targeted := false, ramp := none } else s.pipe.target
  let s := { s with pipe := { s.pipe with
    target := targetStep s (meanNow s) shelf, ropeTarget := targetStep s (ropeMeanNow s) s.pipe.ropeTarget } }
  let s := match s.pipe.pend with
    | some p =>
      if k < p.at_.toNat then s
      else
        let rope := decide (p.scope = 1) || (decide (p.scope = 2) && decide (s.clerk.ropeRole = 2))
        let s := { s with pipe := { s.pipe with pend := none } }
        let s := if rope
          then { s with pipe := { s.pipe with ropeTarget := targetNew p k (ropeMeanNow s) s.pipe.ropeTarget } }
          else { s with pipe := { s.pipe with target := targetNew p k (meanNow s) s.pipe.target } }
        pipeRecord 0 0x0110 (i32 p.value) s
    | none => s
  match s.pipe.capPend with
  | some (c, at_) => if k < at_.toNat then s else { s with pipe := { s.pipe with cap := c, capPend := none } }
  | none => s

/-- R488: TARGET_W in watts: the lower of the target in force and the cap. -/
def targetW (s : State) : Rat :=
  (match s.pipe.cap with
    | some c => min s.pipe.target.value c
    | none => s.pipe.target.value) / 16

/-- R315: the stroke at which something given by APPLY_AT applies. -/
def applyAt (s : State) (w : Word) : Nat :=
  let d := (w - strokeLo s).toNat
  if d = 0 ∨ 2 ^ 31 ≤ d then now s + 1 else now s + d

/-- R18: the module takes a target of a scope: a rope target only on the module that heads a rope, a shelf target only on a
standalone module, the autonomous target on either. A module with no rope role takes none. -/
def targetRoleOk (s : State) (scope : Nat) : Bool :=
  let alone := decide (s.clerk.ropeRole = 1)
  if scope = 1 then headsRope s else if scope = 0 then alone else alone || headsRope s

/-- A standalone standby: it passes targets to its partner (R517). -/
def standaloneStandby (s : State) : Bool :=
  fnLive s fPAIR && !s.pair.active && decide (s.clerk.ropeRole = 1)

/-- The checks of TARGET_SET: the queue, the fields, the role, the rope path of a standby. -/
def targetSetBad (s : State) (r : Req) : Option Answer :=
  let scope := fld (r.w 2) 0 2
  let v := (r.w 3).toInt
  firstErr
    [runBad s fFIXED0,
     rangeBad
       [(decide (fld (r.w 2) 2 30 ≠ 0) || decide (scope = 3), 2),
        (decide (v < 0) || (decide (scope = 0) && decide (16000000 < v)) || (decide (scope = 2) && decide (v ≠ 0)), 3)],
     if targetRoleOk s scope then none else some (roleR s),
     if standaloneStandby s && s.pair.silentRope then some (errR .state 6) else none]

/-- R517: the mirror line by which a standalone standby passes a TARGET_SET on. -/
def forwarded (s : State) (p : TargetPend) : MirrorItem :=
  .target false (ratRound .nearest s.pipe.target.value) s.pipe.target.targeted none (some (p.scope, p.value, p.ramp, p.at_)) none

/-- TARGET_SET (R315): schedules a target; on a standalone standby it also goes to the active module at once, so that it is there before
the next boundary (R517). -/
def execTargetSet (r : Req) : State → Out :=
  mailbox { op := 0x0315, onMb := mbHigh, lenOk := (· = 4), acts := [fFIXED0] } r fun s =>
    guardE (targetSetBad s r) s fun s =>
      let k := applyAt s (r.w 5)
      let p : TargetPend := { scope := fld (r.w 2) 0 2, value := (r.w 3).toInt, ramp := (r.w 4).toNat, at_ := BitVec.ofNat 64 k }
      let s := { s with pipe := { s.pipe with pend := some p } }
      let s := if standaloneStandby s then { s with pair := { s.pair with mirrorOut := [forwarded s p] } } else s
      (s, okR [w32 k])

/-- CAP_SET (R493). -/
def execCapSet (r : Req) : State → Out :=
  mailbox { op := 0x0904, onMb := mbHigh, lenOk := (· = 2) } r fun s =>
    guardE (rangeBad [(decide (16000000 < (r.w 2).toNat) && decide (r.w 2 ≠ 0xFFFFFFFF), 2)]) s fun s =>
      let k := applyAt s (r.w 3)
      let c := if r.w 2 = 0xFFFFFFFF then none else some (r.w 2).toNat
      ({ s with pipe := { s.pipe with capPend := some (c, BitVec.ofNat 64 k) } }, okR [w32 k])

/-! ### PIPE_CONFIG and PIPE_QUERY (R316, R317) -/

/-- The checks of PIPE_CONFIG: both queues STOPPED, then the fields. -/
def pipeConfigBad (s : State) (r : Req) : Option Answer :=
  firstErr
    [([fFIXED0, fQueue 0 1].find? fun f => decide (fnState s f ≠ .stopped)).map fun f => errR .state f,
     rangeBad
       [(decide (fld (r.w 2) 25 7 ≠ 0) || decide (fld (r.w 2) 16 9 = 0 ∨ 256 < fld (r.w 2) 16 9) ||
          decide (fld (r.w 2) 0 16 = 0), 2),
        (decide (fld (r.w 3) 5 27 ≠ 0) || decide (fld (r.w 3) 0 5 < 10 ∨ 24 < fld (r.w 3) 0 5), 3),
        (decide (r.w 5 ≠ 0), 5)]]

/-- PIPE_CONFIG (R316). -/
def execPipeConfig (r : Req) : State → Out :=
  mailbox { op := 0x0316, onMb := mbHigh, lenOk := (· = 16), acts := [fFIXED0] } r fun s =>
    guardE (pipeConfigBad s r) s fun s =>
      ({ s with pipe := { s.pipe with cfg :=
        { fcStep := fld (r.w 2) 16 9, primeSlew := fld (r.w 2) 0 16, meanLog2 := fld (r.w 3) 0 5, marginW := r.w 4,
          lead := (List.range 24).map fun n => fld (r.w (6 + n / 2)) (16 * (n % 2)) 16 } } }, okR [])

/-- PIPE_QUERY (R317): the current copy of the pipeline record, or zeros before the first commit. -/
def execPipeQuery (r : Req) : State → Out :=
  mailbox { op := 0x0317, onMb := mbHigh, lenOk := (· = 0) } r (areaAnswer aRecord 64 fun ws => okR ws)

/-! ### The stroke input block (R282, R286) -/

/-- LOAD_RAD (R286): ε_V and ε_I in volts and amperes through K_VBUS and K_IOUT, rounded upward. -/
def loadRad (s : State) : Word :=
  let m := s.stage.means
  let c := s.stage.cfg
  let eV := s.boot.epsV * f32Rat c.kVbus
  let r := (List.range 24).foldl (fun a n =>
    let eI := s.boot.epsI.getD n 0 * f32Rat c.kIout
    a + (m.mean m.vbus).abs * eI + (m.mean (m.iout.getD n 0)).abs * eV + eV * eI) 0
  (toF32 .up (ofRat r)).1

/-- The words of the block of stroke k, from the means of that stroke. -/
def blockOf (k : Nat) (s : State) : List Word :=
  let m := s.stage.means
  let run := fnRunning s fSTAGE
  [lo32 k, hi32 k,
   packW [(b2n s.pair.active, 5), (b2n (headsRope s), 4), (b2n s.pipe.target.targeted, 3), (b2n s.link.hostLoss, 2),
          (b2n s.pipe.markOvf, 1), (b2n m.ovr, 0)],
   w32 s.pipe.edges.length, m.fp m.load, m.fp (m.load - m.pstor), m.fp m.pstor, m.fp m.vstack, m.fp m.vbus,
   ratF32 (targetW s), if run then s.stage.pDis else 0, if run then s.stage.pChg else 0, loadRad s, 0, 0, 0] ++
  ((List.range 24).map fun n => m.fp (m.iout.getD n 0)) ++ List.replicate 8 0 ++ s.pipe.edges.flatMap edgeWords

/-- R285: the steps that the edges of a block announce, LEAD_n microseconds after them, join those that are still to come. -/
def announce (k : Nat) (s : State) : State :=
  let step (e : Edge) : Option Announced :=
    let n := s.pipe.live.lead.getD e.n 0
    let d := e.tick + 100 * n
    if n = 0 ∨ s.clk.strokeDiv = 0 then none
    else some { stroke := e.stroke.toNat + d / s.clk.strokeDiv, tick := d % s.clk.strokeDiv, out := e.n, rising := e.rising }
  { s with pipe := { s.pipe with
    announced := (s.pipe.announced.filter fun x => decide (k ≤ x.stroke)) ++ s.pipe.edges.filterMap step } }

/-- STROKE_INPUT_BLOCK (R282): the block of stroke k is committed in every cistern; the next one starts with the edges that came too late for
it (R283). -/
def blockBoundary (k : Nat) (s : State) : State :=
  let ws := fit (blockSize / 4) 0 (blockOf k s)
  let s := blockBases.foldl (fun t b => publish (k + 1) b blockSize ws t) s
  let s := announce k s
  let late := s.pipe.late
  late.foldl (fun t e => edgeEnter e t) { s with pipe := { s.pipe with edges := [], markOvf := false, late := [] } }

/-- STREAM_WRITE (R295, R297): per-stroke streams from the block of stroke k, and the marker streams. -/
def streamBoundary (k : Nat) (s : State) : State :=
  let w := blockOf k s
  let data := decide (s.stage.means.n ≠ 0)
  let put (st i : Nat) (t : State) : State := bucketStroke st k (if data then some (w.getD i 0) else none) t
  let s := (List.range 5).foldl (fun t i => put i (4 + i) t) s
  let s := (List.range 24).foldl (fun t i => put (0x10 + i) (16 + i) t) s
  let s := (List.range 24).foldl (fun t n =>
    ((s.pipe.marked.filter fun e => e.n = n).take 64).foldl
      (fun u e => bucketPut (0x30 + n) (some (bytesOf (edgeWords e))) none u) t) s
  { s with pipe := { s.pipe with marked := [] } }

/-- R297: the stroke count changes: every bucket's epoch starts at its next index. -/
def epochChange (s : State) : State :=
  s.pipe.buckets.foldl (fun t b =>
    let b' := { b with epochN := b.written, sum := 0, count := 0, missing := 0 }
    pipeRecord 0 0x0114 (w32 b.stream) (seenWords .clerk b.base (bucketHeader b') (bucketSet b.stream (fun _ => b') t))) s

/-! ### DISPATCH (R288 to R294, R441) -/

/-- A forecast point in watts. -/
structure Pt where
  c   : Rat
  g   : Rat
  unb : Bool
  deriving DecidableEq, Repr, Inhabited

/-- R284: σ(j). -/
def sigma (step j : Nat) : Nat := if j ≤ 32 then j else 32 + (j - 32) * step

/-- The forecast points as DISPATCH uses them (R290): a point that is unbounded or void, or of a forecast that is not
valid, lies at LOAD_W. -/
def fcPoints (s : State) (load : Rat) : List Pt :=
  (List.range 64).map fun j =>
    let b := fcBracket s j
    if validOf s aForecast && decide (b.cls = .valid) then { c := mkRat b.mid 16, g := mkRat b.rad 16, unb := false }
    else { c := load, g := 0, unb := true }

/-- R288: a planned power within the limits less the radius, and whether it was moved. -/
def limitPower (p rad pd pc : Rat) : Rat × Bool :=
  if (pd + pc) / 2 < rad then ((pd - pc) / 2, true)
  else if pd - rad < p then (pd - rad, true)
  else if p < rad - pc then (rad - pc, true)
  else (p, false)

/-- What a plan has gathered so far. -/
structure Plan where
  pRef  : List Rat := []
  sDis  : Rat := 0
  sChg  : Rat := 0
  power : Bool := false
  empty : Option Nat := none
  deriving DecidableEq, Repr, Inhabited

/-- The figures that a plan works with. -/
structure PlanIn where
  target : Rat
  pd     : Rat
  pc     : Rat
  margin : Rat
  eDis   : Rat
  eChg   : Rat
  anchor : Bool
  step   : Nat
  /-- T_STROKE in seconds. -/
  ts     : Rat
  deriving DecidableEq, Repr, Inhabited

/-- R289: a power within the energy window at a point; the running sums stay at their bounds. -/
def limitEnergy (q : PlanIn) (pl : Plan) (p g dt : Rat) : Rat × Bool :=
  let hi := (q.eDis - pl.sDis) / dt - g
  let lo := (-q.eChg - pl.sChg) / dt + g
  if lo ≤ p ∧ p ≤ hi then (p, false)
  else if hi < lo then (Config.energyConflict lo hi, true)
  else (max lo (min p hi), true)

/-- One point of the plan. -/
def planPoint (q : PlanIn) (pl : Plan) (j : Nat) (x : Pt) : Plan :=
  if q.anchor then { pl with pRef := pl.pRef ++ [0] }
  else
    let a := limitPower (x.c - q.target) (x.g + q.margin) q.pd q.pc
    let dt := (sigma q.step (j + 1) - sigma q.step j : Nat) * q.ts
    let b := if x.unb then (a.1, false) else limitEnergy q pl a.1 x.g dt
    { pRef := pl.pRef ++ [b.1], sDis := pl.sDis + (b.1 + x.g) * dt, sChg := pl.sChg + (b.1 - x.g) * dt,
      power := pl.power || a.2, empty := if b.2 && pl.empty.isNone then some j else pl.empty }

/-- The plan over all points. -/
def planAll (q : PlanIn) (pts : List Pt) : Plan :=
  (pts.foldl (fun (a : Plan × Nat) x => (planPoint q a.1 a.2 x, a.2 + 1)) ({}, 0)).1

/-- The forecast point that holds a sample: `v` is the stroke from which the forecast counts. -/
def pointAt (s : State) (v step a : Nat) : Nat :=
  let d := a / s.clk.loopDiv - v
  if d ≤ 32 then d else min 63 (32 + (d - 32) / step)

/-- A step record (R285): the absolute stroke, the tick, the output, DP and DP_RAD. -/
structure StepRec where
  stroke : Nat
  tick   : Nat
  out    : Nat
  dp     : Rat
  rad    : Rat
  deriving DecidableEq, Repr, Inhabited

/-- The stroke nearest the present one with given low bits. -/
def nearStroke (k : Nat) (lo : Word) : Nat := ((k : Int) + (lo - w32 k).toInt).toNat

/-- The valid step records, in the order of the area. -/
def stepRecs (s : State) (k : Nat) : List StepRec :=
  if !validOf s aStep then []
  else
    let w := copyWords s aStep 128
    (List.range 8).filterMap fun i =>
      let w1 := w.getD (4 * i + 1) 0
      let dp := w.getD (4 * i + 2) 0
      let rad := w.getD (4 * i + 3) 0
      if bit w1 31 && f32Finite dp && f32Finite rad && decide (0 ≤ f32Rat rad) then
        some { stroke := nearStroke k (w.getD (4 * i) 0), tick := fld w1 0 20, out := fld w1 24 5, dp := f32Rat dp,
               rad := f32Rat rad }
      else none

/-- N_R (R293), `slew` in W/µs. -/
def rampLen (s : State) (dp slew : Rat) : Nat := (ratCeil (dp.abs / (slew * sampleUs s))).toNat

/-- The nearest sample boundary to the step time less half the ramp. -/
def rampNominal (s : State) (x : StepRec) (n : Nat) : Nat :=
  let t := mkRat (x.stroke * s.clk.strokeDiv + x.tick : Nat) (sampleTicks s) - mkRat n 2
  (t + mkRat 1 2).floor.toNat

/-- The ramp of a step: one already begun, or a new one that starts no earlier than the first sample of the profile. P_REF
before it is that of the last sample before the ramp and before the step's stroke; where the forecast has passed
that sample, P_REF after the step less DP. -/
def rampOf (s : State) (p : List Rat) (v step first n : Nat) (x : StepRec) : Ramp :=
  match s.pipe.ramps.find? fun q => decide (q.stroke = x.stroke) && decide (q.tick = x.tick) && decide (q.out = x.out) with
  | some q => q
  | none =>
    let start := max (rampNominal s x n) first
    let before := min (start - 1) (x.stroke * s.clk.loopDiv - 1)
    let base := if v ≤ before / s.clk.loopDiv then p.getD (pointAt s v step before) 0
      else p.getD (pointAt s v step (max v (x.stroke + 1) * s.clk.loopDiv)) 0 - x.dp
    { stroke := x.stroke, tick := x.tick, out := x.out, start := start, base := base }

/-- A profile under way: its values, whether a ramp was clipped, the ramps that it has begun. -/
structure Priming where
  vals  : List Rat
  clip  : Bool := false
  ramps : List Ramp := []
  deriving DecidableEq, Repr, Inhabited

/-- One step enters the profile (R293). -/
def primeOne (s : State) (q : PlanIn) (pts : List Pt) (p : List Rat) (v first : Nat) (slew : Rat) (a : Priming)
    (x : StepRec) : Priming :=
  let n := rampLen s x.dp slew
  if slew ≤ 0 ∨ n = 0 then a
  else
    let r := rampOf s p v q.step first n x
    if first + 64 ≤ r.start then a
    else
      let pt := pts.getD (pointAt s v q.step (r.start + n)) default
      let e := limitPower (r.base + x.dp) (x.rad + pt.g + q.margin) q.pd q.pc
      let cut (y : Rat) : Rat :=
        if !e.2 then y else if 0 < x.dp then min y (max e.1 r.base) else max y (min e.1 r.base)
      let vals := a.vals.mapIdx fun i y =>
        let m := first + i
        if r.start ≤ m ∧ m < r.start + n then cut (r.base + x.dp * mkRat (m - r.start : Nat) n) else y
      { vals := vals, clip := a.clip || (e.2 && decide (first < r.start + n)), ramps := a.ramps ++ [r] }

/-- Steps in the order of their time. -/
def stepInsert (x : StepRec) : List StepRec → List StepRec
  | [] => [x]
  | y :: t => if x.stroke < y.stroke ∨ (x.stroke = y.stroke ∧ x.tick < y.tick) then x :: y :: t else y :: stepInsert x t

/-- P_REF to stack current (R294). -/
def refCurrent (k : Nat) (vst etaD etaC p : Rat) : Word :=
  if vst * etaD = 0 then rn32 (f32 (Config.refNoStack (BitVec.ofNat 64 k) p))
  else if 0 ≤ p then ratF32 (p / (vst * etaD)) else ratF32 (p * etaC / vst)

/-- A BW32 from an exact midpoint and radius in watts (R220). -/
def bwOfRat (c g : Rat) : Bw :=
  let m := ratRound .nearest (16 * c)
  bwMake m (ratCeil (16 * g + (16 * c - m).abs)).toNat

/-- The estimator area as the fixed tiles of C0 read it (R280, R440). -/
def aEstFixed : Nat := aCist 0 + 0x5802000

/-- DISPATCH in the run that began in stroke k: the plan, the profile and the record (R288 to R294, R441). On the module that heads a rope
TRACK_DEV_W also takes what ALLOCATE's targets and the module's own cap leave of the rope target: the rope's tracking deviation, for
which R291 has no other word (R292, R488; entry 129). -/
def dispatchRun (l : Inst) (k : Nat) (s : State) : State :=
  let w := blockWords s
  let c := s.pipe.live
  let load := f32Rat (w.getD 4 0)
  let est := copyWords s aEstFixed 448
  let estOk := validOf s aEstFixed
  let live := estOk && bit (est.getD 2 0) 1 && decide (k ≤ commitOf s aEstFixed + 256)
  let eD : Nat := if live then (est.getD 3 0).toNat else 0
  let eC : Nat := if live then (est.getD 4 0).toNat else 0
  let q : PlanIn :=
    { target := f32Rat (w.getD 9 0), pd := f32Rat (w.getD 10 0), pc := f32Rat (w.getD 11 0), margin := c.marginW.toNat,
      eDis := eD, eChg := eC, anchor := estOk && bit (est.getD 2 0) 7, step := c.fcStep,
      ts := mkRat s.clk.strokeDiv 100000000 }
  let pts := fcPoints s load
  let plan := planAll q pts
  let v := if validOf s aForecast then commitOf s aForecast else k
  let first := k * s.clk.loopDiv + 1
  let sr := copyWords s aStage 64
  let slew := min (c.primeSlew : Rat) (f32Rat (sr.getD 6 0))
  let base : Priming := { vals := (List.range 64).map fun i => plan.pRef.getD (pointAt s v c.fcStep (first + i)) 0 }
  let steps := (stepRecs s k).foldl (fun a x => stepInsert x a) []
  let pr := if q.anchor then base else steps.foldl (primeOne s q pts plan.pRef v first slew) base
  let cur := pr.vals.map (refCurrent k (f32Rat (w.getD 7 0)) (f32Rat (sr.getD 4 0)) (f32Rat (sr.getD 5 0)))
  let ss := first / s.clk.loopDiv
  let sj := first % s.clk.loopDiv
  let p0 := plan.pRef.getD 0 0
  let x0 := pts.getD 0 default
  let grid := x0.c - p0
  let own : Rat := match s.pipe.cap with
    | some cap => min 0 ((cap : Rat) - s.pipe.target.value) / 16
    | none => 0
  let dev := grid - q.target + if bit (w.getD 2 0) 4 then (s.rope.trackDev : Rat) / 16 + own else 0
  let up := bwOfRat (q.pd - p0) x0.g
  let dn := bwOfRat (q.pc + p0) x0.g
  let m := fcMean s
  let unb := pts.any (·.unb)
  let clipP := plan.power || pr.clip
  let tEmpty : Nat := match plan.empty with
    | some j => min 0xFFFFFFFE ((sigma c.fcStep j) * s.clk.strokeDiv / 100000)
    | none => 0xFFFFFFFF
  let flags := w.getD 2 0
  let status := packW
    [(b2n (estOk && bit (est.getD 2 0) 6), 7), (b2n (bit flags 2), 6), (b2n plan.empty.isSome, 5), (b2n clipP, 4),
     (b2n unb, 3), (b2n (bit (memWord s aForecast) 30), 2),
     (b2n (s.pipe.pkgs.any fun p => decide (p.role = 1) && p.young), 1), (b2n (!bit flags 3), 0)]
  let record := [w.getD 0 0, w.getD 1 0, ratF32 q.target, ratF32 grid, ratF32 p0, ratF32 dev, up.c, up.g,
    dn.c, dn.g, m.c, m.g, w32 tEmpty, status, w32 eD, w32 eC]
  let s := stageArea l 0 ([lo32 ss, hi32 ss, packW [(64, 8), (sj, 0)], 0] ++ cur) s
  let s := stageArea l 1 record s
  let s := { s with pipe := { s.pipe with ramps := pr.ramps } }
  let due := match s.pipe.clipRec with
    | some r => decide (r.toNat + 1024 ≤ k)
    | none => true
  let s := if (clipP || plan.empty.isSome) && due then
      emit 1 fFIXED0 0x0111 [w.getD 0 0] { s with pipe := { s.pipe with clipRec := some (BitVec.ofNat 64 k) } } else s
  let s := if unb && !s.pipe.fcUnb then emit 1 fFIXED0 0x0112 [w.getD 0 0] s else s
  { s with pipe := { s.pipe with fcUnb := unb } }

/-! ### FORECAST and PERSIST (R280, R284 to R286) -/

/-- The samples of the LOAD bucket over MEAN_WIN, without empty ones. -/
def loadWindow (s : State) : List Rat :=
  match bucketOf s 0 with
  | none => []
  | some b =>
    let n := min (min b.written (2 ^ b.log2len)) (2 ^ s.pipe.live.meanLog2 / b.decim)
    (List.range n).filterMap fun i =>
      (f32 (memWord s (b.base + 4096 + (b.written - 1 - i) % 2 ^ b.log2len * 4))).toRat?

/-- The mean of some loads. -/
def meanOf (xs : List Rat) : Rat := xs.foldl (· + ·) (0 : Rat) / (xs.length : Rat)

/-- A bracket of package 0x0002 (R286): a midpoint and a radius that the computation gives, LOAD_RAD of the measured loads, and the residual
R_ABS = 250 W, R_REL = 1/64 of R280. -/
def fcOut (s : State) (m g : Rat) : Bw :=
  let rad := (blockWords s).getD 12 0
  if f32Finite rad then (bwOfBr (brResid 0x437A0000 0x3C800000 (brFrom m false (g + f32Rat rad)).1).1).1
  else bwUnb (ratRound .nearest (16 * m))

/-- R284: the bracket of the mean load over MEAN_WIN; void where the window holds no load. -/
def meanBracket (s : State) : Bw := match loadWindow s with
  | [] => bwVoid
  | x :: t => fcOut s (meanOf (x :: t)) 0

/-- A bracket of FORECAST from the network's output, of which only the residual and LOAD_RAD are the manual's. -/
def fcFree (s : State) (c g : Word) : Bw := match (f32 c).toRat?, (f32 g).toRat? with
  | some m, some r => fcOut s m r.abs
  | _, _ => (bwOfBr { c := c, g := g &&& 0x7FFFFFFF }).1

/-- Announced steps in the order of their time. -/
def annInsert (x : Announced) : List Announced → List Announced
  | [] => [x]
  | y :: t => if x.stroke < y.stroke ∨ (x.stroke = y.stroke ∧ x.tick ≤ y.tick) then x :: y :: t else y :: annInsert x t

/-- R285: the records of the soonest eight announced steps. Their sizes come from the output's history, of which the manual gives no
computation: free values of the run, the output and the polarity; one that is no number announces nothing. -/
def stepWords (st : Stroke) (s : State) : List Word :=
  let rec_ (x : Announced) : Option (List Word) :=
    let i := 4 * x.out + 2 * b2n x.rising
    let dp := Config.stepWord st i
    let rad := Config.stepWord st (i + 1) &&& 0x7FFFFFFF
    if f32Finite dp && f32Finite rad
    then some [w32 x.stroke, packW [(1, 31), (x.out, 24), (x.tick, 0)], dp, rad] else none
  fit 32 0 (((s.pipe.announced.foldr annInsert []).filterMap rec_).take 8).flatten

/-- Brackets 65 to 71 are void. -/
def fcWords (bs : List Bw) : List Word := (bs ++ List.replicate 7 bwVoid).flatMap fun b => [b.c, b.g]

/-- FORECAST: the built-in network's outputs are not in the manual and stay free (entry 34). -/
def forecastRun (l : Inst) (k : Nat) (s : State) : State :=
  let st := BitVec.ofNat 64 k
  let bs := (List.range 64).map fun j => fcFree s (Config.forecastWord st (8 * j)) (Config.forecastWord st (8 * j + 4))
  let fc := fcWords (bs ++ [meanBracket s])
  stageArea l 2 fc (stageArea l 1 (stepWords st s) (stageArea l 0 fc s))

/-- The bracket that PERSIST writes (R280): M with half the range of the window and the distance from M to its middle, and, as every bracket
of the package, LOAD_RAD and the residual (R286; entry 128); void where the window holds no load. -/
def persistBracket (s : State) : Bw :=
  match loadWindow s with
  | [] => bwVoid
  | x :: t =>
    let lo := t.foldl min x
    let hi := t.foldl max x
    let m := meanOf (x :: t)
    fcOut s m ((hi - lo) / 2 + (m - (lo + hi) / 2).abs)

/-- PERSIST: M at every point, no step. -/
def persistRun (l : Inst) (s : State) : State :=
  let fc := fcWords (List.replicate 65 (persistBracket s))
  stageArea l 2 fc (stageArea l 1 (List.replicate 32 0) (stageArea l 0 fc s))

/-! ### CAP_SHORTFALL (R489) -/

/-- The record 0x0907. -/
def shortRecord (what t : Nat) (s : State) : State := emit 2 0 0x0907 [strokeLo s, w32 what, w32 t] s

/-- CAP_SHORTFALL at a boundary into stroke k, from the pipeline record. -/
def shortfallBoundary (k : Nat) (s : State) : State :=
  let w := copyWords s aRecord 64
  let st := if validOf s aRecord then w.getD 13 0 else 0
  let t := if bit st 5 then (w.getD 12 0).toNat else 0
  if bit st 4 || bit st 5 then
    let n := s.pipe.clipRun + 1
    let s := { s with pipe := { s.pipe with clipRun := n, clearRun := 0 } }
    if !s.pipe.shortfall then
      if 20 ≤ n then
        shortRecord 1 t { s with pipe := { s.pipe with shortfall := true, sfTime := t, sfRec := some (BitVec.ofNat 64 k) } }
      else s
    else
      let due := match s.pipe.sfRec with
        | some r => decide (r.toNat + 1024 ≤ k)
        | none => true
      if decide (2 * t < s.pipe.sfTime) && due then
        shortRecord 2 t { s with pipe := { s.pipe with sfTime := t, sfRec := some (BitVec.ofNat 64 k) } }
      else s
  else
    let n := s.pipe.clearRun + 1
    let s := { s with pipe := { s.pipe with clearRun := n, clipRun := 0 } }
    if s.pipe.shortfall ∧ 2000 ≤ n then shortRecord 0 0 { s with pipe := { s.pipe with shortfall := false } } else s

end Sys2Proof.Machine
end

