-- ==== Sys2Proof/Machine/System.lean ====
section
/-! DEFINITION. The system commands of chapter 4 (R122 to R126), BAR0 and its registers (R86 to R93, R105 to R110). -/

namespace Sys2Proof.Machine

/-! ### System commands -/

/-- NOP (R122): every LENGTH, in every state and role; the response payload is the request payload. -/
def execNop (r : Req) : State → Out :=
  mailbox { op := 0x0100, onMb := mbAny, lenOk := fun _ => true, rescue := true } r
    (asks fun _ => okR (fit r.length.toNat 0 r.payload))

/-- The fields of EVENT_RING_SET (R123). -/
def eventRingSetBad (r : Req) : Option Answer :=
  let l := fld (r.w 4) 0 5
  rangeBad [(decide (fld (r.w 2) 0 6 ≠ 0), 2), (decide (fld (r.w 4) 5 27 ≠ 0), 4),
            (!(decide (l = 0) || (decide (6 ≤ l) && decide (l ≤ 16))), 4)]

/-- R123, R108: the ring is set or removed, counters return to zero, and queued records follow. -/
def ringSet (base log2 : Nat) (s : State) : State :=
  evtDrain { s with evt := { s.evt with base := base, log2 := log2, prod := 0, cons := 0 } }

/-- EVENT_RING_SET (R123). -/
def execEventRingSet (r : Req) : State → Out :=
  mailbox { op := 0x0101, onMb := mbHigh, lenOk := (· = 3) } r fun s =>
    guardE (eventRingSetBad r) s fun s => (ringSet (wide (r.w 2) (r.w 3)) (fld (r.w 4) 0 5) s, okR [])

/-- R124: the response for one function. -/
def funcWords (s : State) (f : Nat) : List Word :=
  let c := fnRec s f
  let busy := match actingMb s f with
    | some n => n + 1
    | none => 0
  [packW [(f, 24), (busy, 4), (c.state.num, 0)], packW [(c.faultCount, 16), (c.faultCause.toNat, 0)],
   lo32 c.change.toNat, hi32 c.change.toNat, w32 (claimCount s f)]

/-- R124: the states of `n` function IDs from `base` on, two bits each; unused IDs read zero. -/
def funcStates (s : State) (base n : Nat) : Word :=
  packW ((List.range n).map fun i => (if (fnIdx (base + i)).isSome then (fnState s (base + i)).num else 0, 2 * i))

/-- FUNC_QUERY (R124). -/
def execFuncQuery (r : Req) : State → Out :=
  mailbox { op := 0x0102, onMb := mbAny, lenOk := (· = 1) } r (asks fun s =>
    let f := fld (r.w 2) 0 8
    if fld (r.w 2) 8 24 ≠ 0 then errR .range 2
    else if f = 0xFF then okR [funcStates s 0 16, funcStates s 16 16, funcStates s 32 4]
    else if (fnIdx f).isSome then okR (funcWords s f)
    else errR .range 2)

/-- The resource IDs of R118 and the stroke flags of R263. -/
def isResource (n : Nat) : Bool :=
  decide (n ≤ 0x17) || (decide (0x20 ≤ n) && decide (n ≤ 0x23)) || (decide (0x100 ≤ n) && decide (n ≤ 0x11F)) ||
  decide (n = 0x200) || decide (n = 0x201) || decide (n = 0x210) || (decide (0x300 ≤ n) && decide (n ≤ 0x303)) ||
  (decide (0x400 ≤ n) && decide (n < 0x440))

/-- CLAIM_QUERY (R126). -/
def execClaimQuery (r : Req) : State → Out :=
  mailbox { op := 0x0108, onMb := mbAny, lenOk := (· = 1) } r (asks fun s =>
    let n := fld (r.w 2) 0 16
    if fld (r.w 2) 16 16 ≠ 0 ∨ isResource n = false then errR .range 2
    else okR [w32 ((claimOwner s n).getD 0)])

/-- UNKNOWN_OPCODE (R104, R582): the first header check fails. -/
def execUnknownOpcode (r : Req) (opcode : BitVec 16) : State → Out :=
  mailbox { op := opcode.toNat, known := false, onMb := mbAny, lenOk := fun _ => true } r
    (asks fun _ => errR .badCmd 0)

/-! ### MOD_STATUS (R89) -/

/-- The feeds as R30 counts them. -/
def holdupGood (s : State) : Bool := s.power.charged && (s.power.feedA || s.power.feedB)

/-- R32: both feeds are counted lost: no NOR write starts. -/
def norStop (s : State) : Bool := !(s.power.feedA || s.power.feedB)

/-- R534: what the NOR controller refuses while its lock is set: programs and erases of the records of production test, and erases of the rollback
counter. -/
def norRefuses (s : State) (erase : Bool) (off : Nat) : Bool :=
  s.boot.norLock && ((decide (0x4000000 ≤ off) && decide (off < 0x4030000)) ||
    (erase && decide (0x4040000 ≤ off) && decide (off < 0x4050000)))

/-- `n` programs, or `n` erases, at an offset of a NOR die (R534, R576): a refused one is counted and changes nothing. -/
def norOp (erase : Bool) (off n : Nat) (go : State → State) (s : State) : State :=
  if norRefuses s erase off then { s with diag := { s.diag with memory := bump s.diag.memory 12 1 } }
  else go { s with diag := { s.diag with clerk := bump s.diag.clerk (if erase then 6 else 5) n } }

/-- R468 THROTTLED: PT is lower than both F_MAX and P1. -/
def throttled (s : State) : Bool := decide (s.therm.fMax < s.therm.pt) && decide (1 < s.therm.pt)

/-- The alarms of PAIR (R506, R508, R509, R507): a path that has turned silent, in every state of PAIR, and any silent path or a partner's
veto while PAIR is RUNNING or FAULTED; a claim that waits too long, a mismatch with the partner. -/
def pairAlarm (s : State) : Bool :=
  s.pair.cfgMismatch || s.pair.alarmHb || s.pair.alarmRope ||
  (fnLive s fPAIR && (s.pair.silentHb || s.pair.silentRope ||
    (decide (s.pair.pstate = .active) && (match s.pair.beat with
      | some b => bit (b.getD 0 0) 12
      | none => false)) ||
    (decide (s.pair.pstate = .claiming) && s.pair.claimRec)))

/-- R89 ALARM. -/
def alarm (s : State) : Bool := s.therm.alarms.any id || pairAlarm s

/-- MOD_STATUS (R89). -/
def modStatus (s : State) : Word :=
  packW [(b2n s.clerk.fatal, 31), (b2n s.clerk.mbOpen, 30), (s.clerk.bootStage, 27), (b2n s.boot.imageB, 26),
    (b2n (holdupGood s), 25), (b2n s.power.feedB, 24), (b2n s.power.feedA, 23), (b2n s.pair.gnt, 22),
    (b2n s.pair.req, 21), (b2n s.pair.active, 20), (s.clerk.ropeRole, 18), (b2n (throttled s), 17),
    (b2n s.evt.overflow, 16), (s.clerk.resetCause.toNat, 8), (s.clerk.bootFail, 4), (b2n (anyFaulted s), 3),
    (b2n s.pipe.shortfall, 2), (b2n (alarm s), 1)]

/-! ### BAR0 as the host reads it (R86 to R93) -/

/-- A register of a mailbox's control block (R93). -/
def mbReg (m : Mailbox) : Nat → Word
  | 0x00 => m.word0
  | 0x04 => m.tag
  | 0x0C => packW [(m.completed.toNat, 16), (b2n m.overrun, 2), (b2n m.done, 1), (b2n m.busy.isSome, 0)]
  | 0x10 => rspWord0 m.status.toNat m.detail.toNat m.rsp.length
  | 0x14 => m.rspTag
  | 0x18 => m.rspStroke
  | 0x1C => w32 (b2n m.irqEn)
  | _ => 0

/-- The word at an aligned BAR0 offset, without the side effects of R90. -/
def bar0Word (s : State) (off : Nat) : Word :=
  if off = 0x000 then 0x8400B000
  else if off = 0x004 then s.clerk.posin
  else if off = 0x008 then lo32 s.clerk.serial.toNat
  else if off = 0x00C then hi32 s.clerk.serial.toNat
  else if off = 0x100 then modStatus s
  else if off = 0x104 then strokeLo s
  else if off = 0x108 then s.clerk.strokeLatch.getD (strokeHi s)
  else if off = 0x200 then lo32 s.clerk.dumpPtr
  else if off = 0x204 then hi32 s.clerk.dumpPtr
  else if off = 0x208 then
    packW [(b2n s.clerk.dumpValid, 31), (b2n s.clerk.dumpPreserved, 30), (s.clerk.dumpCause.toNat, 0)]
  else if off = 0x400 then s.evt.prod
  else if off = 0x404 then s.evt.cons
  else if off = 0x408 then
    packW [(s.evt.dropped, 16), (b2n s.evt.consBad, 2), (b2n s.evt.overflow, 1), (b2n (evtEnabled s), 0)]
  else if 0x800 ≤ off ∧ off < 0x880 then mbReg (s.mbs.getD ((off - 0x800) / 0x20) {}) (off % 0x20)
  else if 0x10000 ≤ off ∧ off < 0x18000 then
    let m := s.mbs.getD ((off - 0x10000) / 0x2000) {}
    if off % 0x2000 < 0x1000 then m.reqArea.getD (off % 0x1000 / 4) 0 else m.rsp.getD (off % 0x1000 / 4) 0
  else if 0x80000 ≤ off ∧ off < 0x80200 then s.msix.table.getD ((off - 0x80000) / 4) 0
  else if off = 0x81000 then s.msix.pba
  else 0

/-- R87: what a read of some bytes of a word returns: those bytes, each in its place. -/
def readBytes (bytes : BitVec 4) (w : Word) : Word :=
  w &&& packW [(255 * b2n (bytes.getLsbD 3), 24), (255 * b2n (bytes.getLsbD 2), 16), (255 * b2n (bytes.getLsbD 1), 8),
    (255 * b2n (bytes.getLsbD 0), 0)]

/-- What a host read of some bytes of a BAR0 word returns (R86, R87): those bytes, of the word of `readData` for the rows that read. -/
def bar0Read (s : State) (off : Nat) (bytes : BitVec 4) : Word := readBytes bytes (bar0Word s (off - off % 4))

/-- STROKE_LO_READ (R90): returns the low word and latches the high word. A read of fewer bytes has the same effect and returns those
bytes of the word (R87): `bar0Read` (entry 139). -/
def execStrokeLoRead (s : State) : Out :=
  if !hostReaches s then .next s
  else .next { s with clerk := { s.clerk with
    readData := [bar0Word s 0x104], strokeLatch := some (strokeHi s) } }

/-- STROKE_HI_READ (R90): returns the latched word and releases the latch, or the live word; a read of fewer
bytes as of STROKE_LO. -/
def execStrokeHiRead (s : State) : Out :=
  if !hostReaches s then .next s
  else .next { s with clerk := { s.clerk with readData := [bar0Word s 0x108], strokeLatch := none } }

/-- R105, R106, R108: the host writes EVT_CONS; an invalid value sets CONS_BAD, and returned space lets records follow. CONS_BAD is set by the
write: cleared while EVT_CONS is still invalid it stays clear until the next one (entry 170, DESIGN CHOICE). -/
def consWrite (v : Word) (s : State) : State :=
  let bad := decide (2 ^ s.evt.log2 < (s.evt.prod - v).toNat) && decide (s.evt.log2 ≠ 0)
  evtDrain { s with evt := { s.evt with cons := v, consBad := s.evt.consBad || bad } }

/-- EVT_CONS_WRITE (R106). -/
def execEvtConsWrite (v : Word) (s : State) : Out :=
  if !hostReaches s then .next s else .next (consWrite v s)

/-- A write into a mailbox's control block (R93, R97). A RING write that would start a command is that command's own row. -/
def mbRegWrite (n off : Nat) (v : Word) (s : State) : State :=
  let m := s.mbs.getD n {}
  let put (m : Mailbox) : State := { s with mbs := s.mbs.set n m }
  if off = 0x00 then put { m with word0 := v &&& 0x0FFFFFFF }
  else if off = 0x04 then put { m with tag := v }
  else if off = 0x08 then (if bit v 0 && s.clerk.mbOpen && m.busy.isSome then mbOverrun n s else s)
  else if off = 0x0C then put { m with overrun := m.overrun && !bit v 2, done := m.done && !bit v 1 }
  else if off = 0x1C then put { m with irqEn := bit v 0 }
  else s

/-- A write into the MSI-X table (R86, R110): a vector that this unmasks sends its pending message. -/
def msixTableWrite (i : Nat) (v : Word) (s : State) : State :=
  let v := if i % 4 = 3 then v &&& 1 else if i % 4 = 0 then v &&& 0xFFFFFFFC else v
  msixFlush (i / 4) { s with msix := { s.msix with table := s.msix.table.set i v } }

/-- A 32-bit write to a BAR0 register that has no row of its own (R86, R5, R6). -/
def bar0Write (off : Nat) (v : Word) (s : State) : State :=
  if off = 0x404 then consWrite v s
  else if off = 0x408 then { s with evt := { s.evt with
    consBad := s.evt.consBad && !bit v 2, overflow := s.evt.overflow && !bit v 1 } }
  else if 0x800 ≤ off ∧ off < 0x880 then mbRegWrite ((off - 0x800) / 0x20) (off % 0x20) v s
  else if 0x10000 ≤ off ∧ off < 0x18000 ∧ off % 0x2000 < 0x1000 then
    { s with mbs := s.mbs.modify ((off - 0x10000) / 0x2000) fun m =>
      let i := off % 0x1000 / 4
      { m with reqArea := (fit (max m.reqArea.length (i + 1)) 0 m.reqArea).set i v } }
  else if 0x80000 ≤ off ∧ off < 0x80200 then msixTableWrite ((off - 0x80000) / 4) v s
  else s

/-- MSIX_UNMASK (R110): one vector, or the function mask, is cleared, and pending messages are sent once. -/
def execMsixUnmask (v : Option (Fin 32)) (s : State) : Out :=
  if !hostReaches s then .next s
  else match v with
    | some v => .next (msixTableWrite (4 * v.val + 3) 0 s)
    | none => .next (msixFlushAll { s with msix := { s.msix with funMask := false } })

end Sys2Proof.Machine
end

