-- ==== Sys2Proof/Machine/Policy.lean ====
section
/-! DEFINITION. Policies: their checks, the choice at boot and what a policy in force does (R548, R549, R557, R559). -/

namespace Sys2Proof.Machine

/-- Changes the boot's own state. -/
def btMod (f : Boot → Boot) (s : State) : State := { s with boot := f s.boot }

/-- An event record of R559: the stroke and a detail. -/
def fwRecord (sev code : Nat) (w : Word) (s : State) : State := emit sev 0 code [strokeLo s, w] s

/-- A completion code other than OK, of which the manual gives no value. -/
def failCode (s : State) : State × Code :=
  let (s, i) := takeFree s
  (s, [Code.badCmd, .badLen, .state, .resource, .auth, .busy, .range, .notAuthority, .timeout, .fault, .role, .conflict].getD
    (Config.freeNat i % 12) .timeout)

/-! ### The checks of a policy (R548, R549, R557) -/

/-- Check 1 of POLICY_SET (R557): the first word of the record that is out of range (R548). -/
def policyShape (p : List Word) : Option Nat :=
  let w (i : Nat) : Word := p.getD i 0
  let zero (a n : Nat) : List (Bool × Nat) := (List.range n).map fun i => (decide (w (a + i) ≠ 0), a + i)
  let keys := (w 12).toNat
  firstBad
    ([(decide (fld (w 0) 24 8 ≠ 1) || decide (fld (w 0) 3 21 ≠ 0), 0), (decide (4 < keys), 12)] ++ zero 13 3 ++
     zero (16 + 8 * min 4 keys) (32 - 8 * min 4 keys) ++ zero 48 32 ++
     [(decide (fld (w 88) 8 8 ≠ 0), 88)] ++ zero 105 7)

/-- R549: the key that must sign the next policy, if the module is owned. -/
def policyOwner (s : State) : Option (List Word) := match s.boot.policy with
  | some p => let k := (p.drop 4).take 8; if k.all (· = 0) then none else some k
  | none => none

/-- Check 5: the signer block of a policy. -/
def policySigned (p : List Word) : Bool :=
  decide (fld (p.getD 88 0) 0 8 = 5) && ((p.drop 89).take 16).all (· = 0) &&
  ed25519Words ((p.drop 80).take 8) (p.take 112) (p.drop 112)

/-- Checks 1 to 5 of POLICY_SET, in order. -/
def policyBad (s : State) (p : List Word) : Option Answer :=
  let serial := wide (p.getD 2 0) (p.getD 3 0)
  firstErr
    [(policyShape p).map (errR .range),
     if serial = 0 ∨ serial = s.clerk.serial.toNat then none else some (errR .auth 5),
     if s.boot.policy.isSome && decide ((p.getD 1 0).toNat ≤ s.boot.policySeq) then some (errR .auth 6) else none,
     match policyOwner s with
     | some k => if k = (p.drop 80).take 8 then none else some (errR .auth 7)
     | none => none,
     if policySigned p then none else some (errR .auth 1)]

/-- A policy takes effect: it is in force, measured (R546) and recorded (R559). -/
def policyGo (slot : Nat) (p : List Word) (s : State) : State :=
  let s := btMod (fun b => { b with policy := some p, policySlot := slot, policySeq := (p.getD 1 0).toNat }) s
  fwRecord 1 0x0B06 (p.getD 1 0) (measure 5 slot [p.getD 1 0] (digestOf p) s)

/-- The policies that POLICY_SETs in progress wait to have written, by mailbox. -/
def policiesWaiting (s : State) : List (List Word) := s.mbs.filterMap fun m => match m.busy with
  | some { waits := .policySet p, .. } => some p
  | _ => none

end Sys2Proof.Machine
end

