-- ==== Sys2Proof/Machine/Est.lean ====
section
/-! DEFINITION. The cell estimator: the ESTIMATE run, anchors, capacity learning, NOR records and the EST commands
(R427 to R461). -/

namespace Sys2Proof.Machine

/-- Changes the estimator's own state. -/
def estMod (f : Est → Est) (s : State) : State := { s with est := f s.est }

/-- An event record of EST (R461). -/
def estRecord (sev code : Nat) (more : List Word) (s : State) : State := emit sev fEST code (strokeLo s :: more) s

/-- The strokes from which the estimator counts times, when the stroke count changes (R71). -/
def estRebase (old n : Nat) (e : Est) : Est :=
  let f := strokeRebase old n
  { e with
    anchorAt := f e.anchorAt, restFrom := e.restFrom.map f, lastAnchor := f e.lastAnchor, lastRun := e.lastRun.map f,
    lastCommit := f e.lastCommit, cells := e.cells.map fun c => { c with voltAt := f c.voltAt }
    strs := e.strs.map fun t => { t with cycle := t.cycle.map fun y => { y with startAt := f y.startAt } } }

/-! ### Cells, strings and positions (R427, R430) -/

/-- One chain's state. -/
def chainOf (s : State) (b : Bool) : Chain := if b then s.chainB else s.chainA

/-- Estimator numbers of a string's cells. -/
def strCells (x : StrCfg) : List Nat := (List.range x.count).map fun i => (if x.chainB then 512 else 0) + x.first + i

/-- The strings with their numbers. -/
def strsOf (s : State) : List (Nat × StrCfg) := (List.range s.est.cfg.strings.length).zip s.est.cfg.strings

/-- Every cell in use. -/
def cellsInUse (s : State) : List Nat := s.est.cfg.strings.flatMap strCells

def cellAt (s : State) (i : Nat) : Cell := s.est.cells.getD i {}
def cellPut (i : Nat) (f : Cell → Cell) (s : State) : State := estMod (fun e => { e with cells := e.cells.modify i f }) s

/-- What the latest sweep gave for the monitor of a cell. -/
def cellMon (s : State) (i : Nat) : Option MonData :=
  (chainOf s (decide (512 ≤ i))).shown.bind fun x => x.data.getD (i % 512 / 16) none

/-- A temperature code in °C; 0x8000 is no reading. -/
def tempC (w : BitVec 16) : Option Rat := if w = 0x8000 then none else some (mkRat w.toInt 16)

/-- R430: the temperature and the limit temperature that a monitor gives. -/
def monTemp (m : MonData) : Option Rat :=
  let ts := m.temps.filterMap tempC
  if ts.isEmpty then tempC m.dieT else some (ts.foldl (· + ·) (0 : Rat) / (ts.length : Rat))
def monLimit (m : MonData) : Option Rat :=
  match (m.temps ++ [m.dieT]).filterMap tempC with
  | [] => none
  | x :: t => some (t.foldl max x)

/-! ### The cell model (R432) -/

/-- Word `w` of EST_MODEL as a number. -/
def mdl (s : State) (w : Nat) : Rat := f32Rat (s.est.model.getD (w - 2) 0)

/-- Lower table temperature and the weight of the upper one, clamped to the end points. -/
def tAt (s : State) (t : Rat) : Nat × Rat :=
  if t ≤ mdl s 2 then (0, 0)
  else if mdl s 5 ≤ t then (2, 1)
  else
    let k := if t < mdl s 3 then 0 else if t < mdl s 4 then 1 else 2
    (k, (t - mdl s (2 + k)) / (mdl s (3 + k) - mdl s (2 + k)))

/-- A table value by temperature; `w` gives its word at temperature k. -/
def mdlT (s : State) (t : Rat) (w : Nat → Nat) : Rat :=
  let a := tAt s t
  mdl s (w a.1) * (1 - a.2) + mdl s (w (a.1 + 1)) * a.2

/-- Open-circuit voltage at node j of the table. -/
def ocvNode (s : State) (t : Rat) (j : Nat) : Rat := mdlT s t fun k => 6 + 33 * k + j

/-- The segment of a state of charge, from 0 to 31. -/
def socSeg (c : Rat) : Nat := min 31 (c * 32).floor.toNat

/-- OCV(C, T) and its slope. -/
def ocv (s : State) (c t : Rat) : Rat :=
  let c := max 0 (min 1 c)
  let j := socSeg c
  let f := c * 32 - j
  ocvNode s t j * (1 - f) + ocvNode s t (j + 1) * f
def ocvSlope (s : State) (c t : Rat) : Rat :=
  let j := socSeg (max 0 (min 1 c))
  32 * (ocvNode s t (j + 1) - ocvNode s t j)

/-- The inverse of OCV at a temperature, clamped to the end points. -/
def ocvInv (s : State) (v t : Rat) : Rat :=
  if v ≤ ocvNode s t 0 then 0
  else match (List.range 32).find? fun j => decide (v < ocvNode s t (j + 1)) with
    | none => 1
    | some j => (j + (v - ocvNode s t j) / (ocvNode s t (j + 1) - ocvNode s t j)) / 32

/-- R0, R1, C1, R2, C2 at a temperature. -/
def rc (s : State) (t : Rat) (i : Nat) : Rat := mdlT s t fun k => 138 + 5 * k + i

/-! ### One run of ESTIMATE -/

/-- What a run works with: its stroke, the string's charge in A·s, elapsed time in s, and which chains have a new sweep. -/
structure EstIn where
  k    : Nat
  dq   : Rat
  dabs : Rat
  dt   : Rat
  newA : Bool
  newB : Bool
  deriving DecidableEq, Repr, Inhabited

/-- The current of a cell, and of the stack, in A. -/
def EstIn.iCell (x : EstIn) : Rat := if x.dt = 0 then 0 else x.dq / x.dt
def EstIn.fresh (x : EstIn) (i : Nat) : Bool := if i < 512 then x.newA else x.newB

def nStr (s : State) : Nat := s.est.cfg.strings.length
def stackI (s : State) (x : EstIn) : Rat := x.iCell * nStr s

/-- R434: the stack discharges, charges, or rests. -/
def stackDir (s : State) (x : EstIn) : Int :=
  let r := f32Rat s.est.cfg.iRest
  if r < stackI s x then 1 else if stackI s x < -r then -1 else 0

/-- The temperature that the model uses for a cell: the latest that it had. -/
def cellT (c : Cell) : Rat := c.temp.getD 25

/-- exp(−x) of a relaxation (R431): free within narrow bounds on it (entry 29). -/
def decay (x : Rat) : Rat :=
  let b : Rat × Rat := if 104 < x then (0, pow2 (-150)) else expIn (-x)
  max b.1 (min b.2 (Config.expNeg x))

/-- R431: integration of one cell. -/
def integrate (s : State) (x : EstIn) (c : Cell) : Cell :=
  let g := s.est.cfg
  let err := f32Rat g.curErr + (if 1 < nStr s then f32Rat g.shareErr else 0)
  let pair (v r cap : Rat) : Rat := v + (x.iCell * r - v) * (1 - decay (x.dt / (r * cap)))
  let t := cellT c
  { c with
    c := max 0 (min 1 (c.c - x.dq / (3600 * c.q))),
    u := min 1 (c.u + err * x.dabs / (3600 * c.q) + f32Rat g.driftPh * x.dt / 3600),
    v1 := pair c.v1 (rc s t 1) (rc s t 2), v2 := pair c.v2 (rc s t 3) (rc s t 4) }

/-- The newest cell code of the bucket of a chain (R414): none for an absent cell. -/
def bucketVolt (s : State) (i : Nat) : Option Rat :=
  match bucketOf s (if i < 512 then 0x50 else 0x51) with
  | none => none
  | some b =>
    let w := leNat (memRead s (b.base + 4096 + (b.written - 1) % 2 ^ b.log2len * 1024 + 2 * (i % 512)) 2)
    if b.written = 0 ∨ w = 0x8000 then none else some (mkRat (s16 w) 5000)

/-- R433, R450: the first sweep sets a cell; later ones move it by the observer. -/
def observe (s : State) (x : EstIn) (i : Nat) (v : Rat) (c : Cell) : Cell :=
  let t := cellT c
  if !c.inited then
    let v0 := ocvInv s (v + rc s t 0 * x.iCell) t
    { c with c := v0, r := v0, u := mkRat s.est.cfg.uStart 32768, inited := true }
  else
    let d := max (-(mkRat 20 1000)) (min (mkRat 20 1000) (Config.cellCorrection (BitVec.ofNat 64 x.k) i))
    let pred := ocv s c.c t - rc s t 0 * x.iCell - c.v1 - c.v2 + d
    let st := mkRat 5 100 * (v - pred) / ocvSlope s c.c t
    let lim := min (mkRat 1 1000) c.u
    { c with c := max 0 (min 1 (c.c + max (-lim) (min lim st))) }

/-- A cell takes the voltage and temperatures of a new sweep; on a standby its state of charge stays as mirrored (R449). -/
def sweepIn (s : State) (x : EstIn) (mirror : Bool) (i : Nat) (c : Cell) : Cell :=
  if !x.fresh i then c
  else
    let m := cellMon s i
    let v := bucketVolt s i
    let c := { c with volt := v, temp := (m.bind monTemp).or c.temp, limit := m.bind monLimit }
    match v with
    | some v => { (if mirror then c else observe s x i v c) with voltAt := BitVec.ofNat 64 x.k }
    | none => c

/-- R434: the reported value moves toward the computed one; `q` is the capacity in Ah that the charge `dq` moves. -/
def report (s : State) (x : EstIn) (dq q r c : Rat) : Rat :=
  let mr := mkRat 1 1000 * x.dt / 60
  let m := max (if q = 0 then 0 else 2 * dq.abs / (3600 * q)) mr
  let d := stackDir s x
  if 0 < d then r - min (max (r - c) 0) m
  else if d < 0 then r + min (max (c - r) 0) m
  else r + max (-mr) (min mr (c - r))

/-- R435: an anchor is taken for a cell: what it asks for holds at the completion of the sweep. -/
def anchorOk (s : State) (x : EstIn) (i : Nat) : Bool :=
  let c := cellAt s i
  let done := (chainOf s (decide (512 ≤ i))).lastDone.toNat
  let rested := match s.est.restFrom with
    | some r => decide (s.est.cfg.restS * 100000000 ≤ (done - r.toNat) * s.clk.strokeDiv)
    | none => false
  rested && x.fresh i && c.inited && c.volt.isSome && (cellMon s i).isSome &&
  decide ((c.v1 + c.v2).abs ≤ mkRat 2 1000) && decide (mdl s 2 ≤ cellT c) && decide (cellT c ≤ mdl s 5)

/-- The anchor itself, in the state of the run; one that does not improve U_i changes nothing in the cell (R435). -/
def anchorTake (x : EstIn) (s : State) (i : Nat) : State :=
  if anchorOk s x i then
    let c := cellAt s i
    let v := c.volt.getD 0
    let n := ocvInv s v (cellT c)
    let u := mkRat 24 10000 / ocvSlope s n (cellT c)
    let s := cellPut i (fun c => if u < c.u then { c with c := n, u := u } else c) s
    let la := if u < c.u then BitVec.ofNat 64 x.k else s.est.lastAnchor
    estMod (fun e => { e with anchored := insertNat i e.anchored, lastAnchor := la }) s
  else s

/-- The smallest learned capacity of a string. -/
def qMin (s : State) (x : StrCfg) : Rat :=
  match (strCells x).map fun i => (cellAt s i).q with
  | [] => 0
  | q :: t => t.foldl min q

def strAt (s : State) (n : Nat) : StrSt := s.est.strs.getD n {}
def strPut (n : Nat) (f : StrSt → StrSt) (s : State) : State := estMod (fun e => { e with strs := e.strs.modify n f }) s

/-! ### NOR records (R445, R448) -/

/-- The words of a record copy, over which its CRC-32 runs: a lifetime record's own, or of a capacity record each Q_i as FP32, the cycle
counts in halves, and the serials (entry 171). -/
def NorRec.copy (r : NorRec) : List Word :=
  r.words ++ r.caps.map (fun c => ratF32 c.1) ++
  (List.range (r.caps.length / 2)).map (fun i => packW [((r.caps.getD (2 * i) (0, 0)).2, 0), ((r.caps.getD (2 * i + 1) (0, 0)).2, 16)]) ++
  r.serials.flatMap fun x => let v := (x.getD 0).toNat; [lo32 v, hi32 v]

def NorRec.crc (r : NorRec) : Word := crc32 (bytesOf r.copy)

/-- An entry's own CRC-32, over its other fields in the order in which R445 lists them. -/
def NorEntry.crc (e : NorEntry) : Word := crc32 (bytesOf [w32 e.kind, w32 e.seq, w32 e.slot, w32 e.bytes, e.copyCrc])

/-- R446: an entry counts if its own CRC and its copy's both match. -/
def NorEntry.holds (k : NorKind) (e : NorEntry) : Bool :=
  decide (e.ownCrc = e.crc) && match k.copies.getD e.slot none with
    | some r => decide (r.crc = e.copyCrc)
    | none => false

/-- R446: the newest entry that counts. -/
def newestEntry (k : NorKind) : Option NorEntry :=
  (k.log.flatten.filter (·.holds k)).foldl (fun a e => match a with
    | some b => if b.seq < e.seq then some e else a
    | none => some e) none

/-- The record in force, and its SEQ: 0 where there is none. -/
def recInForce (k : NorKind) : Option NorRec := (newestEntry k).bind fun e => k.copies.getD e.slot none
def recSeq (k : NorKind) : Nat := ((newestEntry k).map (·.seq)).getD 0

/-- R445 step 1: the slot that the newest valid entry does not name. -/
def spareSlot (k : NorKind) : Nat := match newestEntry k with
  | some e => 1 - e.slot
  | none => 0

/-- The NOR of a kind: 0 capacity, 1 lifetime, 2 policies (R549), and the offset of its region (R533). -/
def norOf (kind : Nat) (s : State) : NorKind := if kind = 0 then s.est.norCap else if kind = 1 then s.est.norLife else s.boot.policies
def norRegion (kind : Nat) : Nat := if kind = 2 then 0x4030000 else 0x4050000
def norMod (kind : Nat) (f : NorKind → NorKind) (s : State) : State :=
  if kind = 2 then btMod (fun b => { b with policies := f b.policies }) s
  else estMod (fun e => if kind = 0 then { e with norCap := f e.norCap } else { e with norLife := f e.norLife }) s

/-- The erase of a write begins: from then on its slot holds no copy. `policy` is the record that a write of kind 2 programs. -/
def norErase (kind : Nat) (policy : List Word) (s : State) : State :=
  estMod (fun e => { e with writing := some { kind := kind, phase := .erasing, retry := false, policy := policy } })
    (norOp true (norRegion kind) 1 (norMod kind fun k => { k with copies := k.copies.set (spareSlot k) none }) s)

/-- The next record write begins if none is in progress: capacity before lifetime (R448), then the policies, by mailbox; its slot is erased
first. -/
def norNext (s : State) : State :=
  if s.est.writing.isSome || norStop s then s
  else if s.est.duCap then norErase 0 [] (estMod (fun e => { e with duCap := false }) s)
  else if s.est.duLife then norErase 1 [] (estMod (fun e => { e with duLife := false }) s)
  else match policiesWaiting s with
    | p :: _ => norErase 2 p s
    | [] => s

/-- R445 steps 3 and 4: the copy stands in its slot and its entry is programmed, in the other sector once one is full. -/
def norProgram (kind : Nat) (r : NorRec) (k : NorKind) : NorKind :=
  let slot := spareSlot k
  let e : NorEntry := { kind := kind, seq := recSeq k + 1, slot := slot, bytes := 4 * r.copy.length, copyCrc := r.crc, ownCrc := 0 }
  let at_ := min k.sector 1
  let n := if (k.log.getD at_ []).length < 64 then at_ else 1 - at_
  { copies := (List.range 2).map fun i => if i = slot then some r else k.copies.getD i none,
    log := (List.range 2).map fun i => k.log.getD i [] ++ (if i = n then [{ e with ownCrc := e.crc }] else []), sector := n }

/-- R445: the other sector is erased in advance once one holds 48 entries. -/
def norAdvance (kind : Nat) (s : State) : State :=
  let k := norOf kind s
  if norStop s ∨ (k.log.getD k.sector []).length < 48 ∨ (k.log.getD (1 - k.sector) []).isEmpty then s
  else norOp true (norRegion kind) 1 (norMod kind fun k => { k with log := k.log.set (1 - k.sector) [] }) s

def capacityDue (s : State) : State := norNext (estMod (fun e => { e with duCap := true }) s)
def lifeDue (s : State) : State := norNext (estMod (fun e => { e with duLife := true }) s)

/-! ### Capacity learning (R443, R444) -/

/-- A cycle is disqualified. -/
def disqualify (n reason : Nat) (s : State) : State :=
  if (strAt s n).cycle.isSome then
    estRecord 1 0x0805 [packW [(n, 8), (reason, 0)]]
      (estMod (fun e => { e with lastDq := reason }) (strPut n (fun t => { t with cycle := none }) s))
  else s

/-- Every open cycle is disqualified. -/
def disqualifyAll (reason : Nat) (s : State) : State := (List.range 8).foldl (fun t n => disqualify n reason t) s

/-- The charge that a string has delivered since a cycle opened, in A·s. -/
def delivered (s : State) (y : Cycle) : Rat := mkRat (s.est.lastQ - y.startQ) 1000000 / (nStr s : Rat)

/-- What one cell learns. -/
def learn (dq c0 : Rat) (c : Cell) : Cell × Bool :=
  if c0 = c.c then (c, false)
  else
    let q := dq / (3600 * (c0 - c.c))
    if (q - c.q).abs ≤ c.q / 10 then ({ c with q := c.q + (q - c.q) / 4, cycles := c.cycles + 1 }, true) else (c, false)

/-- A cycle closes (R443), or is disqualified for its mean current (reason 2). -/
def cycleClose (n : Nat) (x : StrCfg) (k : Nat) (s : State) : State :=
  match (strAt s n).cycle with
  | none => s
  | some y =>
    let dt := mkRat ((k - y.startAt.toNat) * s.clk.strokeDiv : Nat) 100000000
    let mean := mkRat ((s.est.lastAbs : Int) - y.startAbs) 1000000 / (nStr s : Rat) / dt
    if qMin s x / 2 < mean then disqualify n 2 s
    else
      let dq := delivered s y
      let go (a : State) (p : Nat × Nat) : State :=
        let r := learn dq (y.startC.getD p.1 0) (cellAt a p.2)
        let a := cellPut p.2 (fun _ => r.1) a
        if r.2 then a else estMod (fun e => { e with rejects := satAdd (2 ^ 32 - 1) e.rejects 1 }) a
      let s := ((List.range x.count).zip (strCells x)).foldl go s
      capacityDue (estRecord 0 0x0804 [w32 n] (strPut n (fun t => { t with cycle := none }) s))

/-- The cycle has the depth that a close needs. -/
def deepEnough (s : State) (n : Nat) (x : StrCfg) : Bool :=
  match (strAt s n).cycle with
  | some y => decide (mkRat 7 10 * qMin s x * 3600 ≤ delivered s y)
  | none => false

/-- A new cycle opens at an end of charge. -/
def cycleOpen (n : Nat) (x : StrCfg) (k : Nat) (s : State) : State :=
  let y : Cycle :=
    { startC := (strCells x).map fun i => (cellAt s i).c, startQ := s.est.lastQ, startAbs := s.est.lastAbs,
      startAt := BitVec.ofNat 64 k }
  strPut n (fun t => { t with cycle := some y }) s

/-! ### Taper ends (R437) -/

/-- At an end, the cells within 20 mV of the extreme one are set. -/
def taperSet (x : StrCfg) (charge : Bool) (s : State) : State :=
  let vs := (strCells x).filterMap fun i => (cellAt s i).volt
  match vs with
  | [] => s
  | v :: t =>
    let e := if charge then t.foldl max v else t.foldl min v
    (strCells x).foldl (fun a i => match (cellAt a i).volt with
      | some w => if (if charge then decide (e - mkRat 20 1000 ≤ w) else decide (w ≤ e + mkRat 20 1000)) then
          cellPut i (fun c => { c with c := if charge then 1 else 0, u := min c.u (mkRat 1 100) }) a else a
      | none => a) s

/-- One string's taper windows; `strokes` is what the run covers. -/
def taperStep (x : EstIn) (strokes : Nat) (s : State) (p : Nat × StrCfg) : State :=
  let g := s.est.cfg
  let m := (stackI s x).abs
  let hit := decide (f32Rat g.taperLo ≤ m) && decide (m ≤ f32Rat g.taperHi)
  let d := stackDir s x
  let need := g.taperS * 100000000 / s.clk.strokeDiv
  let t := strAt s p.1
  let nc := if hit && decide (d < 0) then t.taperChg + strokes else 0
  let nd := if hit && decide (0 < d) then t.taperDis + strokes else 0
  let s := strPut p.1 (fun t => { t with taperChg := nc, taperDis := nd }) s
  if t.taperChg < need ∧ need ≤ nc ∧ 0 < nc then
    cycleOpen p.1 p.2 x.k (estRecord 0 0x0803 [packW [(p.1, 8), (1, 0)]] (taperSet p.2 true s))
  else if t.taperDis < need ∧ need ≤ nd ∧ 0 < nd then
    let s := estRecord 0 0x0803 [packW [(p.1, 8), (0, 0)]] (taperSet p.2 false s)
    if deepEnough s p.1 p.2 then cycleClose p.1 p.2 x.k s else s
  else s

/-! ### The window (R438, R439) -/

/-- A cell's room below and above, in Ah, less its uncertainty unless `exact`. -/
def roomDis (s : State) (exact : Bool) (c : Cell) : Rat :=
  c.q * max 0 (c.c - (if exact then 0 else c.u) - mkRat s.est.cfg.floor_ 32768)
def roomChg (s : State) (exact : Bool) (c : Cell) : Rat :=
  c.q * max 0 (mkRat s.est.cfg.ceil_ 32768 - c.c - (if exact then 0 else c.u))

/-- The least of a list; zero where it is empty. -/
def leastOf : List Rat → Rat
  | [] => 0
  | x :: t => t.foldl min x

/-- A_DIS and A_CHG of a string, cut as R439 states. -/
def aDis (s : State) (exact : Bool) (p : Nat × StrCfg) : Rat :=
  let t := strAt s p.1
  if t.cutDis || t.cutTemp || t.noSweep then 0 else leastOf ((strCells p.2).map fun i => roomDis s exact (cellAt s i))
def aChg (s : State) (exact : Bool) (p : Nat × StrCfg) : Rat :=
  let t := strAt s p.1
  if t.cutChg || t.cutTemp || t.noSweep then 0 else leastOf ((strCells p.2).map fun i => roomChg s exact (cellAt s i))

/-- V_DIS and V_CHG of a string. -/
def vDis (s : State) (x : StrCfg) : Rat :=
  (strCells x).foldl (fun a i =>
    let c := cellAt s i
    a + ocv s ((c.c - c.u + mkRat s.est.cfg.floor_ 32768) / 2) (cellT c)) 0
def vChg (s : State) (x : StrCfg) : Rat :=
  (strCells x).foldl (fun a i =>
    let c := cellAt s i
    a + ocv s ((c.c + c.u + mkRat s.est.cfg.ceil_ 32768) / 2) (cellT c)) 0

/-- The usable window in whole joules. -/
def windowOf (s : State) : Nat × Nat :=
  let sr := copyWords s aStage 64
  let etaD := f32Rat (sr.getD 4 0)
  let etaC := f32Rat (sr.getD 5 0)
  if s.est.init_ || s.est.anchor then (0, 0)
  else
    let d := (strsOf s).foldl (fun a p => a + aDis s false p * vDis s p.2) 0
    let c := (strsOf s).foldl (fun a p => a + aChg s false p * vChg s p.2) 0
    (min 0xFFFFFFFF (etaD * 3600 * d).floor.toNat,
     if etaC = 0 then 0 else min 0xFFFFFFFF (3600 / etaC * c).floor.toNat)

/-- The conditions of R439 on a string after a sweep of its chain. -/
def cutsOf (s : State) (k : Nat) (x : StrCfg) : Bool × Bool × Bool × Bool :=
  let g := (chainOf s x.chainB).cfg
  let code (i : Nat) : Option Int := (cellAt s i).volt.map fun v => (v * 5000).floor
  let high := (strCells x).any fun i => match code i with
    | some v => decide (g.vHi < v)
    | none => false
  let low := (strCells x).any fun i => match code i with
    | some v => decide (v < g.vLo)
    | none => false
  let temp := (strCells x).any fun i => match cellMon s i with
    | some m => (m.temps ++ [m.dieT]).any fun w =>
        decide (w ≠ 0x8000) && (decide (g.tHi < w.toInt) || decide (w.toInt < g.tLo))
    | none => false
  let stale := (strCells x).any fun i => decide (6000000000 ≤ (k - (cellAt s i).voltAt.toNat) * s.clk.strokeDiv)
  (high, low, temp, stale)

/-- Cuts start and end at a sweep; each that starts writes record 0x0807. The 60 s of a missing voltage are seen at any run. -/
def cutStep (x : EstIn) (s : State) (p : Nat × StrCfg) : State :=
  let t := strAt s p.1
  let c := cutsOf s x.k p.2
  let fresh := if p.2.chainB then x.newB else x.newA
  let pick (old new : Bool) : Bool := if fresh then new else old
  let t' := { t with cutChg := pick t.cutChg c.1, cutDis := pick t.cutDis c.2.1, cutTemp := pick t.cutTemp c.2.2.1,
                     noSweep := if fresh then c.2.2.2 else t.noSweep || c.2.2.2 }
  let s := strPut p.1 (fun _ => t') s
  let say (old new : Bool) (cut : Nat) (s : State) : State :=
    if new && !old then estRecord 1 0x0807 [packW [(p.1, 8), (cut, 0)]] s else s
  say t.noSweep t'.noSweep 4 (say t.cutTemp t'.cutTemp 3 (say t.cutDis t'.cutDis 2 (say t.cutChg t'.cutChg 1 s)))

/-- R444 reasons 1 and 4, at a sweep of the string's chain, and reason 3. -/
def cycleWatch (x : EstIn) (s : State) (p : Nat × StrCfg) : State :=
  let ch := chainOf s p.2.chainB
  let fresh := if p.2.chainB then x.newB else x.newA
  let warm := (strCells p.2).any fun i => match (cellAt s i).limit with
    | some t => decide (t < 15) || decide (35 < t)
    | none => false
  let gone := ch.shown.any (fun y => y.gap.isSome || !y.whole) || (strCells p.2).any fun i => (cellMon s i).isNone
  let s := if fresh && warm then disqualify p.1 1 s else s
  let s := if fresh && gone then disqualify p.1 4 s else s
  match s.est.restFrom with
  | some r => if 60000000000 < (x.k - r.toNat) * s.clk.strokeDiv then disqualify p.1 3 s else s
  | none => s

/-! ### The estimator area (R434, R436, R440) -/

/-- A fraction in units of 1/32,768, rounded to nearest or upward. -/
def frac16 (r : Rat) : Nat := (max 0 (min 65535 (ratRound .nearest (r * 32768)))).toNat
def frac16Up (r : Rat) : Nat := (max 0 (min 65535 (ratCeil (r * 32768)))).toNat

/-- U_MAX of some cells. -/
def uMaxOf (s : State) (is : List Nat) : Rat := is.foldl (fun a i => max a (cellAt s i).u) 0

/-- Computed state of charge from the room below and above. -/
def socOf (k n : Nat) (d c : Rat) : Rat :=
  if d + c = 0 then Config.socUndefined (BitVec.ofNat 64 k) n else d / (d + c)

/-- R434 on the strings and the stack. -/
def socStep (x : EstIn) (s : State) : State :=
  let s := (strsOf s).foldl (fun a p =>
    let c := socOf x.k p.1 (aDis a true p) (aChg a true p)
    strPut p.1 (fun t => { t with soc := if t.socSet then report a x x.dq (qMin a p.2) t.soc c else c, socSet := !a.est.init_ }) a) s
  let d := (strsOf s).foldl (fun a p => a + aDis s true p) 0
  let c := (strsOf s).foldl (fun a p => a + aChg s true p) 0
  let q := (strsOf s).foldl (fun a p => a + qMin s p.2) 0
  let v := socOf x.k 8 d c
  estMod (fun e => { e with
    socStack := if e.socSet then report s x (x.dq * nStr s) q e.socStack v else v, socSet := !e.init_ }) s

/-- R436: UNANCHORED. -/
def unanchorStep (s : State) : State :=
  let u := uMaxOf s (cellsInUse s)
  let now_ := decide (mkRat 5 100 < u)
  let was := s.est.unanchored
  let s := estMod (fun e => { e with uMax := u, unanchored := now_ }) s
  if now_ ≠ was then estRecord 1 0x0801 [w32 (b2n now_)] s else s

/-- The limit temperatures of cells in use, highest and lowest, in 1/16 °C. -/
def tExtremes (s : State) : Int × Int :=
  match (cellsInUse s).filterMap fun i => (cellAt s i).limit with
  | [] => (0, 0)
  | x :: t => ((t.foldl max x * 16).floor, (t.foldl min x * 16).floor)

/-- R440: whether ESTIMATE requests balancing of a cell. -/
def balWants (s : State) (x : EstIn) (p : Nat × StrCfg) (i : Nat) : Bool :=
  let t := strAt s p.1
  let low := leastOf ((strCells p.2).map fun j => (cellAt s j).c)
  let d := stackDir s x
  (decide (d < 0) || (decide (d = 0) && decide (mkRat 3 10 < low))) &&
  !(t.cutChg || t.cutDis || t.cutTemp || t.noSweep) &&
  decide (low + mkRat s.est.cfg.balDelta 32768 < (cellAt s i).c)

/-- The request of a chain as 16 words. -/
def balWords (s : State) (x : EstIn) (b : Bool) : List Word :=
  let wants := (strsOf s).flatMap fun p => if p.2.chainB = b then (strCells p.2).filter (balWants s x p) else []
  (List.range 16).map fun w => packW ((List.range 32).map fun i =>
    (b2n (wants.contains ((if b then 512 else 0) + 32 * w + i)), i))

/-- The eight words of a string. -/
def strWords (s : State) (n : Nat) : List Word :=
  match s.est.cfg.strings[n]? with
  | none => List.replicate 8 0
  | some x =>
    let t := strAt s n
    [packW [(frac16 t.soc, 16), (frac16Up (uMaxOf s (strCells x)), 0)], ratF32 (aDis s false (n, x)),
     ratF32 (aChg s false (n, x)), ratF32 (vDis s x), ratF32 (vChg s x), ratF32 (qMin s x),
     packW [(b2n t.cutTemp, 3), (b2n t.cutChg, 2), (b2n t.cutDis, 1), (1, 0)], 0]

/-- FLAGS of the area, word 2: LIM_CHG and LIM_DIS stand for every cut of R439 that takes that side of a string. -/
def estFlags (s : State) (mirror run : Bool) : Nat :=
  let any (f : StrSt → Bool) : Nat := b2n ((strsOf s).any fun p => f (strAt s p.1))
  b2n s.est.anchor * 128 + b2n s.est.unanchored * 64 + any (·.noSweep) * 32 +
  any (fun t => t.cutChg || t.cutTemp || t.noSweep) * 16 + any (fun t => t.cutDis || t.cutTemp || t.noSweep) * 8 +
  b2n mirror * 4 + b2n run * 2 + b2n s.est.init_

/-- Seconds since a stroke. -/
def secsSince (s : State) (k : Stroke) : Nat := (now s - k.toNat) * s.clk.strokeDiv / 100000000

/-- The estimator area's copy. -/
def estArea (s : State) (x : EstIn) (stroke : Nat) (mirror run : Bool) : List Word :=
  let w := if run then windowOf s else (0, 0)
  let t := tExtremes s
  [lo32 stroke, hi32 stroke, w32 (estFlags s mirror run), w32 w.1, w32 w.2,
   packW [(frac16Up s.est.uMax, 16), (frac16 s.est.socStack, 0)], w32 (secsSince s s.est.lastAnchor),
   packW [((BitVec.ofInt 16 t.1).toNat, 16), ((BitVec.ofInt 16 t.2).toNat, 0)]] ++ List.replicate 8 0 ++
  balWords s x false ++ balWords s x true ++ (List.range 8).flatMap (strWords s)

/-! ### Anchor hold (R442) -/

/-- The end of a hold with record 0x0802: taken, or not. -/
def holdEnd (taken : Bool) (s : State) : State :=
  if s.est.anchorReq || s.est.anchor then
    estRecord 0 0x0802 [w32 (b2n taken), w32 (frac16Up s.est.uMax)]
      (estMod (fun e => { e with anchor := false, anchorReq := false }) s)
  else s

/-- ESTIMATE reads ANCHOR_REQ, or ends the hold once every cell in use has its anchor. -/
def holdStep (req : Bool) (k : Nat) (s : State) : State :=
  if s.est.anchor then
    if (cellsInUse s).all fun i => s.est.anchored.contains i then holdEnd true s else s
  else if req && s.est.anchorReq then
    estMod (fun e => { e with anchor := true, anchorAt := BitVec.ofNat 64 k, anchored := [] }) s
  else s

/-! ### The run (R428, R431, R449) -/

/-- The EST input block. -/
def aEstIn : Nat := aCist 2 + 0x1000

/-- Samples that a cell bucket has taken, as the run compares them. -/
def sweepsIn (s : State) (st : Nat) : Word := match bucketOf s st with
  | some b => w32 b.written
  | none => 0

/-- The figures of a run from the input block. -/
def estIn (s : State) (w : List Word) (k : Nat) : EstIn :=
  let n := wide (w.getD 0 0) (w.getD 1 0)
  let q := (BitVec.ofNat 64 (wide (w.getD 4 0) (w.getD 5 0))).toInt
  let a := wide (w.getD 6 0) (w.getD 7 0)
  let last := (s.est.lastRun.map (·.toNat)).getD n
  let m := max 1 (nStr s)
  { k := k, dq := mkRat (q - s.est.lastQ) 1000000 / (m : Rat), dabs := mkRat ((a : Int) - s.est.lastAbs) 1000000 / (m : Rat),
    dt := mkRat ((n - last) * s.clk.strokeDiv : Nat) 100000000,
    newA := decide (sweepsIn s 0x50 ≠ s.est.seenA), newB := decide (sweepsIn s 0x51 ≠ s.est.seenB) }

/-- A run has taken the figures of its input block and the sweeps up to it. -/
def runTaken (w : List Word) (x : EstIn) (s : State) : State :=
  estMod (fun e => { e with
    lastRun := some (BitVec.ofNat 64 (wide (w.getD 0 0) (w.getD 1 0))),
    lastQ := (BitVec.ofNat 64 (wide (w.getD 4 0) (w.getD 5 0))).toInt, lastAbs := wide (w.getD 6 0) (w.getD 7 0),
    seenA := sweepsIn s 0x50, seenB := sweepsIn s 0x51, init_ := e.init_ && !x.newA && !x.newB }) s

/-- The commanded stack current (R428 I_NOW, R429). -/
def iNow (s : State) : Word :=
  if currentMode s.stage then s.stage.iApp else if s.stage.modeV then s.stage.iStkEst else 0

/-- I_NOW as a standby's reported values and lifetime record take it: the mirrored one (R449). -/
def iShown (s : State) : Word := if fnLive s fPAIR && !s.pair.active && s.pair.mirrorEstAt.isSome then s.pair.mirrorI else iNow s

/-- The charge by which a standby's reported values move is that of the mirrored current: its own stage carries none. -/
def mirroredIn (s : State) (x : EstIn) : EstIn :=
  let q := f32Rat (iShown s) * x.dt / (max 1 (nStr s) : Nat)
  { x with dq := q, dabs := q.abs }

/-- A run on a standby (R449) integrates nothing: its cells are the mirrored ones, on which the sweeps' cuts and the area's figures
rest. -/
def estMirrored (w : List Word) (x : EstIn) (s : State) : State :=
  let s := estMod (fun e => { e with
    anchored := [], restFrom := none, strs := e.strs.map fun t => { t with taperChg := 0, taperDis := 0 } }) (runTaken w x s)
  let s := (cellsInUse s).foldl (fun a i => cellPut i (fun c => sweepIn a x true i c) a) s
  unanchorStep (socStep x ((strsOf s).foldl (cutStep x) s))

/-- The arithmetic of a run on an active module. What disqualifies a cycle is looked at before the cycle can close (R444). -/
def estCompute (w : List Word) (x : EstIn) (s : State) : State :=
  let n := wide (w.getD 0 0) (w.getD 1 0)
  let last := (s.est.lastRun.map (·.toNat)).getD n
  let rest := decide (stackDir s x = 0)
  let s := estMod (fun e => { e with
    anchored := if rest then e.anchored else [],
    restFrom := if rest then e.restFrom.or (some (BitVec.ofNat 64 (last + 1))) else none }) (runTaken w x s)
  let s := (cellsInUse s).foldl (fun a i => cellPut i (fun c => integrate a x c) a) s
  let s := (cellsInUse s).foldl (fun a i => cellPut i (fun c => sweepIn a x false i c) a) s
  let s := (strsOf s).foldl (cycleWatch x) s
  let s := (cellsInUse s).foldl (anchorTake x) s
  let s := (strsOf s).foldl (fun a p => if deepEnough a p.1 p.2 && (strCells p.2).all (fun i => a.est.anchored.contains i)
    then cycleClose p.1 p.2 x.k a else a) s
  let s := (strsOf s).foldl (taperStep x (n - last)) s
  let s := (cellsInUse s).foldl (fun a i => cellPut i (fun c => { c with r := report a x x.dq c.q c.r c.c }) a) s
  let s := (strsOf s).foldl (cutStep x) s
  holdStep (bit (w.getD 2 0) 4) x.k (unanchorStep (socStep x s))

/-- ESTIMATE in a run that began in stroke k: an active module integrates, a standby publishes the mirrored state, and with
EST_RUN = 0 the window is zero. -/
def estimateRun (l : Inst) (k : Nat) (s : State) : State :=
  let w := if validOf s aEstIn then copyWords s aEstIn 64 else List.replicate 16 0
  let run := bit (w.getD 2 0) 0
  let mirror := bit (w.getD 2 0) 3
  let x := if mirror then mirroredIn s (estIn s w k) else estIn s w k
  let s := if !run then s else if mirror then estMirrored w x s else estCompute w x s
  let n := wide (w.getD 0 0) (w.getD 1 0)
  estMod (fun e => { e with lastCommit := BitVec.ofNat 64 k }) (stageArea l 0 (estArea s x n (run && mirror) run) s)

/-! ### Lifetime record (R447, R459) -/

/-- Words of the live record by their number. -/
def lifeGet (s : State) (w : Nat) : Word := s.est.life.getD (w - 3) 0
def lifePut (w : Nat) (v : Word) (s : State) : State := estMod (fun e => { e with life := e.life.set (w - 3) v }) s

/-- The word of the live record as it is saved and read: SEQ and RUN_S in front. -/
def lifeWords (s : State) : List Word :=
  [w32 (recSeq s.est.norLife), w32 s.est.runS] ++ s.est.life.drop 2

/-- An extreme of a signed 16-bit figure with its place and time; a word of zero holds none yet. -/
def lifeExtreme (w : Nat) (high : Bool) (v : Int) (ref : Nat) (s : State) : State :=
  let old := lifeGet s w
  let o := s16 (fld old 16 16)
  if old = 0 || (if high then decide (o < v) else decide (v < o)) then
    lifePut (w + 1) (w32 s.est.runS) (lifePut w (packW [((BitVec.ofInt 16 v).toNat, 16), (ref, 0)]) s)
  else s

/-- Sweep codes and temperatures of a chain enter the record while EST is RUNNING. -/
def lifeSweep (b : Bool) (s : State) : State :=
  if !fnRunning s fEST then s else
  let ch := chainOf s b
  (List.range 32).foldl (fun a m => match ch.shown.bind fun x => x.data.getD m none with
    | none => a
    | some d =>
      let a := (List.range 16).foldl (fun a c =>
        let i := 16 * m + c
        let v := (d.cells.getD c 0x8000).toInt
        if (ch.cfg.cellUse.getD m 0).getLsbD c && (cellsInUse a).contains ((if b then 512 else 0) + i) then
          lifeExtreme 7 false v (b2n b * 512 + i) (lifeExtreme 5 true v (b2n b * 512 + i) a) else a) a
      ((d.temps ++ [d.dieT]).filter (· ≠ 0x8000)).foldl (fun a t =>
        lifeExtreme 11 false t.toInt (b2n b * 32 + m) (lifeExtreme 9 true t.toInt (b2n b * 32 + m) a)) a) s

/-- The current's extremes, at each stroke of EST RUNNING. -/
def lifeCurrent (s : State) : State :=
  let i := f32Rat (iShown s)
  let s := if f32Rat (lifeGet s 13) < i then lifePut 14 (w32 s.est.runS) (lifePut 13 (ratF32 i) s) else s
  if f32Rat (lifeGet s 15) < -i then lifePut 16 (w32 s.est.runS) (lifePut 15 (ratF32 (-i)) s) else s

/-- LIFETIME_HISTOGRAM_TICK (R447): one bin of each histogram, once per second of EST RUNNING. -/
def execLifetimeHistogramTick (s : State) : Out :=
  if !fnRunning s fEST then .next s
  else
    let soc := min 15 (16 * s.est.socStack).floor.toNat
    let tb := (((tExtremes s).1 / 16 + 20) / 5)
    let t := (max 0 (min 15 tb)).toNat
    let q := f32Rat s.est.cfg.qNom
    let c := f32Rat (iShown s) / (max 1 (nStr s) : Nat) / (if q = 0 then 1 else q)
    let i := (max 0 (min 15 ((c + 2) * 4).floor)).toNat
    let inc (w : Nat) (s : State) : State := lifePut w (lifeGet s w + 1) s
    .next (estMod (fun e => { e with runS := e.runS + 1 }) (inc (273 + i) (inc (17 + 16 * t + soc) s)))

/-- LIFETIME_SAVE_TIMER (R447): every 600 s of EST RUNNING. -/
def execLifetimeSaveTimer (s : State) : Out := if fnRunning s fEST then .next (lifeDue s) else .next s

/-! ### NOR writes step by step (R445) -/

/-- NOR_ERASE_COMPLETE (R445 step 1). Idle without an erase in progress. -/
def execNorEraseComplete (s : State) : Out :=
  match s.est.writing with
  | some w => if w.phase = .erasing then
      .next (estMod (fun e => { e with writing := some { w with phase := .waiting } }) s) else .next s
  | none => .next s

/-- No record of EST is being written or due. -/
def estWritten (s : State) : Bool :=
  !s.est.duCap && !s.est.duLife && s.est.writing.all fun w => decide (w.kind = 2)

/-- EST STOP ends once no record write of EST is left (R451). -/
def estStopDone (s : State) : State :=
  if (waitingMb (fun x => decide (x = .funcStop fEST)) s).isSome && estWritten s && fnRunning s fEST then
    answer (.funcStop fEST) .ok 0 [] (fnSet fEST .stopped 0 (disqualifyAll 6 s))
  else s

/-- The contents that a record write programs. -/
def recNow (kind : Nat) (s : State) : NorRec :=
  if kind = 0 then { caps := s.est.cells.map fun c => (c.q, c.cycles), serials := s.chainA.serials ++ s.chainB.serials }
  else { words := w32 (recSeq s.est.norLife + 1) :: (lifeWords s).drop 1 }

/-- A record write has ended: what waits behind it goes on. -/
def norGone (s : State) : State := estStopDone (norNext s)

/-- A record's copy and its commit entry are programmed (R445). -/
def norStore (w : NorWrite) (r : NorRec) (s : State) : State :=
  norAdvance w.kind (norOp false (norRegion w.kind) 2 (norMod w.kind (norProgram w.kind r)) s)

/-- The commit entry of a policy is programmed: it takes effect, then POLICY_SET is answered (R557). A policy that an earlier one has overtaken
meanwhile fails the checks of R557 again. -/
def policyCommit (w : NorWrite) (s : State) : State :=
  match policyBad s w.policy with
  | some (.now c d _) => answer (.policySet w.policy) c d [] s
  | _ =>
    let slot := spareSlot s.boot.policies
    answer (.policySet w.policy) .ok 0 [] (policyGo slot w.policy (norStore w { words := w.policy } s))

/-- A write has been committed: the record, the answer to EST_SAVE or POLICY_SET. -/
def norCommitted (w : NorWrite) (s : State) : State :=
  let s := estMod (fun e => { e with writing := none }) s
  norGone <|
    if w.kind = 2 then policyCommit w s
    else
      let s := norStore w (recNow w.kind s) s
      if w.kind = 0 then s else answer .estSave .ok 0 [] (estMod (fun e => { e with saveS := e.runS }) s)

/-- R445: the second failure of a copy: the previous copy stays in force. For EST's records 0x0806 is written; for a policy the manual gives
neither a record nor POLICY_SET's code (entry 178). -/
def norFailed (w : NorWrite) (s : State) : State :=
  let s := estMod (fun e => { e with writing := none }) s
  norGone <|
    if w.kind = 2 then let p := failCode s; answer (.policySet w.policy) p.2 0 [] p.1
    else
      let s := estRecord 2 0x0806 [w32 w.kind] s
      if w.kind = 1 then answer .estSave .fault fEST [] s else s

/-- NOR_WRITE_RESUME (R445 steps 2 to 4): with HOLDUP_GOOD the copy is programmed and read back, then its commit entry. A copy
that fails is written again once. Idle unless a write waits and HOLDUP_GOOD is 1. -/
def execNorWriteResume (readBackOk : Bool) (s : State) : Out :=
  match s.est.writing with
  | none => .next s
  | some w =>
    if w.phase ≠ .waiting ∨ holdupGood s = false then .next s
    else if readBackOk then .next (norCommitted w s)
    else
      let s := norOp false (norRegion w.kind) 1 id s
      if !w.retry then .next (estMod (fun e => { e with writing := some { w with retry := true } }) s)
      else .next (norFailed w s)

/-! ### The boundary (R428, R452) -/

/-- What EST does at the boundary that ends stroke k: the input block, and the current's extremes. -/
def estBoundary (k : Nat) (s : State) : State :=
  let run := fnRunning s fEST
  if !run && !(validOf s aEstIn && bit ((copyWords s aEstIn 64).getD 2 0) 0) then s
  else
    let m := s.stage.means
    let ws := [lo32 k, hi32 k,
      packW [(b2n s.est.anchorReq, 4), (b2n (!s.pair.active), 3), (b2n m.vmode, 2), (b2n m.closed, 1), (b2n run, 0)], 0] ++
      int64 s.stage.qCmd ++ [lo32 s.stage.qAbs, hi32 s.stage.qAbs, iNow s] ++ List.replicate 7 0
    publish (k + 1) aEstIn 64 ws (if run then lifeCurrent s else s)

/-- ANCHOR_TIMEOUT (R442): the hold ends without its anchor. Idle without a hold that has been committed. -/
def execAnchorTimeout (s : State) : Out := if s.est.anchor then .next (holdEnd false s) else .next s

/-- EST_COMMIT_TIMEOUT (R452): 256 strokes without a commit. Idle before that. -/
def execEstCommitTimeout (s : State) : Out :=
  if fnRunning s fEST ∧ s.est.lastCommit.toNat + 256 ≤ now s then
    .next (answer .estSave .fault fEST [] (answer (.funcStop fEST) .fault fEST []
      (fnFault fEST 0x0801 (disqualifyAll 6 (holdEnd false s)))))
  else .next s

/-! ### START, STOP and hooks (R444, R446, R450, R451, R453) -/

/-- Strings lie within their chain, in CELL_USE, and do not overlap (R450 check 6). -/
def stringsOk (s : State) : Bool :=
  let used := cellsInUse s
  (s.est.cfg.strings.all fun x =>
    let g := (chainOf s x.chainB).cfg
    decide (x.first + x.count ≤ 512) && decide (x.first + x.count ≤ 16 * g.nMon) &&
    (List.range x.count).all fun i => (g.cellUse.getD ((x.first + i) / 16) 0).getLsbD ((x.first + i) % 16)) &&
  decide used.Nodup

/-- The checks of EST START, in the order of R450. -/
def estStartBad (s : State) : Option Answer :=
  let g := s.est.cfg
  firstErr
    [if fnRunning s 0x1A then none else some (errR .state 0x1A),
     if (pkgOf s 1).isSome then none else some (errR .state 1),
     if s.est.model.isEmpty then some (errR .state 2) else none,
     ([(false, 2), (true, 3)].find? fun c => (g.strings.any fun x => decide (x.chainB = c.1)) && !fnRunning s c.2).map
       fun c => errR .state c.2,
     if 0 < f32Rat g.qNom ∧ g.floor_ < g.ceil_ ∧ f32Rat g.taperLo < f32Rat g.taperHi then none else some (errR .range 1),
     if stringsOk s then none else some (errR .range 4)]

/-- The capacity and cycle count with which a cell starts (R446, R453, R454). -/
def startCap (s : State) (i : Nat) : Rat × Nat :=
  let q0 := (f32Rat s.est.cfg.qNom, 0)
  let c := cellAt s i
  let known := if c.q = 0 then none else some (c.q, c.cycles)
  let ser := (chainOf s (decide (512 ≤ i))).serials.getD (i % 512 / 16) none
  if s.est.cfg.capReset then q0
  else match recInForce s.est.norCap with
    | none => known.getD q0
    | some r =>
      if r.serials.getD (i / 512 * 32 + i % 512 / 16) none ≠ ser ∧ ser.isSome then q0
      else known.getD (match r.caps[i]? with
        | some x => if x.1 = 0 then q0 else x
        | none => q0)

/-- EST START. -/
def estStart (s : State) : State :=
  let s := if (recInForce s.est.norCap).isNone then estRecord 2 0x0806 [0] s else s
  let s := if (recInForce s.est.norLife).isNone then estRecord 2 0x0806 [1] s else s
  let cells := (List.range 1024).map fun i =>
    let q := startCap s i
    if (cellsInUse s).contains i then ({ q := q.1, cycles := q.2, voltAt := s.clk.stroke } : Cell)
    else { cellAt s i with q := q.1, cycles := q.2, inited := false }
  let s := estMod (fun e => { e with
    cells := cells, strs := List.replicate 8 {}, anchorReq := false, anchor := false, anchored := [], restFrom := none,
    lastRun := some s.clk.stroke, lastQ := 0, lastAbs := 0, init_ := true, socSet := false, lastCommit := s.clk.stroke,
    seenA := sweepsIn s 0x50, seenB := sweepsIn s 0x51, lastAnchor := s.clk.stroke,
    cfg := { e.cfg with capReset := false } }) s
  norNext (fnSet fEST .running 0 (stMod (fun x => { x with qCmd := 0, qAbs := 0 }) s))

/-- EST STOP (R451): the lifetime record is saved, a hold ends, and STOPPED follows the writes. -/
def estStopCmd (s : State) : State × Answer := (lifeDue (holdEnd false s), .later (.funcStop fEST))

/-- The grant or the shelf role has changed (R444 reason 5). -/
def estRoleChange (s : State) : State := if fnRunning s fEST then disqualifyAll 5 s else s

/-- R453: the serial of a position has changed while EST is RUNNING. -/
def estSerial (b : Bool) (pos : Nat) (s : State) : State :=
  if !fnRunning s fEST then s
  else
    let is := (List.range 16).map fun c => (if b then 512 else 0) + 16 * pos + c
    let s := is.foldl (fun a i => if (cellsInUse a).contains i then
      cellPut i (fun c => { c with q := f32Rat a.est.cfg.qNom, cycles := 0, u := mkRat a.est.cfg.uStart 32768 }) a else a) s
    (strsOf s).foldl (fun a p => if (strCells p.2).any (fun i => is.contains i) then disqualify p.1 4 a else a) s

/-! ### Commands (R454 to R460) -/

/-- The fields of EST_CONFIG. -/
def estConfigBad (r : Req) : Option Answer :=
  let n := fld (r.w 2) 0 4
  let str (i : Nat) : Bool × Nat :=
    let w := r.w (3 + i)
    (if i < n then decide (w &&& 0xFC00FF80 ≠ 0) || decide (fld w 0 7 = 0 ∨ 96 < fld w 0 7) else decide (w ≠ 0), 3 + i)
  rangeBad
    ([(decide (fld (r.w 2) 4 28 ≠ 0) || decide (n = 0 ∨ 8 < n), 2)] ++ (List.range 8).map str ++
     [(!fIn (r.w 11) 1 650, 11), (!fIn (r.w 12) 0 20, 12), (!fIn (r.w 13) 0 (mkRat 1 2), 13),
      (!fIn (r.w 14) 0 (mkRat 1 2), 14), (!fIn (r.w 15) 0 (mkRat 1 10), 15),
      (decide (32768 < fld (r.w 16) 16 16) || decide (32768 < fld (r.w 16) 0 16), 16),
      (!(decide (10 ≤ fld (r.w 17) 16 16) && decide (fld (r.w 17) 16 16 ≤ 3600) && decide (30 ≤ fld (r.w 17) 0 16) &&
         decide (fld (r.w 17) 0 16 ≤ 7200)), 17),
      (!(decide (1 ≤ fld (r.w 18) 16 16) && decide (fld (r.w 18) 16 16 ≤ 3600) && decide (fld (r.w 18) 0 16 ≤ 32768)), 18),
      (!fIn (r.w 19) 0 500, 19), (!fIn (r.w 20) 0 500, 20),
      (decide (32768 < fld (r.w 21) 16 16) || decide (fld (r.w 21) 1 15 ≠ 0), 21)])

/-- EST_CONFIG (R454). -/
def execEstConfig (r : Req) : State → Out :=
  mailbox { op := 0x0801, onMb := mbHigh, lenOk := (· = 20), acts := [fEST] } r fun s =>
    guardE (firstErr [cfgBad s fEST, estConfigBad r]) s fun s =>
      let str (i : Nat) : StrCfg :=
        { chainB := bit (r.w (3 + i)) 25, first := fld (r.w (3 + i)) 16 9, count := fld (r.w (3 + i)) 0 7 }
      (estMod (fun e => { e with cfg :=
        { strings := (List.range (fld (r.w 2) 0 4)).map str, qNom := r.w 11, iRest := r.w 12, curErr := r.w 13,
          shareErr := r.w 14, driftPh := r.w 15, floor_ := fld (r.w 16) 16 16, ceil_ := fld (r.w 16) 0 16,
          restS := fld (r.w 17) 16 16, timeoutS := fld (r.w 17) 0 16, taperS := fld (r.w 18) 16 16,
          balDelta := fld (r.w 18) 0 16, taperLo := r.w 19, taperHi := r.w 20, uStart := fld (r.w 21) 16 16,
          capReset := bit (r.w 21) 0 } }) s, okR [])

/-- The checks of EST_MODEL, word by word (R455). -/
def estModelBad (r : Req) : Option Answer :=
  let v (w : Nat) : Rat := f32Rat (r.w w)
  let one (w : Nat) : Bool :=
    !f32Finite (r.w w) ||
    (if w < 6 then decide (v w < -40 ∨ 80 < v w) || (decide (2 < w) && decide (v w ≤ v (w - 1)))
     else if w < 138 then decide (v w < 1 ∨ 5 < v w) || (decide ((w - 6) % 33 ≠ 0) && decide (v w ≤ v (w - 1)))
     else decide (v w ≤ 0))
  ((List.range 156).find? fun i => one (2 + i)).map fun i => errR .range (2 + i)

/-- EST_MODEL (R455). -/
def execEstModel (r : Req) : State → Out :=
  mailbox { op := 0x0802, onMb := mbHigh, lenOk := (· = 156), acts := [fEST] } r fun s =>
    guardE (firstErr [cfgBad s fEST, estModelBad r]) s fun s =>
      (estMod (fun e => { e with model := fit 156 0 r.payload }) s, okR [])

/-- The response of EST_QUERY (R456), from the words of the estimator area. -/
def estWords (s : State) (a : List Word) : List Word :=
  let cyc := (List.range 8).foldl (fun n i => n + b2n (strAt s i).cycle.isSome * 2 ^ i) 0
  [packW [(fld (a.getD 2 0) 0 8, 24), (cyc, 16), (s.est.lastDq, 8), ((fnState s fEST).num, 0)], a.getD 5 0, a.getD 3 0,
   a.getD 4 0, a.getD 6 0, w32 (recSeq s.est.norCap), w32 (recSeq s.est.norLife),
   w32 (s.est.runS - s.est.saveS), w32 s.est.rejects]

/-- EST_QUERY (R456). -/
def execEstQuery (r : Req) : State → Out :=
  mailbox { op := 0x0803, onMb := mbHigh, lenOk := (· = 0) } r fun s =>
    areaAnswer aEstArea 448 (fun a => okR (estWords s a)) s

/-- The two words of a cell in EST_READ (R457). -/
def cellWords (s : State) (i : Nat) : List Word :=
  if (cellsInUse s).contains i then
    let c := cellAt s i
    [packW [(frac16 c.r, 16), (frac16 c.c, 0)],
     packW [(frac16 c.u, 16), ((max 0 (min 65535 (ratRound .nearest (c.q * 100)))).toNat, 0)]]
  else [0, 0]

/-- EST_READ (R457). -/
def execEstRead (r : Req) : State → Out :=
  mailbox { op := 0x0804, onMb := mbHigh, lenOk := (· = 1) } r (asks fun s =>
    let f := fld (r.w 2) 16 10
    let n := fld (r.w 2) 0 9
    if r.w 2 &&& 0xFC00FE00 ≠ 0 ∨ n = 0 then errR .range 2
    else if 1024 < f + n then errR .badLen 1
    else okR ((List.range n).flatMap fun i => cellWords s (f + i)))

/-- The checks of EST_ANCHOR (R458). -/
def estAnchorBad (s : State) : Option Answer :=
  firstErr
    [runBad s fEST, if s.pair.active then none else some (roleR s), if s.est.anchorReq then some (errR .busy 0) else none,
     if s.est.init_ || (strsOf s).any (fun p => (strAt s p.1).noSweep) then some (errR .state 3) else none]

/-- EST_ANCHOR (R458): ANCHOR_REQ from this stroke on. -/
def execEstAnchor (r : Req) : State → Out :=
  mailbox { op := 0x0805, onMb := mbHigh, lenOk := (· = 0), acts := [fEST] } r fun s =>
    guardE (estAnchorBad s) s fun s => (estMod (fun e => { e with anchorReq := true }) s, okR [])

/-- EST_LIFE_READ (R459). -/
def execEstLifeRead (r : Req) : State → Out :=
  mailbox { op := 0x0806, onMb := mbHigh, lenOk := (· = 0) } r (asks fun s => okR (lifeWords s))

/-- EST_SAVE (R460): answers once the commit entry is programmed. -/
def execEstSave (r : Req) : State → Out :=
  mailbox { op := 0x0807, onMb := mbHigh, lenOk := (· = 0), acts := [fEST] } r fun s =>
    guardE (runBad s fEST) s fun s => (lifeDue s, .later .estSave)

end Sys2Proof.Machine
end

