-- ==== Sys2Proof/Machine/Chain.lean ====
section
/-! DEFINITION. The stack chains: frames, bring-up, sweeps, balancing, results and commands (R396 to R426). -/

namespace Sys2Proof.Machine

/-! ### Frames (R398, R399, R401) -/

/-- CRC-16-CCITT over the bytes of a frame from CMD on, most significant bit first. -/
def chainCrc (bs : List Byte) : BitVec 16 :=
  bs.foldl (fun c b => crcBitsMsb 0x1021#16 8 (c ^^^ ((b.setWidth 16 : BitVec 16) <<< 8))) 0xFFFF

/-- Payload bytes of a frame by its CMD byte, REPLY included; none for a command that R401 does not define. -/
def chainLen (cmd : Byte) : Option Nat :=
  match cmd.toNat with
  | 0x01 => some 0
  | 0x02 => some 2
  | 0x03 => some 6
  | 0x04 => some 2
  | 0x05 => some 1
  | 0x06 => some 65
  | 0x07 => some 0
  | 0x85 => some 44
  | 0x87 => some 10
  | _ => none

/-- A received frame: CMD, ADDR and payload. -/
structure ChainFrame where
  cmd     : Nat
  addr    : Nat
  payload : List Byte
  deriving DecidableEq, Repr, Inhabited

/-- R399: the frame that bytes 2 to the end spell, the CRC's two bytes included; none for one that is discarded. -/
def chainFrame (bs : List Byte) : Option ChainFrame :=
  match bs with
  | cmd :: addr :: len :: rest =>
    let n := len.toNat
    let body := cmd :: addr :: len :: rest.take n
    if rest.length = n + 2 ∧ chainLen cmd = some n ∧ leNat (rest.drop n) = (chainCrc body).toNat then
      some { cmd := cmd.toNat, addr := addr.toNat, payload := rest.take n }
    else none
  | _ => none

/-- The number in `n` payload bytes from byte `i`, low byte first. -/
def ChainFrame.num (f : ChainFrame) (i n : Nat) : Nat := leNat ((f.payload.drop i).take n)

/-- What a READ_CELLS reply carries. -/
def ChainFrame.mon (f : ChainFrame) : MonData :=
  { status := BitVec.ofNat 8 (f.num 1 1), cells := (List.range 16).map fun c => BitVec.ofNat 16 (f.num (2 + 2 * c) 2),
    temps := (List.range 4).map fun i => BitVec.ofNat 16 (f.num (34 + 2 * i) 2), dieT := BitVec.ofNat 16 (f.num 42 2) }

/-! ### One chain -/

/-- The function of a chain: true is CHAIN_B. -/
def chainFn (b : Bool) : Nat := if b then fCHAINB else fCHAINA

/-- Changes one chain. -/
def chMod (b : Bool) (f : Chain → Chain) (s : State) : State :=
  if b then { s with chainB := f s.chainB } else { s with chainA := f s.chainA }

def chainB? : ChainSel → Bool
  | .a => false
  | .b => true

/-- An event record of a chain (R426). -/
def chRecord (b : Bool) (sev code detail : Nat) (s : State) : State :=
  emit sev (chainFn b) code [packW [((chainOf s b).sweepId.toNat, 24), (now s % 2 ^ 24, 0)], w32 detail] s

/-- The bytes of a frame, from PREAMBLE to CRC (R399). -/
def chainBytes (cmd addr : Nat) (payload : List Byte) : List Byte :=
  let body := BitVec.ofNat 8 cmd :: BitVec.ofNat 8 addr :: BitVec.ofNat 8 payload.length :: payload
  [0xFF, 0x7E] ++ body ++ natBytes 2 (chainCrc body).toNat

/-- A frame leaves an end; the last 64 are kept. -/
def chSend (b : Bool) (e : ChainEnd) (cmd addr : Nat) (payload : List Byte) (s : State) : State :=
  let f : ChainTx := { e := e, bytes := chainBytes cmd addr payload }
  chMod b (fun c => { c with tx := (f :: c.tx).take 64 }) s

def chPhase (b : Bool) (p : ChainPhase) (s : State) : State := chMod b (fun c => { c with phase := p }) s

/-- START of the chain waits for its bring-up. -/
def chStarting (s : State) (b : Bool) : Bool := (waitingMb (fun x => decide (x = .funcStart (chainFn b))) s).isSome

/-- The module transmits on the chain (R397). -/
def chTransmits (s : State) (b : Bool) : Bool := s.pair.gnt && (fnRunning s (chainFn b) || chStarting s b)

/-! ### Bring-up (R403) -/

/-- Step 5 for one position: READ_ID. -/
def readIdSend (b : Bool) (pos : Nat) (e : ChainEnd) (second : Bool) (s : State) : State :=
  chPhase b (.readId pos e second) (chSend b e 7 pos [] s)

/-- CONFIG from one end. -/
def configSend (b : Bool) (e : ChainEnd) (s : State) : State :=
  let g := (chainOf s b).cfg
  chSend b e 3 0x3F (natBytes 2 g.avgN ++ natBytes 2 g.settleUs ++ natBytes 2 g.quietUs) s

/-- Steps 1 and 2: the frame that goes out from LO decides how step 3 goes on. -/
def bringUp (b : Bool) (s : State) : State :=
  let s := chMod b (fun c => { c with broughtUp := false, found := [], enumNext := 0 }) s
  let s := chSend b .hi 1 0x3F [] (chSend b .lo 1 0x3F [] s)
  chPhase b .enumLo (chSend b .lo 2 0x3F [0, 0] s)

/-- Step 4 begins. -/
def configStep (b : Bool) (s : State) : State := chPhase b .configLo (configSend b .lo s)

/-- The monitors found (R403): those that answered, and those beyond the 32 addresses that ENUM counted. -/
def foundCount (c : Chain) : Nat := c.found.length + (c.enumNext - 32)

/-- A chain that starts has no sweep behind it: no gap, no absence and no loss stands. -/
def chainFresh (c : Chain) : Chain := { c with gapAt := none, gapNow := none, absentWas := 0, lossRun := 0 }

/-- Bring-up has ended. A START that waited for it is answered; one that fails has changed nothing (R418 check 7). -/
def bringUpDone (b : Bool) (s : State) : State :=
  let n := foundCount (chainOf s b)
  let s := chMod b (fun c => { c with phase := .idle, broughtUp := true, nFound := n }) s
  if !chStarting s b then s
  else if n = (chainOf s b).cfg.nMon then
    answer (.funcStart (chainFn b)) .ok 0 [] (fnSet (chainFn b) .running 0 (chMod b chainFresh s))
  else answer (.funcStart (chainFn b)) .range 5 [w32 n] (chMod b (fun c => { c with broughtUp := false }) s)

/-- The pass from HI goes on below `pos`, down to the first address that the pass from LO did not read. -/
def readIdDown (b : Bool) (pos : Nat) (s : State) : State :=
  if (chainOf s b).hiStop < pos then readIdSend b (pos - 1) .hi false s else bringUpDone b s

/-- A READ_ID has been answered: the serial is compared and kept. -/
def readIdOk (b : Bool) (pos : Nat) (e : ChainEnd) (serial : BitVec 64) (s : State) : State :=
  let old := (chainOf s b).serials.getD pos none
  let s := chMod b (fun c => { c with found := insertNat pos c.found, serials := c.serials.set pos (some serial) }) s
  let s := if old.isSome ∧ old ≠ some serial then estSerial b pos (chRecord b 1 0x0708 pos s) else s
  match e with
  | .lo => if pos + 1 < 32 then readIdSend b (pos + 1) .lo false s else bringUpDone b s
  | .hi => readIdDown b pos s

/-- A READ_ID has failed: repeated once; the first address that fails from LO turns to the HI end. -/
def readIdFail (b : Bool) (pos : Nat) (e : ChainEnd) (second : Bool) (s : State) : State :=
  if !second then readIdSend b pos e true s
  else match e with
    | .lo => readIdDown b (chainOf s b).cfg.nMon (chMod b (fun c => { c with hiStop := pos }) s)
    | .hi => readIdDown b pos s

/-! ### Balancing (R411 to R413) -/

/-- Bits of sixteen words. -/
def mask512 (ws : List Word) : BitVec 512 := BitVec.ofNat 512 (leNat (bytesOf (ws.take 16)))

/-- The request in force by its source. -/
def balRequest (s : State) (b : Bool) : BitVec 512 :=
  let c := chainOf s b
  if c.cfg.balEst then
    (if validOf s aEstArea then mask512 ((copyWords s aEstArea 448).drop (if b then 32 else 16)) else 0)
  else c.bal

/-- A cell may be balanced: it is in use and its monitor was read in this sweep. -/
def balMay (c : Chain) (i : Nat) : Bool :=
  (c.cfg.cellUse.getD (i / 16) 0).getLsbD (i % 16) && decide (i / 16 < c.cfg.nMon) && (c.data.getD (i / 16) none).isSome

/-- R412: a mask from the requested cells: `odd` names the mask, `run` the cells of the run so far. -/
def balSplit (req : Nat → Bool) (odd : Bool) : Nat → Nat → Nat → BitVec 512 → BitVec 512
  | 0, _, _, m => m
  | n + 1, i, run, m =>
    if !req i then balSplit req odd n (i + 1) 0 m
    else
      let alone := run = 0 ∧ req (i + 1) = false
      let mine := alone ∨ (run % 2 = 1 ↔ odd = true)
      balSplit req odd n (i + 1) (run + 1) (if mine then setBit m i true else m)

/-- The mask that a sweep sends. -/
def balMask (s : State) (b : Bool) : BitVec 512 :=
  let c := chainOf s b
  let r := balRequest s b
  balSplit (fun i => decide (i < 512) && r.getLsbD i && balMay c i) (c.sweepId.getLsbD 0) 512 0 0 0

/-- BAL_SET from one end. -/
def balSend (b : Bool) (e : ChainEnd) (m : BitVec 512) (s : State) : State :=
  chSend b e 6 0x3F (BitVec.ofNat 8 (chainOf s b).sweepId.toNat :: natBytes 64 m.toNat) s

/-- Step 4 of a sweep. -/
def balStep (b : Bool) (s : State) : State :=
  let m := balMask s b
  let s := chMod b (fun c => { c with balPhase := c.sweepId.getLsbD 0, balSent := m }) s
  chPhase b .balLo (balSend b .lo m s)

/-! ### Sweeps (R404, R405, R408, R409) -/

/-- Absent positions of a sweep. -/
def absentOf (c : Sweep) : List Nat := (List.range c.cfg.nMon).filter fun m => (c.data.getD m none).isNone

/-- A word with the bits of some positions. -/
def bitsOf (l : List Nat) : Word := packW (l.map fun m => (1, m))

/-- What a sweep has found: its gap and its data, under the configuration in force. -/
def sweepTaken (sent : Bool) (c : Chain) : Sweep :=
  { cfg := c.cfg, id := c.sweepId, latchStroke := c.latchStroke, latchTick := c.latchTick, data := c.data, gap := c.gapNow,
    gapWas := c.gapAt, single := c.single, whole := c.whole, balPhase := c.balPhase, sent := sent }

/-- Step 5: the sweep is complete. The gap that it leaves in force is the one it found, unless BAL_SET crossed the gap of the sweep
before it (R409, R413). -/
def sweepDone (b : Bool) (s : State) : State :=
  chMod b (fun c => { c with
    phase := .idle, complete := true, sweepUs := (ticksNow s - c.startAt) / 100, last := some (sweepTaken (chTransmits s b) c),
    gapAt := if c.whole && c.gapAt.isSome then none else c.gapNow, sweeps := c.sweeps + 1 }) s

/-- The positions that a sweep reads. -/
def sweepPos (c : Chain) : List Nat := (List.range c.cfg.nMon).filter c.found.contains

/-- READ_CELLS of a position. -/
def readSend (b : Bool) (pos : Nat) (e : ChainEnd) (second : Bool) (s : State) : State :=
  chPhase b (.reading pos e second) (chSend b e 5 pos [BitVec.ofNat 8 (chainOf s b).sweepId.toNat] s)

/-- The pass from HI goes on below `pos`; after it the balancing. -/
def readDown (b : Bool) (pos : Nat) (s : State) : State :=
  let c := chainOf s b
  match (sweepPos c).reverse.find? fun p => decide (p < pos) && decide (c.hiStop ≤ p) with
  | some p => readSend b p .hi false s
  | none => balStep b (chMod b (fun c => { c with hiDone := true }) s)

/-- The pass from LO goes on at `pos` or above; unbroken at its end it gives way to a pass from HI that is still due. -/
def readUp (b : Bool) (pos : Nat) (s : State) : State :=
  let c := chainOf s b
  match (sweepPos c).find? fun p => decide (pos ≤ p) && decide (p < c.loEnd) with
  | some p => readSend b p .lo false s
  | none =>
    if c.hiDone then
      let g := if c.loEnd < c.cfg.nMon then some c.loEnd else none
      balStep b (chMod b (fun c => { c with gapNow := g }) s)
    else readDown b c.cfg.nMon s

/-- Readout begins (R405 step 3). -/
def readBegin (b : Bool) (s : State) : State :=
  let c := chainOf s b
  let g := c.gapAt.getD c.cfg.nMon
  readUp b 0 (chMod b (fun c => { c with loEnd := g, hiStop := g, hiDone := false, gapNow := c.gapAt }) s)

/-- A position has been read. -/
def readOk (b : Bool) (pos : Nat) (e : ChainEnd) (d : MonData) (s : State) : State :=
  let s := chMod b (fun c => { c with data := c.data.set pos (some d), single := c.single || decide (e = .hi) }) s
  match e with
  | .lo => readUp b (pos + 1) s
  | .hi => readDown b pos s

/-- A LO pass has ended on a failure at `pos` (R409): the pass from HI goes on, from the end of the chain or from below the position at
which it had given way to this pass. -/
def loFailed (b : Bool) (pos : Nat) (s : State) : State :=
  let c := chainOf s b
  readDown b (if c.hiDone then c.loEnd - 1 else c.cfg.nMon)
    (chMod b (fun c => { c with failovers := satAdd 65535 c.failovers 1, gapNow := some pos, loEnd := pos, hiStop := pos }) s)

/-- A HI pass has failed at `pos`: with a LO pass that ended at the previous sweep's gap without a failure, the LO pass is
taken up again from there to `pos`; otherwise the next lower position is tried. -/
def hiFailed (b : Bool) (pos : Nat) (s : State) : State :=
  let c := chainOf s b
  if c.gapAt.isSome ∧ c.gapNow = c.gapAt ∧ c.hiDone = false then
    readUp b c.hiStop (chMod b (fun c => { c with hiDone := true, loEnd := pos + 1 }) s)
  else readDown b pos s

/-- One attempt has failed (R408). -/
def readFail (b : Bool) (pos : Nat) (e : ChainEnd) (second : Bool) (s : State) : State :=
  let s := chMod b (fun c => { c with timeouts := satAdd (2 ^ 32 - 1) c.timeouts 1 }) s
  if !second then readSend b pos e true s
  else match e with
    | .lo => loFailed b pos s
    | .hi => hiFailed b pos s

/-! ### What a transmitting module makes of a frame (R399, R403, R405, R413) -/

/-- STOP has ended (R419). -/
def chStopped (b : Bool) (s : State) : State :=
  answer (.funcStop (chainFn b)) .ok 0 [] (fnSet (chainFn b) .stopped 0 (chPhase b .idle s))

/-- BAL_SET has arrived at HI: the sweep is complete, and a gap of the previous sweep has closed (R413). -/
def balArrived (b : Bool) (s : State) : State :=
  let s := match (chainOf s b).gapAt with
    | some g => chRecord b 0 0x0702 g s
    | none => s
  sweepDone b (chMod b (fun c => { c with whole := true }) s)

/-- A frame that passed its checks arrives at an end of a module that transmits. -/
def chMaster (b : Bool) (e : ChainEnd) (f : ChainFrame) (s : State) : State :=
  match (chainOf s b).phase with
  | .enumLo => if e = .hi ∧ f.cmd = 2 then configStep b (chMod b (fun c => { c with enumNext := f.num 0 1 }) s) else s
  | .configLo => if e = .hi ∧ f.cmd = 3 then readIdSend b 0 .lo false s else s
  | .readId pos x _ => if e = x ∧ f.cmd = 0x87 ∧ f.addr = pos then readIdOk b pos x (BitVec.ofNat 64 (f.num 0 8)) s else s
  | .reading pos x second =>
    if e = x ∧ f.cmd = 0x85 ∧ f.addr = pos then
      if f.num 0 1 = (chainOf s b).sweepId.toNat then readOk b pos x f.mon s else readFail b pos x second s
    else s
  | .balLo => if e = .hi ∧ f.cmd = 6 then balArrived b s else s
  | .stopBal => if e = .hi ∧ f.cmd = 6 then chStopped b s else s
  | _ => s

/-- A frame is discarded (R399); a reply that is awaited on the end has failed (R408). -/
def chDiscard (b : Bool) (e : ChainEnd) (s : State) : State :=
  let s := chMod b (fun c => { c with crcErr := satAdd (2 ^ 32 - 1) c.crcErr 1 }) s
  if !chTransmits s b then s
  else match (chainOf s b).phase with
    | .readId pos x second => if e = x then readIdFail b pos x second s else s
    | .reading pos x second => if e = x then readFail b pos x second s else s
    | _ => s

/-- R409 as a listener hears it: once a position is asked from HI, the gap is at the position last asked from LO that did not answer,
or above it where it did; an earlier gap's pass from LO ends below that gap. -/
def gapHeard (c : Chain) : Option Nat :=
  if !c.askedHi then none
  else match c.askedLo with
    | none => some (c.gapAt.getD 0)
    | some p =>
      let g := if (c.data.getD p none).isNone then p else max (p + 1) (c.gapAt.getD 0)
      if g < c.cfg.nMon then some g else none

/-- R413: BAL_SET has come round the ring: its copy at HI ends within 2 µs of the one sent at LO. -/
def balRound (s : State) (c : Chain) : Bool := match c.balLoAt with
  | some t => decide (ticksNow s ≤ t + 200)
  | none => false

/-- What a listener makes of a frame (R397): SAMPLE opens a sweep, requests and replies fill it, BAL_SET at HI completes it. -/
def chListen (b : Bool) (e : ChainEnd) (f : ChainFrame) (s : State) : State :=
  let c := chainOf s b
  let open_ := decide (c.phase = .settle)
  if f.cmd = 4 ∧ !(open_ && decide (f.num 0 1 = c.sweepId.toNat)) then
    chMod b (fun c => { c with
      phase := .settle, sweepId := BitVec.ofNat 8 (f.num 0 1), startAt := ticksNow s, latchStroke := s.clk.stroke,
      latchTick := s.clk.tick, data := List.replicate 32 none, gapNow := none, single := false, whole := false,
      askedLo := none, askedHi := false, balLoAt := none }) s
  else if f.cmd = 5 ∧ open_ then
    chMod b (fun c => if e = .hi then { c with askedHi := true } else { c with askedLo := some f.addr }) s
  else if f.cmd = 0x85 ∧ open_ ∧ f.num 0 1 = c.sweepId.toNat ∧ f.addr < 32 then
    chMod b (fun c => { c with data := c.data.set f.addr (some f.mon), single := c.single || decide (e = .hi) }) s
  else if f.cmd = 0x87 ∧ f.addr < 32 then
    chMod b (fun c => { c with serials := c.serials.set f.addr (some (BitVec.ofNat 64 (f.num 0 8))) }) s
  else if f.cmd = 6 ∧ open_ then
    if e = .lo then chMod b (fun c => { c with balLoAt := some (ticksNow s) }) s
    else sweepDone b (chMod b (fun c => { c with balPhase := c.sweepId.getLsbD 0, gapNow := gapHeard c, whole := balRound s c }) s)
  else s

/-! ### Events of a chain -/

/-- CHAIN_FRAME_RECEIVED (R399): bytes 2 to the end of a frame. Idle while the chain function neither runs nor starts. -/
def execChainFrameReceived (c : ChainSel) (e : ChainEnd) (bytes : List Byte) (s : State) : Out :=
  let b := chainB? c
  if !fnRunning s (chainFn b) && !chStarting s b then .next s
  else match (if chainDrifts s then none else chainFrame bytes) with
    | none => .next (chDiscard b e s)
    | some f => if chTransmits s b then .next (chMaster b e f s) else .next (chListen b e f s)

/-- CHAIN_SETTLE_WAIT_END (R405 step 2): readout begins. Idle unless the module's own sweep settles. -/
def execChainSettleWaitEnd (c : ChainSel) (s : State) : Out :=
  let b := chainB? c
  if chTransmits s b ∧ (chainOf s b).phase = .settle then .next (readBegin b s) else .next s

/-- READ_CELLS_TIMEOUT (R408): no reply within 26 µs, to READ_CELLS or READ_ID. Idle unless one is awaited. -/
def execReadCellsTimeout (c : ChainSel) (s : State) : Out :=
  let b := chainB? c
  if !chTransmits s b then .next s
  else match (chainOf s b).phase with
  | .reading pos e second => .next (readFail b pos e second s)
  | .readId pos e second => .next (readIdFail b pos e second s)
  | _ => .next s

/-- BAL_SET_HI_TIMEOUT (R413, R419): BAL_SET is sent again from HI. Idle unless its arrival is awaited. -/
def execBalSetHiTimeout (c : ChainSel) (s : State) : Out :=
  let b := chainB? c
  if !chTransmits s b then .next s
  else match (chainOf s b).phase with
  | .balLo => .next (sweepDone b (balSend b .hi (chainOf s b).balSent s))
  | .stopBal => .next (chStopped b (balSend b .hi 0 s))
  | _ => .next s

/-- ENUM_HI_TIMEOUT (R403): ENUM or CONFIG has not arrived at HI and is sent from there. Idle unless its arrival is awaited. -/
def execEnumHiTimeout (c : ChainSel) (s : State) : Out :=
  let b := chainB? c
  if !chTransmits s b then .next s
  else match (chainOf s b).phase with
  | .enumLo =>
    .next (configStep b (chSend b .hi 2 0x3F [BitVec.ofInt 8 ((chainOf s b).cfg.nMon - 1), 1] s))
  | .configLo => .next (readIdSend b 0 .lo false (configSend b .hi s))
  | _ => .next s

/-- BALANCE_HOLD_EXPIRED (R411): the mask clears, with record 0x0709. Idle without a hold. -/
def execBalanceHoldExpired (c : ChainSel) (s : State) : Out :=
  let b := chainB? c
  if (chainOf s b).holdS = 0 then .next s
  else .next (chRecord b 0 0x0709 0 (chMod b (fun c => { c with bal := 0, holdS := 0 }) s))

/-! ### START, STOP, the grant and faults (R417 to R420) -/

/-- T_SWEEP_MAX in µs (R410). -/
def tSweepMax (c : ChainCfg) : Nat := 328 + c.settleUs + (c.avgN + 1) * 10 + c.nMon * 264 + 500

/-- The checks of a chain's START before its bring-up (R418). -/
def chainStartBad (s : State) (b : Bool) : Option Answer :=
  let c := (chainOf s b).cfg
  let g := if b then 5 else 4
  firstErr
    [if gateOn s g then none else some (errR .state (0x80 + g)),
     (firstOf
       [(decide (c.nMon = 0 ∨ 32 < c.nMon), 1), (decide (c.avgN * 10000 % sampleNs s ≠ 0), 2),
        (decide (c.quietUs < c.settleUs + c.avgN * 10), 3),
        (decide (c.sweepPeriod * s.clk.strokeDiv < 100 * tSweepMax c), 4),
        (!(decide (c.vLo < c.vHi) && decide (c.tLo < c.tHi)), 6)]).map (errR .range)]

/-- START: with the grant it ends with the bring-up; without it the function listens (R418). What a sweep that has completed still owes
the next boundary stands. -/
def chainStart (b : Bool) (s : State) : State × Answer :=
  let s := chMod b (fun c => { c with phase := .idle, broughtUp := false }) s
  if s.pair.gnt then (bringUp b s, .later (.funcStart (chainFn b)))
  else (fnSet (chainFn b) .running 0 (chMod b chainFresh s), okR [])

/-- STOP (R419). -/
def chainStopCmd (b : Bool) (s : State) : State × Answer :=
  if s.pair.gnt then
    (chPhase b .stopBal (balSend b .lo 0 s), .later (.funcStop (chainFn b)))
  else (fnSet (chainFn b) .stopped 0 (chPhase b .idle s), okR [])

/-- The grant has fallen (R397, R417): the frame in progress is cut and the sweep abandoned; START and STOP go on as those of
a module without the grant. -/
def chainGrantLost (b : Bool) (s : State) : State :=
  let f := chainFn b
  let stop := decide ((chainOf s b).phase = .stopBal)
  let s := chMod b (fun c => { c with phase := .idle, broughtUp := false }) s
  if chStarting s b then answer (.funcStart f) .ok 0 [] (fnSet f .running 0 (chMod b chainFresh s))
  else if stop then chStopped b s
  else s

/-- The grant has risen (R417): bring-up before the first sweep. -/
def chainGrantRise (b : Bool) (s : State) : State := if fnRunning s (chainFn b) then bringUp b s else s

/-- A chain function that is STOPPED, also in its bring-up, or RUNNING goes FAULTED (R68, R420): nothing is sent or written any more,
and a START or STOP in progress answers E_FAULT. -/
def chainFault (b : Bool) (cause : Nat) (s : State) : State :=
  let f := chainFn b
  if fnRunning s f || decide (fnState s f = .stopped) then
    answer (.funcStart f) .fault f [] (answer (.funcStop f) .fault f [] (fnFault f cause
      (chMod b (fun c => { c with phase := .idle, broughtUp := false, complete := false }) s)))
  else s

/-! ### The boundary: results and the next sweep (R404, R414 to R416) -/

/-- Cells of a position that lie outside their limits, with their codes. -/
def cellsOut (c : Sweep) (m : Nat) : List (Nat × BitVec 16) :=
  match c.data.getD m none with
  | none => []
  | some d => ((List.range 16).map fun i => (16 * m + i, d.cells.getD i 0x8000)).filter fun p =>
      (c.cfg.cellUse.getD m 0).getLsbD (p.1 % 16) && (decide (c.cfg.vHi < p.2.toInt) || decide (p.2.toInt < c.cfg.vLo))

/-- Temperature inputs of a position that lie outside their limits, with their values; input 4 is DIE_T. -/
def tempsOut (c : Sweep) (m : Nat) : List (Nat × BitVec 16) :=
  match c.data.getD m none with
  | none => []
  | some d => ((List.range 5).zip (d.temps ++ [d.dieT])).filter fun p =>
      decide (p.2 ≠ 0x8000) && (decide (c.cfg.tHi < p.2.toInt) || decide (p.2.toInt < c.cfg.tLo))

/-- Positions of the chain that satisfy a predicate. -/
def monsWith (c : Sweep) (p : Nat → Bool) : List Nat := (List.range c.cfg.nMon).filter p

/-- The three words of a position (R415). -/
def posWords (c : Sweep) (m : Nat) : List Word :=
  if c.cfg.nMon ≤ m then [0, 0, 0]
  else match c.data.getD m none with
    | none => [0x80008000, 0x80008000, 0x00008000]
    | some d =>
      let t (i : Nat) : Nat := (d.temps.getD i 0x8000).toNat
      [packW [(t 1, 16), (t 0, 0)], packW [(t 3, 16), (t 2, 0)], packW [(d.status.toNat, 16), (d.dieT.toNat, 0)]]

/-- The ring was not whole during the sweep. -/
def Sweep.split (c : Sweep) : Bool := c.gap.isSome || !c.whole

/-- Word 3 of the sweep record. -/
def sweepWord3 (c : Sweep) : Word :=
  packW [(c.cfg.nMon, 24), ((absentOf c).length, 16), (c.gap.getD 0xFF, 8), (b2n c.balPhase, 4),
    (b2n ((monsWith c fun m => !(tempsOut c m).isEmpty) ≠ []), 3), (b2n ((monsWith c fun m => !(cellsOut c m).isEmpty) ≠ []), 2),
    (b2n c.split, 1), (b2n c.single, 0)]

/-- The sweep record of R415 for a completion at the boundary of stroke `k`. -/
def sweepRecord (c : Sweep) (k : Nat) : List Word :=
  [lo32 c.latchStroke.toNat, hi32 c.latchStroke.toNat, packW [(c.id.toNat, 24), (c.latchTick, 0)], sweepWord3 c,
   bitsOf (absentOf c), bitsOf (monsWith c fun m => !(cellsOut c m).isEmpty),
   bitsOf (monsWith c fun m => !(tempsOut c m).isEmpty), w32 c.cfg.avgN, lo32 k] ++ List.replicate 7 0 ++
  (List.range 32).flatMap (posWords c)

/-- The bucket's sample: 512 codes (R414). -/
def sweepSample (c : Sweep) : List Byte :=
  (List.range 512).flatMap fun i =>
    let m := i / 16
    let v : BitVec 16 := if (c.cfg.cellUse.getD m 0).getLsbD (i % 16) ∧ m < c.cfg.nMon then
        (match c.data.getD m none with
        | some d => d.cells.getD (i % 16) 0x8000
        | none => 0x8000) else 0x8000
    natBytes 2 v.toNat

/-- At most one record of a kind for a position in any 1,024 strokes (R416). -/
def recDue (s : State) (l : List (Option Stroke)) (m : Nat) : Bool :=
  match l.getD m none with
  | some k => decide (1024 ≤ now s - k.toNat)
  | none => true

/-- The limit records of one position. -/
def limitRecords (b : Bool) (x : Sweep) (s : State) (m : Nat) : State :=
  let s := match cellsOut x m with
    | p :: _ => if recDue s (chainOf s b).cellRec m then
        chRecord b 2 0x0705 (p.1 + p.2.toNat * 65536) (chMod b (fun c => { c with cellRec := c.cellRec.set m (some s.clk.stroke) }) s)
      else s
    | [] => s
  match tempsOut x m with
  | p :: _ => if recDue s (chainOf s b).tempRec m then
      chRecord b 2 0x0706 (m * 256 + p.1 + p.2.toNat * 65536)
        (chMod b (fun c => { c with tempRec := c.tempRec.set m (some s.clk.stroke) }) s)
    else s
  | [] => s

/-- Records of gaps and of absent monitors; a listener writes none for absence, and what it missed is no absence (R417). -/
def gapRecords (b : Bool) (x : Sweep) (s : State) : State :=
  let s := match x.gap with
    | some g => if x.gapWas ≠ some g then chRecord b 1 0x0701 g s else s
    | none => s
  if !x.sent then s
  else
    let one (a : State) (m : Nat) : State :=
      let gone := (absentOf x).contains m
      let was := (chainOf s b).absentWas.getLsbD m
      if gone && !was then chRecord b 1 0x0703 m a else if was && !gone then chRecord b 0 0x0704 m a else a
    chMod b (fun c => { c with absentWas := bitsOf (absentOf x) }) ((List.range x.cfg.nMon).foldl one s)

/-- Address of a chain's sweep record. -/
def aSweep (b : Bool) : Nat := aPublished + (if b then 0x3800 else 0x3000)

/-- A completed sweep is published at the boundary of stroke `k` (R414 to R416, R420). -/
def sweepPublish (b : Bool) (k : Nat) (x : Sweep) (s : State) : State :=
  let s := bucketPut (if b then 0x51 else 0x50) (some (sweepSample x)) none s
  let s := publish k (aSweep b) 448 (sweepRecord x k) s
  let s := (List.range x.cfg.nMon).foldl (limitRecords b x) (gapRecords b x s)
  let loss := if (absentOf x).length = x.cfg.nMon then (chainOf s b).lossRun + 1 else 0
  let s := chMod b (fun c => { c with
    complete := false, shown := some x, lossRun := loss, lastDone := BitVec.ofNat 64 k }) s
  let s := lifeSweep b s
  if fnRunning s (chainFn b) ∧ x.cfg.chainLoss ≤ loss then chainFault b 0x0701 s else s

/-- What a completed sweep owes the boundary of stroke `k`; a FAULTED chain writes nothing (R420). -/
def sweepResults (b : Bool) (k : Nat) (s : State) : State :=
  match (chainOf s b).last with
  | some x => if (chainOf s b).complete && !fnFaulted s (chainFn b) then sweepPublish b k x s else s
  | none => s

/-- A sweep starts at the boundary of stroke `k`: SAMPLE from both ends, whose 36 µs end at the latch (R404, R405). -/
def sweepStart (b : Bool) (k : Nat) (s : State) : State :=
  let id := (chainOf s b).sweepId + 1
  let s := chMod b (fun c => { c with
    phase := .settle, sweepId := id, startAt := ticksNow s,
    latchStroke := BitVec.ofNat 64 (k + 3600 / s.clk.strokeDiv), latchTick := 3600 % s.clk.strokeDiv,
    data := List.replicate 32 none, gapNow := none, single := false, whole := false }) s
  let p := [BitVec.ofNat 8 id.toNat, 1]
  chSend b .hi 4 0x3F p (chSend b .lo 4 0x3F p s)

/-- A boundary at which a sweep cannot start, because the previous one has not completed, is counted (R404, R426). -/
def sweepLate (b : Bool) (s : State) : State :=
  let s := chMod b (fun c => { c with late := satAdd 65535 c.late 1 }) s
  let c := chainOf s b
  let due := match c.lateRec with
    | some k => decide (1024 ≤ now s - k.toNat)
    | none => true
  if due then chRecord b 1 0x0707 c.late (chMod b (fun c => { c with lateRec := some s.clk.stroke }) s) else s

/-- What a chain does at the boundary at which stroke `k` begins. -/
def chainBoundary (b : Bool) (k : Nat) (s : State) : State :=
  let s := sweepResults b k s
  let c := chainOf s b
  if fnRunning s (chainFn b) && s.pair.gnt && c.broughtUp && decide (k % c.cfg.sweepPeriod = 0) &&
      decide (c.phase ≠ .stopBal) then
    if c.phase = .idle then sweepStart b k s else sweepLate b s
  else s

/-! ### Commands (R421 to R425) -/

/-- The chain that bit 0 of word 2 names. -/
def reqChain (r : Req) : Bool := bit (r.w 2) 0

/-- The fields of CHAIN_CONFIG. -/
def chainConfigBad (r : Req) : Option Answer :=
  rangeBad
    [(decide (fld (r.w 2) 16 16 = 0) || decide (fld (r.w 2) 8 8 = 0) || decide (32 < fld (r.w 2) 1 6), 2),
     (decide (10000 < fld (r.w 3) 16 16) || decide (fld (r.w 3) 11 5 ≠ 0) || decide (fld (r.w 3) 0 11 = 0) ||
      decide (1024 < fld (r.w 3) 0 11), 3),
     (decide (fld (r.w 4) 16 16 ≠ 0), 4)]

/-- The configuration that CHAIN_CONFIG carries. -/
def chainCfgOf (r : Req) : ChainCfg :=
  let half (i : Nat) : BitVec 16 := BitVec.ofNat 16 (fld (r.w (7 + i / 2)) (16 * (i % 2)) 16)
  { sweepPeriod := fld (r.w 2) 16 16, chainLoss := fld (r.w 2) 8 8, balEst := bit (r.w 2) 7, nMon := fld (r.w 2) 1 6,
    settleUs := fld (r.w 3) 16 16, avgN := fld (r.w 3) 0 11, quietUs := fld (r.w 4) 0 16,
    vHi := s16 (fld (r.w 5) 16 16), vLo := s16 (fld (r.w 5) 0 16), tHi := s16 (fld (r.w 6) 16 16),
    tLo := s16 (fld (r.w 6) 0 16), cellUse := (List.range 32).map half }

/-- CHAIN_CONFIG (R421). -/
def execChainConfig (r : Req) : State → Out :=
  mailbox { op := 0x0701, onMb := mbHigh, lenOk := (· = 21), acts := [chainFn (reqChain r)] } r fun s =>
    guardE (firstErr [cfgBad s (chainFn (reqChain r)), chainConfigBad r]) s fun s =>
      (chMod (reqChain r) (fun c => { c with cfg := chainCfgOf r }) s, okR [])

/-- The checks of CHAIN_BAL (R422). -/
def chainBalBad (s : State) (r : Req) : Option Answer :=
  let c := (chainOf s (reqChain r)).cfg
  let stray (w : Nat) : Bool := (List.range 32).any fun j =>
    let i := 32 * w + j
    bit (r.w (3 + w)) j && !((c.cellUse.getD (i / 16) 0).getLsbD (i % 16) && decide (i / 16 < c.nMon))
  firstErr
    [runBad s (chainFn (reqChain r)), if c.balEst then some (errR .state 1) else none,
     rangeBad ([(decide (fld (r.w 2) 1 15 ≠ 0) || decide (3600 < fld (r.w 2) 16 16), 2)] ++
       (List.range 16).map fun w => (stray w, 3 + w))]

/-- CHAIN_BAL (R422). -/
def execChainBal (r : Req) : State → Out :=
  mailbox { op := 0x0702, onMb := mbHigh, lenOk := (· = 17), acts := [chainFn (reqChain r)] } r fun s =>
    guardE (chainBalBad s r) s fun s =>
      (chMod (reqChain r) (fun c => { c with
        bal := mask512 (fit 16 0 (r.payload.drop 1)), holdS := fld (r.w 2) 16 16, holdFrom := ticksNow s }) s, okR [])

/-- Seconds of hold that are left. -/
def holdLeftS (s : State) (c : Chain) : Nat :=
  (c.holdS * 100000000 - (ticksNow s - c.holdFrom) + 99999999) / 100000000

/-- The response of CHAIN_QUERY (R423). -/
def chainWords (s : State) (b : Bool) : List Word :=
  let c := chainOf s b
  let f := chainFn b
  let last (g : Sweep → Nat) : Nat := (c.last.map g).getD 0
  [packW [(last (·.id.toNat), 24), (c.gapAt.getD 0xFF, 16), (min 63 c.nFound, 10), (b2n (chTransmits s b), 9),
     (last (fun x => b2n x.split), 8), (b2n (match c.phase with
       | .settle => true
       | .reading _ _ _ => true
       | .balLo => true
       | _ => false), 7), (last (fun x => b2n x.balPhase), 6), ((fnState s f).num, 0)],
   w32 (last fun x => (bitsOf (absentOf x)).toNat), lo32 (last (·.latchStroke.toNat)), hi32 (last (·.latchStroke.toNat)), c.sweeps,
   packW [(c.late, 16), (c.failovers, 0)],
   w32 c.crcErr, w32 c.timeouts, packW [(holdLeftS s c, 16), (popcount (balRequest s b), 0)], w32 c.sweepUs]

/-- CHAIN_QUERY (R423). -/
def execChainQuery (r : Req) : State → Out :=
  mailbox { op := 0x0703, onMb := mbHigh, lenOk := (· = 1) } r (asks fun s =>
    if fld (r.w 2) 1 31 ≠ 0 then errR .range 2 else okR (chainWords s (reqChain r)))

/-- Eleven words of a position in CHAIN_READ (R424); an absent monitor's cells read 0x8000. -/
def chainPos (c : Sweep) (m : Nat) : List Word :=
  let v (i : Nat) : Nat :=
    if (c.cfg.cellUse.getD m 0).getLsbD i ∧ m < c.cfg.nMon then
      (match c.data.getD m none with
      | some d => (d.cells.getD i 0x8000).toNat
      | none => 0x8000) else 0x8000
  ((List.range 8).map fun j => packW [(v (2 * j + 1), 16), (v (2 * j), 0)]) ++ posWords c m

/-- CHAIN_READ (R424). -/
def execChainRead (r : Req) : State → Out :=
  mailbox { op := 0x0704, onMb := mbHigh, lenOk := (· = 1) } r (asks fun s =>
    let n := fld (r.w 2) 16 6
    let m := fld (r.w 2) 8 5
    if r.w 2 &&& 0xFFC0E0FE ≠ 0 ∨ n = 0 ∨ 32 < n then errR .range 2
    else match (chainOf s (reqChain r)).last with
      | none => errR .state 1
      | some c =>
        if 32 < m + n then errR .badLen 1
        else okR ([lo32 c.latchStroke.toNat, hi32 c.latchStroke.toNat, sweepWord3 c] ++
          (List.range n).flatMap fun i => chainPos c (m + i)))

/-- CHAIN_ID (R425). -/
def execChainId (r : Req) : State → Out :=
  mailbox { op := 0x0705, onMb := mbHigh, lenOk := (· = 1) } r (asks fun s =>
    if fld (r.w 2) 1 31 ≠ 0 then errR .range 2
    else okR ((chainOf s (reqChain r)).serials.flatMap fun x =>
      let v := (x.getD 0).toNat
      [lo32 v, hi32 v]))

end Sys2Proof.Machine
end

