-- ==== Sys2Proof/Machine/Ledger.lean ====
section
/-! DEFINITION. The ledger: conversions and stroke sums, the table of cells, tags and the stroke record (R222 to R227, R479 to
R487), and its commands (R494 to R498). -/

namespace Sys2Proof.Machine

/-- Changes the ledger's own state. -/
def ldMod (f : Ledger → Ledger) (s : State) : State := { s with ledger := f s.ledger }

/-! ### Reserved jobs (R479) -/

def jUNTAGGED : Word := 0x00000000
def jGAP : Word := 0xFFFFFFFF
def jTOTAL : Word := 0xFFFFFFFE

/-- A reserved identifier. -/
def isReserved (j : Word) : Bool := decide (j = jUNTAGGED ∨ j = jGAP ∨ j = jTOTAL)

/-- The module is the standby of a running pair (R486). -/
def isStandby (s : State) : Bool := fnLive s fPAIR && !s.pair.active

/-! ### Conversions (R224 to R226) -/

/-- R224: one output's sums with one conversion added. -/
def outAdd (w : Nat) (v i : Int) (ovr : Bool) (x : OutSum) : OutSum :=
  { vi := x.vi + v * i * w, v := x.v + v * w, i := x.i + i * w, w := x.w + w, ovr := x.ovr || ovr }

/-- LEDGER_CONVERSION (R224 to R226): the conversion at the next of the ticks 0, 100, 200 … of the stroke; none is left once
they have covered the stroke. Over-range conversions are counted (R44, R576). -/
def execLedgerConversion (vbus : BitVec 16) (iout : List (BitVec 16)) (overRange : List Bool) (vbusOver : Bool)
    (s : State) : Out :=
  if !loopClock s || decide (s.clk.strokeDiv ≤ s.ledger.convTick) then .next s
  else
    let w := min 100 (s.clk.strokeDiv - s.ledger.convTick)
    let full (beyond : Bool) (c : BitVec 16) : Int := if beyond then (if c.toInt < 0 then -32768 else 32767) else c.toInt
    let sums := s.ledger.sums.mapIdx fun n x =>
      outAdd w (full vbusOver vbus) (full (overRange.getD n false) (iout.getD n 0)) (overRange.getD n false || vbusOver) x
    let oc := (List.range 24).foldl (fun l n => if overRange.getD n false then bump l n 1 else l) s.diag.overRange
    let oc := if vbusOver then bump oc 25 1 else oc
    .next { ldMod (fun x => { x with sums := sums, convTick := x.convTick + 100 }) s with
            diag := { s.diag with overRange := oc } }

/-! ### Cells (R481, R222, R223) -/

/-- R223: an integer of 96 bits, modulo 2^96. -/
def int96 (v : Int) : Int := (BitVec.ofInt 96 v).toInt

/-- A line with a stroke's four sums added. -/
def lineSum (x : OutSum) (l : List Int) : List Int :=
  [int96 (l.getD 0 0 + x.vi), int96 (l.getD 1 0 + x.v), int96 (l.getD 2 0 + x.i), int96 (l.getD 3 0 + x.w)]

/-- R481: a stroke is added to a cell, on line N or, under spread, on line S. -/
def cellAdd (spread : Bool) (x : OutSum) (c : LCell) : LCell :=
  let c := if spread then { c with lineS := lineSum x c.lineS, hasS := true } else { c with lineN := lineSum x c.lineN }
  { c with strokes := satAdd (2 ^ 32 - 1) c.strokes 1, ovr := satAdd (2 ^ 32 - 1) c.ovr (b2n x.ovr) }

/-- The cell of a job and an output is this one. -/
def LCell.of (job : Word) (out : Nat) (c : LCell) : Bool := decide (c.job = job) && decide (c.out = out)

/-- A cell of the table. -/
def lcell (s : State) (job : Word) (out : Nat) : Option LCell := s.ledger.cells.find? (·.of job out)

/-- A stroke's sums of one output are added to a job's cell. -/
def jobAdd (spread : Bool) (job : Word) (out : Nat) (x : OutSum) (cells : List LCell) : List LCell :=
  cells.map fun c => if c.of job out then cellAdd spread x c else c

/-- R483: SSC_S is recorded for a job when its first stroke of line S is added. -/
def sscNote (job : Word) (ppm : Nat) (l : List (Word × Nat)) : List (Word × Nat) :=
  if l.any fun p => p.1 = job then l else l ++ [(job, ppm)]

/-- R480 to R482: a stroke's sums are added to a job of each output and to TOTAL, under spread with the SSC_PPM in force. -/
def strokeAdd (jobs : List Word) (sums : List OutSum) (ssc : Option Nat) (s : State) : State :=
  let spread := ssc.isSome
  let ppm := ssc.getD 0
  (List.range 24).foldl (fun t n =>
    let x := sums.getD n {}
    let j := jobs.getD n jUNTAGGED
    ldMod (fun l => { l with
      cells := jobAdd spread jTOTAL n x (jobAdd spread j n x l.cells),
      sscS := if spread then sscNote jTOTAL ppm (sscNote j ppm l.sscS) else l.sscS }) t) s

/-! ### FUNC_ON, START, FAULTED (R479, R482, R487) -/

/-- The 72 cells of the reserved jobs, with every integer zero. -/
def reservedCells : List LCell :=
  [jUNTAGGED, jGAP, jTOTAL].flatMap fun j => (List.range 24).map fun n => { job := j, out := n }

/-- FUNC_ON (R479, R482): an empty table, every output tagged UNTAGGED. The compute energy table is not the function's. -/
def ledgerOn (s : State) : State :=
  ldMod (fun l => { l with
    cells := reservedCells, tags := List.replicate 24 jUNTAGGED, pend := List.replicate 24 none, jobs := [], sscS := [],
    lastAdded := 0, history := [], ovrRec := List.replicate 24 none, live := .stopped }) s

/-- FUNC_OFF (R482): the table is dropped. -/
def ledgerOff (s : State) : State :=
  ldMod (fun l => { l with
    cells := [], tags := List.replicate 24 jUNTAGGED, pend := List.replicate 24 none, jobs := [], sscS := [],
    history := [], live := .off }) s

/-- R487: START is refused while a job holds a line S under another SSC_PPM. -/
def ledgerStartBad (s : State) : Option Answer :=
  if s.ledger.sscS.any (fun p => decide (p.2 ≠ s.clk.sscPpm) && s.ledger.cells.any fun c => decide (c.job = p.1) && c.hasS)
  then some (errR .state 2) else none

/-- A cell with its integers zeroed; its counts stay (R487, R496). -/
def cellZero (c : LCell) : LCell := { c with lineN := [0, 0, 0, 0], lineS := [0, 0, 0, 0], hasS := false }

/-- R192, R487: a cell as it is read: the integers of a damaged one read zero until FUNC_CLEAR has rewritten them (entry 164). -/
def cellShown (s : State) (c : LCell) : LCell := if c.damaged && fnFaulted s fLEDGER then cellZero c else c

/-- R487: FUNC_CLEAR zeroes the integers of damaged cells. -/
def ledgerClear (s : State) : State :=
  ldMod (fun l => { l with
    cells := l.cells.map fun c => if c.damaged then cellZero c else c,
    live := .stopped }) s

/-- R487, R114: LEDGER enters FAULTED; a STOP that waits answers E_FAULT. -/
def ledgerFault (cause : Nat) (s : State) : State :=
  if fnRunning s fLEDGER || decide (fnState s fLEDGER = .stopped) then
    answer (.funcStop fLEDGER) .fault fLEDGER [] (fnFault fLEDGER cause s)
  else s

/-- Where a line of the ledger table lies in the Posin region: the manual does not say, so the address in its record is free (entry 164). -/
def ledgerLine (job : Word) (out : Nat) : Nat :=
  aPosin + 64 * (Config.ledgerAddr job out % ((aDump - aPosin) / 64))

/-- R193, R487: reads of the ledger table meet uncorrectable words: record 0x0010 and the mark DAMAGED for each cell, and cause 0x0901. -/
def ledgerDamage (bad : List (Word × Nat)) (s : State) : State :=
  if bad.isEmpty ∨ fnState s fLEDGER = .off ∨ fnState s fLEDGER = .faulted then s
  else
    let s := bad.foldl (fun t x => uncorrectable fLEDGER 0xFF 6 (ledgerLine x.1 x.2) t) s
    ledgerFault 0x0901 (ldMod (fun l => { l with
      cells := l.cells.map fun c => if bad.contains (c.job, c.out) then { c with damaged := true } else c }) s)

/-! ### The stroke boundary (R480 to R487) -/

/-- R485: the stroke record's words. -/
def ledgerRecord (k : Stroke) (gap spread : Bool) (tags : List Word) (sums : List OutSum) : List Word :=
  let ovr := (List.range 24).map fun n => (b2n (sums.getD n {}).ovr, n)
  [lo32 k.toNat, hi32 k.toNat, packW ((b2n gap, 25) :: (b2n spread, 24) :: ovr)] ++ List.replicate 13 0 ++
  (List.range 24).flatMap fun n =>
    let x := sums.getD n {}
    [tags.getD n 0, i32 x.w] ++ int64 x.vi ++ int64 x.v ++ int64 x.i

/-- R485: where the stroke record stands. -/
def aLedger : Nat := 0x1800004000

/-- R499: the record of an over-range stroke, at most one per output in 1,024 strokes. -/
def overRecord (k : Stroke) (n : Nat) (job : Word) (s : State) : State :=
  let due := match s.ledger.ovrRec.getD n none with
    | some j => decide (1024 ≤ (k - j).toNat)
    | none => true
  if due then
    let ovr := ((lcell s job n).map (·.ovr)).getD 0
    emit 1 7 0x0910 [lo32 k.toNat, w32 n, w32 ovr] (ldMod (fun l => { l with ovrRec := l.ovrRec.set n (some k) }) s)
  else s

/-- R480: pending tags apply at the boundary at which stroke `k` begins. -/
def tagsApply (k : Nat) (s : State) : State :=
  let due (n : Nat) : Option Word := match s.ledger.pend.getD n none with
    | some p => if p.2.toNat ≤ k then some p.1 else none
    | none => none
  ldMod (fun l => { l with
    tags := l.tags.mapIdx fun n t => (due n).getD t
    pend := l.pend.mapIdx fun n p => if (due n).isSome then none else p }) s

/-- R482, R486: the sums of stroke `k` are added as the state says: to the tagged jobs, to GAP, or, on a standby, kept. -/
def ledgerStrokeAdd (k : Stroke) (sums : List OutSum) (spread : Bool) (s : State) : State :=
  if isStandby s then
    ldMod (fun l => { l with history := ((k, sums, spread) :: l.history).take 64 }) s
  else
    let jobs := if s.ledger.live = .running then s.ledger.tags else List.replicate 24 jGAP
    ldMod (fun l => { l with lastAdded := k }) (strokeAdd jobs sums (if spread then some s.clk.sscPpm else none) s)

/-- R516: the strokes of a standby's own sums after a mirrored stroke, oldest first. -/
def historyAfter (s : State) (m : Option Stroke) : List (Stroke × List OutSum × Bool) :=
  (s.ledger.history.filter fun h => match m with
    | some j => decide (j < h.1)
    | none => true).reverse

/-- The tags in force in stroke `k` under mirrored tags and pending tags (R516). -/
def tagsIn (s : State) (k : Stroke) : List Word :=
  s.ledger.tags.mapIdx fun n t => match s.ledger.pend.getD n none with
    | some p => if p.2 ≤ k then p.1 else t
    | none => t

/-- R516: at takeover the strokes after the newest mirrored one are added, to the jobs that the mirrored tags name or, when the
mirror lags by more than 64 strokes, to GAP with record 0x0A08; mirrored tags that have come due apply (R480). -/
def ledgerTakeover (lag : Nat) (s : State) : State :=
  if fnState s fLEDGER = .off ∨ fnState s fLEDGER = .faulted then s
  else
    let hs := historyAfter s s.pair.mirrored
    let gap := decide (64 < lag)
    let s := hs.foldl (fun t h =>
      let jobs := if gap then List.replicate 24 jGAP
        else if t.ledger.live = .running then tagsIn t h.1 else List.replicate 24 jGAP
      ldMod (fun l => { l with lastAdded := h.1 }) (strokeAdd jobs h.2.1 (if h.2.2 then some t.clk.sscPpm else none) t)) s
    let s := tagsApply (now s) (ldMod (fun l => { l with history := [] }) s)
    if gap then emit 1 6 0x0A08 [strokeLo s, packW [(1, 31), (hs.length % 65536, 0)]] s else s

/-- R481, R484, R485, R499: what LEDGER does with the sums of the stroke `k` that ends. -/
def ledgerStroke (k : Stroke) (s : State) : State :=
  let sums := s.ledger.sums
  let spread := s.clk.spreadSeen
  if fnState s fLEDGER = .faulted then ldMod (fun l => { l with lost := satAdd (2 ^ 32 - 1) l.lost 1 }) s
  else if fnState s fLEDGER = .off then s
  else
    let run := decide (s.ledger.live = .running)
    let tags := s.ledger.tags
    let s := ledgerStrokeAdd k sums spread s
    let s := publish (k.toNat + 1) aLedger 832 (ledgerRecord k (!run) spread tags sums) s
    (List.range 24).foldl (fun t n =>
      if (sums.getD n {}).ovr then overRecord k n (if run then tags.getD n 0 else jGAP) t else t) s

/-- The boundary at which stroke `k` ends: the stroke is added, or lost when a converter-control die missed its handover or a read of the table
fails (R487); START and STOP take effect; pending tags apply (R480); the sums of the next stroke start from zero. -/
def ledgerBoundary (k : Stroke) (handed : Bool) (bad : List (Word × Nat)) (s : State) : State :=
  let s := ledgerDamage bad (if handed then s else ledgerFault 0x0902 s)
  let s := ledgerStroke k s
  let s := if isStandby s then s else tagsApply (k.toNat + 1) s
  let s := match waitingMb (fun w => decide (w = .funcStop fLEDGER)) s with
    | some _ => answer (.funcStop fLEDGER) .ok 0 [] (fnSet fLEDGER .stopped 0 s)
    | none => s
  let s := ldMod (fun l => { l with
    live := fnState s fLEDGER, sums := List.replicate 24 {}, convTick := 0 }) s
  { s with clk := { s.clk with spreadSeen := spreadNow s } }

/-! ### Energy (R227, R483) -/

/-- R227: one line in µJ: each step in binary64. -/
def lineUj (kV kI tick : Rat) (oV oI : Int) (l : List Int) : Int :=
  let x : Int := 65536 * l.getD 0 0 - 256 * oI * l.getD 1 0 - 256 * oV * l.getD 2 0 + oV * oI * l.getD 3 0
  let e := rn64 (rn64 (rn64 (rn64 (rn64 (x : Rat) * kV) * kI) * tick) * mkRat 1000000 65536)
  ratRound .nearest e

/-- R483: the mean tick of line S, in seconds. -/
def tickS (ppm : Nat) : Rat := rn64 (mkRat 1 100000000 / (1 - mkRat ppm 2000000))

/-- R483: the energy of a cell: zero while a scale constant is zero. -/
def cellUj (s : State) (c : LCell) : Int :=
  let kv := f32Rat s.stage.cfg.kVbus
  let ki := f32Rat s.stage.cfg.kIout
  if kv = 0 ∨ ki = 0 then 0
  else
    let kV := rn64 (kv * s.boot.gV)
    let kI := rn64 (ki * s.boot.gI.getD c.out 1)
    let oI := s.boot.oI.getD c.out 0
    let ppm := ((s.ledger.sscS.find? fun p => p.1 = c.job).map (·.2)).getD s.clk.sscPpm
    lineUj kV kI (rn64 (mkRat 1 100000000)) s.boot.oV oI c.lineN + lineUj kV kI (tickS ppm) s.boot.oV oI c.lineS

/-- NO_SCALE (R483). -/
def noScale (s : State) : Bool := decide (f32Rat s.stage.cfg.kVbus = 0) || decide (f32Rat s.stage.cfg.kIout = 0)

/-- Three words of a 96-bit integer. -/
def int96Words (v : Int) : List Word :=
  let n := (BitVec.ofInt 96 v).toNat
  [w32 n, w32 (n / 2 ^ 32), w32 (n / 2 ^ 64)]

/-- R495: the words of one cell. -/
def lcellWords (s : State) (ints : Bool) (c : LCell) : List Word :=
  [packW [(c.out, 24), (b2n c.damaged, 2), (b2n (noScale s), 1), (b2n c.hasS, 0)], w32 c.strokes, w32 c.ovr] ++
  int64 (cellUj s c) ++ (if ints then (c.lineN ++ c.lineS).flatMap int96Words else [])

/-- The cells of a job, by rising output. -/
def jobCells (s : State) (job : Word) : List LCell :=
  (List.range 24).filterMap fun n => (lcell s job n).map (cellShown s)

/-- The response of LEDGER_READ (R495). -/
def ledgerReadWords (s : State) (job : Word) (ints : Bool) : List Word :=
  let cs := jobCells s job
  [packW [(cs.length, 24)]] ++ int64 ((cs.map (cellUj s)).foldl (· + ·) 0) ++ cs.flatMap (lcellWords s ints)

/-! ### LEDGER_TAG (R494) -/

/-- An entry of LEDGER_TAG: OUT_MASK, JOB, APPLY_AT, reserved. -/
structure TagEntry where
  mask  : Word
  job   : Word
  at_   : Word
  zero  : Word
  deriving DecidableEq, Repr, Inhabited

/-- The 16-byte entries of a descriptor. -/
def tagEntries : List Word → List TagEntry
  | m :: j :: a :: z :: t => { mask := m, job := j, at_ := a, zero := z } :: tagEntries t
  | _ => []

/-- R494: an entry's own checks, with the numbers of the words that it names. -/
def tagEntryBad (e : TagEntry) (wm wj wz : Nat) : Option Answer :=
  rangeBad [(decide (fld e.mask 24 8 ≠ 0) || decide (fld e.mask 0 24 = 0), wm), (decide (e.job = jTOTAL), wj),
            (decide (e.zero ≠ 0), wz)]

/-- The outputs of a mask. -/
def maskOuts (m : Word) : List Nat := (List.range 24).filter fun n => bit m n

/-- The host jobs and cells that entries would open, in order. -/
def tagNew (s : State) (es : List TagEntry) : List (Word × Nat) :=
  es.foldl (fun acc e => (maskOuts e.mask).foldl (fun acc n =>
    if isReserved e.job || (lcell s e.job n).isSome || acc.contains (e.job, n) then acc else acc ++ [(e.job, n)]) acc) []

/-- Host cells in use. -/
def hostCells (s : State) : Nat := (s.ledger.cells.filter fun c => !isReserved c.job).length

/-- The new host jobs among new cells. -/
def tagJobs (s : State) (new : List (Word × Nat)) : List Word :=
  (new.map (·.1)).foldl (fun acc j => if s.ledger.jobs.contains j || acc.contains j then acc else acc ++ [j]) []

/-- R494: the table's shortfall. -/
def tagShort (s : State) (es : List TagEntry) : Option Answer :=
  let new := tagNew s es
  let free := 4096 - hostCells s
  if free < new.length ∨ 1024 < s.ledger.jobs.length + (tagJobs s new).length then
    some (.now .resource 0 [w32 (new.length - free)])
  else none

/-- R480, R481: one entry is taken: its cells are reserved and its tag is pending on its outputs. -/
def tagTake (e : TagEntry) (s : State) : State :=
  let new := tagNew s [e]
  let k := BitVec.ofNat 64 (applyAt s e.at_)
  ldMod (fun l => { l with
    jobs := l.jobs ++ tagJobs s new
    cells := l.cells ++ new.map fun p => { job := p.1, out := p.2 }
    pend := l.pend.mapIdx fun n p => if bit e.mask n then some (e.job, k) else p }) s

/-- The checks of a list of entries and its effect: all of them or none. -/
def tagAll (es : List TagEntry) (bad : Option Answer) (s : State) : State × Answer :=
  guardE (firstErr [bad, tagShort s es]) s fun s =>
    let last := es.getLast?.map (·.at_)
    (es.foldl (fun t e => tagTake e t) s, okR [w32 (applyAt s (last.getD 0))])

/-- LEDGER_TAG (R494): an inline entry, or the entries of a host job descriptor (R142, R143). -/
def execLedgerTag (r : Req) (desc : HostRead) : State → Out :=
  mailbox { op := 0x0905, onMb := mbHigh, lenOk := (· = 4), acts := [fLEDGER] } r fun s =>
    guardE (firstErr [runBad s fLEDGER, if isStandby s then some (roleR s) else none,
                      rangeBad [(decide (fld (r.w 2) 1 31 ≠ 0), 2)]]) s fun s =>
      if bit (r.w 2) 0 then
        match descRead (wide (r.w 3) (r.w 4)) (r.w 5).toNat 3 desc with
        | .error a => (s, a)
        | .ok ws =>
          let es := tagEntries ws
          tagAll es (es.findSome? fun e => tagEntryBad e 3 4 5) s
      else
        let e : TagEntry := { mask := r.w 3, job := r.w 4, at_ := r.w 5, zero := 0 }
        tagAll [e] (tagEntryBad e 3 4 5) s

/-! ### LEDGER_READ, LEDGER_CLOSE, LEDGER_QUERY, JOB_ENERGY_QUERY (R495 to R498) -/

/-- A job is in the table. -/
def jobKnown (s : State) (job : Word) : Bool := s.ledger.cells.any fun c => c.job = job

/-- LEDGER_READ (R495). -/
def execLedgerRead (r : Req) : State → Out :=
  mailbox { op := 0x0906, onMb := mbHigh, lenOk := (· = 2) } r (asks fun s =>
    if fnState s fLEDGER = .off then errR .state 0
    else (rangeBad [(!jobKnown s (r.w 2), 2), (decide (fld (r.w 3) 1 31 ≠ 0), 3)]).getD
      (okR (ledgerReadWords s (r.w 2) (bit (r.w 3) 0))))

/-- The job is tagged on an output, or has a pending tag. -/
def jobTagged (s : State) (job : Word) : Bool :=
  s.ledger.tags.contains job || s.ledger.pend.any fun p => match p with
    | some q => decide (q.1 = job)
    | none => false

/-- The checks of LEDGER_CLOSE (R496). -/
def ledgerCloseBad (s : State) (job : Word) : Option Answer :=
  firstErr [runBad s fLEDGER, if isStandby s then some (roleR s) else none,
    rangeBad [(!jobKnown s job || decide (job = jTOTAL), 2)],
    if jobTagged s job then some (errR .state 1) else none]

/-- R496: a host job's cells are freed; the integers of a reserved job are zeroed. -/
def jobClose (job : Word) (s : State) : State :=
  let s := ldMod (fun l => { l with sscS := l.sscS.filter fun p => p.1 ≠ job }) s
  if isReserved job then
    ldMod (fun l => { l with cells := l.cells.map fun c => if c.job = job then cellZero c else c }) s
  else
    ldMod (fun l => { l with
      cells := l.cells.filter fun c => c.job ≠ job
      jobs := l.jobs.filter fun j => j ≠ job }) s

/-- LEDGER_CLOSE (R496). -/
def execLedgerClose (r : Req) : State → Out :=
  mailbox { op := 0x0907, onMb := mbHigh, lenOk := (· = 1), acts := [fLEDGER] } r fun s =>
    guardE (ledgerCloseBad s (r.w 2)) s fun s =>
      let ws := ledgerReadWords s (r.w 2) true
      let s := jobClose (r.w 2) s
      ({ s with pair := { s.pair with mirrorCloses := s.pair.mirrorCloses ++ [r.w 2] } }, okR ws)

/-- LEDGER_QUERY (R497). -/
def execLedgerQuery (r : Req) : State → Out :=
  mailbox { op := 0x0908, onMb := mbHigh, lenOk := (· = 0) } r (asks fun s => okR
    ([w32 (fnState s fLEDGER).num, packW [(s.ledger.jobs.length, 16), (4096 - hostCells s, 0)], w32 s.ledger.lost,
      lo32 s.ledger.lastAdded.toNat, hi32 s.ledger.lastAdded.toNat] ++ fit 24 0 s.ledger.tags))

/-- The response of JOB_ENERGY_QUERY (R498). -/
def jobEnergyWords (s : State) (e : JobEnergy) : List Word :=
  let w6 := if e.job = 0 then packW [(min s.ledger.overflow 65535, 16), (e.aborted % 65536, 0)] else w32 e.aborted
  [lo32 e.uj, hi32 e.uj, w32 e.runs, w6, lo32 e.cycles, hi32 e.cycles]

/-- JOB_ENERGY_QUERY (R498): the read of JOB 0 clears OVERFLOW; CLEAR removes the entry. -/
def execJobEnergyQuery (r : Req) : State → Out :=
  mailbox { op := 0x0909, onMb := mbHigh, lenOk := (· = 2) } r fun s =>
    match s.ledger.energy.find? fun e => e.job = r.w 2 with
    | none => (s, errR .range 2)
    | some e =>
      if fld (r.w 3) 1 31 ≠ 0 then (s, errR .range 3)
      else
        let s' := if e.job = 0 then ldMod (fun l => { l with overflow := 0, ovfArmed := true }) s else s
        let s' := if bit (r.w 3) 0 then
          ldMod (fun l => { l with energy := l.energy.filter fun x => x.job ≠ r.w 2 }) s' else s'
        (s', okR (jobEnergyWords s e))

end Sys2Proof.Machine
end

