-- ==== Sys2Proof/Machine/Operands.lean ====
section
/-! DEFINITION. Operands of tile commands: where an address leads (R181, R237, R265), what a tile reads and writes there, and
the elements of each format (R196 to R200). -/

namespace Sys2Proof.Machine

/-! ### Addresses of a list's commands -/

/-- The area of a list whose copy 0, as the list names it, holds an address (R237). -/
def ownArea (l : Inst) (a : Nat) : Option Area :=
  l.areas.find? fun x => decide (x.base + 64 ≤ a) && decide (a < x.base + 64 + x.size)

/-- Where a tile's read of a list goes: inside an own area to the current copy (R237). -/
def readAddr (s : State) (l : Inst) (t a : Nat) : Nat :=
  let e := engineOf l.queue
  match ownArea l a with
  | some x => currentCopy s (listAddr e t x.base) x.size + (a - x.base - 64)
  | none => listAddr e t a

/-- Where a tile's write of a list goes: inside an own area to the staging copy, and for a mirrored area to its mirror as well
(R235, R237). -/
def writeAddrs (s : State) (l : Inst) (t a : Nat) : List Nat :=
  let e := engineOf l.queue
  match ownArea l a with
  | some x =>
    let at_ (b : Nat) : Nat := stagingCopy s b x.size + (a - x.base - 64)
    let b := listAddr e t x.base
    if x.mirror then [at_ b, at_ (mirrorBase b)] else [at_ b]
  | none => [listAddr e t a]

/-- Reads bytes as a command of a list names them. -/
def opRead (s : State) (l : Inst) (t a n : Nat) : List Byte := memRead s (readAddr s l t a) n

/-- The address lies in the local SRAM of some tile. -/
def isLocal (a : Nat) : Bool := match regionOf a with
  | .tileLocal _ => true
  | .selfLocal => true
  | _ => false

/-- R265: the die-B member of a pair computes writes to the well and does not carry them out. -/
def carriesOut (t a : Nat) : Bool := !(tileFixed t && decide (24 ≤ t) && inWell a)

/-- The bytes that a write folds into a member's CRC: the address as six bytes, then the data (R266). -/
def crcFold (c : BitVec 64) (bs : List Byte) : BitVec 64 :=
  bs.foldl (fun c b => crcBits 0xC96C5795D7870F42 8 (c ^^^ b.setWidth 64)) c

/-- One write of a command (R185): its bytes land, and outside local SRAM they enter the CRC of a fixed tile. -/
def opWrite (l : Inst) (t a : Nat) (bs : List Byte) (s : State) : State :=
  let s := (writeAddrs (seeAs (.tile t) s) l t a).foldl
    (fun u d => if carriesOut t d && !bs.isEmpty then devWrite (.tile t) d bs u else u) s
  if tileFixed t && !isLocal a then
    { s with tiles := s.tiles.modify t fun x => { x with crc := crcFold x.crc (natBytes 6 a ++ bs) } }
  else s

/-- The writes of a command, in order. -/
def opWrites (l : Inst) (t : Nat) (ws : List (Nat × List Byte)) (s : State) : State :=
  ws.foldl (fun u w => opWrite l t w.1 w.2 u) s

/-! ### What a command reads -/

/-- The ranges that a command reads, as it names them: first address and bytes. STORE reads its rows from local SRAM, and
GEMM with ACC reads C. -/
def cmdReads (e : Line) : List (Nat × Nat) :=
  let rs := cmdRanges e
  if opcOf e = 0x02 then (rs.filter fun r => r.unit).map fun r => (r.addr, r.bytes)
  else
    (rs.filter fun r => !r.write || (decide (opcOf e = 3) && decide (r.word = 5) && bit (e.getD 0 0) 11)).map
      fun r => (r.addr, r.bytes)

/-- The first uncorrectable word that a command meets in what it reads (R193). -/
def cmdDamage (s : State) (l : Inst) (t : Nat) (e : Line) : Option Nat :=
  (cmdReads e).findSome? fun r => damagedIn s (readAddr s l t r.1) r.2

/-- The ranges that a command writes, as it names them. -/
def cmdWrites (e : Line) : List (Nat × Nat) :=
  ((cmdRanges e).filter fun r => r.write && !(decide (opcOf e = 0x02) && r.unit)).map fun r => (r.addr, r.bytes)

/-- R477: the activity counts of a command on a tile: `M · N · K` MAC operations in the format of A for GEMM, a vector operation for each
element of VEC, REDUCE, BRACKET and LEDGER, a scan step for each element of SCAN, and the bytes that it reads and writes (entry 9, DESIGN
CHOICE: the manual does not say how it counts them). -/
def cmdActivity (s : State) (l : Inst) (t : Nat) (e : Line) : List Nat :=
  let w0 := e.getD 0 0
  let op := opcOf e
  let n := fld (e.getD 9 0) 0 25
  let macs := if op = 0x03 then fld (e.getD 7 0) 0 16 * fld (e.getD 7 0) 16 16 * fld (e.getD 8 0) 0 24 else 0
  let vec := if op = 0x05 ∨ op = 0x07 then n else if op = 0x06 then n * fld (e.getD 10 0) 0 16
    else if op = 0x08 then fld (e.getD 3 0) 0 24 else 0
  let scan := if op = 0x04 then n * fld (e.getD 10 0) 0 16 else 0
  let moved := (cmdReads e).map (fun r => (readAddr s l t r.1, r.2)) ++
    (cmdWrites e).flatMap fun r => (writeAddrs s l t r.1).map fun a => (a, r.2)
  let bytes (p : Nat → Bool) : Nat := ((moved.filter fun r => p r.1).map (·.2)).sum
  ((List.range 16).map fun f => if f = fld w0 20 4 then macs else 0) ++
    [vec, scan, bytes isLocal, bytes (fun a => !isLocal a && !inWell a), bytes inWell]

/-- Bytes that a command reads from the well (R576). -/
def cmdWellBytes (s : State) (l : Inst) (t : Nat) (e : Line) : Nat :=
  ((cmdReads e).filter fun r => inWell (readAddr s l t r.1)).foldl (fun n r => n + r.2) 0

/-! ### Elements (R196 to R200, R204) -/

/-- Bytes of one element of a format of whole bytes. -/
def elemSize (f : Nat) : Nat := fmtBytes f 1

/-- The floating-point format of a code. -/
def fmtOf : Nat → Fmt
  | 0x1 => bf16
  | 0x2 => fp16
  | 0x3 => e4m3
  | 0x4 => e5m2
  | 0x5 => e4m3
  | 0x6 => e5m2
  | 0x7 => e2m1
  | _ => fp32

/-- A byte or a nibble read as two's complement. -/
def sInt (bits n : Nat) : Int := if n < 2 ^ (bits - 1) then n else (n : Int) - 2 ^ bits

/-- The exact value of a code of a format: an element of a MAC array or of the vector unit. -/
def elemVal (f code : Nat) : FVal :=
  if f = 8 then ofRat (sInt 8 code) else if f = 9 then ofRat (sInt 4 code)
  else if f = 10 then ofRat (sInt 32 code) else (fmtOf f).dec code

/-- The codes of `n` elements that lie in bytes; 4-bit elements lie two to a byte, the first in the low half (R199). -/
def codesOf (f n : Nat) (bs : List Byte) : List Nat :=
  if f = 7 ∨ f = 9 then
    (List.range n).map fun i => ((bs.getD (i / 2) 0).toNat >>> (4 * (i % 2))) % 16
  else (List.range n).map fun i => leNat ((bs.drop (i * elemSize f)).take (elemSize f))

/-- An element of the vector or scan unit, converted to FP32 on load: INT32 to nearest (R200, R250). -/
def loadElem (f code : Nat) : Word := rn32 (elemVal f code)

/-- An exact value written in a format of the vector or scan unit (R204, R205). -/
def storeVal (f : Nat) (m : RMode) (sat : Bool) (v : FVal) : List Byte × Flg :=
  if f = 8 then let r := fToInt m 8 v; (natBytes 1 (BitVec.ofInt 8 r.1).toNat, r.2)
  else if f = 10 then let r := fToInt m 32 v; (wordBytes (i32 r.1), r.2)
  else let r := (fmtOf f).enc m sat v; (natBytes (elemSize f) r.1, r.2)

/-- R204: a result in FP32 with the flags of its last rounding, written in a format. With SAT = 1 an infinity that this rounding made is
the largest finite value of the target; an infinity that an operand brought stays one. -/
def storeElem (f : Nat) (sat : Bool) (r : Word × Flg) : List Byte × Flg :=
  if sat && (f32 r.1).isInf && decide (r.2 &&& fOVF ≠ 0) && decide (f ≠ 8 ∧ f ≠ 10)
  then (natBytes (elemSize f) ((fmtOf f).over true (f32 r.1).neg?).1, fOVF)
  else storeVal f .nearest sat (f32 r.1)

/-- `n` elements from an address, as FP32 words. -/
def loadVec (s : State) (l : Inst) (t f a n : Nat) : List Word :=
  (codesOf f n (opRead s l t a (fmtBytes f n))).map (loadElem f)

/-- Results as bytes of a format, with the flags of the writing. -/
def storeVec (f : Nat) (sat : Bool) (rs : List (Word × Flg)) : List Byte × Flg :=
  let os := rs.map (storeElem f sat)
  ((valsOf os).flatten, flagsOf os)

/-- Bracketed elements from bytes: bracketed BF16 or bracketed FP32. -/
def loadBr (s : State) (l : Inst) (t f a n : Nat) : List Br :=
  let ws := wordsOf (opRead s l t a (fmtBytes f n))
  if f = 11 then ws.map brOfBf16
  else (List.range n).map fun i => { c := ws.getD (2 * i) 0, g := ws.getD (2 * i + 1) 0 }

/-- One bracket written in a format: bracketed BF16, bracketed FP32 or BW32 (R220). -/
def storeBr (f : Nat) (x : Br) : List Byte × Flg :=
  if f = 11 then let r := brToBf16 x; (wordBytes r.1, r.2)
  else if f = 13 then let b := bwOfBr x; (bytesOf [b.1.c, b.1.g], b.2)
  else (bytesOf [x.c, x.g], 0)

/-- The rounding that RND of VEC names (R244). -/
def rndOf (n : Nat) : RMode := if n = 1 then .toZero else if n = 2 then .up else if n = 3 then .down else .nearest

end Sys2Proof.Machine
end

