-- ==== Sys2Proof/Machine/Units.lean ====
section
/-! DEFINITION. What the units of a tile compute: MAC array, scan unit, vector unit, reduction, bracket unit and ledger
accumulators (R202 to R223, R241 to R247). -/

namespace Sys2Proof.Machine

/-- What a command does: its writes in order, the flags it sets, the accumulators it leaves, and the states it carries on. -/
structure Eff where
  writes : List (Nat × List Byte) := []
  flags  : Flg := 0
  acc    : Option (List (BitVec 96)) := none
  /-- R207: the states that a chunk of a SCAN carries to the next one, by channel. -/
  carry  : Option (List Word) := none
  deriving DecidableEq, Repr, Inhabited

/-! ### LOAD and STORE (R241) -/

/-- Rows copied from source to destination. -/
def rowsEff (s : State) (l : Inst) (t : Nat) (e : Line) : Eff :=
  let n := fld (e.getD 5 0) 0 23
  let rows := fld (e.getD 6 0) 0 16 + 1
  if n = 0 then {} else
  { writes := (List.range rows).map fun r =>
      (addrAt e 3 + r * (e.getD 8 0).toNat, opRead s l t (addrAt e 1 + r * (e.getD 7 0).toNat) n) }

/-! ### GEMM (R198, R202 to R204, R218, R219, R242) -/

/-- A list cut into groups of 64 (R202). -/
def groups64 {α : Type} : Nat → List α → List (List α)
  | 0, _ => []
  | _, [] => []
  | n + 1, l => l.take 64 :: groups64 n (l.drop 64)

/-- An FP32 result of several roundings: the word, the flags of the last rounding, and all flags set. -/
structure Rounded where
  w    : Word
  last : Flg := 0
  all  : Flg := 0
  deriving DecidableEq, Repr, Inhabited

/-- One group of R202: the exact sum of the running accumulator and every product, rounded once. -/
def fpGroup (acc : Rounded) (ps : List (FVal × FVal)) : Rounded :=
  let ms := ps.map fun p => fMul p.1 p.2
  let sum := fSum (f32 acc.w :: valsOf ms)
  let r := toF32 .nearest sum.1
  { w := r.1, last := r.2, all := acc.all ||| flagsOf ms ||| sum.2 ||| r.2 }

/-- R202: a contraction from a starting value. -/
def fpDot (start : Word) (ps : List (FVal × FVal)) : Rounded :=
  (groups64 (ps.length / 64 + 1) ps).foldl fpGroup { w := start }

/-- One group of R203: exact, saturating, and saturated for good. -/
def intGroup (acc : Int × Bool) (ps : List (Int × Int)) : Int × Bool :=
  if acc.2 then acc
  else
    let r := satInt (-(2 ^ 31)) (2 ^ 31 - 1) (ps.foldl (fun a p => a + p.1 * p.2) acc.1)
    (r.1, decide (r.2 ≠ 0))

/-- R203: a contraction of integers. -/
def intDot (start : Int) (ps : List (Int × Int)) : Int × Flg :=
  let r := (groups64 (ps.length / 64 + 1) ps).foldl intGroup (start, false)
  (r.1, if r.2 then fSAT else 0)

/-- The exact radius that a product of brackets adds (R217, R218). -/
def brRad (x y : Br) : Rat := x.a.abs * y.r + x.r * y.a.abs + x.r * y.r

/-- One group of R218 on valid brackets: the midpoint rounded to nearest, the radius upward with the exact residual. -/
def brGroup (acc : Br × Flg) (ps : List (Br × Br)) : Br × Flg :=
  match acc.1.cls with
  | .valid =>
    let exact := ps.foldl (fun a p => a + p.1.a * p.2.a) acc.1.a
    let zero := decide (f32 acc.1.c = .zero true) && ps.all fun p =>
      decide ((fMul (f32 p.1.c) (f32 p.2.c)).1 = .zero true)
    let r := brFrom exact zero (acc.1.r + (ps.map fun p => brRad p.1 p.2).foldl (· + ·) 0)
    (r.1, acc.2 ||| r.2)
  | _ => acc

/-- R218, R219: a bracketed contraction: void with a void operand, unbounded with an unbounded one. -/
def brDot (start : Br) (ps : List (Br × Br)) : Br × Flg :=
  let ops := start :: (ps.flatMap fun p => [p.1, p.2])
  let mid := (fpDot start.c (ps.map fun p => (f32 p.1.c, f32 p.2.c))).w
  (brSpecial ops mid).getD ((groups64 (ps.length / 64 + 1) ps).foldl brGroup (start, 0))

/-- An element times its block's scale; a scale of 0xFF makes it NaN (R198). -/
def mxVal (v : FVal) (scale : Nat) : FVal := if scale = 255 then .nan else (fMul v (.num (pow2 ((scale : Int) - 127)))).1

/-- The codes of a row of a GEMM operand: its address field and leading dimension, row, elements. -/
def gemmCodes (s : State) (l : Inst) (t : Nat) (e : Line) (j ld f r k : Nat) : List Nat :=
  codesOf f k (opRead s l t (addrAt e j + r * (e.getD ld 0).toNat) (fmtBytes f k))

/-- A row as exact values, with MX scales applied. -/
def gemmRow (s : State) (l : Inst) (t : Nat) (e : Line) (j ld sc f r k : Nat) : List FVal :=
  let vs := (gemmCodes s l t e j ld f r k).map (elemVal f)
  if mxFmt f then
    let ss := opRead s l t (addrAt e sc + r * mxBlocks k) (mxBlocks k)
    vs.mapIdx fun i v => mxVal v (ss.getD (i / 32) 0).toNat
  else vs

/-- A row of integers. -/
def gemmInts (s : State) (l : Inst) (t : Nat) (e : Line) (j ld f r k : Nat) : List Int :=
  (gemmCodes s l t e j ld f r k).map fun c => sInt (if f = 9 then 4 else 8) c

/-- A row of bracketed BF16. -/
def gemmBrs (s : State) (l : Inst) (t : Nat) (e : Line) (j ld r k : Nat) : List Br :=
  loadBr s l t 11 (addrAt e j + r * (e.getD ld 0).toNat) k

/-- One element of C in the format written. -/
def gemmElem (s : State) (l : Inst) (t : Nat) (e : Line) (m n : Nat) : List Byte × Flg :=
  let w0 := e.getD 0 0
  let a := fld w0 20 4
  let b := fld w0 16 4
  let c := fld w0 12 4
  let k := fld (e.getD 8 0) 0 24
  let at_ := addrAt e 5 + m * (e.getD 11 0).toNat + n * elemSize c
  let old := wordsOf (opRead s l t at_ (elemSize c))
  if a = 11 then
    let start : Br := if bit w0 11 then { c := old.getD 0 0, g := old.getD 1 0 } else { c := 0, g := 0 }
    let r := brDot start ((gemmBrs s l t e 1 9 m k).zip (gemmBrs s l t e 3 10 n k))
    let o := storeBr c r.1
    (o.1, r.2 ||| o.2)
  else if a = 8 then
    let start : Int := if bit w0 11 then (old.getD 0 0).toInt else 0
    let r := intDot start ((gemmInts s l t e 1 9 a m k).zip (gemmInts s l t e 3 10 b n k))
    (wordBytes (i32 r.1), r.2)
  else
    let start : Word := if bit w0 11 then old.getD 0 0 else 0
    let r := fpDot start ((gemmRow s l t e 1 9 12 a m k).zip (gemmRow s l t e 3 10 14 b n k))
    let o := storeElem c (bit w0 10) (r.w, r.last)
    (o.1, r.all ||| o.2)

/-- GEMM: the rows of C. -/
def gemmEff (s : State) (l : Inst) (t : Nat) (e : Line) : Eff :=
  let m := fld (e.getD 7 0) 0 16
  let n := fld (e.getD 7 0) 16 16
  if m = 0 ∨ n = 0 then {} else
  let rows := (List.range m).map fun i =>
    let els := (List.range n).map fun j => gemmElem s l t e i j
    ((addrAt e 5 + i * (e.getD 11 0).toNat, (valsOf els).flatten), flagsOf els)
  { writes := valsOf rows, flags := flagsOf rows }

/-! ### SCAN (R207, R243) -/

/-- One step of a channel: the fused multiply-add of R207, with flags. -/
def scanStep (h : Word × Flg) (ab : Word × Word) : Word × Flg :=
  let r := fpFma ab.1 h.1 ab.2
  (r.1, h.2 ||| r.2)

/-- The states of a channel after each step of a chunk. -/
def scanRun (h : Word) : List (Word × Word) → List (Word × Flg)
  | [] => []
  | x :: t => let r := scanStep (h, 0) x; r :: scanRun r.1 t

/-- A chunk from a zero state, with its product of a[i] by fused steps. -/
def scanChunk (ab : List (Word × Word)) : Word × Word × Flg :=
  let z := ab.foldl scanStep (0, 0)
  let p := ab.foldl (fun (q : Word × Flg) x => let r := fpFma x.1 q.1 0x80000000; (r.1, q.2 ||| r.2)) (0x3F800000, 0)
  (z.1, p.1, z.2 ||| p.2)

/-- The operands a[i] and b[i] of one channel over a chunk, as a tile reads them. -/
def scanOps (s : State) (l : Inst) (t : Nat) (e : Line) (ch lo hi : Nat) : List (Word × Word) :=
  let f := fld (e.getD 0 0) 20 4
  let d := fld (e.getD 10 0) 0 16
  (List.range (hi - lo)).map fun i =>
    let o := ((lo + i) * d + ch) * elemSize f
    let v (j : Nat) : Word := loadElem f (leNat (opRead s l t (addrAt e j + o) (elemSize f)))
    (v 1, v 3)

/-- The bounds of chunk `j` of R207. -/
def chunkLo (len tt j : Nat) : Nat := min len (j * ceilDiv len tt)

/-- The initial state of a channel: read from S with INIT, else zero; a NaN is canonical (R197). -/
def scanInit (s : State) (l : Inst) (t : Nat) (e : Line) (ch : Nat) : Word :=
  if bit (e.getD 0 0) 6 then rn32 (f32 ((wordsOf (opRead s l t (addrAt e 7 + 4 * ch) 4)).getD 0 0)) else 0

/-- MODE 0 on the tile that runs chunk `j` of `tt`, from the states carried into it: with more than one chunk the tile first runs its chunk
from a zero state and passes each channel's state on by one fused multiply-add (R207). -/
def scanEff (s : State) (l : Inst) (tt j t : Nat) (e : Line) (carried : List Word) : Eff :=
  let w0 := e.getD 0 0
  let len := fld (e.getD 9 0) 0 25
  let d := fld (e.getD 10 0) 0 16
  let every := fld (e.getD 11 0) 0 17
  let lo := chunkLo len tt j
  let hi := chunkLo len tt (j + 1)
  let fo := fld w0 16 4
  let start (ch : Nat) : Word := if j = 0 then scanInit s l t e ch else carried.getD ch 0
  let one (ch : Nat) : List (Nat × List Byte) × Flg :=
    let hs := scanRun (start ch) (scanOps s l t e ch lo hi)
    let outs := (List.range (hi - lo)).filterMap fun i =>
      if every ≠ 0 ∧ (lo + i + 1) % every = 0 then
        let o := storeElem fo (bit w0 7) (hs.getD i (0, 0))
        some ((addrAt e 5 + ((lo + i) * d + ch) * elemSize fo, o.1), o.2)
      else none
    let last := if len = 0 then start ch else (hs.getLast?.getD (0, 0)).1
    let final := if bit w0 5 ∧ (if len = 0 then j = 0 else lo < hi ∧ hi = len)
      then [(addrAt e 7 + 4 * ch, wordBytes last)] else []
    (valsOf outs ++ final, flagsOf hs ||| flagsOf outs)
  let next (ch : Nat) : Word × Flg :=
    let k := scanChunk (scanOps s l t e ch lo hi)
    let r := if j + 1 < tt then fpFma k.2.1 (start ch) k.1 else (0, 0)
    (r.1, k.2.2 ||| r.2)
  let cs := (List.range d).map one
  let ns := if 1 < tt then (List.range d).map next else []
  { writes := (valsOf cs).flatten, flags := flagsOf cs ||| flagsOf ns, carry := some (valsOf ns) }

/-! ### VEC (R205, R206, R209, R244) -/

/-- One result of a VEC operation, in FP32. For maximum, minimum and ReLU R205 gives neither the result of a NaN nor the order of the zeros:
the model takes what it states for REDUCE, NaN and +0 above -0 (entry 166, DESIGN CHOICE). -/
def vecOp (op : Nat) (imm0 imm1 x y z : Word) : Word × Flg :=
  match op with
  | 0x00 => (x, 0)
  | 0x01 => fpAdd x y
  | 0x02 => fpSub x y
  | 0x03 => fpMul x y
  | 0x04 => fpFma x y z
  | 0x05 => (rn32 (fMax (f32 x) (f32 y)), 0)
  | 0x06 => (rn32 (fMin (f32 x) (f32 y)), 0)
  | 0x07 => (if fLt false (f32 y) (f32 x) then 0x3F800000 else 0, 0)
  | 0x08 => vExp x
  | 0x09 => vLog x
  | 0x0A => vTanh x
  | 0x0B => vRecip x
  | 0x0C => vRsqrt x
  | 0x0D => (rn32 (fMax (f32 x) (.zero false)), 0)
  | _ => fpFma x imm0 imm1

/-- R209: the largest exponent of an element format. -/
def mxEmax (f : Nat) : Int := if f = 5 then 8 else if f = 6 then 15 else 2

/-- A code of a format in which a NaN is canonical (R197). -/
def Fmt.canon (f : Fmt) (c : Nat) : Nat := if (f.dec c).isNan then f.nanCode else c

/-- R209: one block: its scale byte, its element codes, and the flags. The rule names no flag for an element that saturates, and the model
sets none (entry 123, DESIGN CHOICE); the codes of a block that holds a NaN or an infinity are open. -/
def mxBlock (f : Nat) (ws : List Word) : Nat × List Nat × Flg :=
  let vs := ws.map f32
  if vs.any fun v => v.isNan || v.isInf
  then (255, ws.mapIdx fun i _ => (fmtOf f).canon (Config.mxNanElem ws i % 2 ^ (fmtOf f).width), fINV)
  else
    let a := (vs.map fun v => v.abs.rat).foldl max 0
    if a = 0 then (0, vs.map fun _ => 0, 0)
    else
      let x := max (-127) (min 127 (floorLog2 a.num.natAbs a.den - mxEmax f))
      let es := vs.map fun v => (fmtOf f).enc .nearest true
        (match v with | .zero n => .zero n | v => ofRat (v.rat / pow2 x))
      ((x + 127).toNat, es.map (·.1), 0)

/-- Element codes as bytes, 4-bit elements two to a byte (R199). -/
def packCodes (f : Nat) (cs : List Nat) : List Byte :=
  if f = 7 then (List.range ((cs.length + 1) / 2)).map fun i =>
    BitVec.ofNat 8 (cs.getD (2 * i) 0 + 16 * cs.getD (2 * i + 1) 0)
  else cs.map (BitVec.ofNat 8)

/-- VOP 0x0F: elements at O and scales at Y. -/
def quantEff (s : State) (l : Inst) (t : Nat) (e : Line) : Eff :=
  let w0 := e.getD 0 0
  let n := fld (e.getD 9 0) 0 25
  let fo := fld w0 4 4
  let xs := loadVec s l t (fld w0 12 4) (addrAt e 1) n
  let bs := (List.range (mxBlocks n)).map fun b => mxBlock fo ((xs.drop (32 * b)).take 32)
  if n = 0 then {} else
  { writes := [(addrAt e 7, packCodes fo (bs.flatMap (·.2.1))), (addrAt e 3, bs.map fun b => BitVec.ofNat 8 b.1)]
    flags := bs.foldl (fun g b => g ||| b.2.2) 0 }

/-- VEC. A conversion (VOP 0) rounds the exact value of its operand once, as RND says (R205; entry 122). -/
def vecEff (s : State) (l : Inst) (t : Nat) (e : Line) : Eff :=
  let w0 := e.getD 0 0
  let n := fld (e.getD 9 0) 0 25
  let op := fld w0 16 8
  let fx := fld w0 12 4
  let bc := bit w0 0
  if op = 0x0F then quantEff s l t e
  else if n = 0 then {}
  else
    let cs := codesOf fx n (opRead s l t (addrAt e 1) (fmtBytes fx n))
    let xs := cs.map (loadElem fx)
    let ys := if vopTwo op then loadVec s l t (fld w0 8 4) (addrAt e 3) (if bc then 1 else n) else []
    let zs := if vopThree op then loadVec s l t fx (addrAt e 5) n else []
    let rs := xs.mapIdx fun i x => vecOp op (e.getD 10 0) (e.getD 11 0) x (ys.getD (if bc then 0 else i) 0) (zs.getD i 0)
    let cv := cs.map fun c => storeVal (fld w0 4 4) (rndOf (fld w0 2 2)) (bit w0 1) (elemVal fx c)
    let o := if op = 0 then ((valsOf cv).flatten, flagsOf cv) else storeVec (fld w0 4 4) (bit w0 1) rs
    { writes := [(addrAt e 7, o.1)], flags := flagsOf rs ||| o.2 }

/-! ### REDUCE (R208, R245) -/

/-- One vector reduced: 0 the sum by the tree, 1 the maximum, 2 the minimum. -/
def reduceOne (op : Nat) (xs : List Word) : Rounded :=
  match op with
  | 0 => treeFold (fun p q => let r := fpAdd p.w q.w; { w := r.1, last := r.2, all := r.2 ||| p.all ||| q.all }) { w := 0 } 32
      (xs.map fun x => { w := x })
  | 1 => { w := rn32 ((xs.map f32).foldl fMax (.inf true)) }
  | _ => { w := rn32 ((xs.map f32).foldl fMin (.inf false)) }

/-- REDUCE. -/
def reduceEff (s : State) (l : Inst) (t : Nat) (e : Line) : Eff :=
  let w0 := e.getD 0 0
  let len := fld (e.getD 9 0) 0 25
  let cnt := fld (e.getD 10 0) 0 16
  let f := fld w0 12 4
  if cnt = 0 then {} else
  let rs := (List.range cnt).map fun i =>
    reduceOne (fld w0 16 8) (loadVec s l t f (addrAt e 1 + fmtBytes f (i * len)) len)
  let o := storeVec (fld w0 8 4) (bit w0 1) (rs.map fun r => (r.w, r.last))
  { writes := [(addrAt e 5, o.1)], flags := rs.foldl (fun g r => g ||| r.all) o.2 }

/-! ### SCAN, MODE 1 (R243) -/

/-- The softmax of some scores on the vector unit: the weights, a factor that the weighted sum still takes, and the flags. Whether the
largest score is first subtracted, and whether the weights or the sum are normalised, the manual leaves open (entry 30). -/
def softmax (sc : List Word) : List Word × Option Word × Flg :=
  let m := reduceOne 1 sc
  let es := sc.map fun x =>
    let y := if Config.softmaxShifts then fpSub x m.w else (x, 0)
    let v := vExp y.1
    (v.1, y.2 ||| v.2)
  let sum := reduceOne 0 (valsOf es)
  let r := vRecip sum.w
  let f := flagsOf es ||| sum.all ||| r.2
  if Config.softmaxLate then (valsOf es, some r.1, f)
  else let ws := (valsOf es).map fun x => fpMul x r.1; (valsOf ws, none, f ||| flagsOf ws)

/-- A score of R243: SCALE times a product formed under R202. -/
def attScore (scale : Word) (q k : List Word) : Word × Flg :=
  let d := fpDot 0 ((q.map f32).zip (k.map f32))
  let r := fpMul scale d.w
  (r.1, r.2 ||| d.all)

/-- MODE 1: each output row is the weighted sum of the rows of V under its window, formed under R202. -/
def attendEff (s : State) (l : Inst) (t : Nat) (e : Line) : Eff :=
  let w0 := e.getD 0 0
  let len := fld (e.getD 9 0) 0 25
  let d := fld (e.getD 10 0) 0 16
  let win := fld (e.getD 11 0) 0 17
  let f := fld w0 20 4
  let fo := fld w0 16 4
  let row (j i : Nat) : List Word := loadVec s l t f (addrAt e j + i * d * elemSize f) d
  let out (i : Nat) : (Nat × List Byte) × Flg :=
    let js := (List.range (i + 1)).drop (i + 1 - win)
    let sc := js.map fun j => attScore (e.getD 12 0) (row 1 i) (row 3 j)
    let sm := softmax (valsOf sc)
    let os := (List.range d).map fun c =>
      let p := fpDot 0 ((sm.1.map f32).zip (js.map fun j => f32 ((row 5 j).getD c 0)))
      let r := match sm.2.1 with
        | some k => fpMul p.w k
        | none => (p.w, p.last)
      let o := storeElem fo (bit w0 7) r
      (o.1, o.2 ||| r.2 ||| p.all)
    ((addrAt e 7 + i * d * elemSize fo, (valsOf os).flatten), flagsOf os ||| sm.2.2 ||| flagsOf sc)
  let rs := (List.range len).map out
  { writes := valsOf rs, flags := flagsOf rs }

/-! ### BRACKET (R216 to R220, R246) -/

/-- One result of a BRACKET operation on bracketed FP32. -/
def bracketOp (op : Nat) (e : Line) (x y z : Br) : Br × Flg :=
  match op with
  | 0x01 => brAdd x y
  | 0x02 => brSub x y
  | 0x03 => brMul x y
  | 0x04 => brFma x y z
  | 0x05 => brScale (e.getD 10 0) x
  | 0x06 => brRelu x
  | 0x07 => brClamp (f32 (e.getD 10 0)) (f32 (e.getD 11 0)) x
  | 0x08 => brMax x y
  | 0x09 => brMin x y
  | 0x0A => brTanh x
  | 0x0B => brExp x
  | _ => brResid (e.getD 12 0) (e.getD 13 0) x

/-- CONVERT between the three bracket formats (R220). -/
def convertBr (fx fo : Nat) (ws : List Word) : List Byte × Flg :=
  if fx = 13 then
    let x := brOfBw { c := ws.getD 0 0, g := ws.getD 1 0 }
    let o := storeBr fo x.1
    (o.1, x.2 ||| o.2)
  else
    let x : Br := if fx = 11 then brOfBf16 (ws.getD 0 0) else { c := ws.getD 0 0, g := ws.getD 1 0 }
    if x.cls = .void ∧ fo = 12 then (bytesOf [brVoid.c, brVoid.g], fVOID) else storeBr fo x

/-- A sequence of brackets written, with flags. -/
def brsOut (fo : Nat) (rs : List (Br × Flg)) : List Byte × Flg :=
  let os := (valsOf rs).map (storeBr fo)
  ((valsOf os).flatten, flagsOf rs ||| flagsOf os)

/-- The bytes that BRACKET writes. -/
def bracketOut (s : State) (l : Inst) (t : Nat) (e : Line) (n : Nat) : List Byte × Flg :=
  let w0 := e.getD 0 0
  let op := fld w0 16 8
  let fx := fld w0 12 4
  let fo := fld w0 8 4
  if op = 0 then
    let vs := loadVec s l t fx (addrAt e 1) n
    let rs := if bit w0 0 then loadVec s l t 0 (addrAt e 3) n else List.replicate n (e.getD 12 0)
    brsOut fo ((vs.zip rs).map fun p => brAttach p.1 p.2)
  else if op = 0x0D then brsOut fo [brSum (loadBr s l t fx (addrAt e 1) n)]
  else if op = 0x0E then
    let os := (List.range n).map fun i =>
      convertBr fx fo (wordsOf (opRead s l t (addrAt e 1 + i * elemSize fx) (elemSize fx)))
    ((valsOf os).flatten, flagsOf os)
  else
    let xs := loadBr s l t fx (addrAt e 1) n
    let ys := if bopTwo op then loadBr s l t fx (addrAt e 3) n else []
    let zs := if op = 4 then loadBr s l t fx (addrAt e 5) n else []
    brsOut fo (xs.mapIdx fun i x => bracketOp op e x (ys.getD i { c := 0, g := 0 }) (zs.getD i { c := 0, g := 0 }))

/-- BRACKET. -/
def bracketEff (s : State) (l : Inst) (t : Nat) (e : Line) : Eff :=
  let n := fld (e.getD 9 0) 0 25
  if n = 0 ∧ fld (e.getD 0 0) 16 8 ≠ 0x0D then {} else
  let o := bracketOut s l t e n
  { writes := [(addrAt e 7, o.1)], flags := o.2 }

/-! ### LEDGER (R222, R223, R247) -/

/-- Adds terms one after another to the accumulators FIRST to FIRST + COUNT − 1, term j to FIRST + (j mod COUNT). -/
def ledgerTerms (first count : Nat) (ts : List (List (Int × Nat))) (acc : List (BitVec 96)) : List (BitVec 96) × Flg :=
  (ts.zipIdx).foldl (fun (r : List (BitVec 96) × Flg) x =>
    let i := first + x.2 % count
    x.1.foldl (fun (r : List (BitVec 96) × Flg) p =>
      let a := ledgerAdd (r.1.getD i 0) p.1 p.2
      (r.1.set i a.1, r.2 ||| a.2)) r) (acc, 0)

/-- LEDGER on the accumulators of a tile. -/
def ledgerEff (s : State) (l : Inst) (t : Nat) (e : Line) (acc : List (BitVec 96)) : Eff :=
  let w0 := e.getD 0 0
  let first := fld w0 8 6
  let count := fld w0 0 7
  let n := fld (e.getD 3 0) 0 24
  match fld w0 20 4 with
  | 0 => { acc := some (acc.mapIdx fun i a => if first ≤ i ∧ i < first + count then 0 else a) }
  | 1 =>
    let ws := wordsOf (opRead s l t (addrAt e 1) (4 * n))
    let r := ledgerTerms first count (ws.map fun w => [(w.toInt, if bit w0 19 then 32 else 0)]) acc
    { acc := some r.1, flags := r.2 }
  | 2 =>
    let ws := wordsOf (opRead s l t (addrAt e 1) (8 * n))
    let r := ledgerTerms first count ((List.range n).map fun i =>
      [(((ws.getD (2 * i) 0).toNat : Int), 0), ((ws.getD (2 * i + 1) 0).toInt, 32)]) acc
    { acc := some r.1, flags := r.2 }
  | 3 => { writes := [(addrAt e 1, bytesOf ((List.range count).flatMap fun i => ledgerWords (acc.getD (first + i) 0)))] }
  | _ =>
    let ws := wordsOf (opRead s l t (addrAt e 1) (16 * count))
    { acc := some ((List.range count).foldl (fun a i => a.set (first + i) (ledgerOf ((ws.drop (4 * i)).take 4))) acc) }

end Sys2Proof.Machine
end

