-- ==== Sys2Proof/Machine/Tile.lean ====
section
/-! DEFINITION. Segments and commands on the tiles: start, budgets, aborts, waits and remote accesses (R183, R187 to R189, R193,
R230, R241 to R249, R254, R256, R261, R262, R266). HALT and the pair comparison stand in Halt.lean. -/

namespace Sys2Proof.Machine

def tileOf (s : State) (t : Nat) : Tile := s.tiles.getD t {}

def tileMod (t : Nat) (f : Tile → Tile) (s : State) : State := { s with tiles := s.tiles.modify t f }

/-- The engine whose lists a tile runs (R165). -/
def tileEngine (t : Nat) : Nat := if tileFixed t then 4 else tileCist t

/-! ### Segment order (R230) -/

/-- A segment of a run has ended on a tile: it has halted everywhere, or on this tile already. -/
def endedOn (s : State) (l : Inst) (r : Run) (i t : Nat) : Bool :=
  r.done.contains i || s.lists.signals.any fun a =>
    decide (a.listId = l.id) && decide (a.seg = i) && a.tiles.contains t &&
      decide (a.cmd + 1 = (l.segs.getD i default).firstCmd + (l.segs.getD i default).cmds)

/-- The segments that still have to run on a tile in the present stroke, as queue, LIST_ID and index. -/
def dueOn (s : State) (t : Nat) : List (Nat × Nat × Nat) :=
  (s.lists.inst.filter fun l => engineOf l.queue = tileEngine t).flatMap fun l => match l.run with
    | none => []
    | some r => (l.segs.zipIdx.filter fun g =>
        (segTiles (engineOf l.queue) g.1.mask).contains t && decide (r.start.toNat + g.1.slot = now s) &&
          !endedOn s l r g.2 t).map fun g => (l.queue, l.id, g.2)

/-- The order of R230: by queue, then LIST_ID, then segment index. -/
def dueBefore (a b : Nat × Nat × Nat) : Bool :=
  decide (a.1 < b.1) || (decide (a.1 = b.1) && (decide (a.2.1 < b.2.1) || (decide (a.2.1 = b.2.1) && decide (a.2.2 < b.2.2))))

/-- The segment that a tile starts next. -/
def nextOn (s : State) (t : Nat) : Option (Nat × Nat × Nat) :=
  (dueOn s t).foldl (fun b x => match b with
    | none => some x
    | some y => if dueBefore x y then some x else some y) none

/-- A segment starts on a tile: its budget is loaded, flags and accumulators are cleared (R210, R230, R247, R254). -/
def segStart (l : Inst) (i t : Nat) (s : State) : State :=
  let g := l.segs.getD i default
  tileMod t (fun x => { x with
    seg := some { listId := l.id, seg := i, cmd := g.firstCmd, budget := budget (fEngineNow s (engineOf l.queue)) g, used := 0 }
    waiting := none, flags := 0, acc := List.replicate 64 0, crc := 0 }) s

/-- SEGMENT_START (R230): the tile is idle and the segment is its next one. After a panic no segment starts (R561). -/
def execSegmentStart (t : Fin 48) (listId : BitVec 16) (seg : Fin 64) (s : State) : Out :=
  match instOf s listId.toNat with
  | none => .next s
  | some l =>
    if s.diag.panic.isNone ∧ (tileOf s t.val).seg.isNone ∧ nextOn s t.val = some (l.queue, l.id, seg.val) then .next (segStart l seg.val t.val s)
    else .next s

/-! ### Aborts on a tile (R183, R193, R254, R256, R266) -/

/-- A segment stops on a tile: a general tile aborts the run; a fixed tile waits for the Assayer. -/
def tileStop (t cause used : Nat) (s : State) : State :=
  match (tileOf s t).seg with
  | none => s
  | some g =>
    if tileFixed t then
      tileMod t (fun x => { x with seg := some { g with used := used }, waiting := some (.aborted cause), lastAbort := cause }) s
    else segAbort g.listId g.seg t cause used g.budget s

/-- A tile whose count still runs: its segment has not halted there and has not stopped. A fixed tile at a SYNC or SIGNAL counts
while it waits for the Assayer; at its HALT it has halted (R254). -/
def tileCounts (s : State) (t : Nat) : Bool := match (tileOf s t).seg, (tileOf s t).waiting with
  | none, _ => false
  | some _, some (.aborted _) => false
  | some g, some .point => match instOf s g.listId with
    | some l => decide (opcOf (l.cmds.getD g.cmd []) ≠ 0x0D)
    | none => false
  | some _, _ => true

/-- The tile runs a segment that a further event can stop. -/
def tileLive (s : State) (t : Nat) : Bool := (tileOf s t).seg.isSome && match (tileOf s t).waiting with
  | some .point => false
  | some (.aborted _) => false
  | _ => true

/-- Function ID of the queue that a tile works for. -/
def tileQueue (s : State) (t : Nat) : Nat := match (tileOf s t).seg with
  | some g => ((instOf s g.listId).map (·.queue)).getD 0
  | none => 0

/-- READER of R195 for a tile's access. -/
def readerOf (t : Nat) (loadStore : Bool) : Nat := if loadStore then 2 else if tileFixed t then 1 else 0

/-- Cycles that a tile had used when an access failed or the stroke ended within a command: free between the count of the
commands it has completed and its budget (entry 31). -/
def usedFree (t : Nat) (s : State) : State × Nat :=
  match (tileOf s t).seg with
  | some g => let p := takeFree s; (p.1, g.used + Config.freeNat p.2 % (g.budget - g.used))
  | none => (s, 0)

/-- R193: an uncorrectable error in what a tile reads. -/
def tileMemory (t addr : Nat) (loadStore : Bool) (s : State) : State :=
  let s := uncorrectable (tileQueue s t) t (readerOf t loadStore) addr s
  let p := usedFree t s
  tileStop t 3 p.2 p.1

/-- R183: a blocked access of a tile. -/
def tileAccess (t addr : Nat) (loadStore : Bool) (s : State) : State :=
  let s := blocked (tileQueue s t) t (readerOf t loadStore) addr s
  let p := usedFree t s
  tileStop t 4 p.2 p.1

/-! ### The effect of a command -/

/-- The tiles of a chunked SCAN as one tile sees them: the lowest T of the mask; for a fixed pair the members of its own die. -/
def scanTiles (engine mask tt t : Nat) : List Nat :=
  ((segTiles engine mask).filter fun u => decide (engine ≠ 4 ∨ u / 24 = t / 24)).take tt

/-- The command in progress on a tile: its list, its segment and the command. -/
def tileCur (s : State) (t : Nat) : Option (Inst × TileSeg × Line) :=
  match (tileOf s t).seg, (tileOf s t).waiting with
  | some g, none => (instOf s g.listId).map fun l => (l, g, l.cmds.getD g.cmd [])
  | _, _ => none

/-- R207: the states carried into chunk `j` of a SCAN, which the tile of the chunk before has left. -/
def carriedTo (s : State) (l : Inst) (g : TileSeg) (ts : List Nat) (j : Nat) : Option (List Word) :=
  (s.lists.carries.find? fun c => decide (c.listId = l.id ∧ c.seg = g.seg ∧ c.cmd = g.cmd ∧ some c.tile = ts[j - 1]?)).map
    (·.states)

/-- A chunked SCAN on a tile still waits for the states that the chunk before it carries on (R207). -/
def scanWaits (s : State) (t : Nat) : Bool := match tileCur s t with
  | some (l, g, e) =>
    let ts := scanTiles (engineOf l.queue) (l.segs.getD g.seg default).mask (fld (e.getD 0 0) 8 4) t
    match ts.findIdx? (· = t) with
    | some j => decide (fld (e.getD 0 0) 12 4 ≠ 1 ∧ 0 < j) && (carriedTo s l g ts j).isNone
    | none => false
  | none => false

/-- The states that a chunk carries on are kept for the tile of the next one. -/
def carryOn (l : Inst) (g : TileSeg) (t : Nat) (f : Eff) (s : State) : State :=
  match f.carry with
  | some ws => { s with lists := { s.lists with
      carries := { listId := l.id, seg := g.seg, cmd := g.cmd, tile := t, states := ws } :: s.lists.carries } }
  | none => s

/-- What a command computes on a tile. -/
def cmdEff (s : State) (l : Inst) (g : TileSeg) (t : Nat) (e : Line) : Eff :=
  match opcOf e with
  | 0x01 => rowsEff s l t e
  | 0x02 => rowsEff s l t e
  | 0x03 => gemmEff s l t e
  | 0x04 =>
    if fld (e.getD 0 0) 12 4 = 1 then attendEff s l t e
    else
      let ts := scanTiles (engineOf l.queue) (l.segs.getD g.seg default).mask (fld (e.getD 0 0) 8 4) t
      match ts.findIdx? (· = t) with
      | some j => scanEff s l ts.length j t e ((carriedTo s l g ts j).getD [])
      | none => {}
  | 0x05 => vecEff s l t e
  | 0x06 => reduceEff s l t e
  | 0x07 => bracketEff s l t e
  | 0x08 => ledgerEff s l t e (tileOf s t).acc
  | _ => {}

/-- A write cut into the 64-byte lines of R184. -/
def splitLines : Nat → Nat → List Byte → List (Nat × List Byte)
  | 0, _, _ => []
  | _, _, [] => []
  | n + 1, a, bs => let k := 64 - a % 64; (a, bs.take k) :: splitLines n (a + k) (bs.drop k)

/-- The lines of some writes that have been made when their segment stops among them: any of them (R184, R256; entry 32). -/
def cutWrites (l : Inst) (t : Nat) (ws : List (Nat × List Byte)) (s : State) : State :=
  let p := takeFree s
  let ls := ws.flatMap fun w => splitLines (w.2.length / 64 + 2) w.1 w.2
  opWrites l t ((ls.zipIdx.filter fun x => Config.lineLanded p.2 x.2).map (·.1)) p.1

/-- The lines that a command has written when its segment stops within it. -/
def cutEff (l : Inst) (t : Nat) (f : Eff) (s : State) : State := cutWrites l t f.writes s

/-- A command has taken `n` cycles on a tile, and the tile goes on to the next one. -/
def cmdPass (t n : Nat) (s : State) : State :=
  tileMod t (fun x => { x with seg := x.seg.map fun g => { g with cmd := g.cmd + 1, used := g.used + n } })
    (perfAdd (tileEngine t) n s)

/-- A command's activity enters the counts of its segment (R477). -/
def actAdd (t : Nat) (n : List Nat) (s : State) : State :=
  tileMod t (fun x => { x with seg := x.seg.map fun g => { g with acts := (g.acts.zip n).map fun p => p.1 + p.2 } }) s

/-- A whole command that only computes and writes. One that its budget cuts sets none of its flags: R210 does not say whether it does (entry
167, DESIGN CHOICE). -/
def cmdRun (l : Inst) (g : TileSeg) (t n : Nat) (e : Line) (s : State) : State :=
  let v := seeAs (.tile t) s
  let f := cmdEff v l g t e
  let s := perfAdd 5 (cmdWellBytes v l t e) s
  if g.budget ≤ g.used + n then tileStop t 1 g.budget (cutEff l t f (perfAdd (tileEngine t) n s))
  else
    let s := carryOn l g t f (opWrites l t f.writes s)
    cmdPass t n (actAdd t (cmdActivity v l t e) <| tileMod t (fun x => { x with flags := x.flags ||| f.flags, acc := f.acc.getD x.acc }) s)

/-- A computing command of an opcode on a tile (R185, R193, R254): it acts where it is the tile's present command. -/
def tileCmd (opc : Nat) (t : Fin 48) (e : Line) (wait : Nat) (s : State) : Out :=
  match tileCur s t.val with
  | none => .next s
  | some (l, g, cur) =>
    if cur ≠ e ∨ opcOf cur ≠ opc then .next s
    else match cmdDamage (seeAs (.tile t.val) s) l t.val cur with
      | some d => .next (tileMemory t.val d (decide (opc = 1 ∨ opc = 2)) s)
      | none => .next (cmdRun l g t.val (cmdCycles s t.val cur + wait) cur s)

/-- LOAD (R241). -/
def execLoad (t : Fin 48) (e : Line) (wait : Nat) : State → Out := tileCmd 0x01 t e wait
/-- STORE (R241). -/
def execStore (t : Fin 48) (e : Line) (wait : Nat) : State → Out := tileCmd 0x02 t e wait
/-- GEMM (R242). -/
def execGemm (t : Fin 48) (e : Line) (wait : Nat) : State → Out := tileCmd 0x03 t e wait
/-- SCAN (R243): a tile that runs a later chunk goes on once the states carried to it are there. -/
def execScan (t : Fin 48) (e : Line) (wait : Nat) (s : State) : Out :=
  if scanWaits s t.val then .next s else tileCmd 0x04 t e wait s
/-- VEC (R244). -/
def execVec (t : Fin 48) (e : Line) (wait : Nat) : State → Out := tileCmd 0x05 t e wait
/-- REDUCE (R245). -/
def execReduce (t : Fin 48) (e : Line) (wait : Nat) : State → Out := tileCmd 0x06 t e wait
/-- BRACKET (R246). -/
def execBracket (t : Fin 48) (e : Line) (wait : Nat) : State → Out := tileCmd 0x07 t e wait
/-- LEDGER (R247). -/
def execLedger (t : Fin 48) (e : Line) (wait : Nat) : State → Out := tileCmd 0x08 t e wait

/-! ### Flags, SIGNAL and SYNC (R261, R262, R264, R266) -/

/-- A flag is set; the vector of a SIGNAL is sent at most once in a stroke. Flag 63 also lets the loop engines take up the
reference profile (R362). -/
def flagSet (f : Nat) (vec : Option Nat) (s : State) : State :=
  let s := { s with lists := { s.lists with flags := setBit s.lists.flags f true } }
  let s := if f = 63 then { s with stage := { s.stage with takeUp := true, refStage := stagingCopy s aRef 320 } } else s
  match vec with
  | some v =>
    if s.lists.vecSent.getLsbD v then s
    else msixDue (16 + v) { s with lists := { s.lists with vecSent := setBit s.lists.vecSent v true } }
  | none => s

/-- A tile arrives at a point of a list. -/
def arrive (id seg cmd t : Nat) (as_ : List Arrival) : List Arrival :=
  let hit (a : Arrival) : Bool := decide (a.listId = id) && decide (a.seg = seg) && decide (a.cmd = cmd)
  if as_.any hit then as_.map fun a => if hit a then { a with tiles := insertNat t a.tiles } else a
  else as_ ++ [{ listId := id, seg := seg, cmd := cmd, tiles := [t] }]

/-- Every tile of the segment's mask has arrived. -/
def allArrived (l : Inst) (g : TileSeg) (as_ : List Arrival) : Bool :=
  as_.any fun a => decide (a.listId = l.id) && decide (a.seg = g.seg) && decide (a.cmd = g.cmd) &&
    (segTiles (engineOf l.queue) (l.segs.getD g.seg default).mask).all fun u => a.tiles.contains u

/-- A SIGNAL takes effect on a tile: its arrival, and the flag once all have arrived. -/
def signalPass (l : Inst) (g : TileSeg) (t : Nat) (e : Line) (s : State) : State :=
  let p : Seer := .point l.id g.seg g.cmd
  let s := seenJoin (.tile t) p { s with lists := { s.lists with signals := arrive l.id g.seg g.cmd t s.lists.signals } }
  let w := e.getD 0 0
  let s := if allArrived l g s.lists.signals
    then flagSet (fld w 0 6) (if bit w 8 then some (fld w 12 4) else none) (seenJoin p (.flag (fld w 0 6)) s) else s
  tileMod t (fun x => { x with waiting := none, seg := some { g with cmd := g.cmd + 1 } }) s

/-- A SYNC takes effect on a tile: it waits for its barrier or its flag. -/
def syncPass (l : Inst) (g : TileSeg) (t : Nat) (e : Line) (s : State) : State :=
  let w := e.getD 0 0
  if fld w 16 8 = 0 then
    tileMod t (fun x => { x with waiting := some .barrier }) <| seenJoin (.tile t) (.point l.id g.seg g.cmd)
      { s with lists := { s.lists with barriers := arrive l.id g.seg g.cmd t s.lists.barriers } }
  else tileMod t (fun x => { x with waiting := some (.flag (fld w 0 6)) }) s

/-- The tile's count grows by the cycles of a SIGNAL, SYNC or HALT, and a fixed tile folds the command into its CRC. -/
def pointCost (t n : Nat) (e : Line) (s : State) : State :=
  tileMod t (fun x => { x with
    seg := x.seg.map fun g => { g with used := g.used + n }
    crc := if tileFixed t then crcFold x.crc (wordBytes (e.getD 0 0)) else x.crc }) (perfAdd (tileEngine t) n s)

/-- A point of a list on a tile: it costs its cycles; a fixed tile then waits for the Assayer, a general tile goes on. -/
def pointCmd (opc : Nat) (t : Nat) (e : Line) (s : State) (pass : Inst → TileSeg → State → State) : Out :=
  match tileCur s t with
  | none => .next s
  | some (l, g, cur) =>
    if cur ≠ e ∨ opcOf cur ≠ opc then .next s
    else
      let n := cmdCycles s t cur
      if (if opc = 0x0D then g.budget < g.used + n else g.budget ≤ g.used + n) then .next (tileStop t 1 g.budget s)
      else
        let s := pointCost t n e s
        if tileFixed t then .next (tileMod t (fun x => { x with waiting := some .point }) s)
        else .next (pass l { g with used := g.used + n } s)

/-- SYNC (R262). -/
def execSync (t : Fin 48) (e : Line) (s : State) : Out := pointCmd 0x09 t.val e s fun l g s => syncPass l g t.val e s

/-- SIGNAL (R261). -/
def execSignal (t : Fin 48) (e : Line) (s : State) : Out := pointCmd 0x0A t.val e s fun l g s => signalPass l g t.val e s

/-- What a SYNC waits for has come. -/
def syncMet (s : State) (l : Inst) (g : TileSeg) : TileWait → Bool
  | .barrier => allArrived l g s.lists.barriers
  | .flag f => s.lists.flags.getLsbD f
  | _ => false

/-- What a SYNC has waited for is seen on its tile (R262). -/
def syncSees (l : Inst) (g : TileSeg) (t : Nat) : TileWait → State → State
  | .barrier, s => seenJoin (.point l.id g.seg g.cmd) (.tile t) s
  | .flag f, s => seenJoin (.flag f) (.tile t) s
  | _, s => s

/-- SYNC_RELEASE (R262): the wait of a SYNC ends, and its cycles are counted. -/
def execSyncRelease (t : Fin 48) (wait : Nat) (s : State) : Out :=
  match (tileOf s t.val).seg, (tileOf s t.val).waiting with
  | some g, some w =>
    match instOf s g.listId with
    | none => .next s
    | some l =>
      if !syncMet s l g w then .next s
      else if g.budget ≤ g.used + wait then .next (tileStop t.val 1 g.budget s)
      else .next (cmdPass t.val wait (tileMod t.val (fun x => { x with waiting := none }) (syncSees l g t.val w s)))
  | _, _ => .next s

/-! ### Remote accesses (R187 to R189, R249) -/

/-- R189: the access of a tile fails with a cause. -/
def remoteFail (t cause : Nat) (cmd : Line) (s : State) : State :=
  let s := remoteFailed (tileQueue s t) t 2 (addrAt cmd 1) (fld (cmd.getD 0 0) 0 11) s
  let p := usedFree t s
  tileStop t cause p.2 p.1

/-- The request of a ROPE_GET or ROPE_PUT: the member, the offset in its window, and the lines to read or to write (R187, R249). -/
def remoteAsk (cmd : Line) (data : List Byte) : BitVec 11 × BitVec 40 × RemoteOp :=
  (BitVec.ofNat 11 (fld (cmd.getD 0 0) 0 11), BitVec.ofNat 40 ((cmd.getD 3 0).toNat + fld (cmd.getD 4 0) 0 8 * 2 ^ 32),
   if opcOf cmd = 0x0B then .write (wordsOf data) else .read (fld (cmd.getD 5 0) 0 23))

/-- A remote command begins: its request goes out and the tile waits for the response; while ROPE does not run it fails (R189). The
die-B member of a pair does not carry out a ROPE_PUT. A standalone pair's rope carries only heartbeat and mirror (R15), so there no
request goes out and the tile's wait ends with its timeout (entry 121, DEDUCED). -/
def remoteCmd (opc : Nat) (t : Fin 48) (e : Line) (s : State) : Out :=
  match tileCur s t.val with
  | none => .next s
  | some (l, g, cur) =>
    if cur ≠ e ∨ opcOf cur ≠ opc then .next s
    else
      let n := cmdCycles s t.val cur
      let v := seeAs (.tile t.val) s
      match cmdDamage v l t.val cur with
      | some d => .next (tileMemory t.val d true s)
      | none =>
        if g.budget ≤ g.used + n then .next (tileStop t.val 1 g.budget s)
        else if !fnRunning s fROPE then .next (remoteFail t.val 4 cur s)
        else
          let data := if opc = 0x0B then opRead v l t.val (addrAt cur 1) (fld (cur.getD 5 0) 0 23) else []
          let s := actAdd t.val (cmdActivity v l t.val cur) (perfAdd 5 (cmdWellBytes v l t.val cur) s)
          let s := if opc = 0x0B ∧ tileFixed t.val
            then tileMod t.val (fun x => { x with crc := crcFold x.crc (natBytes 6 (addrAt cur 3) ++ data) }) s else s
          if opc = 0x0B ∧ tileFixed t.val ∧ 24 ≤ t.val then .next (cmdPass t.val n s)
          else
            let ask := remoteAsk cur data
            let s := if s.clerk.ropeRole = 1 then s
              else { s with rope := { s.rope with asked := some (askRope s ask.1.toNat, ask) } }
            .next (tileMod t.val (fun x => { x with
              seg := x.seg.map fun g => { g with used := g.used + n }, waiting := some (.remote cur) })
              (perfAdd (tileEngine t.val) n s))

/-- ROPE_GET (R249). -/
def execRopeGet (t : Fin 48) (e : Line) : State → Out := remoteCmd 0x0C t e
/-- ROPE_PUT (R249). -/
def execRopePut (t : Fin 48) (e : Line) : State → Out := remoteCmd 0x0B t e

/-- The remote command that a tile waits for. -/
def remoteOf (s : State) (t : Nat) : Option Line := match (tileOf s t).waiting with
  | some (.remote c) => some c
  | _ => none

/-- A remote access of a tile has ended after `wait` cycles, which count (R254): it writes what it brought, and the tile goes on
unless its count has reached the budget. -/
def remoteEnd (l : Inst) (g : TileSeg) (t wait : Nat) (ws : List (Nat × List Byte)) (s : State) : State :=
  if g.budget ≤ g.used + wait then tileStop t 1 g.budget (cutWrites l t ws s)
  else cmdPass t wait (tileMod t (fun x => { x with waiting := none }) (opWrites l t ws s))

/-- The bytes that a response brings to a ROPE_GET. -/
def getBytes (c : Line) (ws : List Word) : List Byte := bytesOf (fit (fld (c.getD 5 0) 0 23 / 4) 0 ws)

/-- REMOTE_RESPONSE (R187, R189), `a.wait` cycles after the request. A response of which a line fails its CRC is lost
(R319). The ROPE runs: its end has aborted every wait (`ropeAborts`). -/
def execRemoteResponse (t : Fin 48) (a : RemoteAnswer) (s : State) : Out :=
  if s.clerk.ropeRole = 1 then .next s
  else if a.crcFails ≠ 0 then .next (if onRope s then crcFail (portIn a.rope) a.crcFails s else s)
  else match (tileOf s t.val).seg, remoteOf s t.val with
  | some g, some c =>
    match a.reply, instOf s g.listId with
    | .refused, _ => .next (remoteFail t.val 4 c s)
    | .memoryError, _ => .next (remoteFail t.val 3 c s)
    | .acknowledged, some l => if opcOf c = 0x0B then .next (remoteEnd l g t.val a.wait [] s) else .next s
    | .data ws, some l => if opcOf c = 0x0C then .next (remoteEnd l g t.val a.wait [(addrAt c 1, getBytes c ws)] s) else .next s
    | _, none => .next s
  | _, _ => .next s

/-- REMOTE_ACCESS_TIMEOUT (R189). -/
def execRemoteAccessTimeout (t : Fin 48) (_why : RemoteLoss) (s : State) : Out :=
  match remoteOf s t.val with
  | none => .next s
  | some c => .next (remoteFail t.val 4 c s)

/-- R186: an offset range lies in this member's rope window. -/
def inWindow (s : State) (off n : Nat) : Bool :=
  decide (off % 64 = 0) && decide (n % 64 = 0) && decide (off + n ≤ s.rope.cfg.winPages * 4096)

/-- R189: the requester's ROPE has left RUNNING: every remote access in flight fails with ACCESS. -/
def ropeAborts (s : State) : State :=
  (List.range 48).foldl (fun u t => match remoteOf u t with
    | some c => remoteFail t 4 c u
    | none => u) s

/-- The module answers a remote request. -/
def reply (came : RopeSide) (member : BitVec 11) (x : RemoteReply) (s : State) : State :=
  { s with rope := { s.rope with replied := some (replyRope s (ropeB? came), member, x) } }

/-- REMOTE_REQUEST (R187, R189): this member is the target and answers the requester. A dark member, or one whose ROPE does not run,
does not answer. A request of which a line fails its CRC is lost (R319). A standalone pair's rope carries none (R15). -/
def execRemoteRequest (member : BitVec 11) (off : BitVec 40) (ask : RemoteAsk) (s : State) : Out :=
  let a := s.rope.cfg.winBase + off.toNat
  if !onRope s || decide (s.clerk.ropeRole = 1) then .next s
  else if ask.crcFails ≠ 0 then .next (crcFail (portIn ask.rope) ask.crcFails s)
  else match ask.op with
    | .read n =>
      let v := seeAs (.member member.toNat) s
      if !inWindow s off.toNat n then .next (reply ask.rope member .refused (remoteFailed 0 0xFF 5 a member.toNat s))
      else match damagedIn v a n with
        | some d => .next (reply ask.rope member .memoryError (uncorrectable 0 0xFF 5 d s))
        | none => .next (reply ask.rope member (.data (memWords v a (n / 4))) (perfAdd 7 n (readCount a n s)))
    | .write ws =>
      if !inWindow s off.toNat (4 * ws.length) || !s.rope.cfg.remoteWr then
        .next (reply ask.rope member .refused (remoteFailed 0 0xFF 5 a member.toNat s))
      else .next (reply ask.rope member .acknowledged (perfAdd 7 (4 * ws.length) (devWrite (.member member.toNat) a (bytesOf ws) s)))

/-! ### Abort rows -/

/-- The lines of the present command that had been written when the segment stopped. -/
def cutCurrent (t : Nat) (s : State) : State :=
  match tileCur s t with
  | some (l, g, e) => cutEff l t (cmdEff (seeAs (.tile t) s) l g t e) s
  | none => s

/-- BUDGET_ABORT (R254): the count reaches B_SEG before HALT. -/
def execBudgetAbort (t : Fin 48) (s : State) : Out :=
  if !tileCounts s t.val then .next s
  else match (tileOf s t.val).seg with
    | some g => .next (tileStop t.val 1 g.budget (cutCurrent t.val s))
    | none => .next s

/-- MEMORY_ABORT (R193): a read of the tile, or of the load/store path for it, meets an uncorrectable word. -/
def execMemoryAbort (t : Fin 48) (addr : BitVec 48) (loadStore : Bool) (s : State) : Out :=
  if !tileLive s t.val then .next s
  else
    let a := tileAddr t.val addr.toNat
    .next (tileMemory t.val a loadStore (markDamaged a s))

/-- ACCESS_ABORT (R183): an access of the tile is blocked at the network. -/
def execAccessAbort (t : Fin 48) (addr : BitVec 48) (loadStore : Bool) (s : State) : Out :=
  if !tileLive s t.val then .next s
  else .next (tileAccess t.val (tileAddr t.val addr.toNat) loadStore (cutCurrent t.val s))

end Sys2Proof.Machine
end

