-- ==== Sys2Proof/Machine/Rope.lean ====
section
/-! DEFINITION. Ropes: links, START and STOP, stroke frames at members and at the head, ALLOCATE and the ROPE commands
(R45, R71, R292, R319 to R352). -/

namespace Sys2Proof.Machine

/-- The rope of a port: true is rope B (R320). -/
def portRope (p : Nat) : Bool := decide (2 ≤ p)

/-- An event record of ROPE (R352): port, rope, count or new state. -/
def ropeRecord (sev code port : Nat) (b : Bool) (n : Nat) (s : State) : State :=
  emit sev fROPE code [packW [(port, 24), (b2n b, 16), (min n 65535, 0)]] s

/-! ### The header line (R329) -/

def hB (h : Line) : Bool := bit (h.getD 0 0) 23
def hWrapped (h : Line) : Bool := bit (h.getD 0 0) 22
def hShort (h : Line) : Bool := bit (h.getD 0 0) 21
def hAddr (h : Line) : Nat := fld (h.getD 0 0) 0 11
def hStroke (h : Line) : Nat := wide (h.getD 1 0) (h.getD 2 0)
def hDelay (h : Line) : Nat := (h.getD 3 0).toNat
def hLive (h : Line) : Nat := fld (h.getD 4 0) 16 12
def hMembers (h : Line) : Nat := fld (h.getD 4 0) 0 12
def hDiv (h : Line) : Nat := fld (h.getD 5 0) 0 20
def hRope (h : Line) : Word := h.getD 6 0
def hVisits (h : Line) : Nat := fld (h.getD 7 0) 0 16

/-- The header with its counts after a pass of this member, whose delay is added. -/
def hPass (first : Bool) (ps : Nat) (h : Line) : Line :=
  ((h.set 3 (w32 (hDelay h + ps))).set 4 (packW [(hLive h + b2n first, 16), (hMembers h, 0)])).set 7
    (packW [(hVisits h + 1, 0)])

/-! ### Path figures (R328, R335, R337) -/

/-- L_FRAME in bytes; the frame of a standalone pair is the header alone. -/
def lFrame (s : State) : Nat := if s.clerk.ropeRole = 1 then 64 else 64 * (19 + s.rope.cfg.members)

/-- H: MEMBERS while a rope is whole and before the first landing. -/
def ropeH (s : State) : Nat :=
  if s.rope.landed.isNone ∨ s.rope.stateA = .whole ∨ s.rope.stateB = .whole then s.rope.cfg.members
  else 2 * s.rope.cfg.members - 2

/-- S_RED at the longest T_HOP, 64 ns. -/
def sRed (s : State) : Nat :=
  let h : Rat := ropeH s
  (ratCeil ((64 * h + mkRat (lFrame s) 94 + 20 + (h - 1) + 2000) / (10 * s.clk.strokeDiv))).toNat

/-! ### Bypasses, faults and the end of a role (R45, R345) -/

/-- A link that is held down stays so for its 60 s, whatever the bypass does (R321). -/
def linkTo (x : LinkSt) (p : Port) : Port := { p with link := if p.link = .heldDown then .heldDown else x, lanes := 0 }

/-- Both bypasses close: the ports leave their links and a wrap ends (R340). -/
def bypassClose (s : State) : State :=
  let s := if s.rope.wrapA then ropeRecord 1 0x0503 1 false 0 s else s
  let s := if s.rope.wrapB then ropeRecord 1 0x0503 3 true 0 s else s
  ropeMod (fun x => { x with
    openA := false, openB := false, wrapA := false, wrapB := false, flight := [], ports := x.ports.map (linkTo .down) }) s

/-- The module releases its rope roles without a command (R45). -/
def ropeRelease (s : State) : State := bypassClose (ropeMod (fun x => { x with released := true, starting := .no }) s)

/-- ROPE goes FAULTED with record 0x0507 for the port on which the frame came (R345, R352); remote accesses in flight fail (R189). -/
def ropeFault (p cause : Nat) (s : State) : State :=
  if fnRunning s fROPE then
    let s := ropeAborts (ropeRecord 2 0x0507 p (portRope p) 3 (fnFault fROPE cause (bypassClose s)))
    answer (.funcStop fROPE) .fault fROPE [] (refSelect s)
  else s

/-! ### START and STOP (R323, R326, R327) -/

/-- Resources that ROPE claims. -/
def ropeClaims : List Nat := [0x100, 0x101, 0x102, 0x103, 0x10B, 0x300, 0x301, 0x302, 0x303]

/-- The partner's beat of check 6. -/
def startBeat (s : State) : Option Line := 
  match s.pair.sinceHb with
  | some n => if n ≤ 64 then s.pair.hbBeat else none
  | none => none

/-- Checks 1 to 7 of ROPE START. -/
def ropeStartBad (s : State) : Option Answer :=
  let c := s.rope.cfg
  let fits := decide (c.winPages = 0) || decide (c.winBase + 4096 * c.winPages ≤ aPublished)
  firstErr
    [if s.clerk.ropeRole = 0 then some (roleR s) else none,
     ([0, 1, 2, 3, 11].find? fun b => !gateOn s b).map fun b => errR .state (0x80 + b),
     if c.addr < c.members then none else some (errR .range 1),
     if fits then none else some (errR .range 5),
     (claimConflict s fROPE ropeClaims).map fun x => conflictR x.1 x.2,
     match startBeat s with
     | none => none
     | some b =>
       if fld (b.getD 0 0) 8 2 ≠ s.clerk.ropeRole then some (roleR s)
       else if bit (b.getD 0 0) 5 && decide (fld (b.getD 2 0) 0 11 ≠ (c.addr ^^^ 1)) then some (errR .range 8)
       else none]

/-- A bypass opens, and the links of its two ports train. -/
def bypassOpen (b : Bool) (s : State) : State :=
  let s := ropeMod (fun x => if b then { x with openB := true } else { x with openA := true }) s
  let up := linkTo .training
  if b then portMod 3 up (portMod 2 up s) else portMod 1 up (portMod 0 up s)

/-- START: claims, CMIS, and rope A's bypass; the answer follows. -/
def ropeStart (s : State) : State × Answer :=
  let s := claimAll fROPE ropeClaims s
  let s := ropeMod (fun x => { x with
    released := false, starting := .openA, cmisDriven := true, stateA := .noFrames, stateB := .noFrames, island := false,
    live := 0, missedNow := 0, pend := [], flight := [], landed := none, foreign := 0, contribA := [], contribB := [],
    figs := [], lossExpired := false, frameNow := false, seen := false, solved := false, arriving := [],
    ports := x.ports.map fun p => { p with asked := false, cmisOk := false } }) s
  (bypassOpen false s, .later (.funcStart fROPE))

/-- A step of START fails: ROPE stays STOPPED with both bypasses closed and no claim. -/
def ropeStartFail (a : Code × Nat × List Word) (s : State) : State :=
  answer (.funcStart fROPE) a.1 a.2.1 a.2.2 (claimRelease fROPE (bypassClose (ropeMod (fun x => { x with starting := .no }) s)))

/-- An outgoing link has failed: the member wraps its rope. -/
def wrapStart (p : Nat) (s : State) : State :=
  if onRope s ∧ p % 2 = 1 then
    let b := portRope p
    if (if b then s.rope.wrapB else s.rope.wrapA) then s
    else ropeRecord 1 0x0503 p b 1 (ropeMod (fun x => if b then { x with wrapB := true } else { x with wrapA := true }) s)
  else s

/-- R341: an outgoing link that has not reached UP by the end of START counts as a cut of its rope, and the member wraps (entry 161). -/
def wrapsAtStart (s : State) : State :=
  [1, 3].foldl (fun t p => if (portOf t p).link = .up then t else wrapStart p t) s

/-- START has ended well. -/
def ropeStarted (s : State) : State :=
  let s := ropeMod (fun x => { x with starting := .no, lastSlot := s.clk.stroke }) s
  answer (.funcStart fROPE) .ok 0 [] (wrapsAtStart (fnSet fROPE .running 0 s))

/-- The member enters the island (R342). -/
def islandEnter (s : State) : State :=
  if s.rope.island then s
  else ropeRecord 1 0x0506 s.rope.lastPort (portRope s.rope.lastPort) 1 (ropeMod (fun x => { x with island := true }) s)

/-- The member leaves the island by a frame on a port (R342). -/
def islandLeave (port : Nat) (s : State) : State :=
  if s.rope.island then ropeRecord 1 0x0506 port (portRope port) 0 (ropeMod (fun x => { x with island := false }) s) else s

/-- ROPE_START_WAIT_EXPIRED (R326 steps 8 and 9): rope B's bypass opens, or START returns OK without a frame and a follower
runs as an island. Idle where START is not at that step. -/
def execRopeStartWaitExpired (second : Bool) (s : State) : Out :=
  match s.rope.starting with
  | .openA => if second then .next s else .next (bypassOpen true (ropeMod (fun x => { x with starting := .waitFrame }) s))
  | .waitFrame =>
    if !second then .next s
    else
      let s := ropeStarted s
      .next (if follower s then islandEnter s else s)
  | .no => .next s

/-- STOP (R327) ends the contributions at the next boundary. -/
def ropeStopCmd (s : State) : State × Answer := (s, .later (.funcStop fROPE))

/-- The STOP of ROPE takes effect (R327): both bypasses close, the claims are released and remote accesses in flight fail (R189).
Without its rope role the module has no rope target (R287). -/
def ropeStopped (s : State) : State :=
  let s := claimRelease fROPE (bypassClose (ropeMod (fun x => { x with pend := [], island := false }) s))
  let s := if s.clerk.ropeRole = 1 then s
    else { s with pipe := { s.pipe with target := { s.pipe.target with targeted := false, ramp := none } } }
  refSelect (ropeAborts (fnSet fROPE .stopped 0 s))

/-- R327: at the boundary that ends the stroke of a ROPE STOP. -/
def ropeStopBoundary (s : State) : State :=
  if fnRunning s fROPE && (waitingMb (fun w => decide (w = .funcStop fROPE)) s).isSome
  then answer (.funcStop fROPE) .ok 0 [] (ropeStopped s) else s

/-! ### Links (R321, R323, R340) -/

/-- A link in UP fails. -/
def linkFail (p : Nat) (s : State) : State :=
  let x := portOf s p
  if x.link ≠ .up then s
  else
    let recent := x.failAt.filter fun k => decide (ticksNow s - k ≤ 1000000000)
    let n := recent.length + 1
    let s := portMod p (fun y => { y with
      link := if 4 < n then .heldDown else .training, lanes := 0, fails := satAdd 65535 y.fails 1,
      failAt := recent ++ [ticksNow s] }) s
    wrapStart p (ropeRecord 1 0x0501 p (portRope p) (if 4 < n then 3 else 1) s)

/-- LINK_FAILED (R321). Idle unless the link is UP. -/
def execLinkFailed (port : Fin 4) (s : State) : Out := .next (linkFail port.val s)

/-- LINK_UP (R321, R326 step 8), with the delay of the link that its exchange measured (R73). Idle unless the link trains. -/
def execLinkUp (l : LinkTrained) (s : State) : Out :=
  if (portOf s l.port.val).link ≠ .training then .next s
  else
    let s := ropeRecord 0 0x0502 l.port.val (portRope l.port.val) 2
      (portMod l.port.val (fun y => { y with link := .up, lanes := 0xF, delay := l.delayPs }) s)
    if s.rope.starting = .openA ∧ (portOf s 0).link = .up ∧ (portOf s 1).link = .up then
      .next (bypassOpen true (ropeMod (fun x => { x with starting := .waitFrame }) s))
    else .next s

/-- HELD_DOWN_EXPIRED (R321): the link trains again, where the bypass is open. Idle unless the link is held down. -/
def execHeldDownExpired (port : Fin 4) (s : State) : Out :=
  if (portOf s port.val).link = .heldDown then
    let on := if portRope port.val then s.rope.openB else s.rope.openA
    .next (portMod port.val (fun y => { y with link := if on then .training else .down }) s)
  else .next s

/-- The wraps whose link carries traffic again end at a boundary (R340). -/
def wrapBoundary (s : State) : State :=
  let s := if s.rope.wrapA ∧ (portOf s 1).link = .up then
    ropeRecord 1 0x0503 1 false 0 (ropeMod (fun x => { x with wrapA := false }) s) else s
  if s.rope.wrapB ∧ (portOf s 3).link = .up then
    ropeRecord 1 0x0503 3 true 0 (ropeMod (fun x => { x with wrapB := false }) s) else s

/-! ### What a member adds (R330 to R333) -/

/-- FP32 watts in 1/16 W. -/
def watts16 (w : Word) : Int := ratRound .nearest (16 * f32Rat w)

/-- A bracket added into a 64-bit sum (R331). -/
def sumAdd (mid rad : Nat) (b : Bw) : Nat × Nat :=
  let ones := 2 ^ 64 - 1
  let void := decide (mid = 2 ^ 63) && decide (rad = ones)
  match b.cls with
  | .void => (2 ^ 63, ones)
  | c =>
    if void then (mid, rad)
    else
      let m := (BitVec.ofInt 64 ((BitVec.ofNat 64 mid).toInt + b.mid)).toNat
      (m, if rad = ones ∨ c = .unbounded then ones else rad + b.rad)

/-- Adds into the sum at word `o` of a line. -/
def lineAdd (o : Nat) (b : Bw) (l : Line) : Line :=
  let r := sumAdd (wide (l.getD o 0) (l.getD (o + 1) 0)) (wide (l.getD (o + 2) 0) (l.getD (o + 3) 0)) b
  (((l.set o (lo32 r.1)).set (o + 1) (hi32 r.1)).set (o + 2) (lo32 r.2)).set (o + 3) (hi32 r.2)

/-- What a member contributes and reports. -/
structure Report where
  active : Bool
  noPipe : Bool
  m      : Bw
  up     : Bw
  dn     : Bw
  fc     : List Bw
  eDis   : Nat
  eChg   : Nat
  grid   : Int
  deriving DecidableEq, Repr, Inhabited

def bwZero : Bw := { c := 0, g := 0 }

/-- P_FC: the PERIOD of the forecaster lists of the ROLE 1 package, which are those that are not DORMANT. -/
def pFc (s : State) : Nat :=
  match s.pipe.pkgs.find? fun p => decide (p.role = 1) with
  | some p => (((p.listIds.filterMap fun i => instOf s i).find? fun l => !l.dormant).map (·.period)).getD 1
  | none => 1

/-- R192: an area's current copy as it goes on into another memory: zeros where a word of it is uncorrectable (entry 162). -/
def soundWords (s : State) (base size : Nat) : List Word :=
  if (areaDamage s base size).isSome then List.replicate (size / 4) 0 else copyWords s base size

/-- The NO_PIPE rule of R333 applies at boundary k, and where a word of the forecast area is uncorrectable (R192, entry 162). -/
def noPipe (s : State) (k : Nat) : Bool :=
  !(s.pipe.pkgs.any fun p => decide (p.role = 1)) || decide (commitOf s aForecast + pFc s < k + 1) || !validOf s aForecast ||
  !fnRunning s fFIXED0 || (areaDamage s aForecast 576).isSome

/-- The member's figures at its boundary k (R333). -/
def reportOf (s : State) (k : Nat) : Report :=
  let w := soundWords s (aCist 0) blockSize
  let r := soundWords s aRecord 64
  let bw (i : Nat) : Bw := { c := r.getD i 0, g := r.getD (i + 1) 0 }
  let grid := watts16 (w.getD 5 0)
  if !s.pair.active then
    { active := false, noPipe := false, m := bwZero, up := bwZero, dn := bwZero, fc := List.replicate 64 bwZero, eDis := 0,
      eChg := 0, grid := 0 }
  else if noPipe s k then
    let x := bwUnb (watts16 (w.getD 4 0))
    { active := true, noPipe := true, m := x, up := bwZero, dn := bwZero, fc := List.replicate 64 x, eDis := 0, eChg := 0,
      grid := grid }
  else
    { active := true, noPipe := false, m := fcBracket s 64, up := bw 6, dn := bw 8, fc := (List.range 64).map (fcBracket s),
      eDis := (r.getD 14 0).toNat, eChg := (r.getD 15 0).toNat, grid := grid }

/-- Adds an unsigned number into two words of a line. -/
def wideAdd (o n : Nat) (l : Line) : Line :=
  let v := (wide (l.getD o 0) (l.getD (o + 1) 0) + n) % 2 ^ 64
  (l.set o (lo32 v)).set (o + 1) (hi32 v)

/-- Reduction line `i` after the member's contribution (R330). -/
def reduceLine (x : Report) (i : Nat) (l : Line) : Line :=
  if i = 0 then
    let g := ((BitVec.ofInt 64 x.grid).toNat)
    (wideAdd 4 g (wideAdd 2 x.eChg (wideAdd 0 x.eDis l))).set 6
      (packW [(fld (l.getD 6 0) 16 12 + b2n x.active, 16)])
  else
    let terms := [x.m, x.up, x.dn, bwZero] ++ x.fc
    (List.range 4).foldl (fun a j => lineAdd (4 * j) (terms.getD (4 * (i - 1) + j) bwZero) a) l

/-- The member's slot line with its report (R332). -/
def slotReport (s : State) (x : Report) (l : Line) : Line :=
  let w := soundWords s (aCist 0) blockSize
  let r := soundWords s aRecord 64
  let lim (i : Nat) : Word := w32 (max 0 (watts16 (w.getD i 0))).toNat
  let w0 := l.getD 0 0
  [packW [(fld w0 31 1, 31), (1, 30), (b2n x.active, 29), (b2n x.noPipe, 28), (fld (r.getD 13 0) 0 8, 16), (fld w0 0 16, 0)],
   l.getD 1 0, l.getD 2 0, x.m.c, x.m.g, x.up.c, x.up.g, x.dn.c, x.dn.g, w32 x.eDis, w32 x.eChg, lim 10, lim 11,
   i32 x.grid, if validOf s aRecord then r.getD 12 0 else 0xFFFFFFFF, r.getD 0 0]

/-! ### Figures at a boundary (R333) -/

/-- A member's figures and its report slot as words: the two flags, M, HEAD_UP, HEAD_DN, the 64 forecast brackets, E_DIS, E_CHG and
GRID, then the slot. -/
def figures (s : State) (k : Nat) : List Word :=
  let x := reportOf s k
  let b (y : Bw) : List Word := [y.c, y.g]
  [w32 (b2n x.active), w32 (b2n x.noPipe)] ++ b x.m ++ b x.up ++ b x.dn ++ x.fc.flatMap b ++
  [w32 x.eDis, w32 x.eChg, lo32 (BitVec.ofInt 64 x.grid).toNat, hi32 (BitVec.ofInt 64 x.grid).toNat] ++
  slotReport s x (List.replicate 16 0)

/-- The report that such words hold. -/
def reportIn (ws : List Word) : Report :=
  let w (i : Nat) : Word := ws.getD i 0
  let b (i : Nat) : Bw := { c := w i, g := w (i + 1) }
  { active := bit (w 0) 0, noPipe := bit (w 1) 0, m := b 2, up := b 4, dn := b 6, fc := (List.range 64).map fun j => b (8 + 2 * j),
    eDis := (w 136).toNat, eChg := (w 137).toNat, grid := (BitVec.ofNat 64 (wide (w 138) (w 139))).toInt }

/-- The slot line that such words hold, on a line that the head has written: its words 0 to 2 keep what the head wrote. -/
def slotIn (ws : List Word) (l : Line) : Line :=
  let r := ws.drop 140
  (packW [(fld (l.getD 0 0) 31 1, 31), (fld (r.getD 0 0) 16 15, 16), (fld (l.getD 0 0) 0 16, 0)]) ::
    l.getD 1 0 :: l.getD 2 0 :: r.drop 3

/-- R193: record 0x0010 for each of some areas in which the Clerk meets an uncorrectable word. -/
def areasMeet (xs : List (Nat × Nat)) (s : State) : State :=
  xs.foldl (fun t x => match areaDamage s x.1 x.2 with
    | some a => uncorrectable 0 0xFF 6 a t
    | none => t) s

/-- R333: the figures are kept as they stand at the boundary into stroke k. -/
def figuresNote (k : Nat) (s : State) : State :=
  if !onRope s then s
  else areasMeet [(aForecast, 576), (aRecord, 64), (aCist 0, blockSize)]
    (ropeMod (fun x => { x with figs := ((BitVec.ofNat 64 k, figures s k) :: x.figs).take 64 }) s)

/-- The figures of boundary k; the present ones where the member has not counted that boundary. -/
def figuresAt (s : State) (k : Nat) : List Word :=
  ((s.rope.figs.find? fun f => f.1 = BitVec.ofNat 64 k).map (·.2)).getD (figures s k)

/-! ### Sending (R328, R340) -/

/-- Lines leave on a rope; a wrapped rope's lines leave on the other one with WRAPPED set. -/
def ropeSend (b : Bool) (ls : List Line) (s : State) : State :=
  let wrap := if b then s.rope.wrapB else s.rope.wrapA
  let ls := if wrap then ls.modify 0 (fun h => h.set 0 (h.getD 0 0 ||| 0x00400000)) else ls
  ropeMod (fun x => if (b ^^ wrap) then { x with sentB := ls } else { x with sentA := ls }) s

/-- A frame's lines after the first pass of a member: lines that failed their CRC go on as they came. -/
def memberLines (s : State) (k : Nat) (ls : List RopeLine) : List Line :=
  let ws := figuresAt s k
  let x := reportIn ws
  ls.mapIdx fun i l =>
    if !l.crcOk ∨ i = 0 then l.words
    else if i < 19 then reduceLine x (i - 1) l.words
    else if i - 19 = s.rope.cfg.addr then slotIn ws l.words
    else l.words

/-! ### A frame at a member (R71, R326, R329, R333, R338, R342, R345) -/

/-- R71: the follower adopts the head's count: the frame's stroke and the whole strokes of its delay. The strokes counted from its
last target go on (R343). -/
def strokeAdopt (h : Line) (s : State) : State :=
  let n := hStroke h + hDelay h / (10000 * s.clk.strokeDiv)
  if n = now s then s
  else
    let old := now s
    let s := emit 1 0 0x000B [lo32 old, hi32 old, lo32 n, hi32 n] s
    epochChange { s with
      clk := { s.clk with stroke := BitVec.ofNat 64 n }, est := estRebase old n s.est
      chainA := { s.chainA with lastDone := strokeRebase old n s.chainA.lastDone }
      chainB := { s.chainB with lastDone := strokeRebase old n s.chainB.lastDone }
      rope := { s.rope with figs := [], lastSlot := strokeRebase old n s.rope.lastSlot } }

/-- Lines that failed on a port: the counter and record 0x050B, once per stroke (R352). -/
def crcCount (p : Nat) (ls : List RopeLine) (s : State) : State := crcFail p (ls.filter fun l => !l.crcOk).length s

/-- Puts a received target into the list of those that wait. -/
def pendInsert (t : Int × Stroke) : List (Int × Stroke) → List (Int × Stroke)
  | [] => [t]
  | x :: r => if t.2 < x.2 then t :: x :: r else if t.2 = x.2 then t :: r else x :: pendInsert t r

/-- The member reads its slot (R332, R338, R343). -/
def slotTake (l : Line) (s : State) : State :=
  if bit (l.getD 0 0) 31 then
    let at_ := BitVec.ofNat 64 (nearStroke (now s) (l.getD 2 0))
    ropeMod (fun x => { x with
      pend := pendInsert ((l.getD 1 0).toInt, at_) x.pend, lastSlot := s.clk.stroke, lossExpired := false }) s
  else s

/-- The member leaves the island and aligns; so does one that realigns (R71, R342). -/
def frameAlign (port : Nat) (h : Line) (s : State) : State :=
  if s.rope.island then strokeAdopt h (islandLeave port s)
  else if s.clk.aligning then strokeAdopt h s
  else s

/-- What a member remembers of a frame. -/
def frameNote (port : Nat) (h : Line) (s : State) : State :=
  ropeMod (fun x => { x with
    header := h, live := hLive h, lastFrame := BitVec.ofNat 64 (hStroke h), lastPort := port, frameNow := true }) s

/-- The slot line of the member, if it has arrived whole. -/
def ownSlot (s : State) (ls : List RopeLine) : Option Line :=
  match ls[19 + s.rope.cfg.addr]? with
  | some l => if l.crcOk then some l.words else none
  | none => none

/-- Somebody else has reported under the member's address. -/
def slotTaken (s : State) (ls : List RopeLine) : Bool := match ownSlot s ls with
  | some l => bit (l.getD 0 0) 30
  | none => false

/-- The copy passes the member for the first time (R333). -/
def firstPass (s : State) (h : Line) : Bool :=
  !(if hB h then s.rope.contribB else s.rope.contribA).contains (BitVec.ofNat 64 (hStroke h))

/-- The member has contributed to a frame on one rope. -/
def contribNote (b : Bool) (k : Stroke) (s : State) : State :=
  ropeMod (fun x => if b then { x with contribB := (k :: x.contribB).take 64 } else { x with contribA := (k :: x.contribA).take 64 }) s

/-- The delay of the link on which a rope's lines leave, the other rope's while this one is wrapped (R329, R340). -/
def outDelay (s : State) (b : Bool) : Nat :=
  (portOf s (if b ^^ (if b then s.rope.wrapB else s.rope.wrapA) then 3 else 1)).delay

/-- A frame of the member's own rope passes a follower. -/
def memberFrame (b : Bool) (ps : Nat) (h : Line) (ls : List RopeLine) (s : State) : State :=
  let port := if b then 2 else 0
  let first := firstPass s h
  if first && slotTaken s ls then ropeFault port 0x0501 s
  else
    let s := frameNote port h (frameAlign port h s)
    let out := if first then memberLines s (hStroke h) ls else ls.map (·.words)
    let s := match ownSlot s ls with
      | some l => if first then slotTake l s else s
      | none => s
    let s := if first then contribNote (hB h) (BitVec.ofNat 64 (hStroke h)) s else s
    ropeSend b (out.modify 0 (hPass first (ps + outDelay s b))) s

/-- Checks 10 to 12 of START on a frame (R326, R72). -/
def startFrameBad (s : State) (h : Line) (ls : List RopeLine) : Option (Code × Nat × List Word) :=
  if hDiv h ≠ s.clk.strokeDiv then some (.range, 2, [])
  else if hRope h ≠ s.rope.cfg.ropeId then some (.range, 3, [])
  else if hMembers h ≠ s.rope.cfg.members then some (.range, 7, [])
  else if slotTaken s ls then some (.range, 6, [])
  else none

/-- R340: a wrapped copy of the head's own that comes through on the other rope goes on: the head has contributed at its launch. -/
def ownThrough (b : Bool) (ps : Nat) (h : Line) (ls : List RopeLine) (s : State) : State :=
  if hB h = b then s else ropeSend b ((ls.map (·.words)).modify 0 (hPass false (ps + outDelay s b))) s

/-- A frame reaches a RUNNING member. -/
def runFrame (b : Bool) (ps : Nat) (h : Line) (ls : List RopeLine) (s : State) : State :=
  if timingHead s then
    if hRope h = s.rope.cfg.ropeId ∧ hAddr h = s.rope.cfg.addr then ownThrough b ps h ls s
    else if hRope h ≠ s.rope.cfg.ropeId then ropeFault (if b then 2 else 0) 0x0504 s
    else if hAddr h < s.rope.cfg.addr then ropeFault (if b then 2 else 0) 0x0502 s
    else s
  else if hRope h ≠ s.rope.cfg.ropeId then
    let s := ropeSend b (ls.map (·.words)) (ropeMod (fun x => { x with foreign := x.foreign + 1 }) s)
    if 64 ≤ s.rope.foreign then ropeFault (if b then 2 else 0) 0x0503 s else s
  else if hDiv h ≠ s.clk.strokeDiv ∨ hMembers h ≠ s.rope.cfg.members then ropeFault (if b then 2 else 0) 0x0503 s
  else memberFrame b ps h ls s

/-- The module launches frames: it is the timing head, or START waits at the module that will be. -/
def launches (s : State) : Bool :=
  timingHead s || (decide (s.rope.starting = .waitFrame) && s.pair.active && decide (s.clerk.ropeRole = 1 ∨ s.clerk.ropeRole = 2))

/-- STROKE_FRAME_RECEIVED (R333): with the delay of the link into the port and this member's forwarding delay, to which DELAY_PS adds
that of its outgoing link (R329). Idle while the bypass is closed or START has not come to its wait for a frame; a head that starts
waits for its own copies alone (R326 step 9). A frame whose header failed its CRC is only counted. -/
def execStrokeFrameReceived (rope : RopeSide) (lines : List RopeLine) (linkDelayPs forwardPs : Nat) (s : State) : Out :=
  let b := ropeB? rope
  let port := if b then 2 else 0
  let waits := decide (s.rope.starting = .waitFrame)
  if !onRope s && !waits then .next s
  else
    let s := portMod port (fun y => { y with delay := linkDelayPs }) (crcCount port lines s)
    match lines with
    | [] => .next s
    | l :: _ =>
      let h := l.words
      if !l.crcOk || decide (fld (h.getD 0 0) 24 8 ≠ 0xA5) || (waits && launches s) then .next s
      else if waits then
        match startFrameBad s h lines with
        | some a => .next (ropeStartFail a s)
        | none => .next (memberFrame b forwardPs h lines (strokeAdopt h (ropeStarted s)))
      else .next (runFrame b forwardPs h lines s)

/-! ### The head (R334 to R337, R344) -/

/-- Where the landed frame lies: for the fixed tiles of C1 and C3 and for the host. -/
def landedBases : List Nat := [aCist 1 + 0x5880000, aCist 3 + 0x5880000, aPublished + 0x40000]

/-- The target area as the head reads it, and its targets. -/
def aTargetsHead : Nat := aCist 1 + 0x5F00000
def targetsOf (s : State) : List Word := copyWords s aTargetsHead 8256

/-- A target as the head sends it (R337). -/
def targetClamp (w : Word) : Nat := (max 0 (min 16000000 w.toInt)).toNat

/-- The frame of stroke k before the head's own contribution. A slot carries a target once ALLOCATE has solved or a solved allocation has been
mirrored, and while no word of the target area is uncorrectable (R16, R17, R192). -/
def frameNew (b : Bool) (k : Nat) (s : State) : List RopeLine :=
  let c := s.rope.cfg
  let short := decide (s.clerk.ropeRole = 1)
  let h : Line :=
    [packW [(0xA5, 24), (b2n b, 23), (b2n short, 21), (c.addr, 0)], lo32 k, hi32 k, w32 (outDelay s b),
     packW [(c.members, 0)], w32 s.clk.strokeDiv, c.ropeId] ++ List.replicate 9 0
  let valid := s.rope.landed.isSome && s.rope.solved && validOf s aTargetsHead && (areaDamage s aTargetsHead 8256).isNone
  let ts := targetsOf s
  let slot (a : Nat) : Line :=
    [packW [(b2n valid, 31), (a, 0)], if valid then w32 (targetClamp (ts.getD a 0)) else 0,
     if valid then lo32 (k + sRed s) else 0] ++ List.replicate 13 0
  let rest := if short then [] else List.replicate 18 (List.replicate 16 0) ++ (List.range c.members).map slot
  (h :: rest).map fun l => { words := l, crcOk := true }

/-- STROKE_FRAME_LAUNCH (R328, R337): at the boundary into stroke k a copy leaves on each rope with the head's own figures, and
the head takes its own target. -/
def headLaunch (k : Nat) (s : State) : State :=
  if !launches s then s
  else
    let go (b : Bool) (s : State) : State :=
      ropeSend b ((memberLines s k (frameNew b k s)).modify 0 (hPass true 0)) s
    let own := (frameNew false k s)[19 + s.rope.cfg.addr]?
    let st := BitVec.ofNat 64 k
    let s := contribNote true st (contribNote false st (go true (go false (if s.rope.solved then areasMeet [(aTargetsHead, 8256)] s else s))))
    let s := match own with
      | some l => slotTake l.words s
      | none => s
    ropeMod (fun x => { x with
      flight := x.flight ++ [{ stroke := st, outA := true, outB := true, landed := false }] }) s

/-- A rope's state at the head changes, with record 0x0504. -/
def RopeSt.num : RopeSt → Nat
  | .noFrames => 0
  | .whole => 1
  | .wrapped => 2
  | .broken => 3
def ropeStSet (b : Bool) (x : RopeSt) (s : State) : State :=
  if (if b then s.rope.stateB else s.rope.stateA) = x then s
  else ropeRecord 1 0x0504 (if b then 2 else 0) b x.num
    (ropeMod (fun r => if b then { r with stateB := x } else { r with stateA := x }) s)

/-- A frame is missed at the head (R334, R352). -/
def frameMissed (s : State) : State :=
  let s := ropeMod (fun x => { x with missed := satAdd (2 ^ 32 - 1) x.missed 1, missedNow := x.missedNow + 1 }) s
  let due := match s.rope.missRec with
    | some k => decide (1024 ≤ now s - k.toNat)
    | none => true
  if due then
    ropeRecord 1 0x0505 s.rope.lastPort (portRope s.rope.lastPort) s.rope.missedNow
      (ropeMod (fun x => { x with missRec := some s.clk.stroke, missedNow := 0 }) s)
  else s

/-- A copy of a launched frame is no longer out; a frame whose copies are all back without a landing is missed. -/
def flightDone (b : Bool) (k : Stroke) (s : State) : State :=
  let gone (f : Flight) : Flight :=
    if f.stroke = k then (if b then { f with outB := false } else { f with outA := false }) else f
  let fs := s.rope.flight.map gone
  let lost := fs.any fun f => decide (f.stroke = k) && !f.outA && !f.outB && !f.landed
  let s := ropeMod (fun x => { x with flight := fs.filter fun f => f.outA || f.outB }) s
  if lost then frameMissed s else s

/-- The landed frame: a slot that failed its CRC has R_VALID = 0 (R334). -/
def landedFrame (ls : List RopeLine) : List Line :=
  ls.map fun l => if l.crcOk then l.words else l.words.set 0 (l.words.getD 0 0 &&& 0xBFFFFFFF)

/-- The head lands a copy (R334, R336). -/
def frameLand (h : Line) (ls : List RopeLine) (s : State) : State :=
  let k := BitVec.ofNat 64 (hStroke h)
  let s := ropeMod (fun x => { x with
    landed := some k, flight := x.flight.map fun f => if f.stroke = k then { f with landed := true } else f }) s
  if hShort h then s
  else
    ropeMod (fun x => { x with arriving := x.arriving ++
      [(BitVec.ofNat 64 (max (now s + 1) (k.toNat + sRed s)), (landedFrame ls).flatten)] }) s

/-- What the head takes from a frame that it now sees: its lines, N_ACTIVE, and Σ M unless that is void. -/
def frameSeen (fr : List Word) (x : Rope) : Rope :=
  let m := wide (fr.getD 32 0) (fr.getD 33 0)
  { x with
    seen := true, landedLines := fr.length / 16, nActive := fld (fr.getD 22 0) 16 12,
    sumM := if m = 2 ^ 63 then x.sumM else (BitVec.ofNat 64 m).toInt }

/-- R337: the figures of a landed frame are seen from boundary k + S_RED on: by ALLOCATE, and by the autonomous rope target (R18). -/
def landingSeen (n : Nat) (s : State) : State :=
  let due := s.rope.arriving.filter fun x => x.1.toNat ≤ n
  let put (ws : List Word) (t : State) (b : Nat) : State :=
    memWriteWords b (statusCommit t n 0 b) (memWriteWords (stagingCopy t b (4 * ws.length)) ws t)
  due.foldl (fun t x => ropeMod (frameSeen x.2) (landedBases.foldl (put x.2) t))
    { s with rope := { s.rope with arriving := s.rope.arriving.filter fun x => n < x.1.toNat } }

/-- LIVE changed at the head (R352). -/
def liveNote (port : Nat) (h : Line) (s : State) : State :=
  if s.rope.live = hLive h then s else ropeRecord 0 0x050A port (portRope port) (hLive h) s

/-- A copy of one of the module's own frames has come back; a frame that reaches it ends an island (R342). -/
def copyBack (b : Bool) (h : Line) (ls : List RopeLine) (s : State) : State :=
  let port := if b then 2 else 0
  let s := islandLeave port s
  let k := BitVec.ofNat 64 (hStroke h)
  let s := ropeStSet (hB h) (if hWrapped h then .wrapped else .whole) s
  let done := s.rope.flight.any fun f => decide (f.stroke = k) && f.landed
  let whole := decide (s.rope.stateA = .whole ∨ s.rope.stateB = .whole)
  let ok := ((ls.take 19).all (·.crcOk)) && (!hWrapped h || !whole) && !done
  let s := frameNote port h (liveNote port h s)
  flightDone (hB h) k (if ok then frameLand h ls s else s)

/-- FRAME_COPY_RETURN (R334, R326 check 13): a copy that the head launched comes back on a rope. Idle unless such a copy is
out. -/
def execFrameCopyReturn (rope : RopeSide) (lines : List RopeLine) (s : State) : Out :=
  let b := ropeB? rope
  let port := if b then 2 else 0
  if !launches s then .next s
  else
    let s := crcCount port lines s
    match lines with
    | [] => .next s
    | l :: _ =>
      let h := l.words
      let out := s.rope.flight.any fun f => decide (f.stroke.toNat = hStroke h) && (if hB h then f.outB else f.outA)
      if !l.crcOk || !out || decide (hRope h ≠ s.rope.cfg.ropeId ∨ hAddr h ≠ s.rope.cfg.addr) then .next s
      else if s.rope.starting = .waitFrame then
        if s.rope.cfg.members < hLive h then .next (ropeStartFail (.range, 4, [w32 (hLive h)]) s)
        else .next (copyBack b h lines (ropeStarted s))
      else .next (copyBack b h lines s)

/-- FRAME_COPY_TIMEOUT (R334): the oldest copy that is out on a rope has not returned; the rope is BROKEN. Idle if none is out. -/
def execFrameCopyTimeout (rope : RopeSide) (s : State) : Out :=
  let b := ropeB? rope
  match s.rope.flight.find? fun f => if b then f.outB else f.outA with
  | none => .next s
  | some f => .next (flightDone b f.stroke (ropeStSet b .broken s))

/-! ### ALLOCATE (R292, R336) -/

/-- A shelf as ALLOCATE sees it: the address that reports, M, its weight, and its power limits. -/
structure Shelf where
  addr : Nat
  m    : Bw
  w    : Nat
  pd   : Nat
  pc   : Nat
  deriving DecidableEq, Repr, Inhabited

/-- The active reports of the landed frame. -/
def shelvesOf (fr : List Word) (members : Nat) (dis : Bool) : List Shelf :=
  (List.range members).filterMap fun a =>
    let w (j : Nat) : Word := fr.getD (16 * (19 + a) + j) 0
    if bit (w 0) 30 && bit (w 0) 29 then
      some { addr := a, m := { c := w 3, g := w 4 }, w := (w (if dis then 9 else 10)).toNat, pd := (w 11).toNat,
             pc := (w 12).toNat }
    else none

/-- R288 on a shelf's target: the nearest target whose plan at M keeps the headroom, and whether it differs. -/
def shelfLimit (x : Shelf) (t : Rat) : Rat × Bool :=
  let p := limitPower ((x.m.mid : Rat) - t) (x.m.rad : Rat) x.pd x.pc
  if p.2 && decide (x.m.cls = .valid) then ((x.m.mid : Rat) - p.1, true) else (t, false)

/-- Shares an excess over shelves by their weights. -/
def share (x : Rat) (xs : List (Shelf × Rat × Bool)) : List (Shelf × Rat × Bool) :=
  let w : Nat := ((xs.filter fun y => !y.2.2).map (·.1.w)).sum
  if w = 0 then xs
  else xs.map fun y => if y.2.2 then y else (y.1, y.2.1 + x * (y.1.w : Rat) / (w : Rat), false)

/-- The targets of R292: one spread, the limits, one more spread over the shelves not yet moved, and the limits again. -/
def allocate (rt sumM : Rat) (xs : List Shelf) : List (Shelf × Rat) :=
  let t0 := share (rt - sumM) (xs.map fun x => (x, (x.m.mid : Rat), false))
  let lim (y : Shelf × Rat × Bool) : Shelf × Rat × Bool :=
    if y.2.2 then y else let r := shelfLimit y.1 y.2.1; (y.1, r.1, r.2)
  let t1 := t0.map lim
  let excess := ((t0.zip t1).map fun p => p.1.2.1 - p.2.2.1).foldl (· + ·) (0 : Rat)
  ((share excess t1).map lim).map fun y => (y.1, y.2.1)

/-- ALLOCATE: on the module that heads a rope and sees a landed frame of its own, a target for each member of a shelf that reports; every
other target stays, and all of them do until then (R17, R344). -/
def allocateRun (l : Inst) (s : State) : State :=
  let old := targetsOf s
  if !headsRope s || !s.rope.seen then stageArea l 0 old s
  else
      let fr := copyWords s (landedBases.headD 0) (64 * s.rope.landedLines)
      let k := BitVec.ofNat 64 (hStroke (fr.take 16))
      let r1 (j : Nat) : Word := fr.getD (32 + j) 0
      let m := wide (r1 0) (r1 1)
      let void := decide (m = 2 ^ 63)
      let sum : Rat := if void then s.rope.sumM else (BitVec.ofNat 64 m).toInt
      let rt := s.pipe.ropeTarget.value
      let res := allocate rt sum (shelvesOf fr s.rope.cfg.members (decide (rt < sum)))
      let put (ws : List Word) (p : Shelf × Rat) : List Word :=
        let v := if void || decide (p.1.m.cls = .void) then Config.allocateVoid k p.1.addr else ratRound .nearest p.2
        (ws.set p.1.addr (i32 v)).set (p.1.addr ^^^ 1) (i32 v)
      let ws := res.foldl put (fit 2064 0 old)
      let given : Int := (res.map fun p => (ws.getD p.1.addr 0).toInt).foldl (· + ·) 0
      let s := { s with rope := { s.rope with trackDev := (given : Rat) - rt, solved := true } }
      stageArea l 0 (ws.take 2048 ++ [lo32 k.toNat, hi32 k.toNat] ++ List.replicate 14 0) s

/-! ### The boundary (R338, R343, R348, R352) -/

/-- A rope target takes effect on the member. -/
def ropeTargetApply (k : Nat) (v : Int) (s : State) : State :=
  let t : TargetSt := { value := v, targeted := true, ramp := none, applied := BitVec.ofNat 64 k }
  ropeMod (fun x => { x with target := v, applyLo := lo32 k }) { s with pipe := { s.pipe with target := t } }

/-- Targets whose stroke has come apply at the boundary into stroke k. -/
def ropeTargets (k : Nat) (s : State) : State :=
  let due := s.rope.pend.filter fun p => decide (p.2.toNat ≤ k)
  let s := ropeMod (fun x => { x with pend := x.pend.filter fun p => decide (k < p.2.toNat) }) s
  match due.getLast? with
  | some p => if onRope s && decide (2 ≤ s.clerk.ropeRole) then ropeTargetApply k p.1 s else s
  | none => s

/-- R349: what the ports have seen in the stroke that ends. A gated port counts nothing (R65). -/
def portsSeen (xs : List PortSeen) (s : State) : State :=
  (List.range 4).foldl (fun t p => match xs[p]? with
    | some x =>
      let n (v : Nat) : Nat := if gateOn s p then v else 0
      portMod p (fun y => { y with
        present := x.present, corr := satAdd (2 ^ 32 - 1) y.corr (n x.corrCw),
        uncorr := satAdd (2 ^ 32 - 1) y.uncorr (n x.uncorrCw) }) t
    | none => t) s

/-- The records of lines that failed in the stroke that ends, and a follower's stroke without a frame. -/
def ropeStrokeEnd (s : State) : State :=
  let s := (List.range 4).foldl (fun t p =>
    let n := (portOf t p).crcNow
    if n = 0 then t else ropeRecord 2 0x050B p (portRope p) n (portMod p (fun y => { y with crcNow := 0 }) t)) s
  let s := if follower s && !s.rope.frameNow then ropeMod (fun x => { x with missed := satAdd (2 ^ 32 - 1) x.missed 1 }) s else s
  ropeMod (fun x => { x with frameNow := false }) s

/-- ROPE_LOSS_HOLD_EXPIRED (R343): a worker without a target for ROPE_LOSS_HOLD strokes takes the autonomous target. Idle
before that. -/
def execRopeLossHoldExpired (s : State) : Out :=
  let x := s.rope
  if fnLive s fROPE ∧ s.clerk.ropeRole = 3 ∧ x.lossExpired = false ∧ x.lastSlot.toNat + x.cfg.lossHold ≤ now s then
    let s := { s with pipe := { s.pipe with target := { s.pipe.target with targeted := false, ramp := none } } }
    .next (ropeRecord 1 0x0508 x.lastPort (portRope x.lastPort) 0 (ropeMod (fun x => { x with lossExpired := true }) s))
  else .next s

/-! ### Commands (R346 to R351) -/

/-- ROLE_SET (R76, R346). -/
def execRoleSet (r : Req) : State → Out :=
  mailbox { op := 0x0501, onMb := mbHigh, lenOk := (· = 1), acts := [fROPE] } r fun s =>
    let n := fld (r.w 2) 0 2
    guardE (firstErr
      [rangeBad [(decide (fld (r.w 2) 2 30 ≠ 0), 2)],
       if fnLive s fROPE then some (errR .state 0) else none,
       if s.clk.sscPpm ≠ 0 ∧ (n = 1 ∨ n = 2) then some (errR .state 1) else none]) s fun s =>
      ({ s with clerk := { s.clerk with ropeRole := n } }, okR [])

/-- The fields of ROPE_CONFIG. -/
def ropeConfigBad (r : Req) : Option Answer :=
  let m := fld (r.w 3) 0 12
  rangeBad
    [(decide (r.w 3 &&& 0xF000F000 ≠ 0) || decide (2047 < fld (r.w 3) 16 12) || decide (m < 2 ∨ 2048 < m ∨ m % 2 = 1), 3),
     (decide (fld (r.w 4) 1 11 ≠ 0), 4), (decide (fld (r.w 5) 8 24 ≠ 0), 5), (decide (25165824 < (r.w 6).toNat), 6),
     (decide ((r.w 7).toNat = 0 ∨ 1000000 < (r.w 7).toNat), 7)]

/-- ROPE_CONFIG (R347). -/
def execRopeConfig (r : Req) : State → Out :=
  mailbox { op := 0x0502, onMb := mbHigh, lenOk := (· = 6), acts := [fROPE] } r fun s =>
    guardE (firstErr [cfgBad s fROPE, ropeConfigBad r]) s fun s =>
      let c : RopeCfg :=
        { ropeId := r.w 2, members := fld (r.w 3) 0 12, addr := fld (r.w 3) 16 12, addrSet := true,
          winBase := fld (r.w 4) 12 20 * 4096 + fld (r.w 5) 0 8 * 2 ^ 32, winPages := (r.w 6).toNat, remoteWr := bit (r.w 4) 0,
          lossHold := (r.w 7).toNat }
      (ropeMod (fun x => { x with cfg := c }) s, okR [])

/-- HOLD_LEFT of R348: zero while targets arrive and on a module without a worker's hold. -/
def holdLeft (s : State) : Nat :=
  let d := now s - s.rope.lastSlot.toNat
  if fnLive s fROPE ∧ s.clerk.ropeRole = 3 ∧ 1 < d then min 65535 (s.rope.cfg.lossHold - d) else 0

/-- The response of ROPE_QUERY (R348). -/
def ropeWords (s : State) : List Word :=
  let x := s.rope
  let up := (List.range 4).foldl (fun n p => n + b2n (decide ((portOf s p).link = .up)) * 2 ^ p) 0
  let head := timingHead s
  [packW [(x.stateA.num, 30), (x.stateB.num, 28), (b2n head, 27), (b2n x.island, 26), (b2n x.wrapA, 25), (b2n x.wrapB, 24),
     (up, 20), (s.clerk.ropeRole, 18), (x.cfg.addr, 0)],
   packW [(x.live, 16), (x.cfg.members, 0)], if head then packW [(ropeH s % 4096, 16), (sRed s % 256, 0)] else 0,
   x.cfg.ropeId, lo32 x.lastFrame.toNat, hi32 x.lastFrame.toNat, w32 x.missed, i32 x.target, x.applyLo,
   packW [(hAddr x.header, 16), (holdLeft s, 0)], w32 (hDelay x.header)]

/-- ROPE_QUERY (R348). -/
def execRopeQuery (r : Req) : State → Out :=
  mailbox { op := 0x0503, onMb := mbHigh, lenOk := (· = 0) } r (asks fun s => okR (ropeWords s))

/-- LINK of R349. -/
def LinkSt.num : LinkSt → Nat
  | .down => 0
  | .training => 1
  | .up => 2
  | .heldDown => 3

/-- The response of ROPE_PORT_QUERY (R349). What the port's SerDes and rope domain hold reads zero while they are gated, and so does what
the CMIS masters have read (R65, entry 158). -/
def portWords (s : State) (p : Nat) : List Word :=
  let x := portOf s p
  let open_ := if portRope p then s.rope.openB else s.rope.openA
  let n (b : Bool) (v : Nat) : Nat := if b then v else 0
  let g := gateOn s p
  let c := gateOn s 11
  [packW [(p, 24), (n g x.link.num, 16), (n g x.lanes.toNat, 12), (b2n x.present, 11), (n c (b2n x.cmisOk), 10), (b2n open_, 9)],
   w32 (n g x.corr), w32 (n g x.uncorr), w32 (n g x.crcErr), w32 (n g x.delay), packW [(n g x.fails, 0)],
   packW [(n c x.temp.toNat, 0)]]

/-- ROPE_PORT_QUERY (R349). -/
def execRopePortQuery (r : Req) : State → Out :=
  mailbox { op := 0x0504, onMb := mbHigh, lenOk := (· = 1) } r (asks fun s =>
    if fld (r.w 2) 2 30 ≠ 0 then errR .range 2 else okR (portWords s (fld (r.w 2) 0 2)))

/-- The checks of ROPE_CMIS, in the order of R350. -/
def ropeCmisBad (s : State) (r : Req) : Option Answer :=
  let n := fld (r.w 3) 0 8
  let wr := bit (r.w 2) 31
  firstErr
    [rangeBad [(decide (fld (r.w 2) 26 5 ≠ 0), 2),
       (decide (fld (r.w 3) 16 16 ≠ 0) || (if wr then decide (n ≠ 0) else decide (n = 0 ∨ 128 < n)), 3)],
     if 256 < fld (r.w 2) 0 8 + n then some (errR .badLen 1) else none,
     if wr && fnRunning s fROPE then some (errR .state 0) else none,
     (claimConflict s fROPE [0x300 + fld (r.w 2) 24 2]).map fun c => conflictR c.1 c.2]

/-- The CMIS masters run (R68: they take the slow domain). -/
def cmisRuns (s : State) : Bool := decide ((s.clk.domains.getD 17 {}).declared = .none)

/-- What the masters read: zero while they are gated (R65), no answer while their domain is stopped or off-frequency (R68). -/
def cmisReply (s : State) (n : Nat) (reply : CmisReply) : CmisReply :=
  if !gateOn s 11 then .bytes (List.replicate n 0) else if cmisRuns s then reply else .noAnswer

/-- CMIS_POLL (R323): the first access after START selects an application, where the cable advertises one with four host lanes at
200 Gbit/s; later ones read the lane flags and the temperature. An access that fails, or a cable without such an application, writes
record 0x0509, and the port runs on the cable's default data path. Idle unless ROPE starts or runs. -/
def execCmisPoll (port : Fin 4) (poll : CmisPoll) (s : State) : Out :=
  let p := port.val
  let first := !(portOf s p).asked
  if !(fnRunning s fROPE || decide (s.rope.starting ≠ .no)) || !cmisRuns s then .next s
  else
    let s := portMod p (fun y => { y with
      asked := true, cmisOk := if first then poll.answered && poll.app else y.cmisOk,
      temp := if poll.answered then poll.temp else y.temp }) s
    let s := if !poll.answered || (first && !poll.app) then ropeRecord 1 0x0509 p (portRope p) 0 s else s
    .next (if poll.answered && poll.lossOfLock then linkFail p s else s)

/-- A byte is written to a cable; gated masters drop the write (R65). -/
def cmisWrite (port bank page off data : Nat) (s : State) : State :=
  if !gateOn s 11 then s
  else ropeMod (fun x => { x with cmisOut := ((port, bank, page, off, data) :: x.cmisOut).take 64 }) s

/-- ROPE_CMIS (R350); an access without an answer also writes record 0x0509 (R352). -/
def execRopeCmis (r : Req) (reply : CmisReply) : State → Out :=
  mailbox { op := 0x0505, onMb := mbHigh, lenOk := (· = 2), acts := [fROPE] } r fun s =>
    guardE (ropeCmisBad s r) s fun s =>
      match cmisReply s (fld (r.w 3) 0 8) reply with
      | .noAnswer =>
        let p := fld (r.w 2) 24 2
        (ropeRecord 1 0x0509 p (portRope p) 0 s, errR .timeout 0)
      | .bytes bs =>
        if bit (r.w 2) 31 then
          (cmisWrite (fld (r.w 2) 24 2) (fld (r.w 2) 16 8) (fld (r.w 2) 8 8) (fld (r.w 2) 0 8) (fld (r.w 3) 8 8) s, okR [])
        else (s, okR (wordsOf (fit (fld (r.w 3) 0 8) 0 bs)))

/-- ROPE_READ (R351): lines of the landed frame: the one that the module sees, or before it sees one of its own the newest that it has landed. A
module that has landed none since it took headship answers E_STATE (entry 163). -/
def execRopeRead (r : Req) : State → Out :=
  mailbox { op := 0x0506, onMb := mbHigh, lenOk := (· = 1) } r fun s =>
    let n := fld (r.w 2) 16 16
    let f := fld (r.w 2) 0 16
    if n = 0 ∨ 63 < n then (s, errR .range 2)
    else if !headsRope s then (s, roleR s)
    else if 19 + s.rope.cfg.members < f + n then (s, errR .badLen 1)
    else
      let lines (fr : List Word) : Answer :=
        okR ([fr.getD 1 0, fr.getD 2 0] ++ fit (16 * n) 0 (fr.drop (16 * f)))
      if s.rope.seen then
        let v := seeAs .clerk s
        let base := aPublished + 0x40000
        let size := 64 * s.rope.landedLines
        match clerkRead s (currentCopy v base size) size with
        | some t => (t, errR .fault 0)
        | none => (s, lines (copyWords v base size))
      else match s.rope.arriving.getLast? with
        | some x => (s, lines x.2)
        | none => (s, errR .state 1)

end Sys2Proof.Machine
end

