-- ==== Sys2Proof/Machine/Pair.lean ====
section
/-! DEFINITION. Active–standby pairing: the grant, heartbeats, the decisions of R508, takeover, handover, the standby mirror and
host loss (R500 to R530). -/

namespace Sys2Proof.Machine

/-- Changes the pair's own state. -/
def pairMod (f : Pair → Pair) (s : State) : State := { s with pair := f s.pair }

/-- PSTATE as beats carry it (R505). -/
def PState.num : PState → Nat
  | .standby => 0
  | .claiming => 1
  | .active => 2
  | .releasing => 3

/-- An event record of PAIR (R530): the stroke and a detail. -/
def pairRecord (sev code : Nat) (detail : Word) (s : State) : State := emit sev fPAIR code [strokeLo s, detail] s

/-! ### AUTH_REQ and PSTATE (R500, R502, R512) -/

/-- R502: the conditions under which AUTH_REQ is high. -/
def reqWanted (s : State) : Bool :=
  fnRunning s fPAIR && decide (s.pair.pstate = .claiming ∨ s.pair.pstate = .active) && !vetoed s &&
  decide ((s.clk.domains.getD 2 {}).declared = .none)

/-- R502: AUTH_REQ takes its level. -/
def reqUpdate (s : State) : State := pairMod (fun p => { p with req := reqWanted s }) s

/-- R512: the module gives authority up: PSTATE changes, and leaving ACTIVE stops the converter under R378. -/
def giveUp (new : PState) (s : State) : State :=
  let was := s.pair.active
  let s := pairLeave new new.num s
  if was then refSelect (estRoleChange (stageGrantLost s)) else s

/-- R508: a claim begins for a row of the table. -/
def claim (row : Nat) (s : State) : State :=
  pairMod (fun p => { p with claimAge := 0, claimRow := row, claimRec := false }) (giveUp .claiming s)

/-! ### Beats received (R506, R507, R509) -/

/-- Fields of a beat. -/
def bPstate (b : Line) : Nat := fld (b.getD 0 0) 14 2
def bGnt (b : Line) : Bool := bit (b.getD 0 0) 13
def bVeto (b : Line) : Bool := bit (b.getD 0 0) 12
def bSync (b : Line) : Bool := bit (b.getD 0 0) 11
def bSlot (b : Line) : Nat := fld (b.getD 0 0) 10 1
def bRole (b : Line) : Nat := fld (b.getD 0 0) 8 2
def bRun (b : Line) : Bool := bit (b.getD 0 0) 6
def bAddrSet (b : Line) : Bool := bit (b.getD 0 0) 5
def bSeq (b : Line) : Nat := fld (b.getD 0 0) 16 8
def bAddr (b : Line) : Nat := fld (b.getD 2 0) 0 11

/-- R324: the other address of the shelf. -/
def partnerAddr (s : State) : Nat := if s.rope.cfg.addr % 2 = 0 then s.rope.cfg.addr + 1 else s.rope.cfg.addr - 1

/-- R506: a beat is valid. -/
def beatOk (s : State) (path : HbPath) (b : Line) (crcOk : Bool) : Bool :=
  crcOk && decide (fld (b.getD 0 0) 24 8 = 0xB7) && (decide (path = .hb) || decide (bAddr b = partnerAddr s))

/-- The receiver of a path works: HB by its gate and the slow domain (R65, R68), rope while the ports are connected (R45). -/
def pathOpen (s : State) : HbPath → Bool
  | .hb => gateOn s 20 && decide ((s.clk.domains.getD 17 {}).declared = .none)
  | .rope => onRope s

/-- R509, R507: what a beat shows that differs from the module's own configuration: periods or slot, and role or address. -/
def beatDiffers (s : State) (b : Line) : Bool × Bool :=
  let w := b.getD 2 0
  ((bRun b && (decide (fld w 25 7 ≠ s.pair.cfg.hbPeriod) || decide (fld w 21 4 ≠ s.pair.cfg.hbMiss))) ||
     decide (bSlot b = b2n s.pair.slot1),
   fnRunning s fROPE && (decide (bRole b ≠ s.clerk.ropeRole) || (bAddrSet b && decide (bAddr b ≠ partnerAddr s))))

/-- R507, R509: CFG_MISMATCH follows the newest beat (entry 50); every beat that differs writes record 0x0A09, one for periods or slot and
one for role or address. -/
def mismatchStep (b : Line) (s : State) : State :=
  let d := beatDiffers s b
  let rec_ (role : Bool) (s : State) : State := pairRecord 1 0x0A09 (packW [(b2n role, 16), (fld (b.getD 2 0) 21 11, 0)]) s
  let s := pairMod (fun p => { p with cfgMismatch := d.1 || d.2 }) s
  let s := if d.1 then rec_ false s else s
  if d.2 then rec_ true s else s

/-- R506: a path turns silent or alive, with record 0x0A03; the change sets or clears the path's alarm. -/
def pathSet (path : HbPath) (silent : Bool) (s : State) : State :=
  let rope := decide (path = .rope)
  let was := if rope then s.pair.silentRope else s.pair.silentHb
  if was = silent then s
  else
    let s := pairMod (fun p => if rope then { p with silentRope := silent, alarmRope := silent } else { p with silentHb := silent, alarmHb := silent }) s
    pairRecord 2 0x0A03 (packW [(b2n rope, 8), (b2n silent, 0)]) s

/-- The newest beat is noted; R508 row 3 counts the consecutive beats, told apart by SEQ, that show GNT while this module
holds the grant. -/
def beatNote (path : HbPath) (b : Line) (s : State) : State :=
  let hb := decide (path = .hb)
  let dup := match s.pair.beat with
    | some o => decide (bSeq o = bSeq b)
    | none => false
  let run := if bGnt b && s.pair.gnt then (if dup then max 1 s.pair.gntBeats else s.pair.gntBeats + 1) else 0
  let s := pairMod (fun p => { p with
    beat := some b, beatAge := 0, beatOnHb := hb, gntBeats := run, hbBeat := if hb then some b else p.hbBeat,
    sinceHb := if hb then some 0 else p.sinceHb, sinceRope := if hb then p.sinceRope else some 0 }) s
  if hb then { s with clk := { s.clk with hbClock := true } } else s

/-- PAIR enters STOPPED and releases its claims; its STOP answers. -/
def pairStopped (s : State) : State :=
  let s := reqUpdate (fnSet fPAIR .stopped 0 (claimRelease fPAIR (giveUp .standby s)))
  answer (.funcStop fPAIR) .ok 0 [] (pairMod (fun p => { p with handover := .no }) s)

/-- R513, R525, R529: after a release, a beat that shows ACTIVE ends the handover. -/
def handoverSeen (b : Line) (s : State) : State :=
  match s.pair.handover with
  | .released cmd _ _ =>
    if bPstate b ≠ 2 then s
    else
      let s := pairMod (fun p => { p with handover := .no, handovers := satAdd 65535 p.handovers 1 }) s
      let s := if s.pair.pstate = .releasing then giveUp .standby s else s
      if cmd then answer .handover .ok 0 [] s else pairStopped s
  | _ => s

/-- BEAT_RECEIVED (R506, R507, R509). -/
def execBeatReceived (path : HbPath) (words : Line) (crcOk : Bool) (s : State) : Out :=
  if s.power.life ≠ .up || !pathOpen s path then .next s
  else if !beatOk s path words crcOk then
    let s := if crcOk ∨ path = .hb then s else crcFail (partnerPort s) 1 s
    .next (pairMod (fun p => { p with bad := satAdd (2 ^ 32 - 1) p.bad 1 }) s)
  else .next (handoverSeen words (mismatchStep words (pathSet path false (beatNote path words s))))

/-- The strokes that pass without a valid beat before a path is silent (R506). -/
def missLimit (s : State) : Nat := s.pair.cfg.hbMiss * s.pair.cfg.hbPeriod

/-- Strokes since the last valid beat on a path. -/
def sinceBeat (s : State) : HbPath → Option Nat
  | .hb => s.pair.sinceHb
  | .rope => s.pair.sinceRope

/-- PATH_SILENT (R506, R77): the path has passed its strokes without a valid beat, or the HB_RX clock is lost. -/
def execPathSilent (path : HbPath) (s : State) : Out :=
  let due := match sinceBeat s path with
    | some n => decide (missLimit s ≤ n)
    | none => true
  if s.power.life ≠ .up || (decide (path = .rope) && !due) then .next s
  else
    let s := if path = .hb then { s with clk := { s.clk with hbClock := false } } else s
    .next (pathSet path true s)

/-- A stroke ends: the strokes since the beats count on, and a path past its limit, or whose receiver is stopped, is silent. -/
def pathsBoundary (s : State) : State :=
  let s := pairMod (fun p => { p with
    sinceHb := p.sinceHb.map fun n => min 65535 (n + 1), sinceRope := p.sinceRope.map fun n => min 65535 (n + 1),
    beatAge := min 65535 (p.beatAge + 1), claimAge := p.claimAge + 1, listen := p.listen - 1 }) s
  let late (path : HbPath) (t : State) : Bool := match sinceBeat t path with
    | some n => decide (missLimit t < n)
    | none => true
  let s := if late .hb s || !pathOpen s .hb then pathSet .hb true s else s
  if late .rope s then pathSet .rope true s else s

/-! ### The grant (R39, R110, R378, R397, R417, R508) -/

/-- R110: vector 6 for a change of AUTH_GNT. Until PAIR has first started since the reset the pin is ignored (R48). -/
def grantVector (s : State) : State := if s.pair.begun && decide (s.power.life = .up) then msixDue 6 s else s

/-- R110: the record behind vector 6 where no rule writes one for the change: a grant that rises while PAIR is not RUNNING (0x0A0C), and one
that falls on a module that is not ACTIVE and whose STAGE does not run (0x0A02), since R508, R511, R512 and R378 write theirs otherwise
(entry 138, DESIGN CHOICE). -/
def grantRecord (rise : Bool) (s : State) : State :=
  if !s.pair.begun || decide (s.power.life ≠ .up) then s
  else if rise then (if fnRunning s fPAIR then s else pairRecord 3 0x0A0C 1 s)
  else if (fnRunning s fPAIR && s.pair.active) || fnRunning s fSTAGE then s
  else pairRecord 1 0x0A02 (w32 s.pair.pstate.num) s

/-- GRANT_LOST (R39, R378): the converter parks, the chains stop transmitting, an anchor hold and open learning cycles end. -/
def execGrantLost (s : State) : Out :=
  if !s.pair.gnt then .next s
  else
    let s := grantRecord false (grantVector (pairMod (fun p => { p with gnt := false, gntBeats := 0, unusedRec := false }) s))
    .next (estRoleChange (holdEnd false (chainGrantLost true (chainGrantLost false (stageGrantLost s)))))

/-- GRANT_RISE (R508, R417): vector 6; the chains run bring-up before their next sweep. -/
def execGrantRise (s : State) : Out :=
  if s.pair.gnt then .next s
  else if s.power.life ≠ .up then .next (pairMod (fun p => { p with gnt := true }) s)
  else
    let s := grantRecord true (grantVector (pairMod (fun p => { p with gnt := true, gntBeats := 0 }) s))
    .next (estRoleChange (chainGrantRise true (chainGrantRise false s)))

/-! ### Vetoes of the Clerk watchdog (R504) -/

/-- WATCHDOG_VETO (R503, R504): two strokes without a token latch veto 0x06. -/
def execWatchdogVeto (s : State) : Out :=
  if s.pair.noToken < 2 then .next s else .next (vetoLatch 6 s)

/-! ### Beats sent (R505, R507) -/

/-- The words of a beat. -/
def beatWords (s : State) (idle : Bool) : Line :=
  let p := s.pair
  let ps := if idle then 0 else if fnFaulted s fPAIR then 3 else p.pstate.num
  let mirror := if p.pstate = .active then p.mirrorSent.toNat else ((p.mirrored.map (·.toNat)).getD 0)
  [packW [(0xB7, 24), (p.seq.toNat, 16), (ps, 14), (b2n p.gnt, 13), (b2n (vetoed s), 12), (b2n p.sync, 11), (b2n p.slot1, 10),
     (s.clerk.ropeRole, 8), (b2n s.link.hostLoss, 7), (b2n !idle, 6), (b2n s.rope.cfg.addrSet, 5)],
   strokeLo s, packW [(p.cfg.hbPeriod, 25), (p.cfg.hbMiss, 21), (s.rope.cfg.addr, 0)],
   packW [(if vetoed s then p.firstVeto else 0, 24), (mirror % 2 ^ 24, 0)]]

/-- R505: a beat on HB_TX: preamble, the 16 bytes, and their CRC-16 as R399 computes and sends it. -/
def beatFrame (w : Line) : List Byte :=
  let bs := bytesOf w
  let c := chainCrc bs
  (0xFF : Byte) :: 0x7E :: bs ++ [(c >>> 8).setWidth 8, c.setWidth 8]

/-- BEAT_SEND (R505, R507): a beat leaves at the boundary into stroke `k`, on HB_TX and, in one line addressed to the partner, on both
ropes, if CP0 has written its token or a veto is latched. -/
def beatSend (k : Nat) (token : Bool) (s : State) : State :=
  let idle := !fnLive s fPAIR
  let due := if idle then gateOn s 20 else decide (k % s.pair.cfg.hbPeriod = 0)
  let hb := gateOn s 20 && decide ((s.clk.domains.getD 17 {}).declared = .none)
  if due && (hb || onRope s) && (token || vetoed s) then
    let w := beatWords s idle
    pairMod (fun p => { p with
      lastBeat := w, hbOut := if hb then beatFrame w else [],
      ropeBeat := if onRope s then some (partnerAddr s, fit 16 0 w) else none, seq := p.seq + 1, beatsSent := p.beatsSent + 1 }) s
  else pairMod (fun p => { p with hbOut := [], ropeBeat := none }) s

/-! ### The mirror (R514 to R516) -/

/-- The state areas of a package that the boundary after stroke `k` has committed (R514): list and area index, base and size. -/
def dueAreas (k : Nat) (s : State) (p : Pkg) : List (Nat × Nat × Nat × Nat) :=
  (p.listIds.mapIdx fun i id => match instOf s id with
    | some l => (l.areas.mapIdx fun j x =>
        let b := (l.bases x).headD x.base
        if x.state && validOf s b && decide (commitOf s b = k + 1) then [(i, j, b, x.size)] else []).flatten
    | none => []).flatten

/-- Those areas as mirror items; one with an uncorrectable word is not sent (R192, entry 162). -/
def mirrorAreas (k : Nat) (s : State) (p : Pkg) : List MirrorItem :=
  ((dueAreas k s p).filter fun x => (areaDamage s x.2.2.1 x.2.2.2).isNone).map fun x =>
    .stateArea p.modelId x.1 x.2.1 (memWords s x.2.2.1 16) (memRead s (currentCopy s x.2.2.1 x.2.2.2) x.2.2.2)

/-- The estimator as the mirror carries it. -/
def mirrorEst (s : State) : MirrorItem :=
  .estimator ((cellsInUse s).map fun i =>
      let c := cellAt s i
      { cell := i, c := c.c, r := c.r, u := c.u, q := c.q, v1 := c.v1, v2 := c.v2 })
    (iNow s) ((List.range 8).map fun n => (strAt s n).cycle.map fun c =>
      { startC := c.startC, startQ := c.startQ, startAbs := c.startAbs, startAt := c.startAt })

/-- The target state as the mirror carries it: the shelf's target, or the rope's on a manager pair (R17). -/
def mirrorTarget (rope : Bool) (s : State) : MirrorItem :=
  let t := if rope then s.pipe.ropeTarget else s.pipe.target
  .target rope (ratRound .nearest t.value) t.targeted (t.ramp.map fun r => (ratRound .nearest r.1, (ratRound .nearest r.2).toNat))
    (s.pipe.pend.map fun p => (p.scope, p.value, p.ramp, p.at_)) (if s.link.hostLoss then some s.link.holdLeft else none)

/-- R514: the items that the ACTIVE module sends for stroke `k`, in which LEDGER was in state `live`. -/
def mirrorItems (k : Stroke) (sums : List OutSum) (tags : List Word) (live : FState) (spread head : Bool) (s : State) : List MirrorItem :=
  (s.pipe.pkgs.flatMap (mirrorAreas k.toNat s)) ++
  (if fnRunning s fEST && validOf s aEstArea && decide (commitOf s aEstArea = k.toNat + 1) then [mirrorEst s] else []) ++
  (if live = .off ∨ fnFaulted s fLEDGER then [] else
    [.ledgerStroke k (if live = .running then tags else List.replicate 24 jGAP)
       (sums.map fun x => [x.vi, x.v, x.i, x.w]) (sums.map (·.ovr)) (if spread then some s.clk.sscPpm else none)]) ++
  (if s.ledger.live = .off then [] else [.ledgerTags s.ledger.tags s.ledger.pend]) ++
  [mirrorTarget false s] ++
  (if head then
    mirrorTarget true s :: if s.rope.solved && (areaDamage s aTargetsHead 8256).isSome then []
      else [.allocation (if s.rope.solved then (targetsOf s).map (·.toInt) else []) s.rope.landed s.rope.solved s.rope.stateA.num
        s.rope.stateB.num] else [])

/-- R513 step 2: the module gives authority up for a handover at this very boundary, at which it sends its last mirror. -/
def handsNow (s : State) : Bool := match s.pair.handover with
  | .released _ since _ => decide (since = s.clk.stroke) && decide (s.pair.pstate = .releasing)
  | _ => false

/-- The ACTIVE module sends its mirror over the rope, and one that hands over sends its last. A stroke that LEDGER had not to add, or lost,
is not among them (R486, R487). -/
def mirrorSend (k : Stroke) (sums : List OutSum) (tags : List Word) (live : FState) (spread : Bool) (s : State) : State :=
  if (s.pair.active || handsNow s) && onRope s && fnLive s fPAIR then
    let s := areasMeet ((s.pipe.pkgs.flatMap (dueAreas k.toNat s)).map fun x => (x.2.2.1, x.2.2.2)) s
    pairMod (fun p => { p with
      mirrorOut := mirrorItems k sums tags live spread (decide (s.clerk.ropeRole = 2)) s ++ p.mirrorCloses.map MirrorItem.ledgerClose,
      mirrorCloses := [], mirrorSent := k }) s
  else s

/-- The same state area, by MODEL_ID, list and area index. -/
def sameArea : MirrorItem → MirrorItem → Bool
  | .stateArea m i j _ _, .stateArea n k l _ _ => decide (m = n) && decide (i = k) && decide (j = l)
  | _, _ => false

/-- A mirrored state area is kept as the newest content of its area. One whose package the standby does not hold sets PKG_MISMATCH
(R515). -/
def areaKeep (x : MirrorItem) (modelId : Nat) (s : State) : State :=
  let known := s.pipe.pkgs.any fun p => decide (p.modelId = modelId)
  pairMod (fun p => { p with
    mirrorAreas := x :: p.mirrorAreas.filter (fun y => !sameArea x y), pkgMismatch := p.pkgMismatch || !known }) s

/-- A mirrored state area replaces the current copy and the status line (R514). -/
def areaApply (modelId i j : Nat) (status : Line) (copy : List Byte) (s : State) : State :=
  match (s.pipe.pkgs.find? fun p => p.modelId = modelId).bind fun p => (p.listIds[i]?).bind fun id => instOf s id with
  | none => s
  | some l =>
    match l.areas[j]? with
    | none => s
    | some x =>
      if !x.state then s
      else (l.bases x).foldl (fun t b =>
        seenBytes .clerk (b + 64 + b2n (bit (status.getD 0 0) 24) * x.size) (copy.take x.size)
          (seenWords .clerk b (fit 16 0 status) t)) s

/-- Mirrored cells of the estimator (R449); learned capacities go into the standby's own NOR as well. -/
def estApply (cells : List CellMirror) (open_ : List (Option CycleMirror)) (s : State) : State :=
  if !fnRunning s fEST then s
  else
    let learned := cells.any fun m => decide ((cellAt s m.cell).q ≠ m.q)
    let s := cells.foldl (fun t m =>
      cellPut m.cell (fun c => { c with c := m.c, r := m.r, u := m.u, q := m.q, v1 := m.v1, v2 := m.v2, inited := true }) t) s
    let s := if learned then capacityDue s else s
    let one (n : Nat) (x : StrSt) : StrSt :=
      { x with cycle := (open_.getD n none).map fun c =>
          { startC := c.startC, startQ := c.startQ, startAbs := c.startAbs, startAt := c.startAt } }
    estMod (fun e => { e with strs := e.strs.mapIdx one }) s

/-- A ledger cell of a snapshot. -/
def LedgerMirror.cell (m : LedgerMirror) : LCell :=
  { job := m.job, out := m.out, lineN := m.lineN, lineS := m.lineS, hasS := m.lineS.any fun v => v ≠ 0,
    strokes := m.strokes, ovr := m.ovr, damaged := m.damaged }

/-- Cells for jobs that mirrored tags name and the table does not hold. -/
def cellsFor (pairs : List (Word × Nat)) (s : State) : State :=
  pairs.foldl (fun t p =>
    if (lcell t p.1 p.2).isSome then t
    else ldMod (fun l => { l with
      cells := l.cells ++ [{ job := p.1, out := p.2 }],
      jobs := if isReserved p.1 || l.jobs.contains p.1 then l.jobs else l.jobs ++ [p.1] }) t) s

/-- A rope state by its number (R348 STATE_A). -/
def ropeStOf : Nat → RopeSt
  | 1 => .whole
  | 2 => .wrapped
  | 3 => .broken
  | _ => .noFrames

/-- One mirrored item takes effect at the standby (R449, R486, R514, R520). -/
def itemApply (x : MirrorItem) (s : State) : State :=
  let ledger := fnRunning s fLEDGER
  match x with
  | .stateArea m _ _ _ _ => areaKeep x m s
  | .estimator cells i open_ => pairMod (fun p => { p with mirrorI := i }) (estApply cells open_ s)
  | .ledgerStroke k jobs sums ovr spread =>
    if !ledger then s
    else
      let xs := sums.mapIdx fun n l =>
        { vi := l.getD 0 0, v := l.getD 1 0, i := l.getD 2 0, w := l.getD 3 0, ovr := ovr.getD n false : OutSum }
      let s := cellsFor (jobs.mapIdx fun n j => (j, n)) s
      ldMod (fun l => { l with lastAdded := k }) (strokeAdd jobs xs spread s)
  | .ledgerTags tags pend =>
    if !ledger then s
    else
      let named := (tags.mapIdx fun n j => (j, n)) ++ (pend.mapIdx fun n p => (p.map fun q => (q.1, n))).filterMap id
      ldMod (fun l => { l with tags := fit 24 jUNTAGGED tags, pend := fit 24 none pend }) (cellsFor named s)
  | .ledgerTable cells =>
    if !ledger then s
    else
      let cs := cells.map LedgerMirror.cell
      ldMod (fun l => { l with
        cells := reservedCells.map (fun c => (cs.find? (·.of c.job c.out)).getD c) ++ cs.filter fun c => !isReserved c.job
        sscS := cells.foldl (fun acc m => match m.ssc with
          | some p => sscNote m.job p acc
          | none => acc) []
        jobs := (cs.map (·.job)).foldl (fun acc j => if isReserved j || acc.contains j then acc else acc ++ [j]) [] }) s
  | .ledgerClose job => if ledger then jobClose job s else s
  | .target rope v targeted ramp pend hold =>
    let t : TargetSt := { (if rope then s.pipe.ropeTarget else s.pipe.target) with
      value := v, targeted := targeted, ramp := ramp.map fun r => ((r.1 : Rat), (r.2 : Rat)) }
    let q := pend.map fun p => { scope := p.1, value := p.2.1, ramp := p.2.2.1, at_ := p.2.2.2 : TargetPend }
    let s := pairMod (fun p => { p with mirrorHold := hold }) s
    if rope then { s with pipe := { s.pipe with ropeTarget := t, pend := q } }
    else { s with pipe := { s.pipe with target := t, pend := q } }
  | .allocation targets landed solved a b =>
    if s.clerk.ropeRole ≠ 2 then s
    else
      let s := if solved then publishLater s.clk.stroke.toNat aTargetsHead 8256 (fit 2064 0 (targets.map i32)) s else s
      ropeMod (fun x => { x with landed := landed, solved := solved, stateA := ropeStOf a, stateB := ropeStOf b }) s

/-- The module takes mirror lines: PAIR runs and it is not ACTIVE. -/
def mirrorTaker (s : State) : Bool := fnRunning s fPAIR && !s.pair.active

/-- MIRROR_RECEIVED (R514): a standby keeps the lines until its boundary; the ACTIVE module takes a TARGET_SET that its
standby passes on (R517). -/
def execMirrorReceived (stroke : Stroke) (lines : MirrorLines) (s : State) : Out :=
  if s.power.life ≠ .up || !onRope s then .next s
  else if lines.crcFails ≠ 0 then .next (crcFail (partnerPort s) lines.crcFails s)
  else if mirrorTaker s then .next (pairMod (fun p => { p with mirrorIn := p.mirrorIn ++ [(stroke, lines.items)] }) s)
  else if s.pair.active then
    .next (lines.items.foldl (fun t x => match x with
      | .target _ _ _ _ (some p) _ =>
        { t with pipe := { t.pipe with pend := some { scope := p.1, value := p.2.1, ramp := p.2.2.1, at_ := p.2.2.2 } } }
      | _ => t) s)
  else .next s

/-- R515 MIRROR_LAG of a standby; before it has applied a stroke the manual gives no number: free, above every lag that a rule
acts on. -/
def mirrorLag (s : State) : Nat :=
  match s.pair.mirrored with
  | some m => min 65535 (s.clk.stroke - m).toNat
  | none => 65 + Config.mirrorLagOpen s.clk.stroke % 65471

/-- R515: a package that holds state areas on the active module is not loaded here with the same digest. -/
def pkgDiffers (s : State) : Bool :=
  s.pair.pkgNeeds.any fun n => !s.pipe.pkgs.any fun p => decide (p.modelId = n.modelId) && decide (p.digest = n.digest)

/-- R515: PKG_MISMATCH and SYNC, with record 0x0A08 for each change of SYNC. -/
def syncUpdate (s : State) : State :=
  let s := pairMod (fun p => { p with
    pkgMismatch := mirrorTaker s && (pkgDiffers s || p.mirrorAreas.any fun x => match x with
      | .stateArea m _ _ _ _ => !s.pipe.pkgs.any fun q => decide (q.modelId = m)
      | _ => false) }) s
  let new := mirrorTaker s && s.pair.snapshot && !s.pair.pkgMismatch && !s.pair.silentRope && decide (mirrorLag s ≤ 4)
  let was := s.pair.sync
  let s := pairMod (fun p => { p with sync := new, snapshot := p.snapshot && new }) s
  if new = was then s else pairRecord 1 0x0A08 (w32 (b2n new)) s

/-- The items of a mirrored stroke take effect. -/
def itemsApply (k : Stroke) (items : List MirrorItem) (s : State) : State :=
  let est := items.any fun x => match x with
    | .estimator _ _ _ => true
    | _ => false
  let s := items.foldl (fun u x => itemApply x u) s
  pairMod (fun p => { p with mirrored := some k, mirrorEstAt := if est then some k else p.mirrorEstAt }) s

/-- R514: every mirrored state area has its newest mirrored content. -/
def areasApply (s : State) : State :=
  s.pair.mirrorAreas.foldl (fun t x => match x with
    | .stateArea m i j status copy => areaApply m i j status copy t
    | _ => t) s

/-- R514: mirror lines that have arrived take effect at the standby's boundary, after the commits of its own runs, and every mirrored
state area takes its newest content again. -/
def mirrorBoundary (s : State) : State :=
  let ins := s.pair.mirrorIn
  let s := pairMod (fun p => { p with mirrorIn := [] }) s
  if mirrorTaker s then writesLand (areasApply (ins.foldl (fun t m => itemsApply m.1 m.2 t) s)) else s

/-- SNAPSHOT_REQUEST (R515): a standby out of SYNC with a living rope path requests and applies a full snapshot, which names the packages
that hold state areas on the active module. -/
def execSnapshotRequest (stroke : Stroke) (items : List MirrorItem) (packages : List PkgNeed) (s : State) : Out :=
  if s.power.life ≠ .up || !mirrorTaker s || s.pair.sync || s.pair.silentRope then .next s
  else
    let s := areasApply (itemsApply stroke items s)
    .next (syncUpdate (pairMod (fun p => { p with
      snapshot := true, pkgNeeds := packages,
      mirrorIn := p.mirrorIn.filter fun m => stroke < m.1 }) s))

/-! ### Takeover (R511, R516) -/

/-- R516: EST continues from the newest mirrored state; the charge of the strokes after it is I_NOW times their length, and every U
grows by that charge. The next run covers those strokes. -/
def estTakeover (s : State) : State :=
  match s.pair.mirrorEstAt with
  | none => s
  | some k =>
    if !fnRunning s fEST then s else
    let us : Rat := ((now s - k.toNat) * s.clk.strokeDiv : Nat) / (100 : Rat)
    let s := estMod (fun e => { e with lastRun := some k, lastQ := s.stage.qCmd, lastAbs := s.stage.qAbs }) s
    let q := ratRound .nearest (f32Rat s.pair.mirrorI * us)
    let s := (cellsInUse s).foldl (fun t i => cellPut i (fun c =>
      if c.q = 0 then c else { c with u := min 1 (c.u + mkRat q.natAbs 1000000 / (3600 * c.q)) }) t) s
    stMod (fun x => { x with qCmd := x.qCmd + q, qAbs := x.qAbs + q.natAbs }) s

/-- R520: the new active module goes on with the host-loss count that it has mirrored, while its own host is lost as well; a hold that expired
while it stood by, when the target was its partner's, expires for it now. -/
def hostLossTakeover (s : State) : State :=
  if !s.link.hostLoss then s
  else { s with link := { s.link with holdLeft := s.pair.mirrorHold.getD s.link.holdLeft, holdExpired := false } }

/-- R511: Posin starts STAGE by itself; a START that fails, or that a declared domain faults (R68), writes record 0x0A06. -/
def autoStart (s : State) : State :=
  if s.pair.cfg.autoStart && decide (fnState s fSTAGE = .stopped) then
    if (s.clk.domains.getD 15 {}).declared ≠ .none then
      pairRecord 3 0x0A06 (packW [(Code.fault.num, 8), (fSTAGE, 0)]) (fnFault fSTAGE 0x0608 s)
    else match stageStartBad s with
    | none => stageStart s
    | some (.now c d _) => pairRecord 3 0x0A06 (packW [(c.num, 8), (d, 0)]) s
    | some (.later _) => s
  else s

/-- AUTHORITY_TAKEN (R511): the module takes ACTIVE: record 0x0A01, vector 6, headship, the ledger and the estimator from the
mirror, and STAGE. -/
def takeActive (s : State) : State :=
  let lag := mirrorLag s
  let row := s.pair.claimRow
  let s := hostLossTakeover (ledgerTakeover lag (estRoleChange (estTakeover s)))
  let s := pairMod (fun p => { p with
    mirrorAreas := [], mirrorEstAt := none, mirrorHold := none,
    pstate := .active, active := true, change := s.clk.stroke, gntBeats := 0, snapshot := false,
    takeovers := if 6 ≤ row ∧ row ≤ 8 then satAdd 65535 p.takeovers 1 else p.takeovers }) s
  let s := msixDue 6 (pairRecord 1 0x0A01 (w32 row) s)
  autoStart (refSelect s)

/-! ### Decisions (R508, R509, R513) -/

/-- The newest beat, as "partner shows" reads it. -/
def shows (s : State) (f : Line → Bool) : Bool := match s.pair.beat with
  | some b => f b
  | none => false

/-- R508 rows 6 to 8: the row by which a STANDBY claims, if any. -/
def claimsBy (s : State) : Option Nat :=
  if s.pair.listen ≠ 0 then none
  else if shows s fun b => bVeto b || decide (bPstate b = 3) || !bRun b then some 6
  else if s.pair.silentHb && s.pair.silentRope then some 7
  else if (shows s fun b => decide (bPstate b = 0) && !bVeto b && (!s.pair.slot1 || decide (bSlot b = 1))) then some 8
  else none

/-- R508 rows 2 to 4: an ACTIVE module. -/
def activeStep (s : State) : State :=
  if !s.pair.gnt then pairRecord 3 0x0A04 2 (giveUp .standby s)
  else if s.pair.gntBeats < 2 then s
  else if s.pair.slot1 then
    let s := pairMod (fun p => { p with handover := .no }) (fnFault fPAIR 0x0A01 (giveUp .releasing s))
    answer .handover .fault fPAIR [] (answer (.funcStop fPAIR) .fault fPAIR [] s)
  else pairRecord 3 0x0A0C 2 s

/-- R508 rows 5 to 9: a STANDBY. -/
def standbyStep (s : State) : State :=
  if s.pair.gnt then
    if s.pair.unusedRec then s else pairRecord 3 0x0A0C 1 (pairMod (fun p => { p with unusedRec := true }) s)
  else match claimsBy s with
    | some row => claim row s
    | none => s

/-- R508 rows 10 to 13: a CLAIMING module. -/
def claimingStep (s : State) : State :=
  let us := s.pair.claimAge * s.clk.strokeDiv / 100
  if s.pair.gnt then takeActive s
  else if shows s fun b => decide (bPstate b = 2) && bGnt b then pairRecord 3 0x0A04 11 (giveUp .standby s)
  else if shows s fun b => decide (bPstate b = 1) && decide (bSlot b < b2n s.pair.slot1) then giveUp .standby s
  else if 1000 + s.pair.cfg.tRelease ≤ us ∧ !s.pair.claimRec then
    pairRecord 2 0x0A05 (w32 us) (pairMod (fun p => { p with claimRec := true }) s)
  else s

/-- R513 step 2: at the first boundary after the phases are parked the module gives authority up. -/
def releaseStep (s : State) : State :=
  match s.pair.handover with
  | .opening cmd hands since =>
    if !hands then (if s.pair.pstate ≠ .active || s.stage.parked then pairStopped s else s)
    else if s.pair.pstate ≠ .active then pairMod (fun p => { p with handover := .released cmd s.clk.stroke since }) s
    else if !s.stage.parked then s
    else
      pairMod (fun p => { p with handover := .released cmd s.clk.stroke since }) (giveUp .releasing s)
  | _ => s

/-- The command behind a handover in progress, and its stroke. -/
def handoverCmd (s : State) : Option (Waiting × Stroke) :=
  match s.pair.handover with
  | .no => none
  | .opening cmd _ k => some (if cmd then .handover else .funcStop fPAIR, k)
  | .released cmd _ k => some (if cmd then .handover else .funcStop fPAIR, k)

/-- R102, R525, R529: a handover or a stop that has not ended 10 strokes and T_RELEASE after its command answers E_TIMEOUT. -/
def handoverLate (s : State) : State :=
  match handoverCmd s with
  | some (w, k) =>
    if (s.clk.stroke - k).toNat ≤ 10 + strokesOfUs s s.pair.cfg.tRelease then s
    else answer w .timeout 0 [] (pairMod (fun p => { p with handover := .no }) s)
  | none => s

/-- R508 row 14, R513 step 3: a RELEASING module stands by once its partner claims or is ACTIVE. -/
def releasingStep (s : State) : State :=
  if shows s fun b => decide (bPstate b = 1 ∨ bPstate b = 2) then giveUp .standby s else s

/-- A veto that latches while the loop still opens for PAIR STOP or PAIR_HANDOVER leaves the module STANDBY: the stop has then only to end
the beats, and the handover waits for the partner, which claims (R102, R114, R508, R513). -/
def vetoStep (s : State) : State :=
  match s.pair.handover with
  | .opening false _ _ => pairStopped s
  | .opening true _ k => pairMod (fun p => { p with handover := .released true s.clk.stroke k }) s
  | _ => s

/-- PSTATE_DECISION (R508). -/
def pairDecide (s : State) : State :=
  if !fnRunning s fPAIR then s
  else if vetoed s then vetoStep (giveUp .standby s)
  else
    let s := if s.pair.pstate = .active && !s.pair.gnt then s else releaseStep s
    if !fnRunning s fPAIR then s
    else match s.pair.pstate with
      | .active => activeStep s
      | .standby => standbyStep s
      | .claiming => claimingStep s
      | .releasing => releasingStep s

/-- HANDOVER_RECLAIM (R513): three strokes after the release no partner claims: the module claims again, and the command
answers E_TIMEOUT. -/
def execHandoverReclaim (s : State) : Out :=
  match s.pair.handover with
  | .released cmd since _ =>
    if (s.clk.stroke - since).toNat < 3 || (shows s fun b => decide (bPstate b = 1 ∨ bPstate b = 2)) || vetoed s ||
        decide (s.pair.pstate ≠ .releasing) then .next s
    else
      let s := reqUpdate (claim 14 (pairMod (fun p => { p with handover := .no }) s))
      .next (answer (if cmd then .handover else .funcStop fPAIR) .timeout 0 [] s)
  | _ => .next s

/-- What the pair does at the boundary into stroke `k`, after the commits: paths, the mirror, the decision, SYNC, AUTH_REQ. -/
def pstateBoundary (token : Bool) (s : State) : State :=
  let s := pairMod (fun p => { p with noToken := if token then 0 else p.noToken + 1, token := token }) s
  reqUpdate (syncUpdate (pairDecide (handoverLate (mirrorBoundary (pathsBoundary s)))))

/-! ### START, STOP, CLEAR (R509, R513, R525, R526) -/

/-- R525: the checks of PAIR START. -/
def pairStartBad (s : State) : Option Answer :=
  firstErr
    [if gateOn s 20 then none else some (errR .state 0x94),
     if fnRunning s fROPE then none else some (errR .state 5),
     if s.clk.strokeDiv < 2000 then some (errR .range 2) else none,
     (claimConflict s fPAIR [0x114]).map fun c => conflictR c.1 c.2]

/-- R509: PAIR START begins with PSTATE STANDBY and an initial listen. -/
def pairStart (s : State) : State :=
  let s := fnSet fPAIR .running 0 (claimAll fPAIR [0x114] s)
  pairMod (fun p => { p with
    begun := true,
    pstate := .standby, listen := (p.cfg.hbMiss + 1) * p.cfg.hbPeriod + 1, handover := .no, snapshot := false,
    mirrored := none, pkgNeeds := [], mirrorIn := [], mirrorAreas := [], mirrorEstAt := none, mirrorHold := none,
    unusedRec := false, claimRec := false, gntBeats := 0 }) s

/-- R513: the partner's newest beat is recent and shows STANDBY and SYNC, with VETO clear. -/
def partnerReady (s : State) : Bool :=
  decide (s.pair.beatAge ≤ s.pair.cfg.hbPeriod) && shows s fun b => decide (bPstate b = 0) && bSync b && !bVeto b

/-- R513 step 1: the loop opens; in voltage mode STAGE parks at once (R383). -/
def handoverOpen (cmd hands : Bool) (s : State) : State :=
  let s := if s.stage.modeV then stMod (fun x => { stIdle x with loop := .open_ }) s else loopOpening s
  pairMod (fun p => { p with handover := .opening cmd hands s.clk.stroke }) s

/-- PAIR STOP (R513, R525): an ACTIVE module hands over first, or only opens the loop. -/
def pairStopCmd (s : State) : State × Answer :=
  if s.pair.pstate = .active then (handoverOpen false (partnerReady s) s, .later (.funcStop fPAIR))
  else (pairStopped s, okR [])

/-- R526: the fault condition is gone once the partner's beats show GNT clear. -/
def pairCondGone (s : State) : Bool := shows s fun b => !bGnt b

/-! ### Commands (R527 to R529) -/

/-- PAIR_CONFIG (R527). -/
def execPairConfig (r : Req) : State → Out :=
  mailbox { op := 0x0A01, onMb := mbZero, lenOk := (· = 4), acts := [fPAIR] } r fun s =>
    let w := r.w 2
    let t := fld w 16 16
    guardE (firstErr [cfgBad s fPAIR, rangeBad
      [(decide (fld w 7 5 ≠ 0) || decide (t < 1 ∨ 1000 < t) || decide (fld w 12 4 < 2) || decide (fld w 0 7 < 1 ∨ 64 < fld w 0 7), 2),
       (decide (fld (r.w 3) 1 31 ≠ 0), 3), (decide ((r.w 4).toNat < 1 ∨ 1000000 < (r.w 4).toNat), 4),
       (decide (1000000 < (r.w 5).toNat), 5)]]) s fun s =>
      (pairMod (fun p => { p with cfg := {
        tRelease := t, hbMiss := fld w 12 4, hbPeriod := fld w 0 7, autoStart := bit (r.w 3) 0,
        holdStrokes := (r.w 4).toNat, ramp := (r.w 5).toNat } }) s, okR [])

/-- The response of PAIR_QUERY (R528). -/
def pairWords (s : State) : List Word :=
  let p := s.pair
  let b := p.beat.getD [0, 0, 0, 0]
  let since (n : Option Nat) : Nat := n.getD 65535
  [packW [(p.pstate.num, 30), (bPstate b, 28), (b2n !p.silentHb, 27), (b2n !p.silentRope, 26), (b2n p.sync, 25),
     (b2n (bSync b), 24), (b2n (vetoed s), 23), (b2n (bVeto b), 22), (b2n p.gnt, 21), (b2n (bGnt b), 20), (b2n p.req, 19),
     (b2n p.slot1, 18), (bSlot b, 17), (b2n s.link.hostLoss, 16), (b2n p.cfgMismatch, 15), (b2n p.pkgMismatch, 14),
     (if vetoed s then p.firstVeto else 0, 2), ((fnState s fPAIR).num, 0)],
   packW [(since p.sinceHb, 16), (since p.sinceRope, 0)],
   packW [(if mirrorTaker s then mirrorLag s else Config.mirrorLagOpen s.clk.stroke % 65536, 16),
     (if s.link.hostLoss then min 65535 s.link.holdLeft else 0, 0)],
   packW [(p.takeovers, 16), (p.handovers, 0)], lo32 p.change.toNat, hi32 p.change.toNat, w32 p.bad, b.getD 0 0]

/-- PAIR_QUERY (R528). -/
def execPairQuery (r : Req) : State → Out :=
  mailbox { op := 0x0A02, onMb := mbZero, lenOk := (· = 0) } r (asks fun s => okR (pairWords s))

/-- The checks of PAIR_HANDOVER (R529). -/
def pairHandoverBad (s : State) : Option Answer :=
  firstErr [runBad s fPAIR, if s.pair.pstate = .active then none else some (roleR s),
    if partnerReady s then none else some (errR .state 1), if s.stage.modeV then some (errR .state 2) else none]

/-- PAIR_HANDOVER (R513, R529). -/
def execPairHandover (r : Req) : State → Out :=
  mailbox { op := 0x0A03, onMb := mbZero, lenOk := (· = 0), acts := [fPAIR] } r fun s =>
    guardE (pairHandoverBad s) s fun s => (handoverOpen true true s, .later .handover)

/-! ### Host loss (R162, R520) -/

/-- R520: the target in force, and whether the rope target is meant. -/
def heldTarget (s : State) : Int :=
  ratRound .nearest (if headsRope s then s.pipe.ropeTarget.value else s.pipe.target.value)

/-- R520: a target set by the host moves to the autonomous one along HOST_LOSS_RAMP. -/
def hostLossTarget (s : State) : State :=
  let k := now s
  let ramp (n : Nat) : TargetPend := { scope := 2, value := 0, ramp := s.pair.cfg.ramp * n, at_ := s.clk.stroke }
  let alone := decide (s.clerk.ropeRole = 1)
  if headsRope s then
    if s.pipe.ropeTarget.targeted then
      { s with pipe := { s.pipe with ropeTarget := targetNew (ramp s.rope.nActive) k (ropeMeanNow s) s.pipe.ropeTarget } }
    else s
  else if alone && !isStandby s && s.pipe.target.targeted then
    { s with pipe := { s.pipe with target := targetNew (ramp 1) k (meanNow s) s.pipe.target } }
  else s

/-- HOST_LOSS_HOLD_EXPIRED (R520): HOST_LOSS_HOLD strokes have passed since host loss was declared. -/
def execHostLossHoldExpired (s : State) : Out :=
  if !s.link.hostLoss || s.link.holdExpired || decide (s.link.holdLeft ≠ 0) then .next s
  else
    let s := pairRecord 1 0x0A0B (i32 (heldTarget s)) { s with link := { s.link with holdExpired := true } }
    .next (hostLossTarget s)

/-- A stroke of the hold passes. -/
def hostLossBoundary (s : State) : State :=
  if s.link.hostLoss then { s with link := { s.link with holdLeft := s.link.holdLeft - 1 } } else s

end Sys2Proof.Machine
end

