-- ==== Sys2Proof/Machine/Thermal.lean ====
section
/-! DEFINITION. Die temperatures, the operating points of the general tiles and the moves between them (R462 to R474), with
THERMAL_CONFIG, THERMAL_QUERY and POWER_QUERY (R490 to R492). -/

namespace Sys2Proof.Machine

/-- Changes the thermal state. -/
def thMod (f : Thermal → Thermal) (s : State) : State := { s with therm := f s.therm }

/-! ### Conversions (R462, R463) -/

/-- R463: a conversion outside −60 °C to +160 °C is broken. -/
def convIn (reading : Option Int) : Option Int :=
  match reading with
  | some v => if -960 ≤ v ∧ v ≤ 2560 then some v else none
  | none => none

/-- A thermal record (R499): the stroke and a detail. -/
def thermRecord (sev code : Nat) (detail : Word) (s : State) : State := emit sev 0 code [strokeLo s, detail] s

/-- A sensor and a temperature as records 0x0903 and 0x0905 carry them. -/
def sensorWord (n : Nat) (t : Int) : Word := packW [(n, 24), ((BitVec.ofInt 16 t).toNat, 0)]

/-- R463: the first broken conversion of a sensor and the first good one after it write records. -/
def brokenStep (n : Nat) (now_ : Bool) (s : State) : State :=
  if s.therm.broken.getD n false = now_ then s
  else thermRecord 2 0x0904 (packW [(n, 8), (b2n now_, 0)])
    (thMod (fun x => { x with broken := x.broken.set n now_ }) s)

/-- R464: the alarm of sensors 2 to 4. -/
def alarmStep (n : Nat) (s : State) : State :=
  let t := dieTemp s n
  let on := s.therm.alarms.getD n false
  if n < 2 then s
  else if !on && decide (1600 ≤ t) then
    thermRecord 2 0x0905 (sensorWord n t) (thMod (fun x => { x with alarms := x.alarms.set n true }) s)
  else if on && decide (t ≤ 1520) then thMod (fun x => { x with alarms := x.alarms.set n false }) s
  else s

/-- R465: at 115 °C the Assayer latches the shutdown and drops AUTH_REQ; the Clerk's record 0x0903 and vector 5 follow
within 10 µs. -/
def shutdownStep (n : Nat) (s : State) : State :=
  let t := dieTemp s n
  if s.therm.shutdown.isSome || decide (t < 1840) then s
  else
    let sent := s.pair.req && !s.pair.vetoes.getLsbD 7
    let s := thMod (fun x => { x with shutdown := some (n, t), shutAt := (s.clk.stroke, modStatus s) }) s
    let s := vetoLatch 7 s
    let s := thermRecord 4 0x0903 (sensorWord n t) s
    if sent then s else msixDue 5 s

/-- TEMPERATURE_CONVERSION (R462 to R465): none stands for a diode that is open or shorted. The Assayer converts while the
module is powered and out of reset. -/
def execTemperatureConversion (sensor : Fin 5) (reading : Option Int) (s : State) : Out :=
  if s.power.life ≠ .up then .next s
  else
    let n := sensor.val
    let v := convIn reading
    let s := thMod (fun x => { x with conv := x.conv.set n ((v :: convOf s n).take 3) }) s
    .next (shutdownStep n (alarmStep n (brokenStep n v.isNone s)))

/-! ### Operating points (R467, R468) -/

/-- R467: the effective frequency of a plan: the PLL's point, SKIP of every 32 cycles suppressed. -/
def planHz (p : Nat × Nat) : Nat := pointHz p.1 * (32 - p.2) / 32

/-- R467: SKIP is 32 × (1 − F_point / F_MAX), rounded to the nearest integer. -/
def skipOf (p fMax : Nat) : Nat :=
  let m := pointHz fMax
  (64 * (m - pointHz p) + m) / (2 * m)

/-- R467, R470: how the tiles run at a point: in SKIP mode the PLL stays at the point of F_MAX; boost and DIVIDE mode move
the PLL. -/
def planOf (x : Thermal) (p : Nat) : Nat × Nat :=
  if p = 0 || x.divideMode then (p, 0) else (x.fMax, skipOf p x.fMax)

/-! ### Moves (R472, R473) -/

/-- Changes a clock domain. -/
def domMod (d : Nat) (f : Domain → Domain) (s : State) : State :=
  { s with clk := { s.clk with domains := s.clk.domains.modify d f } }

/-- The PLLs of the general tiles that run idle (R52): PLL_TA0 and PLL_TB0, or PLL_TA1 and PLL_TB1. -/
def idlePlls (s : State) : List Nat := if s.therm.pll1 then [3, 5] else [4, 6]

/-- A PLL is started or reprogrammed; it is locked once its count has run out (R59). -/
def pllStart (p : Nat) (s : State) : State :=
  { s with clk := { s.clk with plls := s.clk.plls.set p { started := true, locked := false } } }

/-- R472: a plan that moves the PLLs starts: the idle PLLs are programmed, and for a rise the rails move up at once. -/
def moveStart (p : Nat × Nat) (s : State) : State :=
  let up := decide (p.1 < s.therm.point)
  let s := (idlePlls s).foldl (fun t i => pllStart i t) s
  thMod (fun x => { x with
    moving := some p, rising := up, railsUp := !up, pllUp := false, ramping := false, switched := false,
    skipNext := none }) s

/-- R472: a plan is carried out: nothing, a SKIP that applies at the next boundary, or a move of the PLLs. -/
def planStart (p : Nat × Nat) (s : State) : State :=
  if p = (s.therm.point, s.therm.skip) then thMod (fun x => { x with skipNext := none, fNext := none }) s
  else if p.1 = s.therm.point then thMod (fun x => { x with skipNext := some p, fNext := some (planHz p) }) s
  else moveStart p s

/-- R473: a plan is asked for: it is deferred while a move is in progress, and a later one replaces a deferred one. -/
def planAsk (p : Nat × Nat) (s : State) : State :=
  if p = s.therm.goal then s
  else
    let s := thMod (fun x => { x with goal := p }) s
    if s.therm.moving.isSome || s.therm.deferred.isSome then
      thMod (fun x => { x with deferred := if x.moving = some p then none else some p }) s
    else planStart p s

/-- R269, R472: once the PLL count has run out and the rails are up, a lower frequency applies from the next boundary, where
the ramp starts. -/
def moveReady (s : State) : State :=
  match s.therm.moving with
  | none => s
  | some p =>
    if s.therm.pllUp && s.therm.railsUp && !s.therm.ramping && !s.therm.switched && decide (planHz p < s.therm.fTile) then
      thMod (fun x => { x with fNext := some (planHz p) }) s
    else s

/-- R473: the move ends. -/
def moveEnd (s : State) : State := thMod (fun x => { x with moving := none, switched := false, ramping := false }) s

/-- R472: the switch has completed: the tiles run from the other PLLs; a rise has ended, and for a fall the rails move down. -/
def switchDone (s : State) : State :=
  match s.therm.moving with
  | none => s
  | some p =>
    let rise := decide (s.therm.fTile < planHz p)
    let s := [3, 4, 6, 7].foldl (fun t d => domMod d (fun x => { x with mult := none }) t) s
    let s := thMod (fun x => { x with
      point := p.1, skip := p.2, pll1 := !x.pll1, ramping := false, switched := true,
      fNext := if rise then some (planHz p) else x.fNext }) s
    if s.therm.rising then moveEnd s else thMod (fun x => { x with railsUp := false }) s

/-- R472: IVR0 and IVR1 have reached their targets and settled. -/
def execRailSettled (s : State) : Out :=
  if s.therm.moving.isNone || s.therm.railsUp then .next s
  else
    let s := thMod (fun x => { x with railsUp := true }) s
    .next (if s.therm.switched then moveEnd s else moveReady s)

/-- PLL_LOCK_COUNT (R59, R472): a PLL counts as locked. PLL_REF's count starts PLL_ASY and PLL_SYS; with theirs the Assayer
and the boot ROM run, and the boot watchdog starts (R532, R538). -/
def execPllLockCount (pll : Fin 17) (s : State) : Out :=
  let p := s.clk.plls.getD pll.val {}
  if !p.started || p.locked || decide (s.power.life ≠ .up) then .next s
  else
    let s := { s with clk := { s.clk with plls := s.clk.plls.set pll.val { p with locked := true } } }
    let lk (i : Nat) (t : State) : Bool := (t.clk.plls.getD i {}).locked
    let s := if pll.val = 0 then pllStart 1 (pllStart 2 s) else s
    let s := if (pll.val = 1 || pll.val = 2) && lk 1 s && lk 2 s && !s.clerk.mbOpen && decide (s.clerk.bootStage ≠ 6) then
      { s with boot := { s.boot with watchdog := true } } else s
    let up := s.therm.moving.isSome && (idlePlls s).all fun i => lk i s
    .next (if up then moveReady (thMod (fun x => { x with pllUp := true }) s) else s)

/-- The domains that run from the general tiles' PLLs (R52). -/
def tileDomains : List Nat := [3, 4, 6, 7]

/-- R60, R472: at a boundary the ramp starts: the general-tile domains, and the SRAM domains that share their PLLs, raise their
dividers toward twice the present value. -/
def rampStart (s : State) : State :=
  tileDomains.foldl
    (fun t d => domMod d (fun x => { x with switching := true, target := 2 * x.divider, divider := x.divider + 1 }) t)
    (thMod (fun x => { x with ramping := true }) (measureBlur s))

/-- R60: the domains of the general tiles' PLLs have ended their ramps. -/
def rampOver (s : State) : Bool :=
  s.therm.ramping && tileDomains.all fun d =>
    let x := s.clk.domains.getD d {}
    !x.switching && decide (x.divider = x.target)

/-- DIVIDER_STEP (R60, R61): a divider moves by one toward its target; a domain that changes source moves its multiplexer at
the raised divider and then lowers the divider. -/
def execDividerStep (d : Fin 18) (s : State) : Out :=
  let x := s.clk.domains.getD d.val {}
  let was := rampOver s
  let held := ratiosDone s
  let s :=
    if x.divider < x.target then measureBlur (domMod d.val (fun x => { x with divider := x.divider + 1 }) s)
    else if x.target < x.divider then measureBlur (domMod d.val (fun x => { x with divider := x.divider - 1 }) s)
    else if x.switching then domMod d.val (fun x => { x with switching := false, target := domGoal s d.val }) s
    else s
  .next (ratiosAnswer held (if !was && rampOver s then switchDone s else s))

/-- The capacity that follows a change of F_TILE: lists are shed wherever R252 fails then, whichever way the frequency went (R269), and
after a rise shed lists are restored (R271). -/
def capacityStep (f : Nat) (s : State) : State :=
  let higher := decide (s.therm.fTile < f)
  let s := thMod (fun x => { x with fTile := f, fNext := none }) s
  let s := shedAll (shedFuel s) s
  if higher then restoreAll s else s

/-- R269, R472, R473: what a stroke boundary does to the tiles' clock: a new SKIP, a new F_TILE, the start of a ramp, the
start of a deferred change. -/
def thermalBoundary (s : State) : State :=
  let s := if throttled s then thMod (fun x => { x with throttledTicks := x.throttledTicks + s.clk.strokeLen }) s else s
  let s := match s.therm.skipNext with
    | some p => thMod (fun x => { x with point := p.1, skip := p.2, skipNext := none }) s
    | none => s
  let s := match s.therm.fNext with
    | some f => capacityStep f s
    | none => s
  if s.therm.moving.isSome then
    if s.therm.pllUp && s.therm.railsUp && !s.therm.ramping && !s.therm.switched then rampStart s else s
  else match s.therm.deferred with
    | some p => planStart p (thMod (fun x => { x with deferred := none }) s)
    | none => s

/-! ### Throttle and boost (R469, R470) -/

/-- The time between evaluations in µs: a millisecond, or a longer stroke. -/
def evalUs (s : State) : Nat := max 1000 (s.clk.strokeDiv / 100)

/-- For how long a condition has held at every evaluation: none while it does not. -/
def heldFor (us : Nat) (holds : Bool) (was : Option Nat) : Option Nat :=
  if holds then some (match was with
    | some t => t + us
    | none => 0) else none

/-- The condition has held for a time. -/
def heldLong (us : Nat) : Option Nat → Bool
  | some t => decide (us ≤ t)
  | none => false

/-- R490: an accepted THERMAL_CONFIG takes effect. -/
def thermalApply (s : State) : State :=
  match s.therm.next with
  | some (t, b, d, f) =>
    thMod (fun x => { x with tThrottle := t, boostEn := b, divideMode := d, fMax := f, next := none }) s
  | none => s

/-- The higher die temperature of the compute dies. -/
def hotDie (s : State) : Int := max (dieTemp s 0) (dieTemp s 1)

/-- R469: PT after an evaluation, from the time that the dies have been cool and the time since the last move. -/
def ptNext (x : Thermal) (hot : Int) (cool : Option Nat) (since : Nat) : Nat :=
  if (16 * x.tThrottle : Int) ≤ hot then min 7 (x.pt + 1)
  else if heldLong 100000 cool && decide (100000 ≤ since) then max 1 (x.pt - 1)
  else x.pt

/-- R469: the throttle point moves or stays. -/
def throttleStep (s : State) : State :=
  let x := s.therm
  let us := evalUs s
  let hot := hotDie s
  let cool := heldFor us (decide (hot < 16 * (x.tThrottle : Int) - 80)) x.coolFor
  let pt := ptNext x hot cool (x.sinceMove + us)
  let moved := decide (pt ≠ x.pt)
  let s := thMod (fun x => { x with
    pt := pt, coolFor := cool, sinceMove := if moved then 0 else min (x.sinceMove + us) 100000 }) s
  if moved then thermRecord 1 0x0901 (packW [(x.pt, 8), (pt, 0)]) s else s

/-- R470: boost comes into force or leaves it. -/
def boostStep (ptMoved : Bool) (s : State) : State :=
  let x := s.therm
  let hot := hotDie s
  let held := heldFor (evalUs s) (decide (hot ≤ 16 * (x.tThrottle : Int) - 240)) x.boostFor
  let ends := decide (16 * (x.tThrottle : Int) - 160 ≤ hot) || ptMoved || !x.boostEn
  let new := if x.boosting then !ends else x.boostEn && decide (x.pt = 1) && heldLong 1000000 held
  let s := thMod (fun x => { x with boostFor := held, boosting := new }) s
  if new = x.boosting then s else thermRecord 0 0x0902 (w32 (b2n new)) s

/-- THROTTLE_EVALUATION (R468 to R470): PT, boost, and the point in force that follows. -/
def execThrottleEvaluation (s : State) : Out :=
  if s.power.life ≠ .up || !s.clerk.mbOpen || s.boot.recovery then .next s
  else
    let s := thermalApply s
    let pt := s.therm.pt
    let s := throttleStep s
    let s := boostStep (decide (s.therm.pt ≠ pt)) s
    .next (planAsk (planOf s.therm (pointInForce s.therm)) s)

/-! ### Commands (R490 to R492) -/

/-- THERMAL_CONFIG (R490). -/
def execThermalConfig (r : Req) : State → Out :=
  mailbox { op := 0x0901, onMb := mbHigh, lenOk := (· = 1) } r fun s =>
    let w := r.w 2
    let t := fld w 9 7
    guardE (rangeBad
      [(decide (w &&& 0xFFFF00E8 ≠ 0), 2), (decide (t < 60 ∨ 100 < t), 2), (decide (fld w 0 3 = 0), 2),
       (bit w 8 && decide (s.clk.nocSel = 1), 2)]) s fun s =>
      (thMod (fun x => { x with next := some (t, bit w 8, bit w 4, fld w 0 3) }) s, okR [])

/-- The configuration as accepted last: T_THROTTLE, BOOST_EN, THR_MODE, F_MAX. -/
def thermCfg (x : Thermal) : Nat × Bool × Bool × Nat := x.next.getD (x.tThrottle, x.boostEn, x.divideMode, x.fMax)

/-- R574: a summary is valid when its CRC matches: CRC-32 over its 512 bytes with word 15 as zero. -/
def summaryCrc (e : List Word) : Word := crc32 (bytesOf ((fit 128 0 e).set 15 0))
def summaryValid (e : List Word) : Bool := decide (e.getD 15 0 = summaryCrc e)

/-- The valid summaries, and the valid shutdown records among them, newest first. -/
def validSummaries (s : State) : List (List Word) := s.diag.summaries.filter summaryValid
def shutdownRecs (s : State) : List (List Word) := (validSummaries s).filter fun e => fld (e.getD 0 0) 24 8 = 1

/-- A temperature as a 16-bit field. -/
def t16 (t : Int) : Nat := (BitVec.ofInt 16 t).toNat

/-- The response of THERMAL_QUERY (R491). -/
def thermalWords (s : State) : List Word :=
  let x := s.therm
  let c := thermCfg x
  let broken := (List.range 5).map fun n => (b2n ((convOf s n).any (·.isNone)), n)
  let sd := (shutdownRecs s).head?.map (·.getD 6 0)
  [packW [(t16 (dieTemp s 0), 16), (t16 (dieTemp s 1), 0)], packW [(t16 (dieTemp s 2), 16), (t16 (dieTemp s 3), 0)],
   packW ((t16 (dieTemp s 4), 16) :: broken),
   packW [(pointInForce x, 28), (x.pt, 24), (c.2.2.2, 20), (b2n x.boosting, 19), (b2n c.2.2.1, 18),
          (b2n x.deferred.isSome, 17), (x.skip, 7)],
   packW [(x.fTile / 1000000, 16), (2 * pointHz x.point / 1000000, 0)], packW [(railMv s 0, 16), (railMv s 1, 0)],
   w32 (x.throttledTicks / 100000),
   match sd with
   | some w => packW [(fld w 0 16, 16), (fld w 24 8, 8)]
   | none => 0x0000FF00,
   w32 (shutdownRecs s).length]

/-- THERMAL_QUERY (R491). -/
def execThermalQuery (r : Req) : State → Out :=
  mailbox { op := 0x0902, onMb := mbHigh, lenOk := (· = 0) } r (asks fun s => okR (thermalWords s))

/-- POWER_QUERY (R492): figures that the module measures, free in the model (entry 41). -/
def execPowerQuery (r : Req) : State → Out :=
  mailbox { op := 0x0903, onMb := mbHigh, lenOk := (· = 0) } r
    (asks fun s => okR ((List.range 9).map fun i => Config.powerFigure s.clk.stroke (3 + i)))

end Sys2Proof.Machine
end

