-- ==== Sys2Proof/Machine/Reset.lean ====
section
/-! DEFINITION. Resets of every kind (R531), the feeds and hold-up (R29 to R33), the loss of every reference (R78, R79, R134), the
thermal shutdown's own steps (R465, R466) and the NOR summaries (R574). -/

namespace Sys2Proof.Machine

/-! ### NOR summaries (R574) -/

/-- A mailbox log entry as sixteen words (R568). -/
def LogEntry.words (e : LogEntry) : List Word :=
  [packW [(e.mb, 30), (e.word0.toNat % 2 ^ 28, 0)], e.tag, e.rung, e.done, e.rsp0] ++ fit 11 0 e.payload

/-- Function states in the layout of FUNC_QUERY with ID 0xFF (R124). -/
def allStates (s : State) : List Word := [funcStates s 0 16, funcStates s 16 16, funcStates s 32 4]

/-- SEQ of the next summary. -/
def summarySeq (s : State) : Word := match validSummaries s with
  | e :: _ => e.getD 1 0 + 1
  | [] => 1

/-- A summary entry: its type and cause, the stroke of the event, MOD_STATUS at it, word 6, word 7. -/
def summaryWords (s : State) (type cause : Nat) (at_ : Stroke) (status w6 w7 : Word) : List Word :=
  let e := [packW [(type, 24), (1, 16), (cause, 0)], summarySeq s, lo32 at_.toNat, hi32 at_.toNat, s.clerk.posin, status, w6, w7] ++
    allStates s ++ [0, 0, 0, 0, 0] ++
    fit 112 0 ((lastN 7 s.clerk.log).flatMap LogEntry.words)
  e.set 15 (summaryCrc e)

/-- How many entries stand once the `n`-th is programmed: of the 256 sectors of eight entries the one after the newest is erased. -/
def summaryKeep (n : Nat) : Nat := 2032 + ((n + 7) % 8 + 1)

/-- The erases that the `n`-th entry starts: the first one in the last erased sector erases the sector of the oldest. -/
def summaryErases (n : Nat) : Nat := if 2041 ≤ n ∧ n % 8 = 1 then 1 else 0

/-- R574: a summary is programmed if HOLDUP_GOOD is 1, and skipped otherwise. Whether the entry then reads back as it was written is
open; one that does not stands with a CRC that fails (entry 175). -/
def summaryWrite (good : Bool) (type cause : Nat) (at_ : Stroke) (status w6 w7 : Word) (s : State) : State :=
  if good then
    let (s, i) := takeFree s
    let e := summaryWords s type cause at_ status w6 w7
    let e := if Config.summaryReads i then e else e.set 15 (~~~ (e.getD 15 0))
    let n := s.diag.sumCount + 1
    norOp true 0x4060000 (summaryErases n) id <| norOp false 0x4060000 1 (fun s => { s with diag := { s.diag with
      summaries := (e :: s.diag.summaries).take (summaryKeep n), sumCount := n, fresh := s.diag.fresh + 1 } }) s
  else { s with diag := { s.diag with skipped := s.diag.skipped ++ [type] } }

/-! ### The reset itself (R531) -/

/-- R531 RESET_CAUSE. -/
def cCOLD : Nat := 1
def cPERST : Nat := 2
def cWARM : Nat := 3
def cCLOCK : Nat := 4
def cFEED : Nat := 5
def cPANIC : Nat := 6
def cASSAYER : Nat := 7

/-- R531, R538: the kinds that keep the well and boot along the warm path. -/
def keepsWell (cause : Nat) : Bool := decide (cause ≠ cCOLD ∧ cause ≠ cPERST ∧ cause ≠ cFEED)

/-- Memory after a reset: the well is kept or zeroed; SRAM restarts as it reads unlisted. Bridges stay disabled until the next
cold reset (R179). Host memory is not the module's. -/
def resetMem (cause : Nat) (m : Mem) : Mem :=
  let keep := keepsWell cause
  { cells := if keep then m.cells.filter fun c => decide (c.1 < aWellEnd) else [],
    damaged := if keep then m.damaged.filter fun k => decide (k < aWellEnd) else [],
    host := m.host, bridges := if cause = cCOLD then [{}, {}, {}] else m.bridges }

/-- What the NOR dies and the Assayer's latches keep. A slot whose write or copy was in progress is not WRITTEN (R541,
R552). -/
def resetBoot (cause : Nat) (b : Boot) : Boot :=
  let cut (x : Slot) : Slot := { x with stateByte := 0xFF }
  { b with
    imageB := false, watchdog := false, recovery := false, resetReq := false, norLock := false, writing := none,
    copying := false, doneBytes := 0, totalBytes := 0, identityBad := false, mlog := [], mlogCount := 0,
    mlogHash := List.replicate 16 0, trimDie := 0,
    norHeld := false, running := [], runConf := false, policy := none, policySlot := 0, policySeq := 0, ivr0 := [], ivr1 := [], rails := [],
    slotA := if b.writing.isSome && !b.copying && !b.norHeld then cut b.slotA else b.slotA,
    slotB := if b.copying && !b.norHeld then cut b.slotB else b.slotB,
    skipA := b.skipA && decide (cause ≠ cCOLD), skipB := b.skipB && decide (cause ≠ cCOLD) }

/-- R531, R503: every veto is cleared, except that only a cold start clears 0x07. -/
def resetPair (cause : Nat) (p : Pair) : Pair :=
  let keep := p.vetoes.getLsbD 7 && decide (cause ≠ cCOLD)
  { gnt := p.gnt, slot1 := p.slot1, vetoes := if keep then 0x80 else 0, firstVeto := if keep then 7 else 0 }

/-- What the sensors have converted, and a shutdown in progress (R465): only a cold reset, before which the Assayer had no power,
ends them. -/
def resetTherm (cause : Nat) (x : Thermal) : Thermal :=
  if cause = cCOLD then {} else
  { conv := x.conv, broken := x.broken, shutdown := x.shutdown, shutAt := x.shutAt, sdReleased := x.sdReleased }

/-- Everything that a reset of a cause does to the state (R531). The free counter and the queue are the model's own; power,
pins, NOR and the kept parts of memory stand. -/
def resetParts (cause : Nat) (s : State) : State :=
  { clk := { qualRefclk := s.clk.qualRefclk },
    clerk := { resetCause := BitVec.ofNat 8 cause },
    mem := resetMem cause (writesLand s).mem,
    rope := { ports := s.rope.ports.map fun p => { present := p.present } },
    stage := { faultIn := s.stage.faultIn },
    est := { norCap := s.est.norCap, norLife := s.est.norLife },
    therm := resetTherm cause s.therm,
    power := s.power,
    pair := resetPair cause s.pair,
    boot := resetBoot cause s.boot,
    diag := { summaries := s.diag.summaries, sumCount := s.diag.sumCount, fresh := s.diag.fresh, skipped := s.diag.skipped },
    free := s.free, pending := s.pending }

/-- A reset of a cause (R531). Reset is released at once, or, while REFCLK is absent, when it has returned (R134). The sequence of
R32 goes on while both feeds are lost. -/
def resetTo (cause : Nat) (s : State) : State :=
  let s := resetParts cause s
  let p := { s.power with
    loss := if s.power.feedA || s.power.feedB then .none else s.power.loss, needCold := false, regOff := false }
  if s.clk.qualRefclk then { s with power := { p with life := .up, refLost := false, waitCause := 0 } }
  else { s with power := { p with life := .inReset, refLost := true, waitCause := cause } }

/-- The module enters reset and stays there, with feeds (R33) or without (R32, R465). -/
def resetHold (off : Bool) (s : State) : State :=
  let s := resetParts cFEED s
  { s with power := { s.power with
      life := if off then .unpowered else .inReset, regOff := s.power.regOff || off, needCold := true, loss := .none,
      refLost := false, waitCause := 0 } }

/-! ### Resets that a command or an event starts -/

/-- WARM_RESET (R92): the right KEY with WARM = 1 resets; a wrong KEY is recorded. -/
def execWarmReset (value : Word) (s : State) : Out :=
  if !hostReaches s then .next s
  else if fld value 16 16 ≠ 0xC1E4 then .next (emit 1 0 3 [value] s)
  else if bit value 0 then .next (resetTo cWARM s)
  else .next s

/-- PERST_RESET (R135, R134): a module that waits for REFCLK restarts from it as from a PERST# reset. Without power, or while the
feeds hold it in reset, the pin changes nothing. -/
def execPerstReset (s : State) : Out :=
  match s.power.life with
  | .up => .next (resetTo cPERST s)
  | .inReset => if s.power.refLost then .next (resetTo cPERST s) else .next s
  | .unpowered => .next s

/-- ASSAYER_RESET (R531): the watchdog's or Posin's request, or 10 ms after a veto of cause 0x06. Idle otherwise. -/
def execAssayerReset (s : State) : Out :=
  if s.power.life = .up ∧ (s.boot.resetReq ∨ s.pair.vetoes.getLsbD 6) then .next (resetTo cASSAYER s) else .next s

/-- PANIC_RESET (R561): 25 ms after the fatal error. Idle unless the handler has run. -/
def execPanicReset (s : State) : Out :=
  if s.power.life = .up ∧ s.diag.panic.isSome then .next (resetTo cPANIC s) else .next s

/-! ### Feeds and hold-up (R29 to R33) -/

/-- A feed is counted present. -/
def feedOk (s : State) (b : Bool) : Bool := if b then s.power.feedB else s.power.feedA

/-- A feed is counted present or lost; a lost one may be open for over-voltage (R31). -/
def feedSet (b ok ov : Bool) (s : State) : State :=
  { s with power := if b then { s.power with feedB := ok, ovB := ov } else { s.power with feedA := ok, ovA := ov } }

/-- A record of the Clerk, which writes none while it is held in reset or unpowered. -/
def clerkRecord (sev code : Nat) (w : Word) (s : State) : State :=
  if s.power.life = .up then emit sev 0 code [w] s else s

/-- FEED_LOST (R31): the other feed stays present. Idle unless both are counted present. -/
def execFeedLost (feed : Fin 2) (overVoltage : Bool) (s : State) : Out :=
  let b := decide (feed.val = 1)
  if feedOk s b && feedOk s (!b) then
    .next (clerkRecord 1 6 (packW [(b2n overVoltage, 8), (2 ^ feed.val, 0)]) (feedSet b false overVoltage s))
  else .next s

/-- BOTH_FEEDS_LOST (R32): HOLDUP_GOOD clears, record 0x0008 takes the place of 0x0006, and the sequence of R32 starts. The
shutdown latch releases (R466). Idle unless the feed is the last one counted present. -/
def execBothFeedsLost (feed : Fin 2) (overVoltage : Bool) (s : State) : Out :=
  let b := decide (feed.val = 1)
  if feedOk s b && !feedOk s (!b) then
    let s := feedSet b false overVoltage s
    let s := { s with power := { s.power with
      charged := false, sdLatch := false, loss := if s.power.life = .unpowered then .none else .lost } }
    .next (clerkRecord 3 8 (packW [(b2n overVoltage, 8)]) s)
  else .next s

/-- R32: a write or a copy that waited for a feed makes its first NOR write: the slot is no longer WRITTEN. -/
def norRelease (s : State) : State :=
  let b := s.boot
  if b.norHeld then
    norOp true 0 1 (fun s => { s with boot := { s.boot with
        slotA := if b.copying then b.slotA else { b.slotA with stateByte := 0xFF }
        slotB := if b.copying then { b.slotB with stateByte := 0xFF } else b.slotB } }) { s with boot := { b with norHeld := false } }
  else s

/-- FEED_PRESENT (R31, R33): record 0x0007; before the 1 ms point the module continues, before the 4 ms point it stays standby and
veto 0x08 is released, after it the module holds itself in reset. Idle while the feed is counted present. -/
def execFeedPresent (feed : Fin 2) (s : State) : Out :=
  let b := decide (feed.val = 1)
  if feedOk s b then .next s
  else
    let loss := s.power.loss
    let s := clerkRecord 0 7 (w32 (2 ^ feed.val)) (feedSet b true false s)
    let s := { s with power := { s.power with loss := .none } }
    .next (match loss with
      | .none => s
      | .lost => norNext (norRelease s)
      | .authDropped => norNext (norRelease (vetoRelease 8 s))
      | .released => resetHold false s)

/-- HOLDUP_AUTH_DROP (R32, R503): 1 ms without a feed. Idle unless both feeds are lost and the point has not passed. -/
def execHoldupAuthDrop (s : State) : Out :=
  if s.power.loss ≠ .lost then .next s
  else
    let s := { s with power := { s.power with loss := .authDropped } }
    if s.power.life = .up then .next (stMod stParked (vetoLatch 8 s)) else .next s

/-- HOLDUP_ROPE_RELEASE (R32, R45): 4 ms without a feed. Idle unless the 1 ms point has passed. -/
def execHoldupRopeRelease (s : State) : Out :=
  if s.power.loss ≠ .authDropped then .next s
  else .next (ropeRelease { s with power := { s.power with loss := .released } })

/-- HOLDUP_EXPIRED (R32): the regulators leave regulation. Idle while a feed is present or the module is unpowered. -/
def execHoldupExpired (s : State) : Out :=
  if s.power.feedA || s.power.feedB || decide (s.power.life = .unpowered) then .next s else .next (resetHold true s)

/-- COLD_START (R33, R466, R531): 100 ms of feed. The cause is COLD once the regulators have left regulation, FEED_LOSS before.
Idle while the module does not wait for it. -/
def execColdStart (s : State) : Out :=
  if s.power.life = .up || !s.power.needCold || !(s.power.feedA || s.power.feedB) || s.power.sdLatch then .next s
  else .next (resetTo (if s.power.regOff then cCOLD else cFEED) s)

/-! ### The loss of every reference (R78, R79, R134) -/

/-- LOSS_OF_EVERY_REFERENCE (R78): PLL_REF's output is gated, so every clock but cxl stops, and cxl with REFCLK: no tile, engine or
timer works on. Commands are abandoned (R102), AUTH_REQ and ORING_ON fall, the phases park, the rope roles are released, the link
goes down, the well keeps its contents in self-refresh. What the module holds beside that ends with the restart of R79, before
which nobody can see it, so it takes its reset values here. No record is written. Idle while an eligible input is qualified. -/
def execLossOfEveryReference (s : State) : Out :=
  if s.power.life ≠ .up ∨ (refBest s).isSome then .next s
  else
    let s := resetParts cCLOCK s
    .next { s with
      clk := { s.clk with refSrc := none, plls := List.replicate 17 {} }
      power := { s.power with life := .inReset, refLost := true, waitCause := 0 } }

/-- CLOCK_LOSS_RESTART (R79, R134): REFCLK has been present for 4,096 cycles. Idle unless the module waits for it with a feed
present. -/
def execClockLossRestart (s : State) : Out :=
  if s.power.life ≠ .inReset || !s.power.refLost || s.power.needCold then .next s
  else
    let w := s.power.waitCause
    .next (resetTo (if w = 0 then cCLOCK else w) { s with clk := { s.clk with qualRefclk := true } })

/-! ### Thermal shutdown (R465, R466) -/

/-- SHUTDOWN_ROPE_RELEASE (R465): 1 ms into a shutdown: the rope role is released and the shutdown record is written. Idle without a
shutdown whose 1 ms point lies ahead. -/
def execShutdownRopeRelease (s : State) : Out :=
  match s.therm.shutdown with
  | none => .next s
  | some (n, t) =>
    if s.therm.sdReleased || decide (s.power.life ≠ .up) then .next s
    else
      let s := ropeRelease (thMod (fun x => { x with sdReleased := true }) s)
      .next (summaryWrite (holdupGood s) 1 0 s.therm.shutAt.1 s.therm.shutAt.2 (packW [(n, 24), (t16 t, 0)]) 0 s)

/-- SHUTDOWN_REGULATORS_OFF (R465, R466): 5 ms into a shutdown every regulator is off and the latch in the feed stage holds. Idle
unless the 1 ms point has passed. -/
def execShutdownRegulatorsOff (s : State) : Out :=
  if s.therm.shutdown.isNone || !s.therm.sdReleased || decide (s.power.life = .unpowered) then .next s
  else
    let s := resetHold true s
    .next { s with power := { s.power with sdLatch := true } }

end Sys2Proof.Machine
end

