-- ==== Sys2Proof/Machine/Boot.lean ====
section
/-! DEFINITION. The boot, firmware update, attestation and policies (R532 to R559, R571, R585). -/

namespace Sys2Proof.Machine

/-! ### Images and slots (R535, R536, R541, R551) -/

/-- The manifest of an image, and its fields. -/
def manifestOf (x : List Word) : List Word := fit 1024 0 x
def imgWord (x : List Word) (i : Nat) : Word := x.getD i 0
def imgVersion (x : List Word) : Word := imgWord x 2
def imgSvn (x : List Word) : Nat := fld (imgWord x 3) 16 16
def imgFloor (x : List Word) : Nat := fld (imgWord x 3) 0 16
def imgBytes (x : List Word) : Nat := (imgWord x 4).toNat
def imgSects (x : List Word) : Nat := fld (imgWord x 1) 0 8

/-- Word `j` of a section entry: OFFSET, LENGTH, KIND, TARGET, DIGEST. -/
def sectWord (x : List Word) (i j : Nat) : Word := imgWord x (24 + 20 * i + j)

/-- The bytes of a section. -/
def sectBytes (x : List Word) (i : Nat) : List Byte :=
  let o := (sectWord x i 0).toNat
  ((bytesOf (x.drop (o / 4))).drop (o % 4)).take (sectWord x i 1).toNat

/-- A section has its DIGEST (R535, R536). -/
def sectOk (x : List Word) (i : Nat) : Bool :=
  decide (wordsOf (sha512 (sectBytes x i)) = (List.range 16).map fun j => sectWord x i (4 + j))

/-- Two sections lie apart. -/
def sectApart (x : List Word) (i j : Nat) : Bool :=
  let a := (sectWord x i 0).toNat
  let b := (sectWord x j 0).toNat
  decide (i = j) || decide (a + (sectWord x i 1).toNat ≤ b) || decide (b + (sectWord x j 1).toNat ≤ a)

/-- R536: the manifest's own conditions, apart from the signer block. -/
def manifestOk (x : List Word) : Bool :=
  let n := imgSects x
  let boots := (List.range n).filter fun i => sectWord x i 2 = 0
  decide (imgWord x 0 = 0x50534E31) && decide (fld (imgWord x 1) 24 8 = 1) && decide (1 ≤ n) && decide (n ≤ 16) &&
  decide (boots.length = 1) && (boots.all fun i => decide ((sectWord x i 1).toNat ≤ 0x400000)) &&
  ((List.range n).all fun i => decide ((sectWord x i 0).toNat + (sectWord x i 1).toNat ≤ imgBytes x)) &&
  ((List.range n).all fun i => (List.range n).all fun j => sectApart x i j) &&
  ((List.range 20).all fun k => (List.range (16 - n)).all fun i => decide (sectWord x (n + i) k = 0)) &&
  decide (imgBytes x ≤ 0x03FFF000) && decide (imgFloor x ≤ imgSvn x)

/-- ROOT_KEY of an image, and whether its SHA-512 is the one in the boot ROM (R535). -/
def rootKey (x : List Word) : List Byte := bytesOf ((x.drop 16).take 8)
def rootOk (s : State) (x : List Word) : Bool := decide (wordsOf (sha512 (rootKey x)) = s.boot.romHash)

/-- R535, R536: the signer block of a manifest verifies with KEY_ROLE 1. -/
def imageSigned (x : List Word) : Bool := signerOk (rootKey x) 1 (bytesOf (manifestOf x))

/-- R551: what a check of the image alone finds, as a slot status; zero if nothing. Of the sections, `all` of them or the boot section alone have
their DIGEST. -/
def imageBad (s : State) (all : Bool) (x : List Word) : Nat :=
  (firstOf
    [(!manifestOk x, 2), (!rootOk s x, 3), (!imageSigned x, 4),
     (!((List.range (imgSects x)).all fun i => (!all && decide (sectWord x i 2 ≠ 0)) || sectOk x i), 5),
     (decide (imgSvn x < max s.boot.counter0 s.boot.counter1), 6)]).getD 0

/-- R541: the bits of a slot state. -/
def slotWritten (x : Slot) : Bool := !x.stateByte.getLsbD 4
def slotConfirmed (x : Slot) : Bool := !x.stateByte.getLsbD 3
def slotAttempts (x : Slot) : Nat := 3 - popcount (x.stateByte &&& 7)

/-- R542: the rollback counter. -/
def rollback (s : State) : Nat := max s.boot.counter0 s.boot.counter1

/-- The slots by image: false A, true B. -/
def slotOf (s : State) (b : Bool) : Slot := if b then s.boot.slotB else s.boot.slotA
def skipOf? (s : State) (b : Bool) : Bool := if b then s.boot.skipB else s.boot.skipA
def slotMod (b : Bool) (f : Slot → Slot) (s : State) : State :=
  btMod (fun x => if b then { x with slotB := f x.slotB } else { x with slotA := f x.slotA }) s
def skipSet (b v : Bool) (s : State) : State := btMod (fun x => if b then { x with skipB := v } else { x with skipA := v }) s

/-- R537, R551: the slot status of an image; 0 is eligible. The boot ROM checks the boot section as it loads it (R538): one that fails its DIGEST
has status 5, and the image is passed over (entry 179). -/
def slotStatus (s : State) (b : Bool) : Nat :=
  let x := slotOf s b
  (firstOf
    [(!slotWritten x, 1), (decide (imageBad s false x.image ≠ 0), imageBad s false x.image), (skipOf? s b, 8),
     (!slotConfirmed x && decide (3 ≤ slotAttempts x), 7)]).getD 0

/-- R537: the image that the boot ROM boots, if any: A before B. -/
def bootPick (s : State) : Option Bool := [false, true].find? fun b => decide (slotStatus s b = 0)

/-- R537, R541: one attempt bit of an unconfirmed image is programmed. -/
def attemptUse (b : Bool) (s : State) : State :=
  let x := slotOf s b
  if slotConfirmed x then s
  else match (List.range 3).find? fun i => x.stateByte.getLsbD i with
    | some i => slotMod b (fun y => { y with stateByte := setBit y.stateByte i false }) s
    | none => s

/-! ### The measurement log's entries (R546) -/

/-- INFO of the entries about an image. -/
def imgInfo (x : List Word) : List Word := [imgVersion x, imgWord x 3]

/-- The boot's own measurements: the manifest, the sections, the records of production test, the policy in force. -/
def bootMeasure (b : Bool) (trim certs : Nat × List Byte) (s : State) : State :=
  let x := (slotOf s b).image
  let s := measure 1 (b2n b) (imgInfo x ++ [w32 (rollback s), w32 (slotAttempts (slotOf s b))]) (digestOf (manifestOf x)) s
  let s := (List.range (imgSects x)).foldl (fun t i =>
    measure 2 i [sectWord x i 0, sectWord x i 1, sectWord x i 2] (wordsOf (sha512 (sectBytes x i))) t) s
  let s := measure 4 certs.1 [] (wordsOf (sha512 certs.2)) (measure 3 trim.1 [] (wordsOf (sha512 trim.2)) s)
  match s.boot.policy with
  | some r => measure 5 s.boot.policySlot [r.getD 1 0] (digestOf r) s
  | none => s

/-! ### Bridges (R179) -/

/-- A bridge is disabled until the next cold reset: record 0x0013; when none is left the Assayer latches veto 0x09. -/
def bridgeDown (i : Nat) (s : State) : State :=
  if (s.mem.bridges.getD i { enabled := false }).enabled then
    let s := { s with
      mem := { s.mem with bridges := s.mem.bridges.set i { enabled := false } }
      diag := { s.diag with memory := bump s.diag.memory 9 1 } }
    let (s, k) := takeFree s
    emit 2 0 0x0013 (memData 0 0xFF (Config.freeNat k % 8) 4 i 0 1) s
  else s

/-! ### The dump at boot and what NOR reports (R571, R574) -/

/-- The header of the dump region as Posin checks it. -/
def headerWords (s : State) : List Word := memWords s aDump 80

/-- HDR_CRC of a header. -/
def headerCrc (h : List Word) : Word := crc32 (bytesOf (h.set 15 0))

/-- R571: MAGIC, FORMAT and HDR_CRC hold. -/
def dumpFound (s : State) : Bool :=
  let h := headerWords s
  (damagedIn s aDump 320).isNone && decide (h.getD 0 0 = 0x444D5046) && decide (fld (h.getD 1 0) 24 8 = 1) &&
  decide (h.getD 15 0 = headerCrc h)

/-- Writes a header with its HDR_CRC. -/
def headerPut (h : List Word) (s : State) : State := memWriteWords aDump (h.set 15 (headerCrc h)) s

/-- The module holds a dump with a cause (R91). -/
def dumpHeld (cause : BitVec 16) (preserved : Bool) (s : State) : State :=
  { s with clerk := { s.clerk with
    dumpValid := true, dumpPreserved := preserved, dumpCause := cause, dumpPtr := aDump, fatal := true } }

/-- R571: a dump that the warm path finds is PRESERVED, with record 0x0C02. -/
def dumpCheck (s : State) : State :=
  if keepsWell s.clerk.resetCause.toNat && dumpFound s then
    let h := headerWords s
    let cause := BitVec.ofNat 16 (fld (h.getD 1 0) 0 16)
    let s := dumpHeld cause true (headerPut (h.set 10 (h.getD 10 0 ||| 2)) s)
    fwRecord 2 0x0C02 (packW [(fld (h.getD 7 0) 16 16, 16), (cause.toNat, 0)]) s
  else s

/-- R574: a record for each summary that no boot has reported, oldest first, and 0x0C05 for each one skipped. -/
def summariesReport (s : State) : State :=
  let new := ((s.diag.summaries.take s.diag.fresh).filter summaryValid).reverse
  let skip := s.diag.skipped
  let s := { s with diag := { s.diag with fresh := 0, skipped := [] } }
  let s := new.foldl (fun t e =>
    if fld (e.getD 0 0) 24 8 = 1 then emit 4 0 0x0903 [e.getD 2 0, e.getD 6 0] t
    else emit 4 0 0x0C01 [e.getD 2 0, packW [(fld (e.getD 7 0) 0 1, 16), (fld (e.getD 0 0) 0 16, 0)]] t) s
  skip.foldl (fun t ty => fwRecord 1 0x0C05 (w32 ty) t) s

/-! ### BOOT (R537 to R540, R585) -/

/-- R585: every value of the trim record lies within its bounds; coefficients are FP32 words, non-negative and finite. -/
def trimBounds (t : TrimRec) : Bool :=
  let ivr (l : List Nat) : Bool :=
    decide (l.length = 8) && (l.all fun v => decide (600 ≤ v) && decide (v ≤ 1000)) &&
    ((l.zip (l.drop 1)).all fun p => decide (p.2 ≤ p.1))
  let coef (l : List Word) : Bool := l.all fun w => decide (fld w 31 1 = 0) && decide (fld w 23 8 < 255)
  decide (t.serial ≠ 0) && decide (t.gains.length = 38) && decide (t.offsets.length = 38) && decide (t.eps.length = 25) &&
  (t.gains.all fun g => decide (mkRat 95 100 ≤ g) && decide (g ≤ mkRat 105 100)) &&
  (t.offsets.all fun o => decide (-32768 ≤ o) && decide (o ≤ 32767)) &&
  (t.eps.all fun e => fIn e 0 512) && ivr t.ivr0 && ivr t.ivr1 && decide (t.rails.length = 6) &&
  (t.rails.all fun v => decide (650 ≤ v) && decide (v ≤ 950)) && coef t.energy && coef t.leak

/-- The values of the trim record are in force; the certificates are those of their record before its signer block (R556). -/
def trimLoad (t : TrimRec) (certs : List Byte) (s : State) : State :=
  let s := btMod (fun x => { x with
    oVstack := t.offsets.getD 0 0, oV := t.offsets.getD 1 0, oPh := (t.offsets.drop 2).take 12, oI := t.offsets.drop 14,
    gVstack := t.gains.getD 0 1, gV := t.gains.getD 1 1, gPh := (t.gains.drop 2).take 12, gI := t.gains.drop 14,
    epsV := f32Rat (t.eps.getD 0 0), epsI := (t.eps.drop 1).map f32Rat, ivr0 := t.ivr0, ivr1 := t.ivr1, rails := t.rails,
    energy := t.energy, leak := t.leak, certs := certs.take (certs.length - 192) }) s
  { s with clerk := { s.clerk with serial := t.serial } }

/-- R539: a record of production test is taken from die 0 if its copy verifies with KEY_ROLE 2, or else from die 1: the die. -/
def copyPick (root die0 die1 : List Byte) : Option Nat :=
  if signerOk root 2 die0 then some 0 else if signerOk root 2 die1 then some 1 else none

/-- R540: the boot fails with a reason. -/
def bootFailed (reason : Nat) (s : State) : State :=
  { s with clerk := { s.clerk with bootStage := 6, bootFail := reason }, boot := { s.boot with watchdog := false } }

/-- R540: no image is eligible: the boot ROM's recovery. -/
def bootRecovery (s : State) : State :=
  let s := bootFailed 3 s
  { s with clerk := { s.clerk with mbOpen := true }, boot := { s.boot with recovery := true } }

/-- R59, R64, R88: Posin starts: every PLL runs and has locked, every implemented gate bit is set, ID_POSIN is written. -/
def posinStart (b : Bool) (s : State) : State :=
  { s with
    clk := { s.clk with gate := 0x1FFFFF, plls := List.replicate 17 { started := true, locked := true } }
    clerk := { s.clerk with posin := imgVersion (slotOf s b).image, bootStage := 2 }
    boot := { s.boot with
      imageB := b, norLock := true, running := manifestOf (slotOf s b).image, runConf := slotConfirmed (slotOf s b) } }

/-- R538 stage 3: every section of KIND 1 or 2 is copied into the Posin region at its TARGET. -/
def sectsCopy (s : State) : State :=
  let x := (slotOf s s.boot.imageB).image
  (List.range (imgSects x)).foldl (fun t i =>
    if sectWord x i 2 = 0 then t else memWrite (aPosin + (sectWord x i 3).toNat) (sectBytes x i) t) s

/-- R549: of the policy slots whose record is valid, the one with the higher SEQ is in force. -/
def policyLoad (s : State) : State :=
  let k := s.boot.policies
  let held := (k.log.flatten.filter (·.holds k)).filterMap fun e => (k.copies.getD e.slot none).map fun r => (e.slot, r.words)
  match held.foldl (fun a p => match a with
    | some q => if (q.2.getD 1 0).toNat < (p.2.getD 1 0).toNat then some p else a
    | none => some p) none with
  | some p => btMod (fun b => { b with policy := some p.2, policySlot := p.1, policySeq := (p.2.getD 1 0).toNat }) s
  | none => s

/-- The record of a production-test copy that failed (R559): the region's offset bits, and the die. -/
def copyFailed (off die : Nat) (s : State) : State := fwRecord 2 0x0B05 (packW [(off, 4), (die, 0)]) s

/-- R446: the lifetime record continues from the newest one in NOR. -/
def lifeLoad (s : State) : State := match recInForce s.est.norLife with
  | some r =>
    let n := (r.words.getD 1 0).toNat
    estMod (fun e => { e with life := fit 286 0 r.words, runS := n, saveS := n }) s
  | none => s

/-- R538, R545: the end of a good boot: trim and identity, the policy, the measurement log, MB_OPEN and Memory_Active, and the records of what
the boot found. `trim`, `cert` and `helper` are the dies that the records of production test come from. -/
def bootOpen (trim cert helper : Nat) (env : BootEnv) (s : State) : State :=
  let b := s.boot.imageB
  let t := if trim = 0 then s.boot.trim0 else s.boot.trim1
  let c := if cert = 0 then s.boot.cert0 else s.boot.cert1
  let s := policyLoad (lifeLoad (trimLoad t.values c s))
  let s := btMod (fun x => { x with identityBad := !env.identityOk, watchdog := false, trimDie := trim }) s
  let s := bootMeasure b (trim, t.bytes) (cert, c) s
  let s := { s with clerk := { s.clerk with mbOpen := true, bootStage := 5 }, link := { s.link with memActive := true } }
  let s := if b then fwRecord 2 0x0B04 (packW [(0, 8), (slotStatus s false, 0)]) s else s
  let s := if trim = 0 then s else copyFailed 0x400 0 s
  let s := if cert = 0 then s else copyFailed 0x401 0 s
  let s := if helper = 0 then s else copyFailed 0x402 0 s
  let s := if env.identityOk then s
    else
      let (s, i) := takeFree s
      fwRecord 2 0x0B05 (Config.freeWord i) s
  let s := match s.boot.policy with
    | some r => fwRecord 1 0x0B06 (r.getD 1 0) s
    | none => s
  let s := summariesReport (dumpCheck s)
  ((List.range 3).filter fun i => env.bridgesFailed.getD i false).foldl (fun t i => bridgeDown i t) s

/-- R539, R585: Posin takes the records of production test, and the boot opens or fails with reason 1. -/
def bootRecords (env : BootEnv) (s : State) : State :=
  let root := rootKey s.boot.running
  match copyPick root s.boot.trim0.bytes s.boot.trim1.bytes, copyPick root s.boot.cert0 s.boot.cert1,
    copyPick root s.boot.helper0 s.boot.helper1 with
  | some t, some c, some h =>
    if trimBounds (if t = 0 then s.boot.trim0 else s.boot.trim1).values then bootOpen t c h env s else bootFailed 1 s
  | _, _, _ => bootFailed 1 s

/-- The boot of an image, from its attempt bit on. A section that Posin finds to fail its DIGEST latches BOOT_SKIP and asks for an Assayer
reset (R535). -/
def bootImage (b : Bool) (env : BootEnv) (s : State) : State :=
  let s := posinStart b (attemptUse b s)
  let x := (slotOf s b).image
  if !keepsWell s.clerk.resetCause.toNat && !env.wellTrained then bootFailed 2 s
  else if !(List.range (imgSects x)).all (sectOk x) then
    let s := skipSet b true s
    { s with clerk := { s.clerk with bootStage := 3 }, boot := { s.boot with resetReq := true } }
  else bootRecords env (sectsCopy s)

/-- BOOT_WATCHDOG_EXPIRED (R532): the image being booted is skipped, its attempt used, and an Assayer reset follows. Idle unless the
watchdog runs. -/
def execBootWatchdogExpired (s : State) : Out :=
  if s.power.life ≠ .up || !s.boot.watchdog || s.clerk.mbOpen || s.boot.resetReq then .next s
  else match bootPick s with
    | none => .next s
    | some b =>
      let s := skipSet b true (attemptUse b s)
      .next (btMod (fun x => { x with imageB := b, resetReq := true, watchdog := false }) s)

/-! ### Firmware (R541 to R544, R551 to R553) -/

/-- A version or a word of a manifest; zero while the slot is not WRITTEN. -/
def slotWord (x : Slot) (i : Nat) : Word := if slotWritten x then imgWord x.image i else 0

/-- The response of FW_QUERY (R551). -/
def fwWords (s : State) : List Word :=
  let a := s.boot.slotA
  let b := s.boot.slotB
  let work := s.boot.writing.isSome || s.boot.copying
  [packW [(s.clerk.bootFail, 24), (slotStatus s false, 16), (slotStatus s true, 8), (b2n s.boot.imageB, 7),
     (b2n (slotConfirmed a), 6), (b2n (slotConfirmed b), 5), (b2n s.boot.writing.isSome, 4), (b2n s.boot.copying, 3),
     (b2n s.boot.skipA, 2), (b2n s.boot.skipB, 1), (b2n s.boot.recovery, 0)],
   slotWord a 2, slotWord a 3, slotWord b 2, slotWord b 3, packW [(rollback s, 16), (slotAttempts a, 0)],
   w32 (if work then min s.boot.totalBytes (Config.progressBytes s.clk.stroke) else s.boot.doneBytes), w32 s.boot.totalBytes]

/-- FW_QUERY (R551). -/
def execFwQuery (r : Req) : State → Out :=
  mailbox { op := 0x0B01, onMb := mbHigh, lenOk := (· = 0), rescue := true } r (asks fun s => okR (fwWords s))

/-- Slot B holds what slot A holds, written and confirmed. -/
def slotsEqual (s : State) : Bool :=
  decide (s.boot.slotA.image = s.boot.slotB.image) && slotWritten s.boot.slotB && slotConfirmed s.boot.slotB

/-- The state of a slot is erased, unless the NOR has to wait for a feed (R32, R541). -/
def slotErase (b : Bool) (s : State) : State :=
  if norStop s then btMod (fun x => { x with norHeld := true }) s
  else norOp true 0 1 (slotMod b fun x => { x with stateByte := 0xFF }) (btMod (fun x => { x with norHeld := false }) s)

/-- The background copy of A into B begins: slot B's state is erased. -/
def copyBegin (s : State) : State :=
  slotErase true (btMod (fun x => { x with copying := true, doneBytes := 0, totalBytes := imgBytes x.slotA.image }) s)

/-- The write of slot A begins: its state is erased first (R541). -/
def writeBegin (x : List Word) (s : State) : State :=
  slotErase false (btMod (fun b => { b with writing := some x, doneBytes := 0, totalBytes := imgBytes x }) s)

/-- A whole image is programmed into a slot, in as many programs and erases as it takes (entry 20), and its slot state after it. -/
def slotStore (b : Bool) (state : Byte) (x : List Word) (s : State) : State :=
  let (s, i) := takeFree s
  norOp true 0x1000 (1 + Config.freeNat i) id <| norOp false 0x1000 (1 + Config.freeNat (i + 1))
    (slotMod b fun _ => { stateByte := state, image := x }) { s with free := s.free + 1 }

/-- The checks of FW_WRITE, in the order of R552; `n` is BYTES. -/
def fwWriteBad (s : State) (r : Req) (x : List Word) : Option Answer :=
  let well := bit (r.w 2) 0
  let n := (r.w 5).toNat
  firstErr
    [if s.boot.recovery && well then some (errR .state 0xFE) else none,
     rangeBad [(decide (fld (r.w 2) 1 31 ≠ 0), 2), (well && decide (fld (r.w 4) 16 16 ≠ 0), 4)],
     if s.boot.writing.isSome || s.boot.copying then some (errR .busy 0) else none,
     if !well && !s.link.bme then some (errR .state 2) else none,
     if fld (r.w 3) 0 6 ≠ 0 || (well && !wellImageOk (wide (r.w 3) (r.w 4)) n) then some (errR .range 3) else none,
     if n < imgBytes x then some (errR .badLen 1) else none,
     if imageBad s true x ≠ 0 then some (errR .auth (imageBad s true x)) else none]

/-- The image that FW_WRITE names, from host memory or from the well. -/
def fwImage (s : State) (r : Req) (x : ImageInfo) : List Word :=
  let n := (r.w 5).toNat / 4
  if bit (r.w 2) 0 then memWords (seeAs .clerk s) (wide (r.w 3) (r.w 4)) n else x.words.take n

/-- FW_WRITE (R552): the image is checked, and its write goes on in the background, behind a copy of a confirmed A into B; in
recovery the answer follows the write. -/
def execFwWrite (r : Req) (image : ImageInfo) : State → Out :=
  mailbox { op := 0x0B02, onMb := mbHigh, lenOk := (· = 4), rescue := true } r fun s =>
    let x := fwImage s r image
    guardE (fwWriteBad s r x) s fun s =>
      match (if bit (r.w 2) 0 then clerkRead s (wide (r.w 3) (r.w 4)) (r.w 5).toNat else none) with
      | some s => (s, errR .fault 0)
      | none =>
        if s.boot.recovery then (writeBegin x s, .later .fwWrite)
        else if !s.boot.imageB && slotConfirmed s.boot.slotA && !slotsEqual s then
          (copyBegin (btMod (fun b => { b with writing := some x }) s), okR [])
        else (writeBegin x s, okR [])

/-- A completion code for a background work, as its record carries it. -/
def workCode (ok : Bool) (s : State) : State × Code := if ok then (s, .ok) else failCode s

/-- SLOT_B_COPY_COMPLETE (R544, R552): slot B is WRITTEN and CONFIRMED, record 0x0B03; a write of slot A that waited behind the copy
begins. Idle while no copy is in progress. -/
def execSlotBCopyComplete (ok : Bool) (s : State) : Out :=
  if !s.boot.copying || s.boot.norHeld || norStop s || decide (s.power.life ≠ .up) then .next s
  else
    let s := btMod (fun x => { x with copying := false, doneBytes := x.totalBytes }) s
    let s := if ok then slotStore true 0xE7 s.boot.slotA.image s else s
    let p := workCode ok s
    let s := fwRecord 1 0x0B03 (w32 p.2.num) p.1
    match s.boot.writing with
    | some x => .next (writeBegin x s)
    | none => .next s

/-- FW_WRITE_COMPLETE (R552): slot A is WRITTEN, SKIP_A clears, the image is measured, record 0x0B01; in recovery the boot ROM answers
the command. Idle unless the write of slot A is in progress. -/
def execFwWriteComplete (writeOk : Bool) (s : State) : Out :=
  match s.boot.writing with
  | none => .next s
  | some x =>
    if s.boot.copying || s.boot.norHeld || norStop s || decide (s.power.life ≠ .up) then .next s
    else
      let s := btMod (fun b => { b with writing := none, doneBytes := b.totalBytes, skipA := b.skipA && !writeOk }) s
      let s := if writeOk then slotStore false 0xEF x s else s
      let p := workCode writeOk s
      let s := p.1
      if s.boot.recovery then .next (answer .fwWrite p.2 0 [] s)
      else
        let s := if writeOk then measure 8 0 (imgInfo x) (digestOf (manifestOf x)) s else s
        .next (fwRecord 1 0x0B01 (packW [(p.2.num, 8)]) s)

/-- R544 steps 1 to 3: A is confirmed, the counter rises to FLOOR on both dies, and the copy into B begins. -/
def commitGo (s : State) : State :=
  let x := s.boot.slotA.image
  let c := max (rollback s) (imgFloor x)
  let s := norOp false 0 1 (slotMod false fun a => { a with stateByte := setBit a.stateByte 3 false }) s
  let (s, i) := takeFree s
  let s := norOp false 0x4040000 (if rollback s < c then 2 + Config.freeNat i else 0)
    (btMod fun b => { b with counter0 := c, counter1 := c, runConf := b.runConf || decide (manifestOf x = b.running) }) s
  let s := fwRecord 1 0x0B02 (packW [(imgSvn x, 16), (c, 0)]) (measure 9 0 (imgInfo x) (digestOf (manifestOf x)) s)
  if s.boot.copying then s else copyBegin s

/-- R553: on a confirmed A with the counter at FLOOR and B equal to A, FW_COMMIT changes nothing. -/
def committed (s : State) : Bool :=
  slotConfirmed s.boot.slotA && decide (imgFloor s.boot.slotA.image ≤ rollback s) && slotsEqual s

/-- FW_COMMIT (R553). -/
def execFwCommit (r : Req) : State → Out :=
  mailbox { op := 0x0B03, onMb := mbHigh, lenOk := (· = 0) } r fun s =>
    guardE (firstErr
      [if s.boot.imageB then some (errR .state 1) else none,
       if s.boot.writing.isSome then some (errR .busy 0) else none,
       if committed s then some (okR []) else none]) s fun s =>
      if holdupGood s then (commitGo s, okR []) else (s, .later .fwCommit)

/-! ### Attestation (R547, R554 to R556) -/

/-- R547: the quote body. -/
def quoteBody (s : State) (nonce : List Word) : List Word :=
  [packW [(1, 24), (s.clerk.resetCause.toNat, 16), (b2n (decide (65536 < s.boot.mlogCount)), 2), (b2n s.boot.runConf, 1),
     (b2n s.boot.imageB, 0)]] ++ fit 8 0 nonce ++
  [lo32 s.clerk.serial.toNat, hi32 s.clerk.serial.toNat, strokeLo s, strokeHi s, s.clerk.posin,
   packW [(rollback s, 16), (imgSvn s.boot.running, 0)], w32 s.boot.mlogCount,
   match s.boot.policy with
   | some p => p.getD 1 0
   | none => 0] ++
  fit 16 0 s.boot.mlogHash ++
  (match s.boot.policy with
   | some p => digestOf p
   | none => List.replicate 16 0) ++
  fit 8 0 Config.identityKey ++ List.replicate 7 0

/-- ATTEST_QUOTE (R554). -/
def execAttestQuote (r : Req) : State → Out :=
  mailbox { op := 0x0B04, onMb := mbHigh, lenOk := (· = 8) } r (asks fun s =>
    if s.boot.identityBad then errR .auth 3
    else
      let q := quoteBody s ((List.range 8).map fun i => r.w (2 + i))
      okR (q ++ fit 16 0 (Config.identitySign q)))

/-- ATTEST_LOG_READ (R555). -/
def execAttestLogRead (r : Req) : State → Out :=
  mailbox { op := 0x0B05, onMb := mbHigh, lenOk := (· = 1) } r (asks fun s =>
    let f := fld (r.w 2) 0 16
    let n := fld (r.w 2) 16 6
    if fld (r.w 2) 22 10 ≠ 0 ∨ n = 0 ∨ 42 < n then errR .range 2
    else if s.boot.mlog.length < f + n then errR .badLen 1
    else okR (w32 s.boot.mlogCount :: ((s.boot.mlog.drop f).take n).flatten))

/-- ATTEST_CERT (R556). -/
def execAttestCert (r : Req) : State → Out :=
  mailbox { op := 0x0B06, onMb := mbHigh, lenOk := (· = 1) } r (asks fun s =>
    let o := 4 * fld (r.w 2) 0 13
    if fld (r.w 2) 13 19 ≠ 0 then errR .range 2
    else if s.boot.certs.length ≤ o then errR .badLen 1
    else okR (w32 s.boot.certs.length :: wordsOf ((s.boot.certs.drop o).take 4000)))

/-! ### Policies (R548, R549, R557, R558) -/

/-- POLICY_SET (R557): the record is checked, and its write begins as R445 has it, unless another record write goes before it; the answer follows
the commit entry. -/
def execPolicySet (r : Req) (desc : HostRead) : State → Out :=
  mailbox { op := 0x0B07, onMb := mbHigh, lenOk := (· = 3) } r fun s =>
    match descRead (wide (r.w 2) (r.w 3)) (r.w 4).toNat 2 desc with
    | .error a => (s, a)
    | .ok p =>
      if (r.w 4).toNat ≠ 512 then (s, errR .badLen 1)
      else match policyBad s p with
        | some a => (if a = errR .auth 1 then fwRecord 1 0x0B07 0x0B07 s else s, a)
        | none => (if s.est.writing.isSome || norStop s then s else norErase 2 p s, .later (.policySet p))

/-- POLICY_QUERY (R558). -/
def execPolicyQuery (r : Req) : State → Out :=
  mailbox { op := 0x0B08, onMb := mbHigh, lenOk := (· = 0) } r
    (asks fun s => okR (fit 128 0 (s.boot.policy.getD [])))

/-! ### HOLDUP_GOOD (R30, R448, R460, R553, R557) -/

/-- One FW_COMMIT that waited goes on; it may find a write that has begun meanwhile, or that another one has left it nothing to do (R553). -/
def commitResume (s : State) : State := match waitingMb (fun w => decide (w = .fwCommit)) s with
  | some _ =>
    if s.boot.writing.isSome then answer .fwCommit .busy 0 [] s
    else answer .fwCommit .ok 0 [] (if committed s then s else commitGo s)
  | none => s

/-- Every FW_COMMIT that waited for HOLDUP_GOOD goes on, by mailbox. The record writes go on by NOR_WRITE_RESUME. -/
def holdupResume (s : State) : State := (List.range 4).foldl (fun t _ => commitResume t) s

/-- HOLDUP_CHARGED (R30): the store is fully charged. Idle without a feed, without power, or when it is charged. -/
def execHoldupCharged (s : State) : Out :=
  if s.power.charged || !(s.power.feedA || s.power.feedB) || s.power.sdLatch then .next s
  else
    let s := { s with power := { s.power with charged := true } }
    .next (if s.power.life = .up then holdupResume s else s)

/-- HOLDUP_GOOD_WAIT_TIMEOUT (R460, R553, R557): HOLDUP_GOOD has stayed 0 for 1 s. A STOP of EST whose save waits has outlasted its
bound too, and EST stays RUNNING (R102, R451). Idle while it is 1. -/
def execHoldupGoodWaitTimeout (s : State) : Out :=
  if holdupGood s then .next s
  else
    let s := answer (.funcStop fEST) .timeout 0 [] s
    let s := (List.range 4).foldl (fun t _ => answer .fwCommit .timeout 1 [] (answer .estSave .timeout 1 [] t)) s
    let s := (policiesWaiting s).foldl (fun t p => answer (.policySet p) .timeout 1 [] t) s
    .next (if s.est.writing.any fun w => decide (w.kind = 2) then norGone (estMod (fun e => { e with writing := none }) s) else s)

end Sys2Proof.Machine
end

