-- ==== Sys2Proof/Machine/Clock.lean ====
section
/-! DEFINITION. The clock and stroke commands (R80 to R84). -/

namespace Sys2Proof.Machine

/-- The response of CLOCK_QUERY (R80). -/
def clockWords (s : State) : List Word :=
  [strokeLo s, strokeHi s,
   packW [(b2n s.clk.prefB, 11), (b2n s.clk.qualB, 10), (b2n s.clk.qualA, 9), (b2n s.clk.qualRefclk, 8),
          (b2n s.clk.aligning, 7), (timingNum s, 4), (refNum s.clk.refSrc, 0)],
   packW [(s.clk.loopDiv, 26), (s.clk.strokeDiv, 0)],
   packW [(nocMHz s, 16), (s.therm.fTile / 1000000, 0)],
   i32 (if follower s then s.clk.phaseErr else 0), s.clk.gate,
   packW [(s.clk.refSwitches, 16), (s.clk.forcedSwitches, 0)], w32 s.clk.sscPpm]

/-- CLOCK_QUERY (R80). -/
def execClockQuery (r : Req) : State → Out :=
  mailbox { op := 0x0201, onMb := mbAny, lenOk := (· = 0) } r (asks fun s => okR (clockWords s))

/-- R69: the joint limits of STROKE_DIV and LOOP_DIV. -/
def divsJoint (sd ld : Nat) : Bool := decide (sd % ld = 0) && decide (100 ≤ sd / ld)

/-- The checks of STROKE_CONFIG, in the order of R81. -/
def strokeConfigBad (s : State) (r : Req) : Option Answer :=
  let sd := fld (r.w 2) 0 20
  let ld := fld (r.w 3) 0 6
  if !allQuiet s then some (errR .state 0)
  else rangeBad
    [(decide (fld (r.w 2) 20 12 ≠ 0), 2), (decide (fld (r.w 3) 6 26 ≠ 0), 3),
     (decide (sd < 1000 ∨ 1000000 < sd), 2), (decide (ld < 1 ∨ 32 < ld), 3), (!divsJoint sd ld, 2)]

/-- STROKE_CONFIG (R81): the values take effect at the first boundary after the response. -/
def execStrokeConfig (r : Req) : State → Out :=
  mailbox { op := 0x0202, onMb := mbHigh, lenOk := (· = 2) } r fun s =>
    guardE (strokeConfigBad s r) s fun s =>
      ({ s with clk := { s.clk with nextDivs := some (fld (r.w 2) 0 20, fld (r.w 3) 0 6) } }, okR [])

/-- Boost is enabled or about to be (R63, R490). -/
def boostSet (s : State) : Bool := match s.therm.next with
  | some n => n.2.1
  | none => s.therm.boostEn

/-- The checks of CLOCK_CONFIG, in the order of R82; its E_ROLE is that of R76. -/
def clockConfigBad (s : State) (r : Req) : Option Answer :=
  if !allQuiet s then some (errR .state 0)
  else firstErr
    [rangeBad
      [(decide (r.w 2 &&& 0xFFFFFECC ≠ 0) || decide (fld (r.w 2) 0 2 = 3), 2),
       (decide (fld (r.w 3) 13 19 ≠ 0) || decide (5000 < fld (r.w 3) 0 13), 3),
       (decide (fld (r.w 2) 0 2 = 1) && boostSet s, 2)],
     if fld (r.w 3) 0 13 ≠ 0 ∧ (s.clerk.ropeRole = 1 ∨ s.clerk.ropeRole = 2) then some (roleR s) else none]

/-- R60, R82: noc and the SRAM domains head for the dividers that a new setting asks for; DIVIDER_STEP moves them. A domain that is
changing its source heads for its own after the switch. -/
def ratiosApply (s : State) : State :=
  let set (d : Nat) (t : State) : State :=
    { t with clk := { t.clk with domains := t.clk.domains.modify d fun x =>
        { x with target := if x.switching then x.target else domBase t d, rawDiv := none } } }
  set 8 (set 7 (set 6 (measureBlur s)))

/-- CLOCK_CONFIG (R82): it answers when its ratios hold, at once where no divider moves. -/
def execClockConfig (r : Req) : State → Out :=
  mailbox { op := 0x0203, onMb := mbHigh, lenOk := (· = 2) } r fun s =>
    guardE (clockConfigBad s r) s fun s =>
      let s := { s with clk := { s.clk with
        prefB := bit (r.w 2) 8, halfB := bit (r.w 2) 5, halfA := bit (r.w 2) 4, nocSel := fld (r.w 2) 0 2,
        sscPpm := fld (r.w 3) 0 13 } }
      let s := ratiosApply s
      ({ s with clk := { s.clk with spreadSeen := s.clk.spreadSeen || spreadNow s } },
        if ratiosDone s then okR [] else .later .ratios)

/-- Owner of the frequency counter during CLOCK_MEASURE (R119), and the counter's resource ID (R118). -/
def oMeasure : Nat := 0x38
def rFreqCounter : Nat := 0x210

/-- The checks of CLOCK_MEASURE (R83). -/
def clockMeasureBad (s : State) (r : Req) : Option Answer :=
  firstErr
    [rangeBad [(decide (r.w 2 &&& 0xFFE0E0E0 ≠ 0), 2),
       (decide (fld (r.w 2) 16 5 < 8 ∨ 24 < fld (r.w 2) 16 5), 2),
       (decide (21 < fld (r.w 2) 8 5), 2), (decide (21 < fld (r.w 2) 0 5), 2)],
     if s.clk.measure.isSome then some (errR .busy 0) else none,
     if gateOn s 8 then none else some (okR [0, 0]),
     (claimConflict s oMeasure [rFreqCounter]).map fun c => conflictR c.1 c.2]

/-- A rope's recovered clock shows edges: ROPE runs and a link on which the rope's frame arrives is up with its lanes
locked (R83). Rope A enters on ROPE0 and rope B on ROPE2 (R320). -/
def ropeClockRuns (s : State) (b : Bool) : Bool :=
  let port := if b then 2 else 0
  fnRunning s fROPE && decide ((s.rope.ports.getD port {}).link = .up)

/-- R83: an input that shows no edges now, by a rule and not only by what is measured: a recovered clock without its lock. -/
def inputDead (s : State) (i : Nat) : Bool :=
  if i < 19 then false
  else if i = 19 then !ropeClockRuns s false
  else if i = 20 then !ropeClockRuns s true
  else !s.clk.hbClock

/-- R67: how many edges of input `m` fall on one edge of input `g`, where both come from one source: one input, domains of one
PLL, and ref with the input that it follows. Any other two clocks have the ratio of their actual frequencies, which no register
holds (a domain may run up to 1 % off, R68). -/
def clockRatio (s : State) (g m : Nat) : Option Rat :=
  let div (d : Nat) : Nat := (s.clk.domains.getD d {}).divider
  let src : Nat := match s.clk.refSrc with
    | none => 22
    | some .refclk => 18
    | some .ropeA => 19
    | some .ropeB => 20
  if g = m then some 1
  else if g < 18 ∧ m < 18 ∧ pllOf s g = pllOf s m then some (mkRat (div g) (div m))
  else if (g = 0 ∧ m = src) ∨ (m = 0 ∧ g = src) then some 1
  else none

/-- R67: a count lies within one of the exact ratio times 2^K. -/
def countNear (r : Rat) (k count : Nat) : Nat :=
  let x := r * (2 ^ k : Nat)
  max (x - 1).ceil.toNat (min (x + 1).floor.toNat count)

/-- CLOCK_MEASURE (R83): takes the frequency counter; the response follows the gate (CLOCK_MEASURE_COMPLETE). -/
def execClockMeasure (r : Req) : State → Out :=
  mailbox { op := 0x0204, onMb := mbHigh, lenOk := (· = 1) } r fun s =>
    guardE (clockMeasureBad s r) s fun s =>
      let s := claimAll oMeasure [rFreqCounter] s
      let g := fld (r.w 2) 8 5
      let i := fld (r.w 2) 0 5
      let m : Measure :=
        { mb := r.mb.val, k := fld (r.w 2) 16 5, gateIn := g, measIn := i, ratio := clockRatio s g i, gateDead := inputDead s g,
          measDead := inputDead s i }
      ({ s with clk := { s.clk with measure := some m } }, .later .measure)

/-- The response of a measurement: COUNT (R67), then GATE_STOPPED and MEAS_STOPPED (R83). A recovered clock that had no lock at the
request and has none now showed no edge. -/
def measureAnswer (s : State) (m : Measure) (count : Nat) (measStopped gateStopped : Bool) : Code × List Word :=
  if !gateOn s 8 then (.ok, [0, 0])
  else
    let g := gateStopped || (m.gateDead && inputDead s m.gateIn)
    let d := (measStopped && (g || decide (m.measIn ≠ m.gateIn))) || (m.measDead && inputDead s m.measIn)
    let n := match m.ratio with
      | some x => if g then count else countNear x m.k count
      | none => count
    (if g then .timeout else .ok, [if d then 0 else w32 n, packW [(b2n g, 1), (b2n d, 0)]])

/-- CLOCK_MEASURE_COMPLETE (R83): the gate has run, or its clock showed no edge for 1 s. Idle without a measurement. -/
def execClockMeasureComplete (count : Nat) (measStopped gateStopped : Bool) (s : State) : Out :=
  match s.clk.measure with
  | none => .next s
  | some m =>
    let a := measureAnswer s m count measStopped gateStopped
    let s := claimRelease oMeasure { s with clk := { s.clk with measure := none } }
    .next (complete m.mb a.1 0 a.2 s)

/-- R66: the first bit that a requested mask would clear although somebody holds it: the holder and the bit. -/
def gateConflict (s : State) (new : Word) : Option (Nat × Nat) :=
  (List.range 21).findSome? fun b =>
    if gateOn s b && !new.getLsbD b then (gateHolder s b).map fun o => (o, b) else none

/-- The checks of CLOCK_GATE (R84). -/
def clockGateBad (s : State) (r : Req) : Option Answer :=
  firstErr [rangeBad [(decide (fld (r.w 2) 21 11 ≠ 0), 2)],
    (gateConflict s (r.w 2)).map fun c => conflictR c.1 (0x100 + c.2)]

/-- CLOCK_GATE (R84): the whole mask or nothing. -/
def execClockGate (r : Req) : State → Out :=
  mailbox { op := 0x0205, onMb := mbHigh, lenOk := (· = 1) } r fun s =>
    guardE (clockGateBad s r) s fun s => ({ s with clk := { s.clk with gate := r.w 2 } }, okR [r.w 2])

end Sys2Proof.Machine
end

