-- ==== Sys2Proof/Machine/Pump.lean ====
section
/-! DEFINITION. The device cache and the eight pumps (R128, R142, R144 to R159). -/

namespace Sys2Proof.Machine

/-- R146: ID of a pump: SOURCE, owner ID and detail of E_FAULT. -/
def pumpId (p : Nat) : Nat := 0x40 + p

/-- R146: the gate mask bit that a running ring claims, and its resource. -/
def pumpGate (p : Nat) : Nat := 12 + p
def pumpRes (p : Nat) : Nat := 0x10C + p

def pumpOf (s : State) (p : Nat) : Pump := s.pumps.getD p {}

def pumpPut (p : Nat) (v : Pump) (s : State) : State := { s with pumps := s.pumps.set p v }

/-! ### The device cache (R128, R142 to R145) -/

/-- The 64-byte line of a host address. -/
def lineOf (a : Nat) : Nat := a / 64

/-- A line is read with RdShared and held, in CXL mode. The cache has 1,024 lines; the lines of a descriptor are held no longer
than its command lasts (R142), which is one step here, so the producer lines are what stays. -/
def cacheTake (a : Nat) (s : State) : State :=
  if s.link.pcieOnly then s else { s with link := { s.link with cache := insertNat (lineOf a) s.link.cache } }

/-- A snoop that invalidates a line takes it from the cache. -/
def cacheDrop (a : Nat) (s : State) : State :=
  { s with link := { s.link with cache := s.link.cache.filter (· ≠ lineOf a) } }

/-- The snoops of CXL.cache and the answers of R144: a held line is Shared and clean, never Modified (entry 113). -/
inductive Snoop where
  | data
  | inv
  | cur
  deriving DecidableEq, Repr, Inhabited
inductive SnoopRsp where
  | rspIHitI
  | rspIHitSE
  | rspSHitSE
  | rspVHitV
  deriving DecidableEq, Repr, Inhabited

/-- The answer to a host snoop of a line, and the cache after it. -/
def snoopAnswer (k : Snoop) (a : Nat) (s : State) : State × SnoopRsp :=
  if !s.link.cache.contains (lineOf a) then (s, .rspIHitI)
  else match k with
    | .data => (s, .rspSHitSE)
    | .inv => (cacheDrop a s, .rspIHitSE)
    | .cur => (s, .rspVHitV)

/-! ### Entering STOPPED and FAULTED (R148, R153, R154) -/

/-- R153: vector 8 + n is sent at once. -/
def pumpVector (p : Nat) (s : State) : State := msixDue (8 + p) s

/-- A ring enters STOPPED with a cause: descriptors in progress are dropped, the claim is released, and the next descriptor
to fetch is the one at CONS (R148, R157). STOP_CAUSE is that of this entry (R159). -/
def pumpStopped (p cause : Nat) (s : State) : State :=
  let v := pumpOf s p
  claimRelease (pumpId p)
    (pumpPut p { v with state := .stopped, stopCause := cause, inProg := [], next := v.cons, draining := false } s)

/-- R153: an entry into STOPPED without PUMP_STOP or PUMP_RING_SET: the record of code 0x0002 and vector 8 + n. The manual gives its
severity nowhere, nor its word 6 for a cause other than HALT_ON_ERR: the model writes 1 and CONS (entry 53, DESIGN CHOICE). -/
def pumpStoppedEvent (p cause : Nat) (k : Word) (s : State) : State :=
  pumpVector p (emit 1 (pumpId p) 2 [w32 cause, k] (pumpStopped p cause s))

/-- R154: the ring goes FAULTED; CONS stays at the faulting descriptor, and a command in progress on it ends. The manual gives the
record's severity nowhere: the model writes 3 (entry 53, DESIGN CHOICE). -/
def pumpFaultedAt (p cause : Nat) (k : Word) (moved addr : Nat) (s : State) : State :=
  let v := pumpOf s p
  let s := pumpPut p { v with state := .faulted, faultCause := cause, faults := satAdd 65535 v.faults 1,
                              inProg := [], next := v.cons, draining := false } s
  let s := emit 3 (pumpId p) 1 [w32 cause, k, w32 moved, lo32 addr, hi32 addr] s
  answer (.pumpStop p) .fault (pumpId p) [] (pumpVector p s)

/-! ### Descriptors (R149 to R151) -/

/-- Fields of a descriptor. -/
def dOp (ws : List Word) : Nat := fld (ws.getD 0 0) 24 4
def dIrq (ws : List Word) : Bool := bit (ws.getD 0 0) 7
def dFence (ws : List Word) : Bool := bit (ws.getD 0 0) 8
def dLen (ws : List Word) : Nat := (ws.getD 1 0).toNat
def dHost (ws : List Word) : Nat := wide (ws.getD 2 0) (ws.getD 3 0)
def dWoff (ws : List Word) : Nat := (ws.getD 4 0).toNat + fld (ws.getD 5 0) 0 8 * 2 ^ 32

/-- R150 check 2: the first word with a reserved field, or a NOP or FILL_WELL field, that is not zero. -/
def dReserved (ws : List Word) : Option Nat :=
  let nop := decide (dOp ws = 0)
  let fill := decide (dOp ws = 3)
  firstBad
    [(decide (ws.getD 0 0 &&& 0xF0FFFE7F ≠ 0), 0), (nop && decide (ws.getD 1 0 ≠ 0), 1),
     (nop && decide (ws.getD 2 0 ≠ 0), 2), ((nop || fill) && decide (ws.getD 3 0 ≠ 0), 3),
     (nop && decide (ws.getD 4 0 ≠ 0), 4),
     (decide (fld (ws.getD 5 0) 8 24 ≠ 0) || (nop && decide (ws.getD 5 0 ≠ 0)), 5)]

/-- The checks of R150 in their order: the code and detail of a rejected descriptor. A LENGTH of zero passes every check
but the first two. -/
def dRejected (v : Pump) (ws : List Word) : Option (Nat × Nat) :=
  let size := v.winPages * 4096
  let hostSide := decide (dOp ws = 1 ∨ dOp ws = 2)
  if 3 < dOp ws then some (7, 0)
  else match dReserved ws with
    | some w => some (7, w)
    | none =>
      if dOp ws = 0 ∨ dLen ws = 0 then none
      else if dLen ws % 4 ≠ 0 ∨ dWoff ws % 4 ≠ 0 ∨ (hostSide ∧ dHost ws % 4 ≠ 0) then some (7, 1)
      else if (if dOp ws = 2 then v.allowFrom else v.allowTo) = false then some (5, 0)
      else if size < dLen ws then some (2, 1)
      else if size < dWoff ws + dLen ws then some (2, 2)
      else if hostSide ∧ 2 ^ 64 < dHost ws + dLen ws then some (7, 2)
      else none

/-- The descriptors of a ring that have started (R151): the oldest in progress, and those behind it up to the first with FENCE = 1.
What stands behind a fenced descriptor has not started either, since write-backs keep the order (entry 114). -/
def startedIn : List PumpDesc → List PumpDesc
  | [] => []
  | d :: t => d :: t.takeWhile fun x => !dFence x.words

/-- The place of the first byte that a descriptor writes: a well address, or 2^64 above a host address. -/
def destOf (v : Pump) (ws : List Word) : Nat := if dOp ws = 2 then 2 ^ 64 + dHost ws else v.winBase + dWoff ws

/-- The bytes that a descriptor writes: their place and number. -/
def destRange (v : Pump) (d : PumpDesc) : Nat × Nat :=
  (destOf v d.words, if d.reject.isSome ∨ d.lost ∨ dOp d.words = 0 then 0 else dLen d.words)

/-- R151: bytes that two descriptors in progress at once both write have no defined value: each is free. -/
def blur (free : Nat) (clash : List (Nat × Nat)) (a : Nat) (bs : List Byte) : List Byte :=
  bs.zipIdx.map fun x =>
    if clash.any fun r => decide (r.1 ≤ a + x.2) && decide (a + x.2 < r.1 + r.2)
    then BitVec.ofNat 8 (Config.freeNat (free + x.2)) else x.1

/-- A pump's data reach the well or the host (R151): every access that starts afterwards sees them. `d` is the descriptor that
wrote them; bytes that it shares with another descriptor in progress are free, and so are they when that one writes them; a
descriptor that its FENCE still holds back is not in progress. Until a descriptor completes, a reader sees its lines old: R152 leaves open
which lines of an unfinished one it sees new (entry 157, DESIGN CHOICE). -/
def pumpStore (p : Nat) (d : PumpDesc) (bs : List Byte) (s : State) : State :=
  let v := pumpOf s p
  let a := destOf v d.words
  let others := (startedIn v.inProg).filter fun x => x.k ≠ d.k
  let mark (x : PumpDesc) : PumpDesc :=
    if others.any fun o => o.k = x.k then { x with clash := (a, bs.length) :: x.clash } else x
  let clash := (others.map (destRange v) ++ d.clash).filter fun r => decide (r.1 < a + bs.length) && decide (a < r.1 + r.2)
  let s := pumpPut p { v with inProg := if bs.isEmpty then v.inProg else v.inProg.map mark } s
  let bs := if clash.isEmpty then bs else blur s.free clash a bs
  let s := { s with free := if clash.isEmpty then s.free else s.free + bs.length }
  if dOp d.words = 2 then perfAdd 9 bs.length (hostWrite (dHost d.words) bs s)
  else perfAdd 6 bs.length (openWrite a bs s)

/-- Moves the first `n` bytes of a descriptor's data (R151): to the well from the words that the host gave, from the well
to the host, or the fill pattern; the bytes and the link's traffic are counted (R159, R576). -/
def pumpMove (p : Nat) (d : PumpDesc) (n : Nat) (data : List Word) (s : State) : State :=
  let ws := d.words
  let v := pumpOf s p
  let a := v.winBase + dWoff ws
  let s := pumpPut p { v with bytes := v.bytes + BitVec.ofNat 64 n } s
  if dOp ws = 1 then perfAdd 8 n (pumpStore p d (fit n 0 (bytesOf (fit (n / 4) 0 data))) s)
  else if dOp ws = 2 then readCount a n (pumpStore p d (memRead (seeAs (.pump p) s) a n) s)
  else if dOp ws = 3 then pumpStore p d (fit n 0 (bytesOf (List.replicate (n / 4) (ws.getD 2 0)))) s
  else pumpPut p v s

/-- R154 cause 4, R192: how far a FROM_WELL descriptor's data go before the first uncorrectable word; the rest is not sent. -/
def pumpClean (p : Nat) (d : PumpDesc) (n : Nat) (s : State) : Nat :=
  let a := (pumpOf s p).winBase + dWoff d.words
  match (if dOp d.words = 2 then damagedIn (seeAs (.pump p) s) a n else none) with
  | some x => (x - a) / 4 * 4
  | none => n

/-- R149, R151: word 7 of a descriptor is written back. -/
def pumpWriteBack (p : Nat) (k : Word) (code detail : Nat) (s : State) : State :=
  let v := pumpOf s p
  hostWrite (v.ring + 64 + 32 * (k.toNat % 2 ^ v.log2) + 28) (wordBytes (packW [(1, 16), (detail, 8), (code, 0)])) s

/-- R153: CONS advances and is written to the control block. -/
def pumpAdvance (p : Nat) (s : State) : State :=
  let v := pumpOf s p
  let v' := { v with cons := v.cons + 1, inProg := v.inProg.drop 1 }
  hostWrite (v.ring + 4) (wordBytes v'.cons) (pumpPut p v' s)

/-- The first `n` bytes of a descriptor had moved when it ended; the host's words of a TO_WELL are free (entry 7). -/
def pumpPart (p : Nat) (d : PumpDesc) (n : Nat) (s : State) : State :=
  let n := pumpClean p d n s
  let i := s.free
  pumpMove p d n ((List.range (n / 4)).map fun j => Config.freeWord (i + j)) { s with free := i + n / 4 }

/-- How many bytes of a started descriptor had moved when it was cut at a multiple of `unit` bytes: the manual leaves it open, so it
is free (entry 7). -/
def pumpCutOne (unit p : Nat) (d : PumpDesc) (s : State) : State :=
  if d.reject.isSome ∨ d.lost ∨ dLen d.words = 0 then s
  else
    let (s, i) := takeFree s
    pumpPart p d (min (dLen d.words) (unit * (Config.freeNat i % ((dLen d.words + unit - 1) / unit + 1)))) s

/-- R157: every descriptor in progress is cut at its next 4 KiB boundary and none is written back; one that its FENCE holds back has
moved nothing. -/
def pumpCut (p : Nat) (s : State) : State := (startedIn (pumpOf s p).inProg).foldl (fun t d => pumpCutOne 4096 p d t) s

/-- What the started descriptors, but for the first `done` of them, have moved when a fault or HALT_ON_ERR ends their ring's run: the
manual does not say, so it is free (R151, R154; entry 7). -/
def pumpRest (p done : Nat) (s : State) : State :=
  ((startedIn (pumpOf s p).inProg).drop done).foldl (fun t d => pumpCutOne 4 p d t) s

/-- R154: the ring goes FAULTED; what the first `done` descriptors in progress have moved is settled. -/
def pumpFaulted (p cause done : Nat) (k : Word) (moved addr : Nat) (s : State) : State :=
  pumpFaultedAt p cause k moved addr (pumpRest p done s)

/-- R148, R154 cause 5: PROD is taken as read; a ring that would hold more descriptors than slots faults. No access fails there, so
the record's words 6 to 9 hold CONS, no bytes and no address (entry 115, DESIGN CHOICE). -/
def pumpProd (p : Nat) (prod : Word) (s : State) : State :=
  let v := pumpOf s p
  let s := cacheTake v.ring (pumpPut p { v with prod := prod } s)
  if 2 ^ v.log2 < (prod - v.cons).toNat then pumpFaulted p 5 0 v.cons 0 0 s else s

/-- A read of the producer word of a running ring: its value, or the fault of a read that the host does not serve (R154 causes 1 to
3). The failing access is that of the control block. -/
def pumpProdRead (p : Nat) (prod : HostRead) (s : State) : State :=
  let v := pumpOf s p
  match prod with
  | .words ws => pumpProd p (ws.getD 0 0) s
  | .error => pumpFaulted p 1 0 v.cons 0 v.ring s
  | .timeout => pumpFaulted p 2 0 v.cons 0 v.ring s
  | .poison => pumpFaulted p 3 0 v.cons 0 v.ring s

/-! ### Link events on pumps (R161) -/

/-- R161: a RUNNING ring is cut and enters STOPPED; a PUMP_STOP that drains it is answered. -/
def pumpLinkStop (cause p : Nat) (s : State) : State :=
  if (pumpOf s p).state = .running then
    answer (.pumpStop p) .ok 0 [] (pumpStoppedEvent p cause (pumpOf s p).cons (pumpCut p s))
  else s

/-- Every RUNNING ring stops with a cause. -/
def pumpsLinkStop (cause : Nat) (s : State) : State := (List.range 8).foldl (fun t p => pumpLinkStop cause p t) s

/-- R153: vectors of the rings with a completed IRQ descriptor, at a stroke boundary; the producer words are to be read again (R145). -/
def pumpsBoundary (s : State) : State :=
  (List.range 8).foldl (fun t p =>
    let v := pumpOf t p
    let t := pumpPut p { v with irqDue := false, prodRead := false } t
    if v.irqDue then pumpVector p t else t) s

/-! ### Pump commands (R155 to R159) -/

/-- The header of a pump command: mailboxes 1–3, one ring as the function of R100. -/
def pumpCmd (op len : Nat) (r : Req) : Cmd :=
  { op := op, onMb := mbHigh, lenOk := (· = len), acts := [pumpId (fld (r.w 2) 0 3)] }

def pumpSel (r : Req) : Nat := fld (r.w 2) 0 3

/-- The error of R113 for a ring that must be STOPPED, RUNNING or FAULTED. -/
def pumpNeeds (s : State) (p : Nat) (want : FState) : Option Answer :=
  let st := (pumpOf s p).state
  if st = want then none
  else if st = .faulted then some (errR .fault (pumpId p))
  else some (errR .state 0)

/-- The fields of PUMP_RING_SET (R155). A window over the published region with ALLOW_TO_WELL names word 2, which holds ALLOW_TO_WELL,
and is tested last: the manual states neither (entry 116, DESIGN CHOICE). -/
def pumpRingSetBad (r : Req) : Option Answer :=
  let l := fld (r.w 2) 11 5
  let base := fld (r.w 5) 12 20 * 4096 + fld (r.w 6) 0 8 * 2 ^ 32
  let fin := base + (r.w 7).toNat * 4096
  rangeBad
    [(decide (r.w 2 &&& 0xFFFF00F8 ≠ 0), 2), (!(decide (l = 0) || (decide (4 ≤ l) && decide (l ≤ 16))), 2),
     (decide (fld (r.w 3) 0 6 ≠ 0), 3), (decide (fld (r.w 5) 0 12 ≠ 0), 5), (decide (fld (r.w 6) 8 24 ≠ 0), 6),
     (decide (r.w 7 = 0), 7), (decide (aPosin < fin), 7),
     (bit (r.w 2) 8 && decide (base < aHost) && decide (aPublished < fin), 2)]

/-- R155: the ring and its window are set, or removed with LOG2_ENTRIES = 0. From OFF the ring enters STOPPED by a command (R159). The
writes to a gated pump are dropped (R65, entry 158). -/
def pumpRingApply (p : Nat) (r : Req) (s : State) : State :=
  let v := pumpOf s p
  let l := fld (r.w 2) 11 5
  let ring := wide (r.w 3) (r.w 4)
  if gateOn s (pumpGate p) = false then s
  else if l = 0 then
    pumpPut p { v with state := .off, ring := 0, log2 := 0, haltOnErr := false, allowTo := false, allowFrom := false,
                       winBase := 0, winPages := 0, cons := 0, next := 0 } s
  else
    hostWrite (ring + 4) (wordBytes 0) (pumpPut p { v with
      state := .stopped, stopCause := if v.state = .off then 0 else v.stopCause, ring := ring, log2 := l,
      haltOnErr := bit (r.w 2) 10, allowFrom := bit (r.w 2) 9,
      allowTo := bit (r.w 2) 8, winBase := fld (r.w 5) 12 20 * 4096 + fld (r.w 6) 0 8 * 2 ^ 32,
      winPages := (r.w 7).toNat, cons := 0, next := 0 } s)

/-- PUMP_RING_SET (R155). -/
def execPumpRingSet (r : Req) : State → Out :=
  mailbox (pumpCmd 0x0401 6 r) r fun s =>
    let p := pumpSel r
    let st := (pumpOf s p).state
    guardE (firstErr [if st = .faulted then some (errR .fault (pumpId p)) else none,
                      if st = .running then some (errR .state 0) else none, pumpRingSetBad r]) s
      fun s => (pumpRingApply p r s, okR [])

/-- A reserved bit of word 2 other than PUMP and the mask's is set. -/
def pumpWord2Bad (r : Req) (mask : Word) : Option Answer := rangeBad [(decide (r.w 2 &&& mask ≠ 0), 2)]

/-- The conditions of PUMP_START (R156). -/
def pumpStartBad (s : State) (p : Nat) (r : Req) : Option Answer :=
  firstErr [pumpNeeds s p .stopped, pumpWord2Bad r 0xFFFFFFF8,
    if gateOn s (pumpGate p) then none else some (errR .state 1),
    if s.link.bme then none else some (errR .state 2),
    (claimConflict s (pumpId p) [pumpRes p]).map fun c => conflictR c.1 c.2]

/-- R156: the ring enters RUNNING; a PROD that cannot be read or is out of range faults it (R154). -/
def pumpStartGo (p : Nat) (prod : HostRead) (s : State) : State × Answer :=
  let v := pumpOf s p
  let s := claimAll (pumpId p) [pumpRes p] s
  let s := pumpPut p { v with state := .running, next := v.cons, inProg := [], draining := false } s
  let s := pumpProdRead p prod s
  (s, if (pumpOf s p).state = .faulted then errR .fault (pumpId p) else okR [])

/-- PUMP_START (R156). -/
def execPumpStart (r : Req) (prod : HostRead) : State → Out :=
  mailbox (pumpCmd 0x0402 1 r) r fun s =>
    guardE (pumpStartBad s (pumpSel r) r) s (pumpStartGo (pumpSel r) prod)

/-- R157: the ring starts no further descriptor: those that their FENCE holds back are given up, to be fetched again. -/
def pumpDrain (p : Nat) (s : State) : State :=
  let v := pumpOf s p
  let go := startedIn v.inProg
  pumpPut p { v with draining := true, inProg := go, next := v.cons + BitVec.ofNat 32 go.length } s

/-- PUMP_STOP (R157): with ABORT the descriptors in progress are cut; without it they complete first. -/
def execPumpStop (r : Req) : State → Out :=
  mailbox (pumpCmd 0x0403 1 r) r fun s =>
    let p := pumpSel r
    let stopped := decide ((pumpOf s p).state = .stopped)
    guardE (firstErr [if stopped then none else pumpNeeds s p .running, pumpWord2Bad r 0xFFFFFEF8]) s fun s =>
      if stopped then (s, okR [])
      else if bit (r.w 2) 8 then (pumpStopped p 0 (pumpCut p s), okR [])
      else if (pumpOf s p).inProg.isEmpty then (pumpStopped p 0 s, okR [])
      else (pumpDrain p s, .later (.pumpStop p))

/-- R158: the fault condition of a ring is gone. -/
def pumpGone (s : State) (v : Pump) (selfCheck : TestResult) : Bool :=
  if v.faultCause = 4 then true
  else if v.faultCause = 6 then decide (selfCheck = .passed)
  else s.link.up && !s.link.d3hot && s.link.bme

/-- PUMP_CLEAR (R158). -/
def execPumpClear (r : Req) (selfCheck : TestResult) : State → Out :=
  mailbox (pumpCmd 0x0404 1 r) r fun s =>
    let p := pumpSel r
    let v := pumpOf s p
    guardE (firstErr [if v.state = .faulted then none else some (errR .state 0), pumpWord2Bad r 0xFFFFFFF8,
                      if pumpGone s v selfCheck then none else some (errR .fault (pumpId p))]) s
      fun s => (pumpStoppedEvent p 0 v.cons s, okR [])

/-- The response of PUMP_QUERY (R159). A gated pump's registers read zero (R65); the ring's state and causes are the Clerk's
(entry 158). -/
def pumpWords (v : Pump) (gated : Bool) (p : Nat) : List Word :=
  packW [(pumpId p, 24), (v.stopCause, 16), (v.faultCause, 8), (v.state.num, 0)] ::
    (if gated then List.replicate 5 0
     else [v.cons, v.prod, lo32 v.bytes.toNat, hi32 v.bytes.toNat, packW [(v.rejects, 16), (v.faults, 0)]])

/-- PUMP_QUERY (R159). -/
def execPumpQuery (r : Req) : State → Out :=
  mailbox { pumpCmd 0x0405 1 r with acts := [] } r (asks fun s =>
    (pumpWord2Bad r 0xFFFFFFF8).getD (okR (pumpWords (pumpOf s (pumpSel r)) (!gateOn s (pumpGate (pumpSel r))) (pumpSel r))))

/-! ### Pump events -/

/-- R145: in PCIE_ONLY mode a pump reads its producer word once per stroke, at the boundary; a snoop wakes it at any time (R144). -/
def wakeDue (s : State) (p : Nat) : Bool :=
  !s.link.pcieOnly || (decide (s.clk.tick = 0) && !(pumpOf s p).prodRead)

/-- PUMP_WAKE (R144, R145): a snoop that invalidates the producer line takes it from the cache, whatever the ring's state; in PCIE_ONLY
mode there is no line, and the event is the read of each boundary. The pump of a RUNNING ring reads the word anew, and the line is
held again. -/
def execPumpWake (p : Fin 8) (prod : HostRead) (s : State) : Out :=
  let v := pumpOf s p.val
  if s.link.up ∧ wakeDue s p.val then
    let s := (snoopAnswer .inv v.ring s).1
    .next (if v.state = .running then pumpProdRead p.val prod (pumpPut p.val { v with prodRead := true } s) else s)
  else .next s

/-- R154 cause 7: the oldest descriptor is one whose fetch failed; it faults the ring. -/
def pumpLost (p : Nat) (s : State) : State :=
  let v := pumpOf s p
  match v.inProg with
  | d :: _ => if d.lost then pumpFaulted p 7 1 d.k 0 (v.ring + 64 + 32 * (d.k.toNat % 2 ^ v.log2)) s else s
  | [] => s

/-- PUMP_DESCRIPTOR_FETCH (R148 to R151): the next descriptor is read and checked. A failed fetch is cause 7: the ring takes up no
further descriptor, and it faults once those before the failed one have completed, so that CONS stays at the faulting one (R154). -/
def execPumpDescriptorFetch (p : Fin 8) (d : HostRead) (s : State) : Out :=
  let v := pumpOf s p.val
  if v.state = .running ∧ v.draining = false ∧ v.next ≠ v.prod ∧ v.inProg.length < 4 ∧ v.inProg.any (·.lost) = false then
    let ws := match d with
      | .words ws => fit 8 0 ws
      | _ => fit 8 0 []
    let lost := match d with
      | .words _ => false
      | _ => true
    let new : PumpDesc := { k := v.next, words := ws, reject := if lost then none else dRejected v ws, lost := lost }
    .next (pumpLost p.val (perfAdd 8 (if lost then 0 else 32)
      (pumpPut p.val { v with next := v.next + 1, inProg := v.inProg ++ [new] } s)))
  else .next s

/-- After a write-back: a failed fetch that has become the oldest faults the ring (R154), and a draining ring with nothing left in
progress enters STOPPED and PUMP_STOP is answered (R157). -/
def pumpDrained (p : Nat) (s : State) : State :=
  let v := pumpOf s p
  if v.draining ∧ v.inProg = [] then answer (.pumpStop p) .ok 0 [] (pumpStopped p 0 s) else pumpLost p s

/-- R153: a descriptor with IRQ = 1 has been written back. -/
def irqNote (p : Nat) (d : PumpDesc) (s : State) : State :=
  if dIrq d.words then pumpPut p { pumpOf s p with irqDue := true } s else s

/-- R154 cause 4: the data of a FROM_WELL descriptor meet an uncorrectable word `off` bytes on; how much of what precedes it had moved
is free (entry 7). The record names the host address for which the data were meant. -/
def pumpWellFault (p : Nat) (d : PumpDesc) (off : Nat) (linkAllows : Bool) (s : State) : State :=
  let a := (pumpOf s p).winBase + dWoff d.words
  let (s, i) := takeFree s
  let n := pumpClean p d (4 * (Config.freeNat i % (off / 4 + 1))) s
  let s := uncorrectable 0 0xFF 3 (a + off) (pumpPart p d n s)
  let s := if linkAllows then irqNote p d (pumpWriteBack p d.k 10 (pumpId p) s) else s
  pumpFaulted p 4 1 d.k n (dHost d.words + off) s

/-- R151, R150: the oldest descriptor in progress completes or is written back as rejected. -/
def pumpFinish (p : Nat) (d : PumpDesc) (data : List Word) (s : State) : State :=
  let v := pumpOf s p
  match d.reject with
  | some (c, x) =>
    let s := pumpWriteBack p d.k c x (pumpPut p { v with rejects := satAdd 65535 v.rejects 1 } s)
    if v.haltOnErr then answer (.pumpStop p) .ok 0 [] (pumpStoppedEvent p 1 d.k (irqNote p d (pumpAdvance p (pumpRest p 1 s))))
    else pumpDrained p (irqNote p d (pumpAdvance p s))
  | none =>
    let a := v.winBase + dWoff d.words
    match (if dOp d.words = 2 then damagedIn (seeAs (.pump p) s) a (dLen d.words) else none) with
    | some x => pumpWellFault p d (x - a) true s
    | none => pumpDrained p (irqNote p d (pumpAdvance p (pumpWriteBack p d.k 0 0 (pumpMove p d (dLen d.words) data s))))

/-- PUMP_DESCRIPTOR_COMPLETE (R151): for the oldest descriptor in progress, with the host's words for TO_WELL. -/
def execPumpDescriptorComplete (p : Fin 8) (data : List Word) (s : State) : Out :=
  match (pumpOf s p.val).state, (pumpOf s p.val).inProg with
  | .running, d :: _ => .next (pumpFinish p.val d data s)
  | _, _ => .next s

/-- R154: code and detail with which a faulting descriptor is written back; none for causes 5 and 7. -/
def pumpFaultCode (p cause : Nat) : Option (Nat × Nat) :=
  if cause = 5 ∨ cause = 7 then none else if cause = 2 then some (9, 0) else some (10, pumpId p)

/-- PUMP_TRANSFER_FAULT (R154): the fault ends the oldest descriptor in progress and puts the ring in FAULTED; `addr` is the host
address of the failing access, for cause 4 that of the data that were not sent, whose well word is found uncorrectable. The words of a
TO_WELL that had already moved are free (entry 7). -/
def execPumpTransferFault (p : Fin 8) (cause : Fin 8) (moved addr : Nat) (linkAllows : Bool) (s : State) : Out :=
  match (pumpOf s p.val).state, (pumpOf s p.val).inProg with
  | .running, d :: _ =>
    if cause.val = 0 then .next s
    else if cause.val = 4 then
      let off := addr - dHost d.words
      if d.reject.isSome ∨ dOp d.words ≠ 2 ∨ addr < dHost d.words ∨ dLen d.words ≤ off then .next s
      else .next (pumpWellFault p.val d off (linkAllows && s.link.up)
        (markDamaged ((pumpOf s p.val).winBase + dWoff d.words + off) s))
    else
      let n := if d.reject.isSome then 0 else pumpClean p.val d (min moved (dLen d.words)) s
      let s := pumpPart p.val d n s
      let s := match pumpFaultCode p.val cause.val with
        | some (c, x) => if linkAllows && s.link.up then irqNote p.val d (pumpWriteBack p.val d.k c x s) else s
        | none => s
      .next (pumpFaulted p.val cause.val 1 d.k n addr s)
  | _, _ => .next s

/-- PUMP_STOP_TIMEOUT (R157): entry into STOPPED took more than 1 s; the ring still runs. The stop is over, so it takes up descriptors
again, which the manual does not state (entry 117, DESIGN CHOICE). -/
def execPumpStopTimeout (p : Fin 8) (s : State) : Out :=
  let v := pumpOf s p.val
  if v.draining then .next (answer (.pumpStop p.val) .timeout 0 [] (pumpPut p.val { v with draining := false } s))
  else .next s

end Sys2Proof.Machine
end

