-- ==== Sys2Proof/Machine/Diag.lean ====
section
/-! DEFINITION. The panic and its dump, NOR summaries, counters, self-tests and raw access (R560 to R581, R191). -/

namespace Sys2Proof.Machine

/-! ### The sections of a dump (R564 to R570) -/

/-- Words laid at rising word offsets, zeros between them. -/
def layWords : Nat → List (Nat × List Word) → List Word
  | _, [] => []
  | at_, (o, ws) :: t => List.replicate (o - at_) 0 ++ ws ++ layWords (o + ws.length) t

/-- One pair's block of the Clerk state (R565): the manual names its words and gives no values but bit 0 of word 3. -/
def clerkBlock (s : State) (pair cause : Nat) : List Word :=
  (List.range 4096).map fun i =>
    if i = 3 then w32 (b2n (decide (cause = pair + 1))) else Config.clerkStateWord s.clk.stroke (4096 * pair + i)

/-- The Clerk state, with the claim table (R565). -/
def clerkSection (s : State) (cause : Nat) : List (Nat × List Word) :=
  [(0, clerkBlock s 0 cause), (4096, clerkBlock s 1 cause), (8192, s.claims.flatMap fun c => [w32 c.1, w32 c.2])]

/-- Domains with a declaration, as bits (R566). -/
def declaredBits (s : State) (x : Declared) : Word :=
  w32 (((List.range 18).filter fun i => decide ((s.clk.domains.getD i {}).declared = x)).foldl (fun a i => a + 2 ^ i) 0)

/-- The Assayer state (R566). -/
def assayerSection (s : State) : List (Nat × List Word) :=
  [(0, [w32 s.pair.vetoes.toNat, w32 s.pair.firstVeto, declaredBits s .stopped, declaredBits s .offFrequency] ++
    ((List.range 18).map fun i => Config.crossCount s.clk.stroke i) ++ ((List.range 5).map fun i => i32 (dieTemp s i)) ++
    ((List.range 4).flatMap fun i => let c := (s.lists.lastCrc.getD i 0).toNat; [lo32 c, hi32 c]) ++
    [packW [(b2n s.boot.skipB, 1), (b2n s.boot.skipA, 0)]])]

/-- The first stroke after the present one at which a list's run may start (R229). -/
def nextStart (s : State) (l : Inst) : Nat :=
  let b := max (now s + 1) l.from_.toNat
  b + (l.phase % l.period + l.period - b % l.period) % l.period

/-- NEXT_RUN of a queue; zero where no run is to start. -/
def queueNext (s : State) (f : Nat) : Nat :=
  (((queueLists s f).filter fun l => fnRunning s f && counts l && !l.removing).map (nextStart s)).min?.getD 0

/-- The entry of a function ID (R567). -/
def fnEntry (s : State) (f : Nat) : List Word :=
  let c := fnRec s f
  let ls := queueLists s f
  let head := [packW [(f, 24), (c.faultCause.toNat, 8), (c.state.num, 0)], lo32 c.change.toNat, hi32 c.change.toNat]
  if (fnIdx f).isNone then fit 16 0 [packW [(f, 24)]]
  else if f < 0x10 then fit 16 0 head
  else
    let run := ((ls.find? fun l => l.run.isSome).map (·.id)).getD 0
    let id (i : Nat) : Nat := (ls.map (·.id)).getD i 0
    fit 16 0 (head ++ [packW [(ls.length, 16), (run, 0)]] ++
      ((List.range 8).map fun i => packW [(id (2 * i + 1), 16), (id (2 * i), 0)]) ++ [lo32 (queueNext s f)])

/-- The entry of a pump (R567). -/
def pumpEntry (s : State) (p : Nat) : List Word :=
  let v := pumpOf s p
  fit 16 0 [packW [(pumpId p, 24), (v.faultCause, 8), (v.state.num, 0)], v.cons, v.prod]

/-- TSTATE of a tile (R567). -/
def tileStateNum (t : Tile) : Nat :=
  match t.seg, t.waiting with
  | none, _ => 0
  | some _, none => 1
  | some _, some (.aborted _) => 3
  | some _, some _ => 2

/-- The entry of a tile (R567): between segments its budget and counter stand as the last one left them (R193). -/
def tileEntry (s : State) (n : Nat) : List Word :=
  let t := tileOf s n
  let g := t.seg.getD { listId := 0, seg := 0, cmd := 0, budget := t.count.1, used := t.count.2 }
  let q := match t.seg with
    | some g => ((instOf s g.listId).map (·.queue)).getD 0
    | none => 0
  fit 16 0 [packW [(n, 24), (q, 16), (t.lastAbort, 8), (tileStateNum t, 0)], packW [(g.listId, 16), (g.seg, 0)],
    w32 g.cmd, w32 g.budget, w32 g.used, w32 t.flags.toNat]

/-- A log of lines: their number since reset, then the last `cap` of them, line n at 64 + 64 × (n mod cap) (R568). -/
def ringSection (count cap : Nat) (lines : List (List Word)) : List (Nat × List Word) :=
  let first := count - lines.length
  let slot (i : Nat) : List Word := match lines[(i + cap - first % cap) % cap]? with
    | some l => fit 16 0 l
    | none => List.replicate 16 0
  [(0, fit 16 0 [w32 count]), (16, (List.range cap).flatMap slot)]

/-- One chain's part of the chain section (R569). -/
def chainDump (s : State) (b : Bool) : List Word :=
  match (chainOf s b).shown with
  | some x => fit 128 0 (copyWords s (aSweep b) 448) ++ wordsOf (sweepSample x)
  | none => []

/-- A die's trace section (R570): the header line of R386 with the point at which recording stopped, and the buffers. -/
def traceSection (s : State) (d : Nat) : List (Nat × List Word) :=
  let t := traceOf s d
  (0, [packW [(b2n t.ever, 31), (t.pre, 16), (t.decim, 8), (t.trig, 4)], lo32 t.endStroke.toNat, hi32 t.endStroke.toNat,
    w32 (t.endTick % 2 ^ 20), t.seq]) ::
    (List.range 64).map fun i => (0x400 + i * 0x4000, t.points.reverse.map fun p => p.getD i 0)

/-- The nine sections in the order of R564: TYPE, OFFSET, LENGTH and the words. -/
def dumpSections (s : State) (cause : Nat) : List (Nat × Nat × Nat × List (Nat × List Word)) :=
  [(1, 0x1000, 0x10000, clerkSection s cause),
   (2, 0x11000, 0x1000, assayerSection s),
   (3, 0x12000, 0x10000, [(0, (List.range 36).flatMap (fnEntry s) ++ (List.range 8).flatMap (pumpEntry s))]),
   (4, 0x22000, 0xC00, [(0, (List.range 48).flatMap (tileEntry s))]),
   (5, 0x23000, 0x40040, ringSection s.clerk.logCount 4096 (s.clerk.log.map LogEntry.words)),
   (6, 0x64000, 0x10040, ringSection s.evt.made 1024 s.evt.tail),
   (7, 0x75000, 0x1000, [(0, chainDump s false), (0x200, chainDump s true)]),
   (8, 0x100000, 0x401000, traceSection s 0),
   (9, 0x600000, 0x401000, traceSection s 1)]

/-- Writes the words of a list that are not zero. -/
def putWords : Nat → List Word → State → State
  | _, [], s => s
  | a, w :: t, s => putWords (a + 4) t (if w = 0 then s else memWriteWords a [w] s)

/-- The dump region is cleared. -/
def dumpClear (s : State) : State :=
  { s with mem := { s.mem with
      cells := s.mem.cells.filter fun c => !(decide (aDump ≤ c.1) && decide (c.1 < aWellEnd)),
      damaged := s.mem.damaged.filter fun k => !(decide (aDump ≤ k) && decide (k < aWellEnd)),
      writes := s.mem.writes.filter fun w => !(decide (aDump ≤ w.addr) && decide (w.addr < aWellEnd)) } }

/-- Writes the sections that `s0` shows, and answers their directory entries. -/
def sectionsWrite (s0 : State) (cause : Nat) (s : State) : List Word × State :=
  (dumpSections s0 cause).foldl (fun a x =>
    let ws := fit (x.2.2.1 / 4) 0 (layWords 0 x.2.2.2)
    (a.1 ++ [w32 x.1, w32 x.2.1, w32 x.2.2.1, crc32 (ws.flatMap wordBytes)], putWords (aDump + x.2.1) ws a.2)) ([], s)

/-- The header (R563) of a dump: `status` is MOD_STATUS at the fatal error. -/
def dumpHeader (s : State) (cause detail : Nat) (status : Word) (skipped : Bool) (us : Nat) (dir : List Word) : List Word :=
  [0x444D5046, packW [(1, 24), (9, 16), (cause, 0)], strokeLo s, strokeHi s, w32 (s.clk.tick % 2 ^ 20), s.clerk.posin, status,
   w32 (if cause = 3 ∨ cause = 4 then detail else 0), lo32 s.clerk.serial.toNat, hi32 s.clerk.serial.toNat,
   packW [(b2n skipped, 2), (1, 0)], w32 us, 0, 0, 0, 0] ++ fit 64 0 dir

/-! ### PANIC (R560 to R562) -/

/-- R561 at 2 µs: every pump ring stops as with ABORT and both dies stop trace recording. -/
def panicFreeze (s : State) : State :=
  let s := (List.range 8).foldl (fun t p => if (pumpOf t p).state = .running then pumpStopped p 0 (pumpCut p t) else t) s
  { s with traces := s.traces.map fun t => if t.busy then
    { t with st := .idle, endStroke := s.clk.stroke, endTick := s.clk.tick } else t }

/-- The dump is written, or a held one counts a later panic (R562). -/
def dumpWrite (cause detail : Nat) (status : Word) (skipped : Bool) (s : State) : State :=
  if s.clerk.dumpValid then
    let h := headerWords s
    headerPut (h.set 7 (packW [(satAdd 65535 (fld (h.getD 7 0) 16 16) 1, 16), (fld (h.getD 7 0) 0 16, 0)])) s
  else
    let (s, i) := takeFree s
    let p := sectionsWrite s cause (dumpClear s)
    dumpHeld (BitVec.ofNat 16 cause) false
      (headerPut (dumpHeader s cause detail status skipped (Config.freeNat i % 20001) p.1) p.2)

/-- What the handler does after the freeze: the dump, the NOR summary, the record and vector 7. -/
def panicHandle (cause detail : Nat) (status : Word) (good : Bool) (s : State) : State :=
  let can := decide (cause ≤ 4)
  let fresh := can && !s.clerk.dumpValid
  let s := if can then dumpWrite cause detail status (!good) s else s
  let s := summaryWrite good 2 cause s.clk.stroke status 0 (w32 (b2n fresh)) s
  let s := emit 4 0 0x0C01 [strokeLo s, packW [(b2n fresh, 16), (cause, 0)]] s
  let s := if fresh then msixDue 7 s else s
  { s with diag := { s.diag with panic := some { cause := BitVec.ofNat 16 cause, dumped := fresh } } }

/-- R561: a fatal error: veto 0x09, the mailboxes close, and the handler runs if a processor pair is left for it. Idle while a
panic is in progress or the module is not up. -/
def panicBegin (cause detail : Nat) (handlerRuns good : Bool) (s : State) : State :=
  if s.power.life ≠ .up || s.diag.panic.isSome then s
  else
    let status := modStatus s
    let s := vetoLatch 9 s
    let s := { s with clerk := { s.clerk with mbOpen := false } }
    if handlerRuns then panicHandle cause detail status good (panicFreeze s) else s

/-- PANIC (R560, R561): the fatal error of a cause. Veto 0x09 latches and MB_OPEN clears; the handler, if a pair can run it, does the
rest. For an error that the Clerk read in the Posin region (R193) the record 0x0010 comes first, with the bits above [15:0] of the
address free. Idle for a cause that R560 does not list, while the module is not up, and during a panic. -/
def execPanic (cause : Fin 8) (detail : BitVec 16) (handlerRuns holdupAt20 : Bool) (s : State) : Out :=
  if cause = 0 || decide (s.power.life ≠ .up) || s.diag.panic.isSome then .next s
  else
    let s := if cause = 3 then
        let (s, k) := takeFree s
        uncorrectable 0 0xFF 6 (aPosin + 0x10000 * (Config.freeNat k % 0x4000) + detail.toNat) s
      else s
    .next (panicBegin cause.val detail.toNat handlerRuns holdupAt20 s)

/-! ### Bridges and the boot that end in a panic (R179, R538) -/

/-- R179: without a bridge the module has a fatal error. -/
def bridgesCheck (s : State) : State :=
  if s.clerk.mbOpen && !s.mem.bridges.any (·.enabled) then panicBegin 7 0 true (holdupGood s) s else s

/-- R59, R538: PLL_REF, PLL_SYS and PLL_ASY have counted, so the boot ROM runs. -/
def bootClocks (s : State) : Bool := [0, 1, 2].all fun p => (s.clk.plls.getD p {}).locked

/-- BRIDGE_DISABLED (R179): more than 16 retries in 1 ms. Idle for a bridge that is already disabled. -/
def execBridgeDisabled (b : Fin 3) (s : State) : Out :=
  if (s.mem.bridges.getD b.val { enabled := false }).enabled && decide (s.power.life = .up) then
    let (s, k) := takeFree s
    .next (bridgesCheck (bridgeDown b.val { s with diag := { s.diag with memory := bump s.diag.memory 8 (17 + Config.freeNat k) } }))
  else .next s

/-- BOOT (R538): from reset release to open mailboxes, to recovery or to a failed boot. Idle while the module is not in its
boot. -/
def execBoot (env : BootEnv) (s : State) : Out :=
  if s.power.life ≠ .up || !(s.power.feedA || s.power.feedB) || !bootClocks s || decide (s.clerk.bootStage ≠ 0) then .next s
  else match bootPick s with
    | none => .next (bootRecovery s)
    | some b => .next (bridgesCheck (bootImage b env s))

/-! ### Reading and releasing a dump (R572, R573, R575) -/

/-- DUMP_READ (R572). -/
def execDumpRead (r : Req) : State → Out :=
  mailbox { op := 0x0C01, onMb := mbHigh, lenOk := (· = 2) } r fun s =>
    let o := (r.w 2).toNat
    let n := fld (r.w 3) 0 10
    guardE (firstErr
      [rangeBad [(decide (o % 4 ≠ 0), 2), (decide (fld (r.w 3) 10 22 ≠ 0) || decide (n = 0) || decide (1000 < n), 3)],
       if 0x10000000 < o + 4 * n then some (errR .badLen 1) else none,
       if s.clerk.dumpValid then none else some (errR .state 1)]) s fun s =>
      match clerkRead s (aDump + o) (4 * n) with
      | some s => (s, errR .fault 0)
      | none => (s, okR (memWords (seeAs .clerk s) (aDump + o) n))

/-- R573: a held dump is released; its sections stay. -/
def dumpDrop (s : State) : State :=
  let s := pendWords [.clerk] aDump (List.replicate 16 0) s
  { s with clerk := { s.clerk with
    dumpValid := false, dumpPreserved := false, dumpCause := 0, dumpPtr := 0, fatal := false } }

/-- DUMP_RELEASE (R573). -/
def execDumpRelease (r : Req) : State → Out :=
  mailbox { op := 0x0C02, onMb := mbHigh, lenOk := (· = 0) } r fun s =>
    (if s.clerk.dumpValid then dumpDrop s else s, okR [])

/-- NOR_SUMMARY_READ (R575). -/
def execNorSummaryRead (r : Req) : State → Out :=
  mailbox { op := 0x0C03, onMb := mbHigh, lenOk := (· = 1) } r (asks fun s =>
    if fld (r.w 2) 11 21 ≠ 0 then errR .range 2
    else match (validSummaries s)[fld (r.w 2) 0 11]? with
      | some e => okR (fit 128 0 e)
      | none => errR .range 2)

/-! ### Counters (R576, R577) -/

/-- The counters of a group; none for a group that does not exist. -/
def counterGroup (d : Diag) (g : Nat) : Option (List Nat) :=
  [d.host, d.memory, d.markers, d.overRange, d.compute, d.perf, d.clerk][g - 1]?.filter fun _ => decide (g ≠ 0)

/-- A group's counters zeroed. -/
def counterClear (g : Nat) (d : Diag) : Diag :=
  let z (l : List Nat) : List Nat := l.map fun _ => 0
  match g with
  | 1 => { d with host := z d.host }
  | 2 => { d with memory := z d.memory }
  | 3 => { d with markers := z d.markers }
  | 4 => { d with overRange := z d.overRange }
  | 5 => { d with compute := z d.compute }
  | 6 => { d with perf := z d.perf }
  | 7 => { d with clerk := z d.clerk }
  | _ => d

/-- COUNTER_READ (R577): a read of group 0x01 re-arms the record of R138. -/
def execCounterRead (r : Req) : State → Out :=
  mailbox { op := 0x0C04, onMb := mbHigh, lenOk := (· = 1) } r fun s =>
    let g := fld (r.w 2) 0 8
    if fld (r.w 2) 8 23 ≠ 0 then (s, errR .range 2)
    else match counterGroup s.diag g with
      | none => (s, errR .range 2)
      | some l =>
        let s := if bit (r.w 2) 31 then { s with diag := counterClear g s.diag } else s
        let s := if g = 1 then { s with link := { s.link with dropArmed := true } } else s
        (s, okR (l.flatMap fun c => [lo32 c, hi32 c]))

/-! ### Self-tests (R578) -/

/-- Owner of the tests' claims, and of raw access (R119). -/
def oSelftest : Nat := 0x39
def oDiag : Nat := 0x3A

/-- Functions that a test names, for R100; STAGE and PAIR are never held. -/
def testActs (i : Nat) : List Nat :=
  if i = 1 then (List.range 4).map fun q => fQueue 4 q
  else if i = 2 then (List.range 16).map (0x10 + ·)
  else if i = 5 then (List.range 8).map pumpId
  else if i = 6 then [fCHAINA, fCHAINB]
  else []

/-- The condition of a test; a test over several units runs on those that meet it. -/
def testMay (s : State) (i : Nat) : Bool :=
  let idle (fs : List Nat) : Bool := fs.all fun f => !fnRunning s f
  if i = 0 then !fnRunning s fSTAGE
  else if i = 1 then idle (testActs 1) && decide (s.pair.pstate ≠ .active)
  else if i = 2 then (List.range 4).any fun c => idle ((List.range 4).map fun q => fQueue c q)
  else if i = 4 then s.clk.measure.isNone && (claimConflict s oSelftest [rFreqCounter]).isNone
  else if i = 5 then s.pumps.any fun v => decide (v.state ≠ .running)
  else if i = 6 then !fnRunning s fCHAINA || !fnRunning s fCHAINB
  else true

/-- How a selected test ends. -/
def testEnd (s : State) (results : List TestResult) (i : Nat) : TestResult :=
  if testMay s i then results.getD i .skipped else .skipped

/-- A failed test writes record 0x0C03. -/
def testRecord (i : Nat) (x : TestResult) (s : State) : State :=
  match x with
  | .failed c => emit 2 oSelftest 0x0C03 [strokeLo s, packW [(i, 8), (c.toNat, 0)]] s
  | _ => s

/-- Bits of the tests whose end a predicate accepts. -/
def testBits (l : List (Nat × TestResult)) (p : TestResult → Bool) : Nat :=
  (l.filter fun x => p x.2).foldl (fun a x => a + 2 ^ x.1) 0

/-- The failure code of an end. -/
def failureOf : TestResult → Option Nat
  | .failed c => some c.toNat
  | _ => none

/-- SELFTEST (R578). -/
def execSelftest (r : Req) (results : List TestResult) : State → Out :=
  let sel := (List.range 7).filter fun i => bit (r.w 2) i
  mailbox { op := 0x0C05, onMb := mbHigh, lenOk := (· = 1), acts := sel.flatMap testActs } r fun s =>
    if fld (r.w 2) 7 25 ≠ 0 then (s, errR .range 2)
    else
      let l := sel.map fun i => (i, testEnd s results i)
      let counter := sel.contains 4 && testMay s 4
      let s := if counter then claimAll oSelftest [rFreqCounter] s else s
      let s := l.foldl (fun t x => testRecord x.1 x.2 t) s
      (if counter then claimRelease oSelftest s else s,
       okR [packW [(testBits l fun x => decide (x = .skipped), 16), (testBits l fun x => (failureOf x).isSome, 8),
              (testBits l fun x => decide (x = .passed), 0)],
            w32 ((l.findSome? fun x => failureOf x.2).getD 0)])

/-! ### Raw access (R579, R580) -/

/-- Fields of DIAG_RAW. -/
def rawWrite (r : Req) : Bool := bit (r.w 2) 31
def rawSpace (r : Req) : Nat := fld (r.w 2) 24 2
def rawCount (r : Req) : Nat := fld (r.w 2) 16 8
def rawAddr (r : Req) : Nat := fld (r.w 2) 0 16 * 2 ^ 32 + (r.w 3).toNat

/-- A raw memory access may name a range of bytes. -/
def rawMapped (a n : Nat) : Bool :=
  (regionsOf a n).all fun x => !decide (x = .wellPosin ∨ x = .wellDump ∨ x = .unmapped ∨ x = .selfLocal)

/-- A RUNNING queue of an engine. -/
def engineBusy (s : State) (e : Nat) : Option Nat := ((List.range 4).map fun q => fQueue e q).find? fun f => fnRunning s f

/-- Queues that a raw write to a region must find not RUNNING: the detail of E_STATE. -/
def rawHeld (s : State) : Region → Option Nat
  | .cistInbound _ => (engineBusy s 4).map fun _ => fFIXED0
  | .cistPrivate _ => (engineBusy s 4).map fun _ => fFIXED0
  | .tileLocal t => engineBusy s (if tileFixed t then 4 else tileCist t)
  | _ => none

/-- The checks of DIAG_RAW for its space. -/
def rawBad (s : State) (r : Req) : Option Answer :=
  let n := rawCount r
  let d := fld (r.w 3) 0 5
  match rawSpace r with
  | 0 => firstErr
      [rangeBad [(decide (rawAddr r % 4 ≠ 0) || !rawMapped (rawAddr r) (4 * n), 3)],
       if rawWrite r then ((regionsOf (rawAddr r) (4 * n)).findSome? (rawHeld s)).map (errR .state) else none]
  | 1 => firstErr
      [rangeBad
        [(decide (fld (r.w 2) 0 16 ≠ 0) || decide (n ≠ 1), 2),
         (decide (r.w 3 &&& 0xFFFFFEE0 ≠ 0) || decide (17 < d) || decide (d = 10), 3),
         (rawWrite r && !bit (r.w 3) 8 && (decide ((r.w 4).toNat = 0) || decide (255 < (r.w 4).toNat)), 4)],
       if rawWrite r && fnRunning s fSTAGE then some (errR .state fSTAGE) else none]
  | _ => firstErr
      [rangeBad
        ([(decide (fld (r.w 2) 0 16 ≠ 0), 2), (decide (fld (r.w 3) 26 6 ≠ 0), 3)] ++
         if rawWrite r then (List.range n).map fun i => (decide (fld (r.w (4 + i)) 8 24 ≠ 0), 4 + i) else []),
       if 256 < fld (r.w 3) 0 8 + n then some (errR .badLen 1) else none,
       (claimConflict s oDiag [0x300 + fld (r.w 3) 24 2]).map fun c => conflictR c.1 c.2]

/-- The record of a raw write. -/
def rawRecord (r : Req) (s : State) : State :=
  emit 1 oDiag 0x0C04 [strokeLo s, packW [(rawSpace r, 24), (rawCount r, 16)], r.w 3] s

/-- Memory (R580): a write of whole 64-bit words repairs them (R192). -/
def rawMemory (r : Req) (s : State) : State × Answer :=
  let n := 4 * rawCount r
  if rawWrite r then (rawRecord r (devWrite .clerk (rawAddr r) (fit n 0 (bytesOf (r.payload.drop 2))) s), okR [])
  else match clerkRead s (rawAddr r) n with
    | some s => (s, errR .fault 0)
    | none => (readCount (rawAddr r) n s, okR (memWords (seeAs .clerk s) (rawAddr r) (rawCount r)))

/-- The multiplier of every domain on a PLL is written, and the PLL counts again (R59). -/
def multWrite (p : Nat) (w : Word) (s : State) : State :=
  pllStart p { s with clk := { s.clk with
    domains := s.clk.domains.mapIdx fun i x => if pllOf s i = p then { x with mult := some w } else x } }

/-- Clock (R580): the divider moves under R60; a multiplier never written reads a free value, since the manual gives none. -/
def rawClock (r : Req) (s : State) : State × Answer :=
  let d := fld (r.w 3) 0 5
  let x := s.clk.domains.getD d {}
  match rawWrite r, bit (r.w 3) 8 with
  | true, false =>
    (rawRecord r (measureBlur { s with clk := { s.clk with
      domains := s.clk.domains.modify d fun x =>
        { x with target := if x.switching then x.target else (r.w 4).toNat, rawDiv := some (r.w 4).toNat } } }), okR [])
  | true, true => (rawRecord r (multWrite (pllOf s d) (r.w 4) s), okR [])
  | false, false => (s, okR [w32 x.divider])
  | false, true => match x.mult with
    | some w => (s, okR [w])
    | none => let (s, i) := takeFree s; (s, okR [Config.freeWord i])

/-- CMIS (R580): one byte a word. -/
def rawCmis (r : Req) (reply : CmisReply) (s : State) : State × Answer :=
  let w := r.w 3
  match cmisReply s (rawCount r) reply with
  | .noAnswer => (s, errR .timeout 0)
  | .bytes bs =>
    if rawWrite r then
      (rawRecord r ((List.range (rawCount r)).foldl (fun t i =>
        cmisWrite (fld w 24 2) (fld w 16 8) (fld w 8 8) (fld w 0 8 + i) (fld (r.w (4 + i)) 0 8) t) s), okR [])
    else (s, okR ((fit (rawCount r) 0 bs).map fun b => w32 b.toNat))

/-- DIAG_RAW (R579, R580). -/
def execDiagRaw (r : Req) (reply : CmisReply) : State → Out :=
  mailbox { op := 0x0C06, onMb := mbHigh, lenOk := (· = if rawWrite r then 2 + rawCount r else 2) } r fun s =>
    guardE (firstErr
      [if rawWrite r && policyFlag s 2 then some (errR .auth 4) else none,
       rangeBad [(decide (fld (r.w 2) 26 5 ≠ 0) || decide (rawSpace r = 3) || decide (rawCount r = 0), 2)],
       rawBad s r]) s fun s =>
      if rawSpace r = 0 then rawMemory r s else if rawSpace r = 1 then rawClock r s else rawCmis r reply s

/-! ### PATROL_SCRUB (R191) -/

/-- An address that the scrubber visits: SRAM of a cistern or of a tile. -/
def isSram (a : Nat) : Bool := match regionOf a with
  | .cistGeneral _ => true
  | .cistInbound _ => true
  | .cistPrivate _ => true
  | .tileLocal _ => true
  | _ => false

/-- PATROL_SCRUB (R191, R193): a correctable word is counted; a damaged one is recorded. The scrubber reads SRAM, and the well dies scrub
their own arrays. R191 gives a correctable word the same effect whichever read finds it, so the row stands for each of them
(entry 119). Idle for an address outside both. -/
def execPatrolScrub (addr : BitVec 48) (found : ScrubFind) (s : State) : Out :=
  let a := addr.toNat
  if !(isSram a || inWell a) || decide (s.power.life ≠ .up) then .next s
  else if (damagedIn s a 1).isSome then .next (uncorrectable 0 0xFF 7 a s)
  else match found with
    | .clean => .next s
    | .corrected => .next (correctable a s)
    | .uncorrectable => .next (uncorrectable 0 0xFF 7 a (markDamaged a s))

end Sys2Proof.Machine
end

