-- ==== Sys2Proof/Machine/Link.lean ====
section
/-! DEFINITION. The CXL link, configuration space, the HDM decoder and the host's window onto the well (R128 to R145, R161
to R163). -/

namespace Sys2Proof.Machine

/-! ### Configuration space and BAR2 (R130, R136, R161, R163) -/

/-- R161: configuration space and BAR2 return to their reset values; MSI-X state is cleared with them (R110). -/
def configReset (s : State) : State :=
  { s with
    link := { s.link with
      bme := false, d3hot := false, bar0 := 0, bar2 := 0, hdmBase := 0, hdmSize := 0, hdmWays := 0,
      hdmCommitted := false, hdmError := false, hdmLock := false, rasStatus := 0, hdmGlobal := 0,
      cfgRegs := [], bar2Regs := [], lanes := 0, gen := 0, cache := [] }
    msix := { ({} : Msix) with sent := s.msix.sent } }

/-- R136: the decoder checks base, size and ways on commit; a locked decoder takes no further commit. -/
def hdmCommit (base size : BitVec 64) (ways : Nat) (lock : Bool) (s : State) : State :=
  if s.link.hdmCommitted && s.link.hdmLock then s
  else
    let good := decide (base.toNat % 0x10000000 = 0) && decide (size.toNat = 0x800000000) && decide (ways = 1)
    { s with link := { s.link with
        hdmBase := base, hdmSize := size, hdmWays := ways, hdmCommitted := good, hdmError := !good,
        hdmLock := lock && good } }

/-- HDM_COMMIT (R136). -/
def execHdmCommit (base size : BitVec 64) (ways : Nat) (lock : Bool) (s : State) : Out :=
  if !hostReaches s then .next s else .next (hdmCommit base size ways lock s)

/-- R161: Bus Master Enable is cleared. -/
def bmeClear (s : State) : State :=
  if s.link.bme then pumpsLinkStop 3 { s with link := { s.link with bme := false } } else s

/-- R163: Bus Master Enable is set: the event ring resumes after the queued records. -/
def bmeSet (s : State) : State := evtDrain { s with link := { s.link with bme := true } }

/-- R161: entry to D3hot. -/
def d3hotEnter (s : State) : State :=
  if s.link.d3hot then s else pumpsLinkStop 4 { s with link := { s.link with d3hot := true } }

/-- A host access reaches configuration space also in D3hot. -/
def configReaches (s : State) : Bool := s.link.up && decide (s.power.life = .up)

/-- BUS_MASTER_ENABLE_CLEAR (R161). -/
def execBusMasterEnableClear (s : State) : Out := if !configReaches s then .next s else .next (bmeClear s)

/-- D3HOT_ENTRY (R161). -/
def execD3hotEntry (s : State) : Out := if !configReaches s then .next s else .next (d3hotEnter s)

/-! ### What configuration space and BAR2 read as (R128 to R132) -/

/-- The fields of configuration space whose values R128 to R132 state. -/
inductive CfgField where
  | deviceId
  | revisionId
  | classCode
  | function
  | maxPayload
  | maxReadRequest
  | tenBitTags
  | aer
  | msixVectors
  | msi
  | d3hot
  | aspm
  | l1Substates
  | bar0Bytes
  | bar2Bytes
  | cacheCapable
  | ioCapable
  | memCapable
  | hdmCount
  | memHwInitMode
  | memoryActiveTimeoutSec
  | range1Bytes
  | memoryActive
  | viralCapable
  | ide
  | flit256
  | sris
  | srIov
  | flr
  | ats
  | pasid
  | doe
  | gpf
  | locatorOffset
  | trainedCxl
  | trainedLanes
  | trainedGen
  deriving DecidableEq, Repr, Inhabited

/-- R128, R129, R131, R132: the value of a field; a feature that R128 does not list reads as not supported. The trained mode, width
and rate stand in the Flex Bus port DVSEC status and the link status. -/
def cfgField (s : State) : CfgField → Nat
  | .deviceId => 0x8400
  | .revisionId => 0xB0
  | .classCode => 0x120000
  | .function => 0
  | .maxPayload => 512
  | .maxReadRequest => 4096
  | .tenBitTags => 1
  | .aer => 1
  | .msixVectors => 32
  | .msi => 0
  | .d3hot => 1
  | .aspm => 0
  | .l1Substates => 0
  | .bar0Bytes => 0x100000
  | .bar2Bytes => 0x10000
  | .cacheCapable => 1
  | .ioCapable => 1
  | .memCapable => 1
  | .hdmCount => 1
  | .memHwInitMode => 0
  | .memoryActiveTimeoutSec => 4
  | .range1Bytes => 0x800000000
  | .memoryActive => b2n s.link.memActive
  | .viralCapable => 0
  | .ide => 0
  | .flit256 => 0
  | .sris => 0
  | .srIov => 0
  | .flr => 0
  | .ats => 0
  | .pasid => 0
  | .doe => 0
  | .gpf => 0
  | .locatorOffset => 0
  | .trainedCxl => b2n (s.link.up && !s.link.pcieOnly)
  | .trainedLanes => s.link.lanes
  | .trainedGen => s.link.gen

/-- A register that PCI Express or CXL 2.0 lays out: its offset, its reset value, the bits that a write sets, and those that a 1 clears. -/
structure RegRow where
  off   : Nat
  reset : Word
  rw    : Word := 0
  w1c   : Word := 0
  deriving DecidableEq, Repr, Inhabited

/-- What a register holds, and what a write leaves in it. -/
def RegRow.value (x : RegRow) (vals : List (Nat × Word)) : Word := ((vals.find? fun v => decide (v.1 = x.off)).map (·.2)).getD x.reset
def RegRow.write (x : RegRow) (v : Word) (vals : List (Nat × Word)) : List (Nat × Word) :=
  let n := ((x.value vals &&& ~~~x.rw) ||| (v &&& x.rw)) &&& ~~~(v &&& x.w1c)
  (x.off, n) :: vals.filter fun u => decide (u.1 ≠ x.off)

/-- The capabilities of configuration space behind the header's registers, as PCI Express 5.0 and CXL 2.0 lay them out, at places that
the model chooses (entry 6): power management, MSI-X, PCI Express, AER, and the DVSECs for CXL devices, the register locator and the Flex
Bus port. -/
def configRows (s : State) : List RegRow :=
  let f (x : CfgField) : Nat := cfgField s x
  [{ off := 0x34, reset := 0x40 }, { off := 0x40, reset := 0x00037001 },
   { off := 0x74, reset := 0x00080000 }, { off := 0x78, reset := 0x00081000 },
   { off := 0x80, reset := 0x00020010 },
   { off := 0x84, reset := packW [((f .maxPayload / 128).log2, 0), (1, 5), (1, 15), (f .flr, 28)] },
   { off := 0x88, reset := 0x00002810, rw := 0x000079FF, w1c := 0x000F0000 },
   { off := 0x8C, reset := packW [(5, 0), (16, 4), (f .aspm, 10), (1, 22)] }, { off := 0x90, reset := 0, rw := 0x000000C8 },
   { off := 0xA4, reset := packW [(f .tenBitTags, 16), (f .tenBitTags, 17)] }, { off := 0xA8, reset := 0, rw := 0x00001000 },
   { off := 0xAC, reset := 0x0000003E }, { off := 0xB0, reset := 0x00000005, rw := 0x0000000F },
   { off := 0x100, reset := 0x20020001 }, { off := 0x104, reset := 0, w1c := 0x01FFF030 },
   { off := 0x108, reset := 0, rw := 0x01FFF030 }, { off := 0x10C, reset := 0x00462030, rw := 0x01FFF030 },
   { off := 0x110, reset := 0, w1c := 0x0000F1C1 }, { off := 0x114, reset := 0x00002000, rw := 0x0000F1C1 },
   { off := 0x200, reset := 0x24010023 }, { off := 0x204, reset := 0x03811E98 },
   { off := 0x208, reset := packW [(f .cacheCapable, 16), (f .ioCapable, 17), (f .memCapable, 18), (f .memHwInitMode, 19),
     (f .hdmCount, 20), (f .viralCapable, 30)] },
   { off := 0x20C, reset := 0x00000002, rw := 0x00000005 }, { off := 0x214, reset := 0x01010000, rw := 0x00000001 },
   { off := 0x218, reset := hi32 (f .range1Bytes) },
   { off := 0x21C, reset := packW [(1, 0), ((f .memoryActiveTimeoutSec).log2 / 2, 13)] },
   { off := 0x220, reset := 0, rw := 0xFFFFFFFF }, { off := 0x224, reset := 0, rw := 0xF0000000 },
   { off := 0x240, reset := 0x26010023 }, { off := 0x244, reset := 0x01401E98 }, { off := 0x248, reset := 0x00000008 },
   { off := 0x24C, reset := packW [(2, 0), (1, 8), (f .locatorOffset / 65536, 16)] },
   { off := 0x260, reset := 0x00010023 }, { off := 0x264, reset := 0x01411E98 },
   { off := 0x268, reset := packW [(7, 0), (f .cacheCapable, 16), (f .ioCapable, 17), (f .memCapable, 18), (1, 21)] },
   { off := 0x26C, reset := 0 }]

/-- The bits of configuration space that follow the module: the trained width and rate in the link status, Memory_Active, and the mode of
the Flex Bus port (R131, R132). -/
def configNow (s : State) (off : Nat) : Word :=
  let f (x : CfgField) : Nat := cfgField s x
  if off = 0x90 then packW [(f .trainedGen, 16), (f .trainedLanes, 20), (1, 28)]
  else if off = 0x21C then packW [(f .memoryActive, 1)]
  else if off = 0x26C then (if f .trainedCxl = 1 then 0x00270000 else 0)
  else 0

/-- A word of configuration space. An address that holds no register reads zero, as what is not supported does (R128). -/
def configRead (s : State) (off : Nat) : Word :=
  let f (x : CfgField) : Nat := cfgField s x
  if off = 0x00 then w32 (f .deviceId * 65536 + Config.vendorId % 65536)
  else if off = 0x04 then packW [(b2n s.link.bme, 2), (1, 20)]
  else if off = 0x08 then w32 (f .classCode * 256 + f .revisionId)
  else if off = 0x10 then lo32 s.link.bar0.toNat ||| 4
  else if off = 0x14 then hi32 s.link.bar0.toNat
  else if off = 0x18 then lo32 s.link.bar2.toNat ||| 4
  else if off = 0x1C then hi32 s.link.bar2.toNat
  else if off = 0x2C then Config.subsystemId
  else if off = 0x44 then w32 (if s.link.d3hot then 3 else 0)
  else if off = 0x70 then packW [(0x8011, 0), (f .msixVectors - 1, 16), (b2n s.msix.funMask, 30), (b2n s.msix.enable, 31)]
  else match (configRows s).find? fun x => decide (x.off = off) with
    | some x => x.value s.link.cfgRegs ||| configNow s off
    | none => 0

/-- A write of configuration space. The command register and the BARs lie where the PCI header has them; the manual does not
place the capabilities, which the model does (entry 6). -/
def configWrite (off : Nat) (v : Word) (s : State) : State :=
  let base (old : BitVec 64) (hi : Bool) (mask : Word) : BitVec 64 :=
    if hi then BitVec.ofNat 64 (wide (lo32 old.toNat) v) else BitVec.ofNat 64 (wide (v &&& mask) (hi32 old.toNat))
  if off = 0x04 then (if bit v 2 then (if s.link.bme then s else bmeSet s) else bmeClear s)
  else if off = 0x10 then { s with link := { s.link with bar0 := base s.link.bar0 false 0xFFF00000 } }
  else if off = 0x14 then { s with link := { s.link with bar0 := base s.link.bar0 true 0 } }
  else if off = 0x18 then { s with link := { s.link with bar2 := base s.link.bar2 false 0xFFFF0000 } }
  else if off = 0x1C then { s with link := { s.link with bar2 := base s.link.bar2 true 0 } }
  else if off = 0x44 then
    (if fld v 0 2 = 3 then d3hotEnter s
     else if fld v 0 2 = 0 then evtDrain { s with link := { s.link with d3hot := false } } else s)
  else if off = 0x70 then
    msixFlushAll { s with msix := { s.msix with enable := bit v 31, funMask := bit v 30 } }
  else match (configRows s).find? fun x => decide (x.off = off) with
    | some x => { s with link := { s.link with cfgRegs := x.write v s.link.cfgRegs } }
    | none => s

/-- The registers of BAR2 beside the error status and the decoder (R130): mask, severity, correctable errors and control of the CXL RAS
capability at 0x1000, and the words of the CXL link capability at 0x1800. The manual states no value of the latter: they are free until
they are written, and its control registers take what is written. -/
def bar2Rows : List RegRow :=
  [{ off := 0x1004, reset := 0x0001CFFF, rw := 0x0001CFFF }, { off := 0x1008, reset := 0x0001CFFF, rw := 0x0001CFFF },
   { off := 0x100C, reset := 0, w1c := 0x0000007F }, { off := 0x1010, reset := 0x0000007F, rw := 0x0000007F },
   { off := 0x1014, reset := 0, rw := 0x00002000 }, { off := 0x1400, reset := 0x00000010 }] ++
  (List.range 14).map fun i =>
    { off := 0x1800 + 4 * i, reset := Config.bar2Word (0x1800 + 4 * i)
      rw := if i = 2 ∨ i = 3 ∨ i = 4 ∨ i = 5 ∨ i = 10 ∨ i = 11 ∨ i = 12 ∨ i = 13 then 0xFFFFFFFF else 0 }

/-- R130: a word of BAR2. The header log of the RAS capability reads zero: no flit is logged. An address that holds no register reads
zero. -/
def bar2Read (s : State) (off : Nat) : Word :=
  let l := s.link
  if off = 0x1000 then l.rasStatus
  else if off = 0x1404 then l.hdmGlobal
  else if off = 0x1410 then lo32 l.hdmBase.toNat
  else if off = 0x1414 then hi32 l.hdmBase.toNat
  else if off = 0x1418 then lo32 l.hdmSize.toNat
  else if off = 0x141C then hi32 l.hdmSize.toNat
  else if off = 0x1420 then packW [(l.hdmWays.log2, 4), (b2n l.hdmLock, 8), (b2n l.hdmCommitted, 10), (b2n l.hdmError, 11)]
  else match bar2Rows.find? fun x => decide (x.off = off) with
    | some x => x.value l.bar2Regs
    | none => 0

/-- A write of BAR2: the error status of the CXL RAS capability, which a 1 clears, the HDM decoder's global control, base, size and
control registers, and the registers of `bar2Rows`, as CXL 2.0 lays them out (entry 6); other writes are ignored (R130). -/
def bar2Write (off : Nat) (v : Word) (s : State) : State :=
  let l := s.link
  if let some x := bar2Rows.find? fun x => decide (x.off = off) then
    { s with link := { l with bar2Regs := x.write v l.bar2Regs } }
  else if off = 0x1000 then { s with link := { l with rasStatus := l.rasStatus &&& ~~~v } }
  else if off = 0x1404 then { s with link := { l with hdmGlobal := v &&& 3 } }
  else if off = 0x1420 then
    (if bit v 9 then hdmCommit l.hdmBase l.hdmSize (2 ^ fld v 4 4) (bit v 8) s
     else if l.hdmCommitted && l.hdmLock then s
     else { s with link := { l with hdmCommitted := false, hdmError := false } })
  else if l.hdmCommitted then s
  else if off = 0x1410 then
    { s with link := { l with hdmBase := BitVec.ofNat 64 (wide (v &&& 0xF0000000) (hi32 l.hdmBase.toNat)) } }
  else if off = 0x1414 then { s with link := { l with hdmBase := BitVec.ofNat 64 (wide (lo32 l.hdmBase.toNat) v) } }
  else if off = 0x1418 then
    { s with link := { l with hdmSize := BitVec.ofNat 64 (wide (v &&& 0xF0000000) (hi32 l.hdmSize.toNat)) } }
  else if off = 0x141C then { s with link := { l with hdmSize := BitVec.ofNat 64 (wide (lo32 l.hdmSize.toNat) v) } }
  else s

/-! ### Link events -/

/-- DL_DOWN (R161): configuration resets, running rings stop with cause 2, host loss is declared. -/
def dlDown (s : State) : State :=
  if s.link.up then
    hostLossDeclare (pumpsLinkStop 2 (configReset { s with link := { s.link with up := false } }))
  else s

/-- DL_DOWN (R161). -/
def execDlDown (s : State) : Out := .next (dlDown s)

/-- DL_ACTIVE (R162, R132): the link is active again, as CXL or as PCI Express, with the lanes and the rate that it trained; host loss
lasts until a doorbell. -/
def execDlActive (m : LinkMode) (s : State) : Out :=
  if s.power.life ≠ .up then .next s
  else .next { s with link := { s.link with up := true, pcieOnly := !m.cxl, lanes := m.lanes, gen := m.gen } }

/-! ### The well window (R136 to R141) -/

/-- The window offset that a host physical address decodes to, if it decodes: the decoder is committed, the link runs CXL
and reaches the module. -/
def windowOff (s : State) (hpa : Nat) : Option Nat :=
  if hostReaches s && !s.link.pcieOnly && s.link.hdmCommitted &&
      decide (s.link.hdmBase.toNat ≤ hpa) && decide (hpa < s.link.hdmBase.toNat + 0x800000000)
  then some (hpa - s.link.hdmBase.toNat) else none

/-- R137: what the host reads at a window offset: the device address, or none where the region reads zero. -/
def windowReads (off : Nat) : Bool :=
  decide (off < 0x20000000) || (decide (0x40000000 ≤ off) && decide (off < 0x7B0000000)) ||
  (decide (0x7F0000000 ≤ off) && decide (off < 0x800000000))

/-- R137: the host region takes writes. -/
def windowWrites (off : Nat) : Bool := decide (0x40000000 ≤ off) && decide (off < 0x7B0000000)

/-- R141: an uncorrectable word in CXL.mem data is logged in the CXL RAS capability, as Mem_Data_ECC (entry 6). -/
def rasPoisoned (s : State) : State := { s with link := { s.link with rasStatus := s.link.rasStatus ||| 0x80 } }

/-- CXL_MEM_READ (R137, R138, R141): data, zero, or data with poison. -/
def execCxlMemRead (hpa : BitVec 64) (words : Nat) (s : State) : Out :=
  match windowOff s hpa.toNat with
  | none => .next s
  | some off =>
    let s := perfAdd 10 (4 * words) s
    let put (ws : List Word) (p : Bool) (s : State) : State :=
      { s with clerk := { s.clerk with readData := ws, readPoison := p } }
    if !s.link.memActive then .next (put (List.replicate words 0) false s)
    else
      let a := aPublished + off
      let ws := (List.range words).map fun i => if windowReads (off + 4 * i) then memWord (seeAs .host s) (a + 4 * i) else 0
      match (if windowReads off then damagedIn (seeAs .host s) a (4 * words) else none) with
      | none => .next (put ws false (readCount a (4 * words) s))
      | some d =>
        let s := rasPoisoned { s with diag := { s.diag with host := bump s.diag.host 2 1 } }
        .next (put ws true (uncorrectable 0 0xFF 4 d s))

/-- R138: a dropped CXL.mem write is counted; the first since the counter was last read writes record 0x0004. -/
def cxlDrop (off : Nat) (s : State) : State :=
  let s := { s with diag := { s.diag with host := bump s.diag.host 1 1 } }
  if s.link.dropArmed then
    emit 1 0 4 [lo32 off, hi32 off] { s with link := { s.link with dropArmed := false } }
  else s

/-- The runs of enabled bytes of a write, with the address of each (R141): what stands before the first disabled byte, and so on. -/
def maskRuns : Nat → List (Option Byte) → List (Nat × List Byte)
  | _, [] => []
  | a, none :: t => maskRuns (a + 1) t
  | a, some v :: t => match maskRuns (a + 1) t with
    | (b, bs) :: rest => if b = a + 1 then (a, v :: bs) :: rest else (a, [v]) :: (b, bs) :: rest
    | [] => [(a, [v])]

/-- CXL_MEM_WRITE (R138, R141): stored in the host region, dropped and counted elsewhere. -/
def execCxlMemWrite (hpa : BitVec 64) (bytes : List (Option Byte)) (s : State) : Out :=
  match windowOff s hpa.toNat with
  | none => .next s
  | some off =>
    let n := (bytes.filter Option.isSome).length
    let s := perfAdd 10 n s
    let a := aPublished + off
    if s.link.memActive && windowWrites off then
      .next (perfAdd 6 n ((maskRuns a bytes).foldl (fun t r => openWrite r.1 r.2 t) s))
    else .next (cxlDrop off s)

end Sys2Proof.Machine
end

