-- ==== Sys2Proof/Machine/Domains.lean ====
section
/-! DEFINITION. Reference inputs and the Assayer's declarations of clock domains (R55 to R58, R62, R68, R77, R503). -/

namespace Sys2Proof.Machine

/-! ### Reference inputs (R56, R57, R62) -/

/-- An input gains or loses qualification. -/
def qualSet (i : RefIn) (q : Bool) (s : State) : State :=
  { s with clk := match i with
      | .refclk => { s.clk with qualRefclk := q }
      | .ropeA => { s.clk with qualA := q }
      | .ropeB => { s.clk with qualB := q } }

/-- The input's clock reaches the module: a rope's only while its lanes give one. -/
def refArrives (s : State) : RefIn → Bool
  | .refclk => true
  | .ropeA => ropeClockRuns s false
  | .ropeB => ropeClockRuns s true

/-- REF_INPUT_QUALIFIED (R56, R57): ref moves to the input if it is more preferred. Idle for a qualified input, and for a rope
without a recovered clock. -/
def execRefInputQualified (i : RefIn) (s : State) : Out :=
  if s.power.life ≠ .up || refQual s i || !refArrives s i then .next s else .next (refSelect (qualSet i true s))

/-- REF_INPUT_LOST (R56, R57, R77, R342): ref moves to the most preferred qualified input; without REFCLK the link goes down; a
follower left on REFCLK runs as an island. Without any input LOSS_OF_EVERY_REFERENCE follows, of which no record is written. -/
def execRefInputLost (i : RefIn) (s : State) : Out :=
  if !refQual s i then .next s
  else
    let s := qualSet i false s
    if s.power.life ≠ .up then .next s
    else
      let s := if i = .refclk ∧ (refBest s).isSome then dlDown s else s
      let s := refSelect s
      .next (if follower s && decide (refBest s = some .refclk) then islandEnter s else s)

/-- FORCED_SWITCH (R62): a multiplexer has completed against a stopped clock: record 0x000A and the domain's count. -/
def execForcedSwitch (d : Fin 18) (s : State) : Out :=
  if s.power.life ≠ .up then .next s
  else
    let held := ratiosDone s
    let s := { s with clk := { s.clk with forcedSwitches := satAdd 65535 s.clk.forcedSwitches 1 } }
    let s := domMod d.val (fun x => if x.switching then
        { x with forced := satAdd 65535 x.forced 1, switching := false, target := domGoal s d.val }
      else { x with forced := satAdd 65535 x.forced 1 }) s
    .next (emit 1 0 0x000A [w32 d.val] (ratiosAnswer held s))

/-! ### The Assayer's declarations (R68, R503) -/

/-- Domains whose row of R68 names the Clerk's record 0x0005: loop, sys, tileF, assayer. -/
def domRecorded (d : Nat) : Bool := decide (d = 15) || decide (d = 1) || decide (d = 5) || decide (d = 2)

/-- Domains whose declaration latches veto 0x04. -/
def domVetoed (d : Nat) : Bool := decide (d = 15) || decide (d = 1) || decide (d = 5)

/-- R583 record 0x0005. -/
def domRecord (sev d : Nat) (off ended : Bool) (s : State) : State :=
  if domRecorded d then emit sev 0 5 [packW [(b2n ended, 16), (b2n off, 8), (d, 0)]] s else s

/-- R68: a function that a row names is STOPPED or RUNNING and goes FAULTED; a START or STOP in progress answers E_FAULT (R114). -/
def domFault (f cause : Nat) (s : State) : State :=
  if fnRunning s f || decide (fnState s f = .stopped) then
    answer (.funcStart f) .fault f [] (answer (.funcStop f) .fault f [] (fnFault f cause s))
  else s

/-- R68: the outcome of a declaration for its domain. The converter parks; where GDCLK stops the over-voltage latch ends (R374). -/
def domOutcome (d : Nat) (off : Bool) (s : State) : State :=
  let queues (e : Nat) (s : State) : State := (List.range 4).foldl (fun t q => queueFault (fQueue e q) 0x0204 t) s
  match d with
  | 15 =>
    let s := if off then s else stMod (fun x => { stParked x with ovLatch := false }) s
    domFault fSTAGE 0x0608 (stageFault 0x0608 s)
  | 5 => queues 4 s
  | 2 => dropReq s
  | 3 => queues 1 (queues 0 s)
  | 6 => queues 1 (queues 0 s)
  | 4 => queues 3 (queues 2 s)
  | 7 => queues 3 (queues 2 s)
  | 8 => panicBegin 5 0 true (holdupGood s) s
  | 9 => panicBegin 6 0 true (holdupGood s) s
  | 10 => dlDown s
  | 11 => linkFail 0 s
  | 12 => linkFail 1 s
  | 13 => linkFail 2 s
  | 14 => linkFail 3 s
  | 16 => chainFault true 0x0702 (chainFault false 0x0702 s)
  | 17 => pathSet .hb true s
  | _ => s

/-- A domain is watched once its PLL has counted (R68); ref itself is what the others are measured against. The general-tile
domains, and the SRAM domains that they feed, stay stopped until the trim record is loaded (R538). -/
def domWatched (s : State) (d : Nat) : Bool :=
  decide (s.power.life = .up) && decide (d ≠ 0) && (s.clk.plls.getD (pllOf s d) {}).locked &&
    (!tileDomains.contains d || decide (s.clerk.bootStage = 5))

/-- A domain is declared; a domain already declared the other way changes its kind only. -/
def domDeclare (d : Nat) (off : Bool) (s : State) : State :=
  let x : Declared := if off then .offFrequency else .stopped
  if !domWatched s d then s
  else if (s.clk.domains.getD d {}).declared ≠ .none then domMod d (fun y => { y with declared := x }) s
  else
    let s := domRecord 3 d off false (domMod d (fun y => { y with declared := x }) s)
    domOutcome d off (if domVetoed d then vetoLatch 4 s else s)

/-- DOMAIN_DECLARED_STOPPED (R68). -/
def execDomainDeclaredStopped (d : Fin 18) (s : State) : Out := .next (domDeclare d.val false s)

/-- DOMAIN_DECLARED_OFF_FREQUENCY (R68). -/
def execDomainDeclaredOffFrequency (d : Fin 18) (s : State) : Out := .next (domDeclare d.val true s)

/-- R503: veto 0x04 is released once the three domains run and every function faulted by them has left FAULTED. -/
def clockVetoCheck (s : State) : State :=
  let runs (d : Nat) : Bool := decide ((s.clk.domains.getD d {}).declared = .none)
  let held (f cause : Nat) : Bool := fnFaulted s f && decide ((fnRec s f).faultCause.toNat = cause)
  if runs 15 && runs 1 && runs 5 && !held fSTAGE 0x0608 && !((List.range 4).any fun q => held (fQueue 4 q) 0x0204) then
    vetoRelease 4 s
  else s

/-- DOMAIN_DECLARATION_ENDS (R68): the record, and what waits for it. Idle for a domain that is not declared. -/
def execDomainDeclarationEnds (d : Fin 18) (s : State) : Out :=
  let was := (s.clk.domains.getD d.val {}).declared
  if was = .none || decide (s.power.life ≠ .up) then .next s
  else
    let s := domMod d.val (fun y => { y with declared := .none }) s
    let s := domRecord 0 d.val (decide (was = .offFrequency)) true s
    .next (if d.val = 2 then reqUpdate s else clockVetoCheck s)

end Sys2Proof.Machine
end

