-- ==== Sys2Proof/Machine/Halt.lean ====
section
/-! DEFINITION. The end of a segment: HALT, commit, the Assayer's comparison of a fixed pair, and the aborts of a boundary
(R230, R254, R257, R261, R265 to R267). -/

namespace Sys2Proof.Machine

/-! ### HALT and commit (R210, R257, R261) -/

/-- What a built-in list has computed by the end of its run, into the staging copies of its areas (entry 34). -/
def builtinRun (l : Inst) (k : Nat) (s : State) : State :=
  match l.builtin with
  | none => s
  | some .dispatch => dispatchRun l k s
  | some .allocate => allocateRun l s
  | some .estimate => estimateRun l k s
  | some .forecast => forecastRun l k s
  | some .persist => persistRun l s

/-- What a built-in list reads by the end of its run: first address and bytes. The forecaster reads the block and its buckets' newest
samples, DISPATCH the block, the forecast, the steps, the estimator area and the area of STAGE, ALLOCATE the landed frame, ESTIMATE its
inputs (R280). -/
def builtinReads (l : Inst) (s : State) : List (Nat × Nat) :=
  let area (b n : Nat) : Nat × Nat := (currentCopy s b n, n)
  let block := area (aCist 0) blockSize
  let loads : List (Nat × Nat) := match bucketOf s 0 with
    | some b => (List.range (min (min b.written (2 ^ b.log2len)) (2 ^ s.pipe.live.meanLog2 / b.decim))).map fun i =>
        (b.base + 4096 + (b.written - 1 - i) % 2 ^ b.log2len * 4, 4)
    | none => []
  match l.builtin with
  | none => []
  | some .dispatch => [block, area aForecast 576, area aStep 128, area aEstFixed 448, area aStage 64]
  | some .allocate => area aTargetsHead 8256 :: if headsRope s && s.rope.seen then [area (landedBases.headD 0) (64 * s.rope.landedLines)] else []
  | some .estimate => [area aEstIn 64]
  | some .forecast => block :: loads
  | some .persist => block :: loads

/-- R193: the first damaged word among them. -/
def builtinDamage (l : Inst) (s : State) : Option Nat :=
  (builtinReads l s).findSome? fun r => damagedIn s r.1 r.2

/-- R267: a segment of FIXED.Q0 or another fixed queue ends in a mismatch on a tile: the run aborts with MISMATCH; in FIXED.Q0 the module
also drops its request for authority and the queue goes FAULTED. -/
def mismatchAbort (q : Nat) (g : TileSeg) (t : Nat) (s : State) : State :=
  let s := computeAdd 8 (segAbort g.listId g.seg t 5 g.used g.budget s)
  if q = fFIXED0 then
    listRecord 3 0x0106 fFIXED0 g.listId g.seg 5 [] (queueFault fFIXED0 0x0301 (vetoLatch 1 s))
  else s

/-- R193: a built-in list's segment meets an uncorrectable word: it aborts with MEMORY, on a fixed tile with a mismatch of the pair. -/
def builtinAbort (l : Inst) (g : TileSeg) (t a : Nat) (s : State) : State :=
  let s := uncorrectable l.queue t (readerOf t false) a s
  if tileFixed t then mismatchAbort l.queue g t s else segAbort g.listId g.seg t 3 g.used g.budget s

/-- A segment has halted on every tile of its mask: the run commits after its last segment, then the HALT's flag is set; who waits
for it sees what the tiles saw and the commit. -/
def segHalted (l : Inst) (g : TileSeg) (t : Nat) (e : Line) (s : State) : State :=
  match (instOf s l.id).bind (·.run), builtinDamage l s with
  | none, _ => s
  | some _, some a => builtinAbort l g t a s
  | some r, none =>
    let done := insertNat g.seg r.done
    let p : Seer := .point l.id g.seg g.cmd
    let n := s.mem.writes.length
    let s := instSet l.id (fun x => { x with run := x.run.map fun r => { r with done := done } }) s
    let s := if l.segs.length ≤ done.length then runCommit l.id (inView p (builtinRun l r.start.toNat) (seenJoin p .path s)) else s
    let w := e.getD 0 0
    let f : Seer := .flag (fld w 0 6)
    if bit w 8 then flagSet (fld w 0 6) none (seenJoin p f (seenFrom n f s)) else s

/-- A HALT takes effect on a tile: the tile is free, its flags and cycles enter the run, and its arrival may end the segment. -/
def haltPass (l : Inst) (g : TileSeg) (t : Nat) (e : Line) (s : State) : State :=
  let fl := (tileOf s t).flags
  let s := tileMod t (fun x => { x with seg := none, waiting := none, count := (g.budget, g.used) }) s
  let s := instSet l.id (fun x => { x with
    peak := max x.peak (peakOf g.used g.budget),
    run := x.run.map fun r => { r.take t g with flags := r.flags ||| fl } }) s
  let s := seenJoin (.tile t) (.point l.id g.seg g.cmd)
    { s with lists := { s.lists with signals := arrive l.id g.seg g.cmd t s.lists.signals } }
  if allArrived l g s.lists.signals then segHalted l g t e s else s

/-- HALT (R257): it acts where it is the tile's present command. -/
def execHalt (t : Fin 48) (e : Line) (s : State) : Out := pointCmd 0x0D t.val e s fun l g s => haltPass l g t.val e s

/-! ### The comparison of a fixed pair (R266, R267) -/

/-- R267: the members of a pair differ. -/
def pairMismatch (t : Nat) (s : State) : State :=
  match (tileOf s t).seg with
  | none => s
  | some g => mismatchAbort (tileQueue s t) g t s

/-- A point that both members have reached with equal CRCs takes effect on one of them. -/
def pointPass (t : Nat) (s : State) : State :=
  match (tileOf s t).seg with
  | none => s
  | some g =>
    match instOf s g.listId with
    | none => s
    | some l =>
      let e := l.cmds.getD g.cmd []
      match opcOf e with
      | 0x09 => syncPass l g t e s
      | 0x0A => signalPass l g t e s
      | 0x0D => haltPass l g t e s
      | _ => s

/-- What a member of a pair waits for the Assayer with. -/
def pairWait (s : State) (t : Nat) : Option TileWait := match (tileOf s t).waiting with
  | some .point => some .point
  | some (.aborted c) => some (.aborted c)
  | _ => none

/-- The command at which a tile stands, in its list and segment. -/
def tileAt (s : State) (t : Nat) : Option (Nat × Nat × Nat) := (tileOf s t).seg.map fun g => (g.listId, g.seg, g.cmd)

/-- Keeps the CRCs of a comparison. -/
def crcKeep (p : Nat) (s : State) : State :=
  let a := pairTiles p
  { s with lists := { s.lists with
    lastCrc := (s.lists.lastCrc.set (2 * p) (tileOf s a.1).crc).set (2 * p + 1) (tileOf s a.2).crc } }

/-- A live member's tile of a pair: the one whose segment an abort or a mismatch ends. -/
def pairLive (s : State) (p : Nat) : Nat := let a := pairTiles p; if (tileOf s a.1).seg.isSome then a.1 else a.2

/-- R254: a member that waited `n` cycles for the Assayer at a SYNC or SIGNAL has counted them; where they reach the budget it has
aborted. A HALT has ended its count. -/
def pointWait (t n : Nat) (s : State) : State :=
  match (tileOf s t).seg with
  | none => s
  | some g =>
    if pairWait s t ≠ some .point ∨ !tileCounts s t then s
    else if g.budget ≤ g.used + n then tileStop t 1 g.budget s
    else tileMod t (fun x => { x with seg := some { g with used := g.used + n } }) s

/-- The same for a wait whose length nothing states (entry 31). -/
def pointWaited (t : Nat) (s : State) : State :=
  let q := usedFree t s
  pointWait t (q.2 - ((tileOf s t).seg.map (·.used)).getD 0) q.1

/-- The members' CRCs agree. -/
def crcSame (s : State) (p : Nat) : Bool :=
  let a := pairTiles p
  decide ((tileOf s a.1).crc = (tileOf s a.2).crc) && !assayerSlow s

/-- The pair's comparison where both members wait, or one has aborted; their CRCs are compared in every case. -/
def pairCompare (p : Nat) (s : State) : State :=
  let a := pairTiles p
  match pairWait s a.1, pairWait s a.2 with
  | some .point, some .point =>
    if tileAt s a.1 = tileAt s a.2 ∧ crcSame s p then pointPass a.2 (pointPass a.1 (crcKeep p s))
    else pairMismatch a.1 (crcKeep p s)
  | some (.aborted x), some (.aborted y) =>
    if x = y ∧ tileAt s a.1 = tileAt s a.2 ∧ (x = 1 ∨ x = 2 ∨ x = 4) ∧ crcSame s p then
      match (tileOf s a.1).seg with
      | some g => segAbort g.listId g.seg a.1 x g.used g.budget (crcKeep p s)
      | none => s
    else pairMismatch a.1 (crcKeep p s)
  | some (.aborted _), _ => pairMismatch (pairLive s p) (crcKeep p s)
  | _, some (.aborted _) => pairMismatch (pairLive s p) (crcKeep p s)
  | _, _ => s

/-- One member's abort as the comparison row gives it: a member that has no cause goes on. -/
def pairAbort (t cause : Nat) (s : State) : State :=
  if cause = 0 then s else tileMod t (fun x => { x with waiting := some (.aborted cause), lastAbort := cause }) s

/-- PAIR_COMPARISON (R266): at a SIGNAL, SYNC or HALT that both members have reached, at an abort, or where a hardware fault has
made the members differ. `m.waits` are the cycles that the members have waited there. Idle unless the pair runs a segment and stands at
such a point. -/
def execPairComparison (p : Fin 2) (m : PairMeeting) (s : State) : Out :=
  let a := pairTiles p.val
  match m.point with
  | .upset => if (tileOf s (pairLive s p.val)).seg.isSome then .next (pairMismatch (pairLive s p.val) (crcKeep p.val s)) else .next s
  | .abort ca cb cmdA cmdB =>
    if (tileOf s a.1).seg.isNone ∧ (tileOf s a.2).seg.isNone ∨ (ca = 0 ∧ cb = 0) then .next s
    else if ca = cb ∧ cmdA = cmdB ∧ (ca = 1 ∨ ca = 2 ∨ ca = 4) then .next (pairCompare p.val (pairAbort a.2 cb (pairAbort a.1 ca s)))
    else .next (pairMismatch (pairLive s p.val) (crcKeep p.val s))
  | _ =>
    if pairWait s a.1 = some .point ∧ pairWait s a.2 = some .point
    then .next (pairCompare p.val (pointWait a.2 m.waits.2 (pointWait a.1 m.waits.1 s)))
    else .next (pairCompare p.val s)

/-! ### Aborts at a boundary (R254, R267) -/

/-- The members of a pair stop at the boundary together. -/
def pairBoundary (p : Nat) (s : State) : State :=
  let a := pairTiles p
  let stop (t : Nat) (s : State) : State :=
    if tileLive s t then let q := usedFree t (cutCurrent t s); tileStop t 2 q.2 q.1 else s
  let s := match pairWait s a.1, pairWait s a.2 with
    | some .point, some .point => pairCompare p (pointWaited a.2 (pointWaited a.1 s))
    | _, _ => s
  let s := stop a.2 (stop a.1 s)
  match pairWait s a.1, pairWait s a.2 with
  | none, none => s
  | some .point, none => pairMismatch a.1 (crcKeep p s)
  | none, some .point => pairMismatch a.2 (crcKeep p s)
  | _, _ => pairCompare p s

/-- BOUNDARY_ABORT (R254): a segment that still runs on a tile at the boundary aborts. -/
def boundaryAborts (s : State) : State :=
  let s := [0, 1].foldl (fun t p => pairBoundary p t) s
  (List.range 48).foldl (fun t i =>
    if tileFixed i then t
    else if tileLive t i then let q := usedFree i (cutCurrent i t); tileStop i 2 q.2 q.1 else t) s

/-- A run whose segment of the stroke that ends has not halted on every tile, since a tile never came to it, aborts with the
same cause. -/
def unrunAborts (k : Nat) (s : State) : State :=
  s.lists.inst.foldl (fun t l =>
    match (instOf t l.id).bind (·.run) with
    | none => t
    | some r =>
      match (List.range l.segs.length).find? fun i =>
          decide (r.start.toNat + (l.segs.getD i default).slot = k) && !r.done.contains i with
      | none => t
      | some i =>
        let g := l.segs.getD i default
        segAbort l.id i ((segTiles (engineOf l.queue) g.mask).headD 0) 2 0 (budget (fEngineNow t (engineOf l.queue)) g) t) s

end Sys2Proof.Machine
end

