-- ==== Sys2Proof/Machine/Func.lean ====
section
/-! DEFINITION. FUNC_ON, FUNC_OFF, FUNC_START, FUNC_STOP and FUNC_CLEAR (R113 to R117, R125), with what each function's own chapter
gives them. -/

namespace Sys2Proof.Machine

/-- The function that word 2 names, whether it is one of R111, and the header of a function command (R101: STAGE and PAIR on mailbox
0, the others on mailboxes 1 to 3). R85: the commands of mailbox 0 act on STAGE and PAIR alone (`fcOn`, `mbZero`), and no command
of mailboxes 1 to 3 acts on either (`mbHigh`, `testActs`, `queueActs`), so none holds what a mailbox 0 command needs. R582: the
command acts on the function that bits [7:0] name whatever its reserved bits hold, so R100 is checked before them. The mailbox check comes
before the LENGTH check and reads word 2: where LENGTH gives none, the model reads it as 0 (entry 169, DESIGN CHOICE). -/
def fcId (r : Req) : Nat := fld (r.w 2) 0 8
def fcOk (r : Req) : Bool := (fnIdx (fcId r)).isSome && decide (fld (r.w 2) 8 24 = 0)
def fcOn (r : Req) (n : Fin 4) : Bool := decide (n.val = 0) = decide (fcId r = fSTAGE ∨ fcId r = fPAIR)
def fcCmd (op : Nat) (r : Req) : Cmd :=
  { op := op, onMb := fcOn r, lenOk := (· = 1), acts := if (fnIdx (fcId r)).isSome then [fcId r] else [] }

/-- A function command: E_RANGE for another ID, then the row of R113. -/
def fcBody (r : Req) (body : Nat → State → State × Answer) (s : State) : State × Answer :=
  if fcOk r then body (fcId r) s else (s, errR .range 2)

/-- E_FAULT of a function that is FAULTED. -/
def faultR (f : Nat) : Answer := errR .fault f

/-! ### Defaults (R113) -/

/-- The configuration of a function returns to its defaults; a queue has no lists (R228) and LEDGER an empty table (R482). -/
def fnDefaults (f : Nat) (s : State) : State :=
  if f = fSTAGE then stMod (fun x => { x with cfg := {}, coefs := {} }) s
  else if f = fCHAINA then chMod false (fun c => { c with cfg := {}, bal := 0, holdS := 0 }) s
  else if f = fCHAINB then chMod true (fun c => { c with cfg := {}, bal := 0, holdS := 0 }) s
  else if f = fEST then estMod (fun e => { e with cfg := {}, model := [] }) s
  else if f = fROPE then ropeMod (fun x => { x with cfg := {} }) s
  else if f = fPAIR then pairMod (fun p => { p with cfg := {} }) s
  else if f = fLEDGER then s
  else
    let s := queueOff f s
    if f = fFIXED0 then { s with pipe := { s.pipe with cfg := {} } } else s

/-- FUNC_ON (R113). -/
def execFuncOn (r : Req) : State → Out :=
  mailbox (fcCmd 0x0103 r) r (fcBody r fun f s =>
    match fnState s f with
    | .off =>
      let s := fnSet f .stopped 0 (fnDefaults f s)
      (if f = fLEDGER then ledgerOn s else s, okR [])
    | .stopped => (s, okR [])
    | .running => (s, errR .state 0)
    | .faulted => (s, faultR f))

/-- FUNC_OFF (R113). -/
def execFuncOff (r : Req) : State → Out :=
  mailbox (fcCmd 0x0104 r) r (fcBody r fun f s =>
    match fnState s f with
    | .off => (s, okR [])
    | .stopped =>
      let s := fnSet f .off 0 (fnDefaults f s)
      (if f = fLEDGER then ledgerOff s else s, okR [])
    | .running => (s, errR .state 0)
    | .faulted => (s, faultR f))

/-! ### START (R115, R116, R68) -/

/-- R68: a domain that a function needs is declared: the cause with which its START faults it. -/
def startFault (s : State) (f : Nat) : Option Nat :=
  let bad (d : Nat) : Bool := decide ((s.clk.domains.getD d {}).declared ≠ .none)
  if f = fSTAGE then (if bad 15 then some 0x0608 else none)
  else if f = fCHAINA ∨ f = fCHAINB then (if bad 16 then some 0x0702 else none)
  else if f < 0x10 then none
  else if 4 ≤ engineOf f then (if bad 5 then some 0x0204 else none)
  else if engineOf f < 2 then (if bad 3 || bad 6 then some 0x0204 else none)
  else (if bad 4 || bad 7 then some 0x0204 else none)

/-- The checks of a function's START. -/
def startBad (s : State) (f : Nat) : Option Answer :=
  if f = fSTAGE then stageStartBad s
  else if f = fCHAINA then chainStartBad s false
  else if f = fCHAINB then chainStartBad s true
  else if f = fEST then estStartBad s
  else if f = fROPE then ropeStartBad s
  else if f = fPAIR then pairStartBad s
  else if f = fLEDGER then ledgerStartBad s
  else queueStartBad s f

/-- A queue starts: PIPE_CONFIG's values take effect with FIXED.Q0 and CISTERN0.Q1 (R273, R316). -/
def queueGo (f : Nat) (s : State) : State :=
  let s := if f = fFIXED0 ∨ f = 0x11 then { s with pipe := { s.pipe with live := s.pipe.cfg } } else s
  queueStart f (fnSet f .running 0 s)

/-- START of a function whose checks hold. -/
def startGo (f : Nat) (s : State) : State × Answer :=
  if f = fSTAGE then (stageStart s, okR [])
  else if f = fCHAINA then chainStart false s
  else if f = fCHAINB then chainStart true s
  else if f = fEST then (estStart s, okR [])
  else if f = fROPE then ropeStart s
  else if f = fPAIR then (pairStart s, okR [])
  else if f = fLEDGER then (fnSet fLEDGER .running 0 s, okR [])
  else (queueGo f s, okR [])

/-- FUNC_START (R113, R115): the state first, then a declared domain (R68), then the function's checks. -/
def execFuncStart (r : Req) : State → Out :=
  mailbox (fcCmd 0x0105 r) r (fcBody r fun f s =>
    match fnState s f with
    | .off => (s, errR .state 0)
    | .stopped =>
      match startFault s f with
      | some c => (fnFault f c s, faultR f)
      | none => guardE (startBad s f) s (startGo f)
    | .running => (s, errR .state 0)
    | .faulted => (s, faultR f))

/-! ### STOP (R114) -/

/-- The orderly stop of a function: at once, or later with the answer. -/
def stopGo (f : Nat) (s : State) : State × Answer :=
  if f = fSTAGE then stageStopCmd s
  else if f = fCHAINA then chainStopCmd false s
  else if f = fCHAINB then chainStopCmd true s
  else if f = fEST then estStopCmd s
  else if f = fROPE then ropeStopCmd s
  else if f = fPAIR then pairStopCmd s
  else (s, .later (.funcStop f))

/-- FUNC_STOP (R113, R114); LEDGER and the queues stop at the next boundary (R487, R273). -/
def execFuncStop (r : Req) : State → Out :=
  mailbox (fcCmd 0x0106 r) r (fcBody r fun f s =>
    match fnState s f with
    | .off => (s, errR .state 0)
    | .stopped => (s, okR [])
    | .running => stopGo f s
    | .faulted => (s, faultR f))

/-! ### CLEAR (R113, R274, R345, R384, R420, R452, R487, R526) -/

/-- The self-test that a clear waits for (R578), by function and cause. -/
def clearTest (s : State) (f : Nat) : Option Nat :=
  let c := (fnRec s f).faultCause.toNat
  if f = fSTAGE ∧ c = 0x0601 then some 0 else if f = fFIXED0 ∧ c = 0x0301 then some 1 else none

/-- How the test of a clear ends; passed where the clear needs none. -/
def clearEnd (s : State) (f : Nat) (test : TestResult) : TestResult :=
  match clearTest s f with
  | some i => if testMay s i then test else .skipped
  | none => .passed

/-- The fault condition of a function is gone. -/
def condGone (s : State) (f : Nat) (test : TestResult) : Bool :=
  let cause := (fnRec s f).faultCause.toNat
  if f = fSTAGE then stageCondGone s test
  else if f = fCHAINA ∨ f = fCHAINB then decide (cause ≠ 0x0702) || (startFault s f).isNone
  else if f = fEST then decide ((fnRec s fEST).change.toNat < s.est.lastCommit.toNat + 256)
  else if f = fPAIR then pairCondGone s
  else if f = fROPE ∨ f = fLEDGER then true
  else (startFault s f).isNone && (decide (cause ≠ 0x0301 ∨ f ≠ fFIXED0) || decide (test = .passed))

/-- The function enters STOPPED; vetoes that its fault held are released (R503). A queue keeps the flags of its lists (R263). -/
def clearGo (f : Nat) (s : State) : State :=
  if f = fSTAGE then clockVetoCheck (stageClear s)
  else if f = fLEDGER then fnSet f .stopped 0 (ledgerClear s)
  else if f = fPAIR then giveUp .standby (fnSet f .stopped 0 (claimRelease f s))
  else if f < 0x10 then fnSet f .stopped 0 (claimRelease f s)
  else
    let s := fnSet f .stopped 0 s
    clockVetoCheck (if f = fFIXED0 then vetoRelease 1 s else s)

/-- FUNC_CLEAR (R113): a failed test writes its record (R578). -/
def execFuncClear (r : Req) (test : TestResult) : State → Out :=
  mailbox (fcCmd 0x0107 r) r (fcBody r fun f s =>
    if fnFaulted s f then
      let x := clearEnd s f test
      let s := match clearTest s f with
        | some i => testRecord i x s
        | none => s
      if condGone s f x then (clearGo f s, okR []) else (s, faultR f)
    else (s, errR .state 0))

end Sys2Proof.Machine
end

