-- ==== Sys2Proof/Machine/Registers.lean ====
section
/-! DEFINITION. A host write of a register by its address (R5, R6, R86, R87, R92, R130, R161). -/

namespace Sys2Proof.Machine

/-- A write of one 32-bit register. -/
def registerWrite (space : RegSpace) (off : Nat) (v : Word) (s : State) : Out :=
  match space with
  | .bar0 => if off = 0x300 then execWarmReset v s else .next (bar0Write off v s)
  | .bar2 => .next (bar2Write off v s)
  | .config => .next (configWrite off v s)

/-- REGISTER_WRITE (R5, R87): a BAR0 write that does not cover a whole aligned word is dropped and counted. In D3hot only configuration
space is reached (R161). -/
def execRegisterWrite (space : RegSpace) (off : BitVec 32) (value : Word) (wholeWord : Bool) (s : State) : Out :=
  let o := off.toNat
  if !configReaches s || (s.link.d3hot && decide (space ≠ .config)) then .next s
  else if !wholeWord || decide (o % 4 ≠ 0) then
    .next (if space = .bar0 then { s with diag := { s.diag with host := bump s.diag.host 0 1 } } else s)
  else registerWrite space o value s

end Sys2Proof.Machine
end

