-- ==== Sys2Proof/Machine/Stroke.lean ====
section
/-! DEFINITION. STROKE_BOUNDARY (R185): what the module does where one stroke ends and the next begins. -/

namespace Sys2Proof.Machine

/-! ### The stroke count and its phase (R69, R71, R74, R81) -/

/-- R71, R81: the count advances, once PLL_REF has locked, and accepted divisions take effect. -/
def strokeAdvance (s : State) : State :=
  let d := divsSet s
  { s with clk := { s.clk with
      stroke := s.clk.stroke + 1, tick := 0, base := s.clk.base + s.clk.strokeLen, strokeDiv := d.1, loopDiv := d.2,
      nextDivs := none } }

/-- R74: a phase error in ns to the nearest boundary. -/
def errNear (div : Nat) (err : Int) : Int :=
  let t : Int := 10 * div
  let e := err % t
  if t < 2 * e then e - t else e

/-- R74: the length in ticks of a stroke that realigns by an error. -/
def realignLen (div : Nat) (err : Int) : Nat :=
  let n := min (div / 200) (err.natAbs / 10)
  if 0 < err then div - n else div + n

/-- R74: a follower with a frame compares its boundary with the computed one, realigns by more than 40 ns, and records start and
end. -/
def realign (env : BoundaryEnv) (s : State) : State :=
  let err := if follower s && !s.rope.island then errNear s.clk.strokeDiv env.phaseErr else 0
  let go := decide (40 < err.natAbs)
  let was := s.clk.aligning
  let s := { s with clk := { s.clk with
    phaseErr := err, aligning := go, strokeLen := if go then realignLen s.clk.strokeDiv err else s.clk.strokeDiv } }
  if go = was then s else emit 0 0 0x000C [w32 (b2n go), i32 err] s

/-! ### Lists at a boundary (R260, R261, R264, R271, R273) -/

/-- R273: queues whose STOP waits end their runs without commit and without fallback, and read STOPPED; capacity grows (R271). A
queue that has gone FAULTED since the command has answered it (R114). -/
def queuesStop (s : State) : State :=
  let due := ((List.range 20).map (0x10 + ·)).filter fun f => (waitingMb (fun w => decide (w = .funcStop f)) s).isSome
  let s := due.foldl (fun t f => answer (.funcStop f) .ok 0 [] (fnSet f .stopped 0 (queueStopRuns f t))) s
  if due.isEmpty then s else { s with lists := { s.lists with restoreDue := true } }

/-- R261, R264: the stroke flags, the vectors sent and the arrivals start afresh. -/
def flagsClear (s : State) : State :=
  { s with lists := { s.lists with flags := 0, vecSent := 0, signals := [], barriers := [] } }

/-! ### Counters and messages -/

/-- R191: the count of correctable errors starts afresh each second. -/
def secondsBoundary (k : Nat) (s : State) : State :=
  if k * s.clk.strokeDiv / 100000000 = (k + 1) * s.clk.strokeDiv / 100000000 then s
  else { s with mem := { s.mem with corrSec := [0, 0, 0, 0], corrRec := [false, false, false, false] } }

/-- R110: vector 4, once, if the stroke wrote records into the host ring. -/
def ringVector (s : State) : State :=
  if s.evt.wroteRing then msixDue 4 { s with evt := { s.evt with wroteRing := false } } else s

/-! ### The whole boundary -/

/-- What ends with stroke `k`: stops, aborts, fallbacks, streaks, and the stroke's records of the rope. -/
def strokeEnd (k : Nat) (ports : List PortSeen) (s : State) : State :=
  ropeStrokeEnd (portsSeen ports (streakBoundary (flipsBoundary k (writesLand (unrunAborts k (boundaryAborts (queuesStop s)))))))

/-- The measurements and sums of stroke `k` are committed. -/
def strokeCommit (k : Nat) (handed : Bool) (bad : List (Word × Nat)) (s : State) : State :=
  ledgerBoundary (BitVec.ofNat 64 k) handed bad (estBoundary k (streamBoundary k (blockBoundary k (stageBoundary k s))))

/-- Targets, the rope and the chains at the boundary into stroke `n`. -/
def strokeTargets (n : Nat) (s : State) : State :=
  let s := figuresNote n (landingSeen n (ropeStopBoundary s))
  let s := wrapBoundary (headLaunch n (ropeTargets n (targetsBoundary n s)))
  chainBoundary true n (chainBoundary false n s)

/-- Schedules, the tiles' clock and the queue of runs at the boundary into stroke `n`; after a panic no run begins (R561). -/
def strokeSchedule (n : Nat) (s : State) : State :=
  let s := restoreBoundary <| unloadsDue (thermalBoundary (hostLossBoundary (shortfallBoundary n (youngBoundary n (pumpsBoundary s)))))
  let s := flagsClear s
  if s.diag.panic.isSome then s else runsBegin n s

/-- R503 cause 0x0A: Posin requests a veto, or withdraws its request. -/
def vetoAsked (ask : Bool) (s : State) : State := if ask then vetoLatch 0x0A s else vetoRelease 0x0A s

/-- The boundary of a module whose Posin serves. The mirror carries the sums and tags that stroke `k` had. -/
def boundaryServe (env : BoundaryEnv) (s : State) : State :=
  let k := now s
  let token := env.token || s.diag.panic.isSome
  let sums := s.ledger.sums
  let tags := s.ledger.tags
  let spread := s.clk.spreadSeen
  let live := s.ledger.live
  let s := strokeAdvance (strokeEnd k env.ports s)
  let s := pstateBoundary token (strokeCommit k env.handed env.badCells (vetoAsked env.vetoAsk (if env.lockstep then vetoLatch 5 s else s)))
  let s := strokeSchedule (k + 1) (mirrorSend (BitVec.ofNat 64 k) sums tags live spread (strokeTargets (k + 1) s))
  ringVector (realign env (secondsBoundary k (beatSend (k + 1) token s)))

/-- STROKE_BOUNDARY (R71, R185). Until Posin serves (BOOT_STAGE 5) only the count advances. Idle while the module is not up or
PLL_REF has not locked. -/
def execStrokeBoundary (env : BoundaryEnv) (s : State) : Out :=
  if s.power.life ≠ .up || !(s.clk.plls.getD 0 {}).locked then .next s
  else if s.clerk.bootStage ≠ 5 then
    let s := writesLand s
    .next { strokeAdvance s with clk := { (strokeAdvance s).clk with strokeLen := (divsSet s).1 } }
  else .next (boundaryServe env s)

end Sys2Proof.Machine
end

