-- ==== Sys2Proof/Machine/Dispatch.lean ====
section
/-! DEFINITION. The dispatch of a command to its meaning: one arm per constructor of `Instr`. -/

namespace Sys2Proof.Machine

def exec (i : Instr) (s : State) : Host.Outcome State Fault Refusal :=
  match i with
  | .nop r => Sys2Proof.Machine.execNop r s
  | .eventRingSet r => Sys2Proof.Machine.execEventRingSet r s
  | .funcQuery r => Sys2Proof.Machine.execFuncQuery r s
  | .funcOn r => Sys2Proof.Machine.execFuncOn r s
  | .funcOff r => Sys2Proof.Machine.execFuncOff r s
  | .funcStart r => Sys2Proof.Machine.execFuncStart r s
  | .funcStop r => Sys2Proof.Machine.execFuncStop r s
  | .funcClear r test => Sys2Proof.Machine.execFuncClear r test s
  | .claimQuery r => Sys2Proof.Machine.execClaimQuery r s
  | .clockQuery r => Sys2Proof.Machine.execClockQuery r s
  | .strokeConfig r => Sys2Proof.Machine.execStrokeConfig r s
  | .clockConfig r => Sys2Proof.Machine.execClockConfig r s
  | .clockMeasure r => Sys2Proof.Machine.execClockMeasure r s
  | .clockMeasureComplete count measStopped gateStopped => Sys2Proof.Machine.execClockMeasureComplete count measStopped gateStopped s
  | .clockGate r => Sys2Proof.Machine.execClockGate r s
  | .pumpRingSet r => Sys2Proof.Machine.execPumpRingSet r s
  | .pumpStart r prod => Sys2Proof.Machine.execPumpStart r prod s
  | .pumpStop r => Sys2Proof.Machine.execPumpStop r s
  | .pumpClear r selfCheck => Sys2Proof.Machine.execPumpClear r selfCheck s
  | .pumpQuery r => Sys2Proof.Machine.execPumpQuery r s
  | .pumpWake p prod => Sys2Proof.Machine.execPumpWake p prod s
  | .pumpDescriptorFetch p d => Sys2Proof.Machine.execPumpDescriptorFetch p d s
  | .pumpDescriptorComplete p data => Sys2Proof.Machine.execPumpDescriptorComplete p data s
  | .pumpTransferFault p cause moved addr linkAllows => Sys2Proof.Machine.execPumpTransferFault p cause moved addr linkAllows s
  | .listSubmit r desc => Sys2Proof.Machine.execListSubmit r desc s
  | .listRemove r => Sys2Proof.Machine.execListRemove r s
  | .listQuery r => Sys2Proof.Machine.execListQuery r s
  | .schedQuery r => Sys2Proof.Machine.execSchedQuery r s
  | .modelLoad r desc => Sys2Proof.Machine.execModelLoad r desc s
  | .modelUnload r => Sys2Proof.Machine.execModelUnload r s
  | .modelQuery r => Sys2Proof.Machine.execModelQuery r s
  | .bucketSet r => Sys2Proof.Machine.execBucketSet r s
  | .bucketQuery r => Sys2Proof.Machine.execBucketQuery r s
  | .targetSet r => Sys2Proof.Machine.execTargetSet r s
  | .pipeConfig r => Sys2Proof.Machine.execPipeConfig r s
  | .pipeQuery r => Sys2Proof.Machine.execPipeQuery r s
  | .roleSet r => Sys2Proof.Machine.execRoleSet r s
  | .ropeConfig r => Sys2Proof.Machine.execRopeConfig r s
  | .ropeQuery r => Sys2Proof.Machine.execRopeQuery r s
  | .ropePortQuery r => Sys2Proof.Machine.execRopePortQuery r s
  | .ropeCmis r reply => Sys2Proof.Machine.execRopeCmis r reply s
  | .ropeRead r => Sys2Proof.Machine.execRopeRead r s
  | .stageConfig r => Sys2Proof.Machine.execStageConfig r s
  | .loopCoef r => Sys2Proof.Machine.execLoopCoef r s
  | .loopOpen r => Sys2Proof.Machine.execLoopOpen r s
  | .loopOpenParked => Sys2Proof.Machine.execLoopOpenParked s
  | .loopClose r => Sys2Proof.Machine.execLoopClose r s
  | .stageMode r => Sys2Proof.Machine.execStageMode r s
  | .stageQuery r => Sys2Proof.Machine.execStageQuery r s
  | .traceArm r => Sys2Proof.Machine.execTraceArm r s
  | .traceDisarm r => Sys2Proof.Machine.execTraceDisarm r s
  | .traceQuery r => Sys2Proof.Machine.execTraceQuery r s
  | .traceTrigger die => Sys2Proof.Machine.execTraceTrigger die s
  | .traceCopied die => Sys2Proof.Machine.execTraceCopied die s
  | .chainConfig r => Sys2Proof.Machine.execChainConfig r s
  | .chainBal r => Sys2Proof.Machine.execChainBal r s
  | .chainQuery r => Sys2Proof.Machine.execChainQuery r s
  | .chainRead r => Sys2Proof.Machine.execChainRead r s
  | .chainId r => Sys2Proof.Machine.execChainId r s
  | .estConfig r => Sys2Proof.Machine.execEstConfig r s
  | .estModel r => Sys2Proof.Machine.execEstModel r s
  | .estQuery r => Sys2Proof.Machine.execEstQuery r s
  | .estRead r => Sys2Proof.Machine.execEstRead r s
  | .estAnchor r => Sys2Proof.Machine.execEstAnchor r s
  | .estLifeRead r => Sys2Proof.Machine.execEstLifeRead r s
  | .estSave r => Sys2Proof.Machine.execEstSave r s
  | .thermalConfig r => Sys2Proof.Machine.execThermalConfig r s
  | .thermalQuery r => Sys2Proof.Machine.execThermalQuery r s
  | .powerQuery r => Sys2Proof.Machine.execPowerQuery r s
  | .capSet r => Sys2Proof.Machine.execCapSet r s
  | .ledgerTag r desc => Sys2Proof.Machine.execLedgerTag r desc s
  | .ledgerRead r => Sys2Proof.Machine.execLedgerRead r s
  | .ledgerClose r => Sys2Proof.Machine.execLedgerClose r s
  | .ledgerQuery r => Sys2Proof.Machine.execLedgerQuery r s
  | .jobEnergyQuery r => Sys2Proof.Machine.execJobEnergyQuery r s
  | .pairConfig r => Sys2Proof.Machine.execPairConfig r s
  | .pairQuery r => Sys2Proof.Machine.execPairQuery r s
  | .pairHandover r => Sys2Proof.Machine.execPairHandover r s
  | .fwQuery r => Sys2Proof.Machine.execFwQuery r s
  | .fwWrite r image => Sys2Proof.Machine.execFwWrite r image s
  | .fwWriteComplete writeOk => Sys2Proof.Machine.execFwWriteComplete writeOk s
  | .fwCommit r => Sys2Proof.Machine.execFwCommit r s
  | .slotBCopyComplete ok => Sys2Proof.Machine.execSlotBCopyComplete ok s
  | .attestQuote r => Sys2Proof.Machine.execAttestQuote r s
  | .attestLogRead r => Sys2Proof.Machine.execAttestLogRead r s
  | .attestCert r => Sys2Proof.Machine.execAttestCert r s
  | .policySet r desc => Sys2Proof.Machine.execPolicySet r desc s
  | .policyQuery r => Sys2Proof.Machine.execPolicyQuery r s
  | .dumpRead r => Sys2Proof.Machine.execDumpRead r s
  | .dumpRelease r => Sys2Proof.Machine.execDumpRelease r s
  | .norSummaryRead r => Sys2Proof.Machine.execNorSummaryRead r s
  | .counterRead r => Sys2Proof.Machine.execCounterRead r s
  | .selftest r results => Sys2Proof.Machine.execSelftest r results s
  | .diagRaw r reply => Sys2Proof.Machine.execDiagRaw r reply s
  | .load t e wait => Sys2Proof.Machine.execLoad t e wait s
  | .store t e wait => Sys2Proof.Machine.execStore t e wait s
  | .gemm t e wait => Sys2Proof.Machine.execGemm t e wait s
  | .scan t e wait => Sys2Proof.Machine.execScan t e wait s
  | .vec t e wait => Sys2Proof.Machine.execVec t e wait s
  | .reduce t e wait => Sys2Proof.Machine.execReduce t e wait s
  | .bracket t e wait => Sys2Proof.Machine.execBracket t e wait s
  | .ledger t e wait => Sys2Proof.Machine.execLedger t e wait s
  | .sync t e => Sys2Proof.Machine.execSync t e s
  | .syncRelease t wait => Sys2Proof.Machine.execSyncRelease t wait s
  | .signal t e => Sys2Proof.Machine.execSignal t e s
  | .halt t e => Sys2Proof.Machine.execHalt t e s
  | .ropeGet t e => Sys2Proof.Machine.execRopeGet t e s
  | .ropePut t e => Sys2Proof.Machine.execRopePut t e s
  | .segmentStart t listId seg => Sys2Proof.Machine.execSegmentStart t listId seg s
  | .budgetAbort t => Sys2Proof.Machine.execBudgetAbort t s
  | .memoryAbort t addr loadStore => Sys2Proof.Machine.execMemoryAbort t addr loadStore s
  | .accessAbort t addr loadStore => Sys2Proof.Machine.execAccessAbort t addr loadStore s
  | .pairComparison p pt => Sys2Proof.Machine.execPairComparison p pt s
  | .remoteRequest member off op => Sys2Proof.Machine.execRemoteRequest member off op s
  | .remoteAccessTimeout t why => Sys2Proof.Machine.execRemoteAccessTimeout t why s
  | .strokeBoundary env => Sys2Proof.Machine.execStrokeBoundary env s
  | .sampleBoundary codes check tripped => Sys2Proof.Machine.execSampleBoundary codes check tripped s
  | .refStarved => Sys2Proof.Machine.execRefStarved s
  | .softStartRampEnd => Sys2Proof.Machine.execSoftStartRampEnd s
  | .softStartLoopClose => Sys2Proof.Machine.execSoftStartLoopClose s
  | .softStartRetry => Sys2Proof.Machine.execSoftStartRetry s
  | .voltageModeExit => Sys2Proof.Machine.execVoltageModeExit s
  | .fastLimitTrip trip => Sys2Proof.Machine.execFastLimitTrip trip s
  | .ovLatch => Sys2Proof.Machine.execOvLatch s
  | .uvTrip => Sys2Proof.Machine.execUvTrip s
  | .faultInAsserted pin => Sys2Proof.Machine.execFaultInAsserted pin s
  | .markEdge n rising stroke tick => Sys2Proof.Machine.execMarkEdge n rising stroke tick s
  | .ledgerConversion vbus iout overRange vbusOver => Sys2Proof.Machine.execLedgerConversion vbus iout overRange vbusOver s
  | .grantLost => Sys2Proof.Machine.execGrantLost s
  | .grantRise => Sys2Proof.Machine.execGrantRise s
  | .beatReceived path words crcOk => Sys2Proof.Machine.execBeatReceived path words crcOk s
  | .pathSilent path => Sys2Proof.Machine.execPathSilent path s
  | .watchdogVeto => Sys2Proof.Machine.execWatchdogVeto s
  | .handoverReclaim => Sys2Proof.Machine.execHandoverReclaim s
  | .mirrorReceived stroke items => Sys2Proof.Machine.execMirrorReceived stroke items s
  | .snapshotRequest stroke items packages => Sys2Proof.Machine.execSnapshotRequest stroke items packages s
  | .hostLossHoldExpired => Sys2Proof.Machine.execHostLossHoldExpired s
  | .dlDown => Sys2Proof.Machine.execDlDown s
  | .busMasterEnableClear => Sys2Proof.Machine.execBusMasterEnableClear s
  | .d3hotEntry => Sys2Proof.Machine.execD3hotEntry s
  | .msixUnmask vector => Sys2Proof.Machine.execMsixUnmask vector s
  | .hdmCommit base size ways lock => Sys2Proof.Machine.execHdmCommit base size ways lock s
  | .cxlMemRead hpa words => Sys2Proof.Machine.execCxlMemRead hpa words s
  | .cxlMemWrite hpa bytes => Sys2Proof.Machine.execCxlMemWrite hpa bytes s
  | .warmReset value => Sys2Proof.Machine.execWarmReset value s
  | .evtConsWrite value => Sys2Proof.Machine.execEvtConsWrite value s
  | .strokeLoRead => Sys2Proof.Machine.execStrokeLoRead s
  | .strokeHiRead => Sys2Proof.Machine.execStrokeHiRead s
  | .registerWrite space off value wholeWord => Sys2Proof.Machine.execRegisterWrite space off value wholeWord s
  | .perstReset => Sys2Proof.Machine.execPerstReset s
  | .boot env => Sys2Proof.Machine.execBoot env s
  | .bootWatchdogExpired => Sys2Proof.Machine.execBootWatchdogExpired s
  | .assayerReset => Sys2Proof.Machine.execAssayerReset s
  | .pllLockCount pll => Sys2Proof.Machine.execPllLockCount pll s
  | .dividerStep d => Sys2Proof.Machine.execDividerStep d s
  | .forcedSwitch d => Sys2Proof.Machine.execForcedSwitch d s
  | .refInputQualified x => Sys2Proof.Machine.execRefInputQualified x s
  | .refInputLost x => Sys2Proof.Machine.execRefInputLost x s
  | .lossOfEveryReference => Sys2Proof.Machine.execLossOfEveryReference s
  | .clockLossRestart => Sys2Proof.Machine.execClockLossRestart s
  | .domainDeclaredStopped d => Sys2Proof.Machine.execDomainDeclaredStopped d s
  | .domainDeclaredOffFrequency d => Sys2Proof.Machine.execDomainDeclaredOffFrequency d s
  | .domainDeclarationEnds d => Sys2Proof.Machine.execDomainDeclarationEnds d s
  | .temperatureConversion sensor reading => Sys2Proof.Machine.execTemperatureConversion sensor reading s
  | .shutdownRopeRelease => Sys2Proof.Machine.execShutdownRopeRelease s
  | .shutdownRegulatorsOff => Sys2Proof.Machine.execShutdownRegulatorsOff s
  | .throttleEvaluation => Sys2Proof.Machine.execThrottleEvaluation s
  | .railSettled => Sys2Proof.Machine.execRailSettled s
  | .lifetimeHistogramTick => Sys2Proof.Machine.execLifetimeHistogramTick s
  | .lifetimeSaveTimer => Sys2Proof.Machine.execLifetimeSaveTimer s
  | .norWriteResume readBackOk => Sys2Proof.Machine.execNorWriteResume readBackOk s
  | .norEraseComplete => Sys2Proof.Machine.execNorEraseComplete s
  | .anchorTimeout => Sys2Proof.Machine.execAnchorTimeout s
  | .estCommitTimeout => Sys2Proof.Machine.execEstCommitTimeout s
  | .chainSettleWaitEnd c => Sys2Proof.Machine.execChainSettleWaitEnd c s
  | .chainFrameReceived c e bytes => Sys2Proof.Machine.execChainFrameReceived c e bytes s
  | .readCellsTimeout c => Sys2Proof.Machine.execReadCellsTimeout c s
  | .balSetHiTimeout c => Sys2Proof.Machine.execBalSetHiTimeout c s
  | .balanceHoldExpired c => Sys2Proof.Machine.execBalanceHoldExpired c s
  | .linkFailed port => Sys2Proof.Machine.execLinkFailed port s
  | .linkUp port => Sys2Proof.Machine.execLinkUp port s
  | .heldDownExpired port => Sys2Proof.Machine.execHeldDownExpired port s
  | .cmisPoll port poll => Sys2Proof.Machine.execCmisPoll port poll s
  | .strokeFrameReceived rope lines linkDelayPs forwardPs => Sys2Proof.Machine.execStrokeFrameReceived rope lines linkDelayPs forwardPs s
  | .frameCopyReturn rope lines => Sys2Proof.Machine.execFrameCopyReturn rope lines s
  | .frameCopyTimeout rope => Sys2Proof.Machine.execFrameCopyTimeout rope s
  | .ropeLossHoldExpired => Sys2Proof.Machine.execRopeLossHoldExpired s
  | .feedLost feed overVoltage => Sys2Proof.Machine.execFeedLost feed overVoltage s
  | .feedPresent feed => Sys2Proof.Machine.execFeedPresent feed s
  | .holdupCharged => Sys2Proof.Machine.execHoldupCharged s
  | .bothFeedsLost feed overVoltage => Sys2Proof.Machine.execBothFeedsLost feed overVoltage s
  | .holdupAuthDrop => Sys2Proof.Machine.execHoldupAuthDrop s
  | .holdupRopeRelease => Sys2Proof.Machine.execHoldupRopeRelease s
  | .holdupExpired => Sys2Proof.Machine.execHoldupExpired s
  | .coldStart => Sys2Proof.Machine.execColdStart s
  | .bridgeDisabled b => Sys2Proof.Machine.execBridgeDisabled b s
  | .patrolScrub addr found => Sys2Proof.Machine.execPatrolScrub addr found s
  | .panic cause detail handlerRuns holdupAt20 => Sys2Proof.Machine.execPanic cause detail handlerRuns holdupAt20 s
  | .panicReset => Sys2Proof.Machine.execPanicReset s
  | .faultInDeasserted pin => Sys2Proof.Machine.execFaultInDeasserted pin s
  | .dlActive cxl => Sys2Proof.Machine.execDlActive cxl s
  | .remoteResponse t reply => Sys2Proof.Machine.execRemoteResponse t reply s
  | .unknownOpcode r opcode => Sys2Proof.Machine.execUnknownOpcode r opcode s
  | .pumpStopTimeout p => Sys2Proof.Machine.execPumpStopTimeout p s
  | .holdupGoodWaitTimeout => Sys2Proof.Machine.execHoldupGoodWaitTimeout s
  | .ropeStartWaitExpired second => Sys2Proof.Machine.execRopeStartWaitExpired second s
  | .enumHiTimeout c => Sys2Proof.Machine.execEnumHiTimeout c s

end Sys2Proof.Machine
end

