-- ==== Sys2Proof/Safety.lean ====
section
/-! DEFINITION. The terms in which statements speak of the machine: its invariant, when a mailbox takes a command, what it has answered,
and what a command leaves as it was. -/

namespace Sys2Proof.Machine

/-! ### The invariant -/

/-- Device memory and the host memory that the module has written are in canonical form; every file of registers has its
size: four mailboxes (R86), 27 functions (R111), eight pumps (R148), 48 tiles (R164). -/
def Sound (s : State) : Prop :=
  cellsWf s.mem.cells = true ∧ cellsWf s.mem.host = true ∧ s.mbs.length = 4 ∧ s.funcs.length = 27 ∧ s.pumps.length = 8 ∧
    s.tiles.length = 48

/-! ### The mailboxes (R96 to R98, R161, R540, R582) -/

/-- The module takes a doorbell: the host reaches it (R161), MB_OPEN is 1 (R98), it is not in recovery (R540), and no command is
in progress. -/
def Ready (s : State) : Prop :=
  hostReaches s = true ∧ s.clerk.mbOpen = true ∧ s.boot.recovery = false ∧ s.mbs.length = 4 ∧ ∀ m ∈ s.mbs, m.busy = none

/-- The state in which the body of a command runs: its doorbell has been rung (R96 steps 1 and 2). -/
def rung (op : Nat) (acts : List Nat) (r : Req) (s : State) : State := mbStart op acts r (mbPost op r s)

/-- A mailbox has completed a command (R96 steps 4 and 5): BUSY 0, DONE 1, STATUS, DETAIL and the response, with the request's tag. -/
def Answered (t : State) (r : Req) (c : Code) (detail : Nat) (rsp : List Word) : Prop :=
  ∃ m, t.mbs[r.mb.val]? = some m ∧ m.busy = none ∧ m.done = true ∧ m.status = BitVec.ofNat 8 c.num ∧
    m.detail = BitVec.ofNat 8 detail ∧ m.rsp = rsp ∧ m.rspTag = r.tag

/-- A mailbox's command waits for an event that completes it. -/
def Waits (t : State) (r : Req) (w : Waiting) : Prop :=
  ∃ m b, t.mbs[r.mb.val]? = some m ∧ m.busy = some b ∧ b.waits = w

/-! ### Frames -/

/-- From `s` to `t` the module has served a mailbox and has written records, and nothing else has changed: the mailboxes, their
log (R568), host loss, which a doorbell ends (R162), records and messages, the counters of groups 0x00 and 0x01 (R576), and
the free counter. -/
def Served (s t : State) : Prop :=
  t.clk = s.clk ∧
  t.clerk = { s.clerk with log := t.clerk.log, logCount := t.clerk.logCount } ∧
  t.mbs.length = s.mbs.length ∧ t.funcs = s.funcs ∧ t.claims = s.claims ∧
  t.link = { s.link with hostLoss := t.link.hostLoss, holdLeft := t.link.holdLeft, holdExpired := t.link.holdExpired } ∧
  t.pumps = s.pumps ∧ t.mem = { s.mem with host := t.mem.host } ∧ t.tiles = s.tiles ∧ t.lists = s.lists ∧ t.pipe = s.pipe ∧
  t.rope = s.rope ∧ t.stage = s.stage ∧ t.traces = s.traces ∧ t.chainA = s.chainA ∧ t.chainB = s.chainB ∧ t.est = s.est ∧
  t.therm = s.therm ∧ t.power = s.power ∧ t.ledger = s.ledger ∧ t.pair = s.pair ∧ t.boot = s.boot ∧
  t.diag = { s.diag with host := t.diag.host, clerk := t.diag.clerk } ∧ t.pending = s.pending

/-- A function command names a function of R111 on its own mailbox (R101, R125). -/
def FuncHeader (r : Req) : Prop :=
  r.length.toNat = 1 ∧ fld (r.w 2) 8 24 = 0 ∧ fcId r ∈ fnIds ∧ (r.mb.val = 0 ↔ fcId r = fSTAGE ∨ fcId r = fPAIR)

/-- Every function but one keeps its state. -/
def OthersKeep (s t : State) (f : Nat) : Prop := ∀ g ∈ fnIds, g ≠ f → fnState t g = fnState s g

/-- A query: it answers OK with `ws`, and changes nothing (R124 and the queries of every chapter). -/
def Asks (i : Instr) (r : Req) (s : State) (ws : List Word) : Prop :=
  ∃ t, exec i s = .next t ∧ Answered t r .ok 0 ws ∧ Served s t

/-- A command that completes with OK and the response `ws`, and leaves the state `u` but for what serving a mailbox changes. -/
def Does (i : Instr) (r : Req) (s u : State) (ws : List Word) : Prop :=
  ∃ t, exec i s = .next t ∧ Answered t r .ok 0 ws ∧ Served u t

/-- A command that is refused with a completion code and a detail, without a payload, and changes nothing (R103, R120). -/
def Refuses (i : Instr) (r : Req) (s : State) (c : Code) (detail : Nat) : Prop :=
  ∃ t, exec i s = .next t ∧ Answered t r c detail [] ∧ Served s t

/-- A command that goes on after its body, and leaves the state `u` but for what serving a mailbox changes: BUSY stays 1 until the
event that `w` names. -/
def Awaits (i : Instr) (r : Req) (s u : State) (w : Waiting) : Prop :=
  ∃ t, exec i s = .next t ∧ Waits t r w ∧ Served u t

/-- A request on one of mailboxes 1 to 3, and on mailbox 0, with a header LENGTH (R95, R101). -/
def High (r : Req) (n : Nat) : Prop := r.mb.val ≠ 0 ∧ r.length.toNat = n
def Low (r : Req) (n : Nat) : Prop := r.mb.val = 0 ∧ r.length.toNat = n

/-- A mailbox has a command in progress. -/
def Busy (s : State) (n : Nat) : Prop := ∃ m, s.mbs[n]? = some m ∧ m.busy.isSome = true

/-- The command in progress on mailbox `n` of `s` has completed in `t` (R96): the response carries the tag of its request. -/
def Completed (s t : State) (n : Nat) (c : Code) (detail : Nat) (rsp : List Word) : Prop :=
  ∃ m b m', s.mbs[n]? = some m ∧ m.busy = some b ∧ t.mbs[n]? = some m' ∧ m'.busy = none ∧ m'.done = true ∧
    m'.status = BitVec.ofNat 8 c.num ∧ m'.detail = BitVec.ofNat 8 detail ∧ m'.rsp = rsp ∧ m'.rspTag = b.tag

/-! ### The rows that are mailbox commands (R94, R95, R101, R104) -/

/-- The request of a mailbox command; the other rows are events, register and link accesses, and tile commands. -/
def requestOf : Instr → Option Req
  | .nop r | .eventRingSet r | .funcQuery r | .funcOn r | .funcOff r | .funcStart r | .funcStop r | .funcClear r _ => some r
  | .claimQuery r | .clockQuery r | .strokeConfig r | .clockConfig r | .clockMeasure r | .clockGate r => some r
  | .pumpRingSet r | .pumpStart r _ | .pumpStop r | .pumpClear r _ | .pumpQuery r => some r
  | .listSubmit r _ | .listRemove r | .listQuery r | .schedQuery r => some r
  | .modelLoad r _ | .modelUnload r | .modelQuery r | .bucketSet r | .bucketQuery r | .targetSet r | .pipeConfig r => some r
  | .pipeQuery r | .roleSet r | .ropeConfig r | .ropeQuery r | .ropePortQuery r | .ropeCmis r _ | .ropeRead r => some r
  | .stageConfig r | .loopCoef r | .loopOpen r | .loopClose r | .stageMode r | .stageQuery r => some r
  | .traceArm r | .traceDisarm r | .traceQuery r => some r
  | .chainConfig r | .chainBal r | .chainQuery r | .chainRead r | .chainId r => some r
  | .estConfig r | .estModel r | .estQuery r | .estRead r | .estAnchor r | .estLifeRead r | .estSave r => some r
  | .thermalConfig r | .thermalQuery r | .powerQuery r | .capSet r => some r
  | .ledgerTag r _ | .ledgerRead r | .ledgerClose r | .ledgerQuery r | .jobEnergyQuery r => some r
  | .pairConfig r | .pairQuery r | .pairHandover r => some r
  | .fwQuery r | .fwWrite r _ | .fwCommit r | .attestQuote r | .attestLogRead r | .attestCert r => some r
  | .policySet r _ | .policyQuery r => some r
  | .dumpRead r | .dumpRelease r | .norSummaryRead r | .counterRead r | .selftest r _ | .diagRaw r _ => some r
  | .unknownOpcode r _ => some r
  | _ => none

/-- The one LENGTH that a command of mailboxes 1 to 3 has in its chapter (R101). -/
def highLength : Instr → Option Nat
  | .eventRingSet _ => some 3
  | .strokeConfig _ | .clockConfig _ => some 2
  | .clockMeasure _ | .clockGate _ => some 1
  | .pumpRingSet _ => some 6
  | .pumpStart .. | .pumpStop _ | .pumpClear .. | .pumpQuery _ => some 1
  | .listSubmit .. => some 4
  | .listRemove _ | .listQuery _ | .schedQuery _ => some 1
  | .modelLoad .. => some 4
  | .modelUnload _ | .modelQuery _ | .bucketSet _ | .bucketQuery _ => some 1
  | .targetSet _ => some 4
  | .pipeConfig _ => some 16
  | .pipeQuery _ => some 0
  | .roleSet _ => some 1
  | .ropeConfig _ => some 6
  | .ropeQuery _ => some 0
  | .ropePortQuery _ => some 1
  | .ropeCmis .. => some 2
  | .ropeRead _ => some 1
  | .chainConfig _ => some 21
  | .chainBal _ => some 17
  | .chainQuery _ | .chainRead _ | .chainId _ => some 1
  | .estConfig _ => some 20
  | .estModel _ => some 156
  | .estQuery _ => some 0
  | .estRead _ => some 1
  | .estAnchor _ | .estLifeRead _ | .estSave _ => some 0
  | .thermalConfig _ => some 1
  | .thermalQuery _ | .powerQuery _ => some 0
  | .capSet _ => some 2
  | .ledgerTag .. => some 4
  | .ledgerRead _ => some 2
  | .ledgerClose _ => some 1
  | .ledgerQuery _ => some 0
  | .jobEnergyQuery _ => some 2
  | .fwQuery _ => some 0
  | .fwWrite .. => some 4
  | .fwCommit _ => some 0
  | .attestQuote _ => some 8
  | .attestLogRead _ | .attestCert _ => some 1
  | .policySet .. => some 3
  | .policyQuery _ => some 0
  | .dumpRead _ => some 2
  | .dumpRelease _ => some 0
  | .norSummaryRead _ | .counterRead _ | .selftest .. => some 1
  | _ => none

/-- The one LENGTH that a command of mailbox 0 has in its chapter (R101). -/
def zeroLength : Instr → Option Nat
  | .stageConfig _ => some 31
  | .loopCoef _ => some 5
  | .loopOpen _ | .loopClose _ => some 0
  | .stageMode _ => some 2
  | .stageQuery _ => some 0
  | .traceArm _ => some 3
  | .traceDisarm _ | .traceQuery _ => some 1
  | .pairConfig _ => some 4
  | .pairQuery _ | .pairHandover _ => some 0
  | _ => none

/-! ### Resets (R531) -/

/-- The module after a reset of a cause: every function OFF, no claim, no command, the stroke count 0, AUTH_REQ low, the registers of the Clerk as
at reset but for RESET_CAUSE, the vetoes clear but for 0x07 unless the reset is cold; kept are what NOR holds, the pins, and, by the warm kinds,
the well. Reset is released at once where REFCLK is qualified (R134). -/
def WasReset (s t : State) (cause : Nat) : Prop :=
  (∀ f ∈ fnIds, fnState t f = .off) ∧ t.claims = [] ∧ (∀ m ∈ t.mbs, m.busy = none ∧ m.done = false) ∧ t.clk.stroke = 0 ∧
    t.clk.nextDivs = none ∧ t.clerk = { resetCause := BitVec.ofNat 8 cause } ∧ t.link = {} ∧ t.evt = {} ∧ t.lists.inst = [] ∧
    t.pair.req = false ∧ t.pair.pstate = .standby ∧ t.pair.gnt = s.pair.gnt ∧ t.pair.slot1 = s.pair.slot1 ∧
    t.pair.vetoes = (if s.pair.vetoes.getLsbD 7 = true ∧ cause ≠ 1 then 0x80 else 0) ∧
    t.mem.cells = (if keepsWell cause then (writesLand s).mem.cells.filter (fun c => decide (c.1 < aWellEnd)) else []) ∧
    t.mem.host = (writesLand s).mem.host ∧ t.mem.writes = [] ∧ t.est.norCap = s.est.norCap ∧ t.est.norLife = s.est.norLife ∧
    t.diag.summaries = s.diag.summaries ∧ t.boot.policies = s.boot.policies ∧ t.boot.counter0 = s.boot.counter0 ∧
    t.power.life = (if s.clk.qualRefclk then .up else .inReset) ∧ t.power.feedA = s.power.feedA ∧ t.power.feedB = s.power.feedB ∧
    t.pending = s.pending

/-! ### Tiles (R185, R193, R254) -/

/-- A computing command runs to its end on tile `t` in segment `g`: the tile goes on to the next command, the cycles `n` are counted
against the budget, its activity is added to the segment's counts, the flags of its effect join the sticky ones, LEDGER's accumulators follow, the
states that a chunked SCAN carries on are
there for the next chunk's tile, and what it writes waits for the boundary. No other tile and no cell of memory changes. -/
def TileRuns (i : Instr) (s : State) (t : Nat) (l : Inst) (g : TileSeg) (n : Nat) (f : Eff) : Prop :=
  ∃ u, exec i s = .next u ∧
    (tileOf u t).seg = some { g with
      cmd := g.cmd + 1, used := g.used + n
      acts := (g.acts.zip (cmdActivity (seeAs (.tile t) s) l t (l.cmds.getD g.cmd []))).map fun p => p.1 + p.2 } ∧ (tileOf u t).waiting = none ∧
    (tileOf u t).flags = (tileOf s t).flags ||| f.flags ∧ (tileOf u t).acc = f.acc.getD (tileOf s t).acc ∧
    u.mem = { s.mem with writes := (opWrites l t f.writes s).mem.writes } ∧
    (∀ k : Nat, k ≠ t → u.tiles[k]? = s.tiles[k]?) ∧
    u.lists.carries = (match f.carry with
      | some ws => { listId := l.id, seg := g.seg, cmd := g.cmd, tile := t, states := ws } :: s.lists.carries
      | none => s.lists.carries) ∧
    u = { s with tiles := u.tiles, mem := u.mem, diag := { s.diag with perf := u.diag.perf },
                 lists := { s.lists with carries := u.lists.carries } }

end Sys2Proof.Machine
end

