-- ==== Sys2Proof/Certificates/Slice0/Obligations.lean ====
section
/-! DEFINITION. The statements about the block. A hypothesis on `s` is on the state before the command. `Ready`, `Does`, `Asks`,
`Refuses`, `Awaits`, `Completed` and `Served` are the terms of Safety. -/

open Sys2Proof Sys2Proof.Machine

/-! ### The block as a whole -/

/-- With a command at the front of the queue, a step is that command's effect on the state with the queue's rest. -/
def Obligations.StepRunsTheFrontCommand : Prop :=
  ∀ (c : Instr) (rest : List Instr) (s : State), s.pending = c :: rest → step s = exec c { s with pending := rest }

/-- The model's choice (entry 4): with an empty queue a step is one tick of 10 ns of a stroke timebase that runs (powered, PLL_REF locked, a
reference selected), up to the last tick that the stroke has (R70, R74); without a timebase it changes nothing. -/
def Obligations.EmptyQueueStepIsATick : Prop :=
  ∀ s : State, s.pending = [] →
    (s.power.life = .up → (s.clk.plls.getD 0 {}).locked = true → s.clk.refSrc.isSome = true →
      step s = .next { s with clk := { s.clk with tick := min (s.clk.tick + 1) (min s.clk.strokeLen s.clk.strokeDiv - 1) } }) ∧
    (s.power.life ≠ .up ∨ (s.clk.plls.getD 0 {}).locked = false ∨ s.clk.refSrc = none → step s = .next s)

/-- Every command completes in every state: no meaning ends in a fault or a refusal; and its effect is on everything but the queue of waiting
commands. -/
def Obligations.CommandsCompleteAndLeaveTheQueue : Prop :=
  ∀ (c : Instr) (s : State), ∃ t, exec c s = .next t ∧ t.pending = s.pending

/-- The invariant: every step keeps memory in canonical form, and the files of registers at their sizes. -/
def Obligations.StepKeepsSound : Prop := ∀ s t : State, Sound s → step s = .next t → Sound t

/-- The invariant holds after reset. -/
def Obligations.ResetIsSound : Prop := Sound State.reset

/-- Reset as the manual gives it: every function OFF, stroke 0, MB_OPEN 0, an empty ring with SEQ 0, BME 0, no mailbox busy or
done, no claims, no vetoes, AUTH_REQ low, the default divisions 5,000 and 10, no queued commands. -/
def Obligations.ResetState : Prop :=
  (∀ f ∈ fnIds, fnState State.reset f = .off) ∧ State.reset.clk.stroke = 0 ∧ State.reset.clerk.mbOpen = false ∧
    State.reset.clerk.ropeRole = 0 ∧ State.reset.evt.log2 = 0 ∧ State.reset.evt.prod = 0 ∧ State.reset.evt.cons = 0 ∧ State.reset.evt.seq = 0 ∧
    State.reset.link.bme = false ∧ (∀ m ∈ State.reset.mbs, m.busy = none ∧ m.done = false ∧ m.overrun = false) ∧
    State.reset.claims = [] ∧ State.reset.pair.vetoes = 0 ∧ State.reset.pair.req = false ∧
    State.reset.clk.strokeDiv = 5000 ∧ State.reset.clk.loopDiv = 10 ∧ State.reset.pending = []

/-! ### The mailbox protocol -/

/-- R161, R98, R97: a doorbell that does not reach the module changes nothing; while MB_OPEN is 0 it starts nothing: only what the
host wrote into the mailbox before it stands there; on a busy mailbox it sets OVERRUN, and the command in progress goes on. -/
def Obligations.DoorbellsThatStartNothing : Prop :=
  (∀ (i : Instr) (r : Req) (s : State), requestOf i = some r →
    (hostReaches s = false → exec i s = .next s) ∧
    (hostReaches s = true → s.clerk.mbOpen = false →
      ∃ t, exec i s = .next t ∧ t = { s with mbs := t.mbs } ∧ t.mbs.length = s.mbs.length ∧
        ∀ n : Nat, (t.mbs.getD n {}).busy = (s.mbs.getD n {}).busy ∧ (t.mbs.getD n {}).done = (s.mbs.getD n {}).done)) ∧
  (∀ (i : Instr) (r : Req) (s : State) (b : InProgress) (m : Mailbox), requestOf i = some r → hostReaches s = true →
    s.clerk.mbOpen = true → s.mbs[r.mb.val]? = some m → m.busy = some b →
    ∃ t m', exec i s = .next t ∧ t = { s with mbs := t.mbs, diag := { s.diag with host := t.diag.host } } ∧
      t.mbs[r.mb.val]? = some m' ∧ m'.overrun = true ∧ m'.busy = some b ∧ m'.done = m.done ∧ m'.rsp = m.rsp ∧
      ∀ n : Nat, n ≠ r.mb.val → t.mbs[n]? = s.mbs[n]?)

/-- R101, R95: a command on a mailbox that does not accept it completes with E_BADCMD and detail 1, and with another LENGTH with
E_BADLEN and detail 0; nothing else happens. -/
def Obligations.MailboxAndLengthAreChecked : Prop :=
  ∀ (i : Instr) (r : Req) (n : Nat) (s : State), requestOf i = some r → Ready s →
    (highLength i = some n → (r.mb.val = 0 → Refuses i r s .badCmd 1) ∧
      (r.mb.val ≠ 0 → r.length.toNat ≠ n → Refuses i r s .badLen 0)) ∧
    (zeroLength i = some n → (r.mb.val ≠ 0 → Refuses i r s .badCmd 1) ∧
      (r.mb.val = 0 → r.length.toNat ≠ n → Refuses i r s .badLen 0))

/-- R104, R582: an opcode that no group defines completes with E_BADCMD and detail 0, whatever its mailbox and LENGTH. -/
def Obligations.UnknownOpcodeIsRefused : Prop :=
  ∀ (r : Req) (opcode : BitVec 16) (s : State), Ready s → Refuses (.unknownOpcode r opcode) r s .badCmd 0

/-! ### System commands (R122 to R126) -/

/-- R122: NOP of every LENGTH answers OK with its request payload, and changes nothing. -/
def Obligations.NopAnswersItsPayload : Prop :=
  ∀ (r : Req) (s : State), Ready s → r.length.toNat ≤ 1023 → Asks (.nop r) r s (fit r.length.toNat 0 r.payload)

/-- R124, R126, R80: FUNC_QUERY answers one function's words or every state; CLAIM_QUERY the owner of a resource, 0 without
one; CLOCK_QUERY its eight words. None of them changes anything. -/
def Obligations.SystemQueriesAnswer : Prop :=
  ∀ (r : Req) (s : State), Ready s →
    (r.length.toNat = 1 → fld (r.w 2) 8 24 = 0 → fld (r.w 2) 0 8 = 0xFF →
      Asks (.funcQuery r) r s [funcStates s 0 16, funcStates s 16 16, funcStates s 32 4]) ∧
    (r.length.toNat = 1 → fld (r.w 2) 8 24 = 0 → fld (r.w 2) 0 8 ∈ fnIds →
      Asks (.funcQuery r) r s (funcWords s (fld (r.w 2) 0 8))) ∧
    (r.length.toNat = 1 → fld (r.w 2) 16 16 = 0 → isResource (fld (r.w 2) 0 16) = true →
      Asks (.claimQuery r) r s [w32 ((claimOwner s (fld (r.w 2) 0 16)).getD 0)]) ∧
    (r.length.toNat = 0 → Asks (.clockQuery r) r s (clockWords s))

/-- R123, R105, R106, R108: EVENT_RING_SET with LOG2_ENTRIES 0 removes the ring, and records stay queued; with 6 to 16 it sets the base and
the size, EVT_CONS is zero, and the queued records follow in order, each in the slot of its number, as many as there are slots, with EVT_PROD
their number; a record of those dropped comes after them where there is room; without bus mastering they stay queued. A write of EVT_CONS
takes its value, and sets CONS_BAD if PROD − CONS then exceeds the slot count, and not otherwise; a value that does leaves the ring full. -/
def Obligations.EventRing : Prop :=
  (∀ (r : Req) (s : State), Ready s → High r 3 → fld (r.w 2) 0 6 = 0 → fld (r.w 4) 5 27 = 0 → s.link.hostLoss = false →
    s.diag.panic = none →
    let l := fld (r.w 4) 0 5
    let k := min s.evt.queue.length (2 ^ l)
    (l = 0 →
      ∃ t, exec (.eventRingSet r) s = .next t ∧ Answered t r .ok 0 [] ∧ Served s t ∧ t.mem = s.mem ∧
        t.evt = { s.evt with base := wide (r.w 2) (r.w 3), log2 := 0, prod := 0, cons := 0 }) ∧
    (6 ≤ l → l ≤ 16 → s.link.bme = false →
      ∃ t, exec (.eventRingSet r) s = .next t ∧ Answered t r .ok 0 [] ∧ Served s t ∧ t.mem = s.mem ∧
        t.evt = { s.evt with base := wide (r.w 2) (r.w 3), log2 := l, prod := 0, cons := 0 }) ∧
    (6 ≤ l → l ≤ 16 → s.link.bme = true → Sound s → (∀ q ∈ s.evt.queue, q.length = 16) →
      ∃ t, exec (.eventRingSet r) s = .next t ∧ Answered t r .ok 0 [] ∧ Served s t ∧
        t.evt.base = wide (r.w 2) (r.w 3) ∧ t.evt.log2 = l ∧ t.evt.cons = 0 ∧ t.evt.queue = s.evt.queue.drop k ∧
        (s.evt.dropped = 0 ∨ 2 ^ l ≤ s.evt.queue.length →
          t.evt.prod = BitVec.ofNat 32 k ∧ t.evt.seq = s.evt.seq ∧ t.evt.dropped = s.evt.dropped) ∧
        (s.evt.dropped ≠ 0 → s.evt.queue.length < 2 ^ l →
          t.evt.prod = BitVec.ofNat 32 (k + 1) ∧ t.evt.seq = s.evt.seq + 1 ∧ t.evt.dropped = 0) ∧
        ∀ i j : Nat, i < k → j < 64 →
          cellRead t.mem.host (wide (r.w 2) (r.w 3) + 64 * i + j) = (bytesOf (s.evt.queue.getD i [])).getD j 0)) ∧
  (∀ (v : Word) (s : State), hostReaches s = true → s.evt.log2 ≠ 0 →
    ∃ t, exec (.evtConsWrite v) s = .next t ∧ Served s t ∧ t.mbs = s.mbs ∧ t.evt.cons = v ∧
      t.evt.base = s.evt.base ∧ t.evt.log2 = s.evt.log2 ∧
      t.evt.consBad = (s.evt.consBad || decide (2 ^ s.evt.log2 < (s.evt.prod - v).toNat)) ∧
      (2 ^ s.evt.log2 ≤ (s.evt.prod - v).toNat → t.evt.prod = s.evt.prod ∧ t.evt.queue = s.evt.queue ∧ t.mem = s.mem))

/-- R113: FUNC_ON takes a function from OFF to STOPPED, and FUNC_OFF from STOPPED to OFF; in the state that the command leads to
either answers OK and changes nothing. No other function changes its state. -/
def Obligations.FuncOnAndFuncOff : Prop :=
  ∀ (r : Req) (s : State), Ready s → Sound s → FuncHeader r →
    (fnState s (fcId r) = .off → ∃ t, exec (.funcOn r) s = .next t ∧ Answered t r .ok 0 [] ∧ fnState t (fcId r) = .stopped ∧
      OthersKeep s t (fcId r)) ∧
    (fnState s (fcId r) = .stopped → Asks (.funcOn r) r s []) ∧
    (fnState s (fcId r) = .stopped → ∃ t, exec (.funcOff r) s = .next t ∧ Answered t r .ok 0 [] ∧ fnState t (fcId r) = .off ∧
      OthersKeep s t (fcId r)) ∧
    (fnState s (fcId r) = .off → Asks (.funcOff r) r s [])

/-- R113, R115, R68: FUNC_START of a STOPPED function that passes its checks (`startBad`): it is RUNNING with OK; ROPE, and a chain whose
module holds the grant, answer later. With a domain that the Assayer has declared it answers E_FAULT with the function's ID, and the function
goes FAULTED with the cause of R68. -/
def Obligations.FuncStart : Prop :=
  (∀ (r : Req) (s : State), Ready s → Sound s → FuncHeader r → fnState s (fcId r) = .stopped → startFault s (fcId r) = none →
    startBad s (fcId r) = none →
    (fcId r ≠ fROPE → ¬ ((fcId r = fCHAINA ∨ fcId r = fCHAINB) ∧ s.pair.gnt = true) →
      ∃ t, exec (.funcStart r) s = .next t ∧ Answered t r .ok 0 [] ∧ fnState t (fcId r) = .running ∧ OthersKeep s t (fcId r)) ∧
    (fcId r = fROPE ∨ (fcId r = fCHAINA ∨ fcId r = fCHAINB) ∧ s.pair.gnt = true →
      ∃ t, exec (.funcStart r) s = .next t ∧ Waits t r (.funcStart (fcId r)) ∧ t.funcs = s.funcs)) ∧
  (∀ (r : Req) (s : State) (c : Nat), Ready s → Sound s → FuncHeader r → fnState s (fcId r) = .stopped →
    startFault s (fcId r) = some c →
    ∃ t, exec (.funcStart r) s = .next t ∧ Answered t r .fault (fcId r) [] ∧ fnState t (fcId r) = .faulted ∧
      (fnRec t (fcId r)).faultCause = BitVec.ofNat 16 c ∧ (fnRec t (fcId r)).change = s.clk.stroke ∧ OthersKeep s t (fcId r))

/-- R113, R114: FUNC_STOP of a STOPPED function changes nothing; of a RUNNING one it is STOPPED with OK at once (a chain without
the grant; PAIR that is not ACTIVE; STAGE without a current to ramp down) or answers later, at its orderly stop. -/
def Obligations.FuncStopStopsAFunction : Prop :=
  ∀ (r : Req) (s : State), Ready s → Sound s → FuncHeader r →
    (fnState s (fcId r) = .stopped → Asks (.funcStop r) r s []) ∧
    (fnState s (fcId r) = .running →
      ((fcId r = fCHAINA ∨ fcId r = fCHAINB) ∧ s.pair.gnt = false ∨ fcId r = fPAIR ∧ s.pair.pstate ≠ .active ∨
          fcId r = fSTAGE ∧ (s.stage.modeV = true ∨ (s.stage.loop ≠ .closed ∧ s.stage.loop ≠ .opening)) →
        ∃ t, exec (.funcStop r) s = .next t ∧ Answered t r .ok 0 [] ∧ fnState t (fcId r) = .stopped) ∧
      (fcId r = fROPE ∨ fcId r = fLEDGER ∨ 0x10 ≤ fcId r → Awaits (.funcStop r) r s s (.funcStop (fcId r))) ∧
      (fcId r = fEST ∨ (fcId r = fCHAINA ∨ fcId r = fCHAINB) ∧ s.pair.gnt = true ∨ fcId r = fPAIR ∧ s.pair.pstate = .active ∨
          fcId r = fSTAGE ∧ s.stage.modeV = false ∧ (s.stage.loop = .closed ∨ s.stage.loop = .opening) →
        ∃ t, exec (.funcStop r) s = .next t ∧ Waits t r (.funcStop (fcId r)) ∧ fnState t (fcId r) = .running))

/-- R113: FUNC_CLEAR of a FAULTED function whose fault condition is gone leads to STOPPED with OK; while the condition stands it answers
E_FAULT and the function stays FAULTED; a function that is not FAULTED answers E_STATE. -/
def Obligations.FuncClearEndsAFault : Prop :=
  ∀ (r : Req) (test : TestResult) (s : State), Ready s → Sound s → FuncHeader r →
    (fnState s (fcId r) = .faulted → condGone s (fcId r) (clearEnd s (fcId r) test) = true →
      ∃ t, exec (.funcClear r test) s = .next t ∧ Answered t r .ok 0 [] ∧ fnState t (fcId r) = .stopped) ∧
    (fnState s (fcId r) = .faulted → condGone s (fcId r) (clearEnd s (fcId r) test) = false →
      ∃ t, exec (.funcClear r test) s = .next t ∧ Answered t r .fault (fcId r) [] ∧ t.funcs = s.funcs) ∧
    (fnState s (fcId r) ≠ .faulted → Refuses (.funcClear r test) r s .state 0)

/-! ### Clock commands (R81 to R84) -/

/-- R81: STROKE_CONFIG with values in range, while every function is OFF or STOPPED: they are held for the next boundary.
R82, R60, R84, R66: CLOCK_CONFIG sets the reference preference, the half-rate inputs, the noc point and the declared spread, and gives the
dividers of sramA, sramB and noc the ratios that it names as their targets, whatever a raw write had left (a domain whose source is being
switched gets its own at the end of the switch); it answers OK when they stand there, and otherwise waits for their steps;
CLOCK_GATE sets the whole mask, and a bit that a holder needs is refused with E_CONFLICT and nothing changes.
R83, R67: CLOCK_MEASURE takes the free counter and waits; when its gate has run between two clocks that show edges, COUNT is
returned, within one of the edges that the two clocks' ratio gives over 2^K gate edges, and the counter is free again. -/
def Obligations.ClockCommands : Prop :=
  ((∀ (r : Req) (s : State), Ready s → High r 2 → (∀ f ∈ s.funcs, f.state = .off ∨ f.state = .stopped) →
    fld (r.w 2) 20 12 = 0 → fld (r.w 3) 6 26 = 0 →
    1000 ≤ fld (r.w 2) 0 20 → fld (r.w 2) 0 20 ≤ 1000000 → 1 ≤ fld (r.w 3) 0 6 → fld (r.w 3) 0 6 ≤ 32 →
    fld (r.w 2) 0 20 % fld (r.w 3) 0 6 = 0 → 100 ≤ fld (r.w 2) 0 20 / fld (r.w 3) 0 6 →
    Does (.strokeConfig r) r s { s with clk := { s.clk with nextDivs := some (fld (r.w 2) 0 20, fld (r.w 3) 0 6) } } []) ∧
  (∀ (r : Req) (s : State), Ready s →
    (High r 2 → (∀ f ∈ s.funcs, f.state = .off ∨ f.state = .stopped) → r.w 2 &&& 0xFFFFFECC = 0 → fld (r.w 2) 0 2 ≠ 3 →
      fld (r.w 3) 13 19 = 0 → fld (r.w 3) 0 13 ≤ 5000 → (fld (r.w 2) 0 2 = 1 → boostSet s = false) →
      (fld (r.w 3) 0 13 ≠ 0 → s.clerk.ropeRole ≠ 1 ∧ s.clerk.ropeRole ≠ 2) →
      ∃ t, exec (.clockConfig r) s = .next t ∧ (ratiosDone t = true → Answered t r .ok 0 []) ∧
        (ratiosDone t = false → Waits t r .ratios) ∧ Served { s with clk := t.clk } t ∧
        t.clk = { s.clk with
          prefB := bit (r.w 2) 8, halfB := bit (r.w 2) 5, halfA := bit (r.w 2) 4, nocSel := fld (r.w 2) 0 2,
          sscPpm := fld (r.w 3) 0 13, measure := s.clk.measure.map fun m => { m with ratio := none },
          spreadSeen := s.clk.spreadSeen || (decide (fld (r.w 3) 0 13 ≠ 0) && decide (s.clk.refSrc = some .refclk)),
          domains := t.clk.domains } ∧
        ∀ d : Nat, t.clk.domains[d]? = (s.clk.domains[d]?).map fun x =>
          if d = 6 ∨ d = 7 ∨ d = 8 then { x with target := if x.switching then x.target else domBase t d, rawDiv := none }
          else x) ∧
    (High r 1 → fld (r.w 2) 21 11 = 0 → gateConflict s (r.w 2) = none →
      Does (.clockGate r) r s { s with clk := { s.clk with gate := r.w 2 } } [r.w 2]) ∧
    (∀ owner b : Nat, High r 1 → fld (r.w 2) 21 11 = 0 → gateConflict s (r.w 2) = some (owner, b) →
      ∃ t, exec (.clockGate r) s = .next t ∧ Answered t r .conflict owner [w32 (0x100 + b)] ∧ Served s t))) ∧
  ((∀ (r : Req) (s : State), Ready s → High r 1 → r.w 2 &&& 0xFFE0E0E0 = 0 → 8 ≤ fld (r.w 2) 16 5 → fld (r.w 2) 16 5 ≤ 24 →
    fld (r.w 2) 8 5 ≤ 21 → fld (r.w 2) 0 5 ≤ 21 → s.clk.measure = none → gateOn s 8 = true → claimOwner s 0x210 = none →
    let g := fld (r.w 2) 8 5
    let i := fld (r.w 2) 0 5
    let m : Measure := { mb := r.mb.val, k := fld (r.w 2) 16 5, gateIn := g, measIn := i, ratio := clockRatio s g i,
                         gateDead := inputDead s g, measDead := inputDead s i }
    ∃ t, exec (.clockMeasure r) s = .next t ∧ Waits t r .measure ∧ claimOwner t 0x210 = some 0x38 ∧
      t.clk = { s.clk with measure := some m }) ∧
  ∀ (count : Nat) (m : Measure) (s : State), s.clk.measure = some m → Busy s m.mb → gateOn s 8 = true →
    inputDead s m.gateIn = false → inputDead s m.measIn = false →
    ∃ t n, exec (.clockMeasureComplete count false false) s = .next t ∧ Completed s t m.mb .ok 0 [w32 n, 0] ∧
      (m.ratio = none → n = count) ∧
      (∀ x : Rat, m.ratio = some x → 0 ≤ x → x * (2 ^ m.k : Nat) - 1 ≤ (n : Rat) ∧ (n : Rat) ≤ x * (2 ^ m.k : Nat) + 1) ∧
      t.clk = { s.clk with measure := none } ∧ t.claims = s.claims.filter fun c => c.2 ≠ 0x38)

/-! ### Registers of BAR0 (R86 to R110) -/

/-- R90: a read of STROKE_LO latches STROKE_HI, and replaces an earlier latch; the next read of STROKE_HI returns the latched value and
releases the latch, and without a latch it returns the live value; a 64-bit read, STROKE_LO and then STROKE_HI, returns one count; a read of
fewer bytes returns those bytes (R87); both are RO. -/
def Obligations.StrokeReadsAreConsistent : Prop :=
  ∀ s : State, hostReaches s = true →
    exec (.strokeLoRead) s = .next { s with clerk := { s.clerk with
      readData := [BitVec.ofNat 32 s.clk.stroke.toNat],
      strokeLatch := some (BitVec.ofNat 32 (s.clk.stroke.toNat / 2 ^ 32)) } } ∧
    (∀ v, s.clerk.strokeLatch = some v →
      exec (.strokeHiRead) s = .next { s with clerk := { s.clerk with readData := [v], strokeLatch := none } }) ∧
    (s.clerk.strokeLatch = none →
      exec (.strokeHiRead) s = .next { s with clerk := { s.clerk with
        readData := [BitVec.ofNat 32 (s.clk.stroke.toNat / 2 ^ 32)], strokeLatch := none } }) ∧
    (∃ t u, exec (.strokeLoRead) s = .next t ∧ exec (.strokeHiRead) t = .next u ∧ t.clk = s.clk ∧
      u.clerk.readData = [BitVec.ofNat 32 (s.clk.stroke.toNat / 2 ^ 32)]) ∧
    (∀ (b : BitVec 4) (i : Fin 4), fld (bar0Read s 0x104 b) (8 * i.val) 8 =
      if b.getLsbD i.val then fld (BitVec.ofNat 32 s.clk.stroke.toNat) (8 * i.val) 8 else 0) ∧
    (∀ v : Word, exec (.registerWrite .bar0 0x104 v true) s = .next s ∧ exec (.registerWrite .bar0 0x108 v true) s = .next s)

/-- R87: a BAR0 write that does not cover a whole aligned word is dropped, and counted; R93: a write of TAG stores it; R110: clearing the mask of a vector sends its
pending message, once. -/
def Obligations.RegisterWritesAndUnmask : Prop :=
  ∀ (s : State), hostReaches s = true →
    (∀ (off : BitVec 32) (v : Word) (whole : Bool), (whole = false ∨ off.toNat % 4 ≠ 0) →
      exec (.registerWrite .bar0 off v whole) s = .next { s with diag := { s.diag with host := bump s.diag.host 0 1 } }) ∧
    (∀ (n : Fin 4) (v : Word), ∃ t, exec (.registerWrite .bar0 (BitVec.ofNat 32 (0x804 + 0x20 * n.val)) v true) s = .next t ∧
      t = { s with mbs := t.mbs } ∧ t.mbs[n.val]? = (s.mbs[n.val]?).map (fun m => { m with tag := v }) ∧
      ∀ k : Nat, k ≠ n.val → t.mbs[k]? = s.mbs[k]?) ∧
    (∀ v : Fin 32, ∃ t, exec (.msixUnmask (some v)) s = .next t ∧ t = { s with msix := t.msix } ∧
      t.msix.table = s.msix.table.set (4 * v.val + 3) 0 ∧
      (s.msix.enable = true → s.msix.funMask = false → s.msix.pba.getLsbD v.val = true → v.val < s.msix.sent.length →
        4 * v.val + 3 < s.msix.table.length →
        t.msix.sent = s.msix.sent.set v.val (s.msix.sent.getD v.val 0 + 1) ∧ t.msix.pba.getLsbD v.val = false))

/-! ### The pumps (R144 to R159) -/

/-- R155 to R159: PUMP_RING_SET sets a ring and its window, zeroes CONS there and in the control block, and with LOG2_ENTRIES 0 removes it;
PUMP_START claims the pump's gate bit and takes the ring to RUNNING with the PROD that it reads, and a PROD beyond the ring faults it; PUMP_STOP
of a STOPPED ring changes nothing, with nothing in progress or with ABORT it stops at once, CONS at the first cut descriptor, and otherwise it
waits for the descriptors that have started; PUMP_CLEAR of a fault whose condition is gone leads to STOPPED; PUMP_QUERY answers its words.
R65, as entry 158 reads it: on a pump whose clock is gated PUMP_RING_SET leaves the registers as they are, and PUMP_QUERY reads them as zeros. -/
def Obligations.PumpCommands : Prop :=
  ∀ (r : Req) (s : State), Ready s → Sound s →
    let p := fld (r.w 2) 0 3
    let v := pumpOf s p
    let free := s.claims.filter fun c => c.2 ≠ 0x40 + p
    let ring := wide (r.w 3) (r.w 4)
    let setTo : Pump := { v with
      state := .stopped, ring := ring, log2 := fld (r.w 2) 11 5, haltOnErr := bit (r.w 2) 10,
      allowFrom := bit (r.w 2) 9, allowTo := bit (r.w 2) 8, stopCause := if v.state = .off then 0 else v.stopCause,
      winBase := fld (r.w 5) 12 20 * 4096 + fld (r.w 6) 0 8 * 2 ^ 32, winPages := (r.w 7).toNat, cons := 0, next := 0 }
    let removed : Pump := { v with
      state := .off, ring := 0, log2 := 0, haltOnErr := false, allowFrom := false, allowTo := false, winBase := 0, winPages := 0,
      cons := 0, next := 0 }
    let stopped : Pump := { v with state := .stopped, stopCause := 0, inProg := [], next := v.cons, draining := false }
    (High r 6 → v.state = .off ∨ v.state = .stopped → pumpRingSetBad r = none →
      (gateOn s (12 + p) = false → Does (.pumpRingSet r) r s s []) ∧
      (gateOn s (12 + p) = true → fld (r.w 2) 11 5 ≠ 0 → ∃ t, exec (.pumpRingSet r) s = .next t ∧ Answered t r .ok 0 [] ∧
        Served { s with pumps := s.pumps.set p setTo } t ∧ ∀ j : Nat, j < 4 → cellRead t.mem.host (ring + 4 + j) = 0) ∧
      (gateOn s (12 + p) = true → fld (r.w 2) 11 5 = 0 →
        Does (.pumpRingSet r) r s { s with pumps := s.pumps.set p removed } [])) ∧
    (∀ prod : Word, High r 1 → v.state = .stopped → r.w 2 &&& 0xFFFFFFF8 = 0 → gateOn s (12 + p) = true → s.link.bme = true →
      claimOwner s (0x10C + p) = none →
      ((prod - v.cons).toNat ≤ 2 ^ v.log2 →
        let run : Pump := { v with state := .running, prod := prod, next := v.cons, inProg := [], draining := false }
        ∃ t, exec (.pumpStart r (.words [prod])) s = .next t ∧ Answered t r .ok 0 [] ∧
          Served { s with claims := claimInsert (0x10C + p) (0x40 + p) s.claims, pumps := s.pumps.set p run, link := t.link } t ∧
          t.link.bme = true ∧ t.link.up = true) ∧
      (2 ^ v.log2 < (prod - v.cons).toNat →
        ∃ t, exec (.pumpStart r (.words [prod])) s = .next t ∧ Answered t r .fault (0x40 + p) [] ∧
          (pumpOf t p).state = .faulted ∧ (pumpOf t p).faultCause = 5 ∧ (pumpOf t p).cons = v.cons)) ∧
    (High r 1 → r.w 2 &&& 0xFFFFFEF8 = 0 →
      (v.state = .stopped → Asks (.pumpStop r) r s []) ∧
      (v.state = .running → v.inProg = [] →
        Does (.pumpStop r) r s { s with claims := free, pumps := s.pumps.set p stopped } []) ∧
      (v.state = .running → bit (r.w 2) 8 = true →
        ∃ t, exec (.pumpStop r) s = .next t ∧ Answered t r .ok 0 [] ∧ t.claims = free ∧
          pumpOf t p = { stopped with bytes := (pumpOf t p).bytes } ∧ t.funcs = s.funcs) ∧
      (v.state = .running → bit (r.w 2) 8 = false → v.inProg ≠ [] →
        let go := startedIn v.inProg
        let drain : Pump := { v with draining := true, inProg := go, next := v.cons + BitVec.ofNat 32 go.length }
        Awaits (.pumpStop r) r s { s with pumps := s.pumps.set p drain } (.pumpStop p))) ∧
    (∀ check : TestResult, High r 1 → r.w 2 &&& 0xFFFFFFF8 = 0 → v.state = .faulted → pumpGone s v check = true →
      Does (.pumpClear r check) r s { s with claims := free, pumps := s.pumps.set p stopped } []) ∧
    (High r 1 → r.w 2 &&& 0xFFFFFFF8 = 0 → Asks (.pumpQuery r) r s (pumpWords v (!gateOn s (12 + p)) p))

/-- R144, R145, R148 to R151, R154, R157: a producer update is taken as read, and one that the ring cannot hold faults it with cause 5; a
fetched descriptor joins those in progress with the outcome of its checks; the oldest one completes, its bytes are counted, its data
stand in its window for every reader, and CONS advances. A drain that takes too long answers E_TIMEOUT and the ring runs on. -/
def Obligations.PumpDescriptors : Prop :=
  ∀ (p : Fin 8) (s : State), Sound s → (pumpOf s p.val).state = .running →
    (∀ prod : Word, s.link.up = true → wakeDue s p.val = true → (prod - (pumpOf s p.val).cons).toNat ≤ 2 ^ (pumpOf s p.val).log2 →
      ∃ t, exec (.pumpWake p (.words [prod])) s = .next t ∧
        t = { s with pumps := s.pumps.set p.val { pumpOf s p.val with prod := prod, prodRead := true },
                     link := { s.link with cache := t.link.cache } }) ∧
    (∀ prod : Word, s.link.up = true → wakeDue s p.val = true → 2 ^ (pumpOf s p.val).log2 < (prod - (pumpOf s p.val).cons).toNat →
      ∃ t, exec (.pumpWake p (.words [prod])) s = .next t ∧ (pumpOf t p.val).state = .faulted ∧ (pumpOf t p.val).faultCause = 5 ∧
        (pumpOf t p.val).cons = (pumpOf s p.val).cons) ∧
    (∀ d : HostRead, s.link.up = true → wakeDue s p.val = false → exec (.pumpWake p d) s = .next s) ∧
    (∀ ws : List Word, ws.length = 8 → (pumpOf s p.val).draining = false → (pumpOf s p.val).next ≠ (pumpOf s p.val).prod →
      (pumpOf s p.val).inProg.length < 4 → (pumpOf s p.val).inProg.any (·.lost) = false →
      ∃ t, exec (.pumpDescriptorFetch p (.words ws)) s = .next t ∧
        t = { s with pumps := t.pumps, diag := { s.diag with perf := t.diag.perf } } ∧
        pumpOf t p.val = { pumpOf s p.val with next := (pumpOf s p.val).next + 1, inProg := (pumpOf t p.val).inProg } ∧
        (pumpOf t p.val).inProg = (pumpOf s p.val).inProg ++
          [{ k := (pumpOf s p.val).next, words := ws, reject := dRejected (pumpOf s p.val) ws }]) ∧
    (∀ (d : PumpDesc) (data : List Word), (pumpOf s p.val).inProg = [d] → d.reject = none → d.clash = [] →
      (pumpOf s p.val).draining = false → dOp d.words = 1 →
      let a := (pumpOf s p.val).winBase + dWoff d.words
      ∃ t, exec (.pumpDescriptorComplete p data) s = .next t ∧
        (pumpOf t p.val).cons = (pumpOf s p.val).cons + 1 ∧ (pumpOf t p.val).inProg = [] ∧
        (pumpOf t p.val).bytes = (pumpOf s p.val).bytes + BitVec.ofNat 64 (dLen d.words) ∧
        (∀ x : Nat, cellRead t.mem.cells x = if a ≤ x ∧ x < a + dLen d.words
          then (fit (dLen d.words) 0 (bytesOf (fit (dLen d.words / 4) 0 data))).getD (x - a) 0 else cellRead s.mem.cells x) ∧
        ∀ (r : Seer) (x : Nat), a ≤ x → x < a + dLen d.words → cellRead (seeAs r t).mem.cells x = cellRead t.mem.cells x) ∧
    (∀ (d : PumpDesc) (rest : List PumpDesc) (cause : Fin 8) (moved addr : Nat) (link : Bool),
      (pumpOf s p.val).inProg = d :: rest → cause.val ≠ 0 → cause.val ≠ 4 →
      ∃ t, exec (.pumpTransferFault p cause moved addr link) s = .next t ∧ (pumpOf t p.val).state = .faulted ∧
        (pumpOf t p.val).faultCause = cause.val ∧ (pumpOf t p.val).cons = (pumpOf s p.val).cons) ∧
    (∀ n : Nat, (pumpOf s p.val).draining = true → waitingMb (fun x => decide (x = .pumpStop p.val)) s = some n →
      ∃ t, exec (.pumpStopTimeout p) s = .next t ∧ Completed s t n .timeout 0 [] ∧ (pumpOf t p.val).state = .running ∧
        (pumpOf t p.val).draining = false)

/-! ### Commands on the tiles (R230, R241 to R262) -/

/-- R241 to R247, R254, R185: a computing command that is the tile's present one, reads no damaged word and stays below the budget
has the effect of its own rule on the data that the tile sees, and the tile goes on; a later chunk of a SCAN does so once the states that the
earlier ones carry to it are there, and waits until then. -/
def Obligations.TileCommandsCompute : Prop :=
  ∀ (t : Fin 48) (e : Line) (wait : Nat) (s : State) (l : Inst) (g : TileSeg), tileCur s t.val = some (l, g, e) →
    cmdDamage (seeAs (.tile t.val) s) l t.val e = none → g.used + (cmdCycles s t.val e + wait) < g.budget →
    let v := seeAs (.tile t.val) s
    let n := cmdCycles s t.val e + wait
    (opcOf e = 0x01 → TileRuns (.load t e wait) s t.val l g n (rowsEff v l t.val e)) ∧
    (opcOf e = 0x02 → TileRuns (.store t e wait) s t.val l g n (rowsEff v l t.val e)) ∧
    (opcOf e = 0x03 → TileRuns (.gemm t e wait) s t.val l g n (gemmEff v l t.val e)) ∧
    (opcOf e = 0x04 → scanWaits s t.val = false → TileRuns (.scan t e wait) s t.val l g n (cmdEff v l g t.val e)) ∧
    (opcOf e = 0x04 → scanWaits s t.val = true → exec (.scan t e wait) s = .next s) ∧
    (opcOf e = 0x05 → TileRuns (.vec t e wait) s t.val l g n (vecEff v l t.val e)) ∧
    (opcOf e = 0x06 → TileRuns (.reduce t e wait) s t.val l g n (reduceEff v l t.val e)) ∧
    (opcOf e = 0x07 → TileRuns (.bracket t e wait) s t.val l g n (bracketEff v l t.val e)) ∧
    (opcOf e = 0x08 → TileRuns (.ledger t e wait) s t.val l g n (ledgerEff v l t.val e (tileOf s t.val).acc))

/-- R230, R210, R254: the segment that the order of R230 gives starts on an idle tile: at its first command, with its budget, no cycles
used, flags clear and accumulators zero. -/
def Obligations.SegmentStartLoadsTheTile : Prop :=
  ∀ (t : Fin 48) (id : BitVec 16) (seg : Fin 64) (s : State) (l : Inst), Sound s → instOf s id.toNat = some l →
    s.diag.panic = none → (tileOf s t.val).seg = none → nextOn s t.val = some (l.queue, l.id, seg.val) →
    ∃ u, exec (.segmentStart t id seg) s = .next u ∧ u = { s with tiles := u.tiles } ∧
      (∀ k : Nat, k ≠ t.val → u.tiles[k]? = s.tiles[k]?) ∧
      (tileOf u t.val).seg = some {
        listId := l.id, seg := seg.val, cmd := (l.segs.getD seg.val default).firstCmd,
        budget := budget (fEngineNow s (engineOf l.queue)) (l.segs.getD seg.val default), used := 0 } ∧
      (tileOf u t.val).waiting = none ∧ (tileOf u t.val).flags = 0 ∧ (tileOf u t.val).acc = List.replicate 64 0 ∧
      (tileOf u t.val).crc = 0

/-- R261, R262, R257, R266: on a general tile a SIGNAL that completes its arrivals sets its flag and the tile goes on; a SYNC waits for
its flag or its barrier, and SYNC_RELEASE ends the wait once the flag is set; HALT frees the tile. On a fixed tile each waits for
the Assayer's comparison.
R262: SYNC_RELEASE: a tile whose SYNC waits for a flag that is set goes on, its wait counted; while the flag is not set nothing
changes. -/
def Obligations.TilePoints : Prop :=
  (∀ (t : Fin 48) (e : Line) (s : State) (l : Inst) (g : TileSeg), tileCur s t.val = some (l, g, e) →
    (tileFixed t.val = false →
      (opcOf e = 0x0A → g.used + cmdCycles s t.val e < g.budget →
        ∃ u, exec (.signal t e) s = .next u ∧
          (tileOf u t.val).seg = some { g with cmd := g.cmd + 1, used := g.used + cmdCycles s t.val e } ∧
          (allArrived l g (arrive l.id g.seg g.cmd t.val s.lists.signals) = true →
            u.lists.flags = setBit s.lists.flags (fld (e.getD 0 0) 0 6) true) ∧
          (allArrived l g (arrive l.id g.seg g.cmd t.val s.lists.signals) = false → u.lists.flags = s.lists.flags)) ∧
      (opcOf e = 0x09 → g.used + cmdCycles s t.val e < g.budget →
        ∃ u, exec (.sync t e) s = .next u ∧ (tileOf u t.val).seg = some { g with used := g.used + cmdCycles s t.val e } ∧
          (tileOf u t.val).waiting =
            some (if fld (e.getD 0 0) 16 8 = 0 then .barrier else .flag (fld (e.getD 0 0) 0 6))) ∧
      (opcOf e = 0x0D → g.used + cmdCycles s t.val e ≤ g.budget →
        ∃ u, exec (.halt t e) s = .next u ∧ (tileOf u t.val).seg = none ∧ (tileOf u t.val).waiting = none)) ∧
    (tileFixed t.val = true → g.used + cmdCycles s t.val e < g.budget →
      (opcOf e = 0x0A → ∃ u, exec (.signal t e) s = .next u ∧ (tileOf u t.val).waiting = some .point ∧ u.lists = s.lists) ∧
      (opcOf e = 0x09 → ∃ u, exec (.sync t e) s = .next u ∧ (tileOf u t.val).waiting = some .point ∧ u.lists = s.lists) ∧
      (opcOf e = 0x0D → ∃ u, exec (.halt t e) s = .next u ∧ (tileOf u t.val).waiting = some .point ∧ u.lists = s.lists))) ∧
  (∀ (t : Fin 48) (wait f : Nat) (s : State) (l : Inst) (g : TileSeg), (tileOf s t.val).seg = some g →
    (tileOf s t.val).waiting = some (.flag f) → instOf s g.listId = some l →
    (s.lists.flags.getLsbD f = true → g.used + wait < g.budget →
      ∃ u, exec (.syncRelease t wait) s = .next u ∧ (tileOf u t.val).waiting = none ∧
        (tileOf u t.val).seg = some { g with cmd := g.cmd + 1, used := g.used + wait } ∧ u.lists = s.lists ∧
        u.mem.cells = s.mem.cells) ∧
    (s.lists.flags.getLsbD f = false → exec (.syncRelease t wait) s = .next s))

/-- R266, R267: PAIR_COMPARISON of a fixed pair that stands at one point within its budget with equal CRCs lets the point take effect on both members: after a
HALT both tiles are free. Differing CRCs in FIXED.Q0 latch veto 1 and put the queue in FAULTED with cause 0x0301. -/
def Obligations.PairComparisonDecides : Prop :=
  ∀ (p : Fin 2) (waits : Nat × Nat) (s : State) (l : Inst) (a b : TileSeg), Sound s → assayerSlow s = false →
    a.used + waits.1 < a.budget → b.used + waits.2 < b.budget →
    (tileOf s (pairTiles p.val).1).seg = some a → (tileOf s (pairTiles p.val).2).seg = some b →
    (tileOf s (pairTiles p.val).1).waiting = some .point → (tileOf s (pairTiles p.val).2).waiting = some .point →
    instOf s a.listId = some l →
    (a.listId = b.listId → a.seg = b.seg → a.cmd = b.cmd →
      (tileOf s (pairTiles p.val).1).crc = (tileOf s (pairTiles p.val).2).crc → opcOf (l.cmds.getD a.cmd []) = 0x0D →
      ∃ u, exec (.pairComparison p ⟨.halt, waits⟩) s = .next u ∧ (tileOf u (pairTiles p.val).1).seg = none ∧
        (tileOf u (pairTiles p.val).2).seg = none) ∧
    ((tileOf s (pairTiles p.val).1).crc ≠ (tileOf s (pairTiles p.val).2).crc → l.queue = fFIXED0 →
      fnState s fFIXED0 = .running →
      ∃ u, exec (.pairComparison p ⟨.halt, waits⟩) s = .next u ∧ fnState u fFIXED0 = .faulted ∧
        (fnRec u fFIXED0).faultCause = 0x0301 ∧ u.pair.vetoes.getLsbD 1 = true)

/-- R249, R187, R189, R254: ROPE_GET and ROPE_PUT start a remote access while ROPE runs, and the tile waits; the response lets it go on, its wait
counted against the budget (a ROPE_GET with the data written where its command says); a timeout aborts the run with ACCESS, and so does an access
while ROPE does not run.
R187, R189: a remote write of another member into the window of a member that allows it is stored, and waits for the boundary (but for the
host, where the window lies in its coherent memory, R139);
one outside the window, or that is not allowed, is refused and stores nothing. A read answers the lines as that member sees them and changes
no memory; its answer leaves on the rope of the request, or on the whole rope where one is cut (R188); a request whose lines fail their CRC is
counted and has no effect (R319). The rope of a standalone pair carries no requests and no responses (R15). -/
def Obligations.RemoteAccess : Prop :=
  (∀ (t : Fin 48) (e : Line) (s : State) (l : Inst) (g : TileSeg), tileFixed t.val = false →
    (tileCur s t.val = some (l, g, e) → cmdDamage (seeAs (.tile t.val) s) l t.val e = none →
      g.used + cmdCycles s t.val e < g.budget → fnRunning s fROPE = true →
      let acts := (g.acts.zip (cmdActivity (seeAs (.tile t.val) s) l t.val e)).map fun p => p.1 + p.2
      (opcOf e = 0x0C → ∃ u, exec (.ropeGet t e) s = .next u ∧ (tileOf u t.val).waiting = some (.remote e) ∧
        (tileOf u t.val).seg = some { g with used := g.used + cmdCycles s t.val e, acts := acts } ∧ u.mem = s.mem) ∧
      (opcOf e = 0x0B → ∃ u, exec (.ropePut t e) s = .next u ∧ (tileOf u t.val).waiting = some (.remote e) ∧
        (tileOf u t.val).seg = some { g with used := g.used + cmdCycles s t.val e, acts := acts } ∧ u.mem = s.mem)) ∧
    (tileCur s t.val = some (l, g, e) → cmdDamage (seeAs (.tile t.val) s) l t.val e = none →
      g.used + cmdCycles s t.val e < g.budget → fnRunning s fROPE = false → opcOf e = 0x0C → ∀ r : Run, l.run = some r → Sound s →
      ∃ u, exec (.ropeGet t e) s = .next u ∧ (tileOf u t.val).seg = none ∧
        ∀ x, instOf u g.listId = some x → x.run = none ∧ x.lastAbort = 4) ∧
    ((tileOf s t.val).seg = some g → (tileOf s t.val).waiting = some (.remote e) → instOf s g.listId = some l →
      (∀ (ws : List Word) (wait : Nat) (rope : RopeSide), s.clerk.ropeRole ≠ 1 → opcOf e = 0x0C → g.used + wait < g.budget →
        ∃ u, exec (.remoteResponse t ⟨.data ws, wait, rope, 0⟩) s = .next u ∧
          (tileOf u t.val).waiting = none ∧ (tileOf u t.val).seg = some { g with cmd := g.cmd + 1, used := g.used + wait } ∧
          u.mem = (opWrite l t.val (addrAt e 1) (bytesOf (fit (fld (e.getD 5 0) 0 23 / 4) 0 ws)) s).mem) ∧
      (∀ (wait : Nat) (rope : RopeSide), s.clerk.ropeRole ≠ 1 → opcOf e = 0x0B → g.used + wait < g.budget →
        ∃ u, exec (.remoteResponse t ⟨.acknowledged, wait, rope, 0⟩) s = .next u ∧ (tileOf u t.val).waiting = none ∧
          (tileOf u t.val).seg = some { g with cmd := g.cmd + 1, used := g.used + wait } ∧ u.mem = s.mem) ∧
      (∀ (why : RemoteLoss) (r : Run), l.run = some r → Sound s → ∃ u, exec (.remoteAccessTimeout t why) s = .next u ∧
        (tileOf u t.val).seg = none ∧ ∀ x, instOf u g.listId = some x → x.run = none ∧ x.lastAbort = 4))) ∧
  (∀ (a : RemoteAsk) (m : BitVec 11) (off : BitVec 40) (t : Fin 48) (b : RemoteAnswer) (s : State), s.clerk.ropeRole = 1 →
    exec (.remoteRequest m off a) s = .next s ∧ exec (.remoteResponse t b) s = .next s) ∧
  (∀ (m : BitVec 11) (off : BitVec 40) (ws : List Word) (n : Nat) (rope : RopeSide) (s : State), onRope s = true →
    s.clerk.ropeRole ≠ 1 →
    let back := replyRope s (ropeB? rope)
    (inWindow s off.toNat (4 * ws.length) = true → s.rope.cfg.remoteWr = true →
      let a := s.rope.cfg.winBase + off.toNat
      let seen := if coherent a (bytesOf ws).length then [.member m.toNat, .host] else [.member m.toNat]
      ∃ u, exec (.remoteRequest m off ⟨.write ws, rope, 0⟩) s = .next u ∧ u.mem = (pendWords seen a ws s).mem ∧
        u.rope = { s.rope with replied := some (back, m, .acknowledged) } ∧
        u = { s with mem := u.mem, rope := u.rope, diag := { s.diag with perf := u.diag.perf } }) ∧
    ((inWindow s off.toNat (4 * ws.length) = false ∨ s.rope.cfg.remoteWr = false) →
      ∃ u, exec (.remoteRequest m off ⟨.write ws, rope, 0⟩) s = .next u ∧ u.mem.cells = s.mem.cells ∧ u.mem.writes = s.mem.writes ∧
        u.rope = { s.rope with replied := some (back, m, .refused) }) ∧
    (inWindow s off.toNat n = true → damagedIn (seeAs (.member m.toNat) s) (s.rope.cfg.winBase + off.toNat) n = none →
      let ws := memWords (seeAs (.member m.toNat) s) (s.rope.cfg.winBase + off.toNat) (n / 4)
      ∃ u, exec (.remoteRequest m off ⟨.read n, rope, 0⟩) s = .next u ∧ u.mem = s.mem ∧
        u.rope = { s.rope with replied := some (back, m, .data ws) }) ∧
    (∃ u, exec (.remoteRequest m off ⟨.read n, rope, 0⟩) s = .next u ∧ u.mem.cells = s.mem.cells ∧ u.mem.writes = s.mem.writes) ∧
    (∀ (op : RemoteOp) (k : Nat), k ≠ 0 → exec (.remoteRequest m off ⟨op, rope, k⟩) s = .next (crcFail (portIn rope) k s)))

/-- R254, R193, R183: on a general tile, the end of the budget, a damaged word or a blocked access stops the segment: the run of its
list is aborted with cause BUDGET, MEMORY or ACCESS, and the tile is free. -/
def Obligations.AbortsEndTheRun : Prop :=
  ∀ (t : Fin 48) (s : State) (l : Inst) (g : TileSeg) (r : Run), Sound s → tileFixed t.val = false →
    (tileOf s t.val).seg = some g → tileLive s t.val = true → instOf s g.listId = some l → l.run = some r →
    (∃ u, exec (.budgetAbort t) s = .next u ∧ (tileOf u t.val).seg = none ∧
      ∀ x, instOf u g.listId = some x → x.run = none ∧ x.lastAbort = 1) ∧
    (∀ (a : BitVec 48) (path : Bool), ∃ u, exec (.memoryAbort t a path) s = .next u ∧ (tileOf u t.val).seg = none ∧
      ∀ x, instOf u g.listId = some x → x.run = none ∧ x.lastAbort = 3) ∧
    (∀ (a : BitVec 48) (path : Bool), ∃ u, exec (.accessAbort t a path) s = .next u ∧ (tileOf u t.val).seg = none ∧
      ∀ x, instOf u g.listId = some x → x.run = none ∧ x.lastAbort = 4)

/-! ### Command lists and packages (R275 to R278, R310 to R314) -/

/-- R275, R231 to R239: a list image that passes its checks in their order and for which there is capacity is installed under the next
LIST_ID, whether it comes from host memory or from the well. -/
def Obligations.ListSubmitInstalls : Prop :=
  ∀ (r : Req) (ws : List Word) (s : State), Ready s → High r 4 →
    let addr := wide (r.w 3) (r.w 4)
    let n := (r.w 5).toNat
    let img := if bit (r.w 2) 0 then memWords (seeAs .clerk s) addr (n / 4) else fit (n / 4) 0 ws
    let l := { instFrom (nextId s) 0 none img with from_ := s.clk.stroke + 1 }
    fld (r.w 2) 1 31 = 0 → addr % 64 = 0 →
    (bit (r.w 2) 0 = true → fld (r.w 4) 16 16 = 0 ∧ 192 ≤ n ∧ n ≤ 1048576 ∧ wellImageOk addr n = true ∧
      damagedIn (seeAs .clerk s) addr n = none) →
    (bit (r.w 2) 0 = false → n % 64 = 0 ∧ 64 ≤ n ∧ n ≤ 65536) →
    headerCheck n img = none → queueCheck s (headerOf img).fid = none → (policyFlag s 1 = true → listSigned s img = true) →
    bodyCheck s 0 [] img = none → (submitShort s l).any = false →
    ∃ t, exec (.listSubmit r (.words ws)) s = .next t ∧
      Answered t r .ok 0 [w32 l.id, if fnRunning s l.queue && !l.dormant then lo32 (firstRun s l) else 0] ∧
      t.lists.inst = s.lists.inst ++ [l] ∧ t.lists.lastId = l.id ∧ t.funcs = s.funcs ∧ t.tiles = s.tiles ∧
      t.mem.cells = s.mem.cells

/-- R276 to R278: LIST_REMOVE takes a list that is not in use out, or waits for the end of its run; LIST_QUERY answers a list's words and
clears its STICKY; SCHED_QUERY answers an engine's load. -/
def Obligations.ListCommands : Prop :=
  ∀ (r : Req) (s : State), Ready s → High r 1 →
    (∀ l : Inst, fld (r.w 2) 16 16 = 0 → instOf s (fld (r.w 2) 0 16) = some l →
      (∀ x ∈ s.lists.inst, x.fallback ≠ l.id) → ¬ (fnRunning s l.queue = true ∧ queueNo l.queue = 0) →
      (¬ (l.run.isSome = true ∧ fnRunning s l.queue = true) →
        ∃ t, exec (.listRemove r) s = .next t ∧ Answered t r .ok 0 [] ∧ instOf t l.id = none) ∧
      (l.run.isSome = true ∧ fnRunning s l.queue = true →
        Awaits (.listRemove r) r s (instSet l.id (fun x => { x with removing := true }) s) (.listRemove l.id))) ∧
    (∀ l : Inst, fld (r.w 2) 16 16 = 0 → instOf s (fld (r.w 2) 0 16) = some l →
      Does (.listQuery r) r s (instSet l.id (fun x => { x with sticky := 0 }) s) (listWords l)) ∧
    (fld (r.w 2) 3 29 = 0 → fld (r.w 2) 0 3 ≤ 4 → Asks (.schedQuery r) r s (schedWords s (fld (r.w 2) 0 3)))

/-- R310 to R312: a built-in package that passes its checks is loaded; MODEL_UNLOAD of a package whose lists do not run removes it;
MODEL_QUERY answers its words. -/
def Obligations.PackageCommands : Prop :=
  ∀ (r : Req) (d : HostRead) (s : State), Ready s →
    (High r 4 → modelLoadBad r = none → fld (r.w 2) 0 2 = 2 →
      let p := builtinPkg (fld (r.w 2) 8 8) (fld (r.w 2) 16 2)
      pkgQueues s p.lists = none → (policyFlag s 0 = true → pkgPolicySigned s p.bytes = true) → pkgPresent s p = none →
      claimConflict s fFIXED0 (p.lists.flatMap fun l => l.setsFlags.map (0x400 + ·)) = none → (pkgShort s p []).any = false →
      ∃ t, exec (.modelLoad r d) s = .next t ∧
        Answered t r .ok 0 [w32 p.modelId, packW [(p.lists.length, 0), (if p.role = 1 then sfcOf p.lists else 0, 8)]] ∧
        (pkgOf t p.modelId).isSome = true ∧ t.funcs = s.funcs) ∧
    (∀ p : Pkg, High r 1 → modelUnloadBad s r = none → pkgOf s (fld (r.w 2) 0 16) = some p →
      (∀ l ∈ p.listIds.filterMap (instOf s), l.run = none ∨ fnRunning s l.queue = false) →
      ∃ t, exec (.modelUnload r) s = .next t ∧ Answered t r .ok 0 [] ∧ pkgOf t p.modelId = none) ∧
    (∀ p : Pkg, High r 1 → fld (r.w 2) 16 16 = 0 → pkgOf s (fld (r.w 2) 0 16) = some p →
      Asks (.modelQuery r) r s (modelWords s p))

/-- R313, R314: BUCKET_SET with LOG2_LEN zero removes a bucket that no package reads, and sets a new one where there is room, in memory
that the model leaves free to choose (entry 33); BUCKET_QUERY answers its base and header, and E_FAULT where a word of that does not read
(R193). -/
def Obligations.BucketCommands : Prop :=
  ∀ (r : Req) (s : State), Ready s → High r 1 →
    (fld (r.w 2) 8 5 = 0 → bucketSetBad s r = none →
      ∃ t ws, exec (.bucketSet r) s = .next t ∧ Answered t r .ok 0 ws ∧ bucketOf t (fld (r.w 2) 0 8) = none ∧
        ∀ st : Nat, st ≠ fld (r.w 2) 0 8 → bucketOf t st = bucketOf s st) ∧
    (∀ a : Nat, fld (r.w 2) 8 5 ≠ 0 → bucketSetBad s r = none →
      placeIn 4096 (bucketBytes (fld (r.w 2) 0 8) (fld (r.w 2) 8 5)) (some s.free) (freeAligned 4096 poolLo poolHi (poolUsed s)) = some a →
      s.link.hostLoss = false →
      ∃ t b, exec (.bucketSet r) s = .next t ∧ Answered t r .ok 0 [lo32 a, hi32 a] ∧
        bucketOf t (fld (r.w 2) 0 8) = some b ∧ b.base = a ∧ b.log2len = fld (r.w 2) 8 5 ∧ b.decim = fld (r.w 2) 16 12 ∧
        b.written = 0 ∧ t.mem.cells = s.mem.cells) ∧
    (fld (r.w 2) 8 24 = 0 → isStream (fld (r.w 2) 0 8) = true →
      (∀ b : Bucket, bucketOf s (fld (r.w 2) 0 8) = some b →
        (damagedIn (seeAs .clerk s) b.base 64 = none →
          Asks (.bucketQuery r) r s ([lo32 b.base, hi32 b.base] ++ memWords (seeAs .clerk s) b.base 16)) ∧
        ((damagedIn (seeAs .clerk s) b.base 64).isSome = true →
          ∃ t, exec (.bucketQuery r) s = .next t ∧ Answered t r .fault 0 [] ∧ t.mem.cells = s.mem.cells)) ∧
      (bucketOf s (fld (r.w 2) 0 8) = none → Asks (.bucketQuery r) r s (List.replicate 18 0)))

/-! ### The smoothing pipeline and the rope (chapters 9 and 10) -/

/-- R315 to R317, R493, R18, R517: a target and a cap are held until the stroke that APPLY_AT names, which the response gives: the next boundary
where APPLY_AT is not ahead of the count; a target of shelf scope needs a standalone module, one of rope scope the head of a rope, and one of
scope 2 either; a standalone standby passes its target on. The pipeline's configuration is held while both queues are STOPPED;
PIPE_QUERY answers the current copy of the record area, or zeros before the first commit, and E_FAULT where a word of it does not read (R193). -/
def Obligations.PipelineCommands : Prop :=
  ∀ (r : Req) (s : State), Ready s →
    let stroke (w : Word) : Nat :=
      let d := (w - BitVec.ofNat 32 s.clk.stroke.toNat).toNat
      if d = 0 ∨ 2 ^ 31 ≤ d then s.clk.stroke.toNat + 1 else s.clk.stroke.toNat + d
    let scope := fld (r.w 2) 0 2
    (High r 4 → fnState s fFIXED0 = .running → fld (r.w 2) 2 30 = 0 → scope ≠ 3 → 0 ≤ (r.w 3).toInt →
      (scope = 0 → (r.w 3).toInt ≤ 16000000) → (scope = 2 → (r.w 3).toInt = 0) →
      (scope = 0 → s.clerk.ropeRole = 1) → (scope = 1 → headsRope s = true) →
      (scope = 2 → s.clerk.ropeRole = 1 ∨ headsRope s = true) → (standaloneStandby s = true → s.pair.silentRope = false) →
      let p : TargetPend := { scope := scope, value := (r.w 3).toInt, ramp := (r.w 4).toNat,
                              at_ := BitVec.ofNat 64 (stroke (r.w 5)) }
      let q := if standaloneStandby s then { s.pair with mirrorOut := [forwarded s p] } else s.pair
      Does (.targetSet r) r s { s with pipe := { s.pipe with pend := some p }, pair := q } [BitVec.ofNat 32 (stroke (r.w 5))]) ∧
    (High r 4 → fnState s fFIXED0 ≠ .running → fnState s fFIXED0 ≠ .faulted → Refuses (.targetSet r) r s .state 0) ∧
    (High r 2 → (r.w 2).toNat ≤ 16000000 ∨ r.w 2 = 0xFFFFFFFF →
      let c := some (if r.w 2 = 0xFFFFFFFF then none else some (r.w 2).toNat, BitVec.ofNat 64 (stroke (r.w 3)))
      Does (.capSet r) r s { s with pipe := { s.pipe with capPend := c } } [BitVec.ofNat 32 (stroke (r.w 3))]) ∧
    (High r 2 → 16000000 < (r.w 2).toNat → r.w 2 ≠ 0xFFFFFFFF → Refuses (.capSet r) r s .range 2) ∧
    (High r 16 → fnState s fFIXED0 = .stopped → fnState s 0x11 = .stopped → fld (r.w 2) 25 7 = 0 →
      1 ≤ fld (r.w 2) 16 9 → fld (r.w 2) 16 9 ≤ 256 → fld (r.w 2) 0 16 ≠ 0 → fld (r.w 3) 5 27 = 0 → 10 ≤ fld (r.w 3) 0 5 →
      fld (r.w 3) 0 5 ≤ 24 → r.w 5 = 0 →
      let c : PipeCfg := { fcStep := fld (r.w 2) 16 9, primeSlew := fld (r.w 2) 0 16, meanLog2 := fld (r.w 3) 0 5,
                           marginW := r.w 4, lead := (List.range 24).map fun n => fld (r.w (6 + n / 2)) (16 * (n % 2)) 16 }
      Does (.pipeConfig r) r s { s with pipe := { s.pipe with cfg := c } } []) ∧
    (High r 0 → areaDamage (seeAs .clerk s) aRecord 64 = none →
      Asks (.pipeQuery r) r s (if validOf s aRecord then copyWords s aRecord 64 else List.replicate 16 0)) ∧
    (High r 0 → (areaDamage (seeAs .clerk s) aRecord 64).isSome = true →
      ∃ t, exec (.pipeQuery r) s = .next t ∧ Answered t r .fault 0 [] ∧ t.mem.cells = s.mem.cells)

/-- R346 to R351: ROLE_SET and ROPE_CONFIG set the role and the configuration while ROPE does not run; ROPE_QUERY, ROPE_PORT_QUERY and,
on a head with a landed frame (also one that its area does not show yet, entry 163), ROPE_READ answer; ROPE_CMIS answers what the cable answers, and E_TIMEOUT where it does not. -/
def Obligations.RopeCommands : Prop :=
  ∀ (r : Req) (s : State), Ready s →
    (High r 1 → fld (r.w 2) 2 30 = 0 → fnState s fROPE = .off ∨ fnState s fROPE = .stopped →
      (s.clk.sscPpm ≠ 0 → fld (r.w 2) 0 2 ≠ 1 ∧ fld (r.w 2) 0 2 ≠ 2) →
      Does (.roleSet r) r s { s with clerk := { s.clerk with ropeRole := fld (r.w 2) 0 2 } } []) ∧
    (High r 6 → fnState s fROPE = .stopped → ropeConfigBad r = none →
      let c : RopeCfg := { ropeId := r.w 2, members := fld (r.w 3) 0 12, addr := fld (r.w 3) 16 12, addrSet := true,
                           winBase := fld (r.w 4) 12 20 * 4096 + fld (r.w 5) 0 8 * 2 ^ 32, winPages := (r.w 6).toNat,
                           remoteWr := bit (r.w 4) 0, lossHold := (r.w 7).toNat }
      Does (.ropeConfig r) r s { s with rope := { s.rope with cfg := c } } []) ∧
    (High r 0 → Asks (.ropeQuery r) r s (ropeWords s)) ∧
    (High r 1 → fld (r.w 2) 2 30 = 0 → Asks (.ropePortQuery r) r s (portWords s (fld (r.w 2) 0 2))) ∧
    (∀ (reply : CmisReply) (bs : List Byte), High r 2 → ropeCmisBad s r = none →
      cmisReply s (fld (r.w 3) 0 8) reply = .bytes bs →
      (bit (r.w 2) 31 = false → Asks (.ropeCmis r reply) r s (wordsOf (fit (fld (r.w 3) 0 8) 0 bs))) ∧
      (bit (r.w 2) 31 = true → Does (.ropeCmis r reply) r s (cmisWrite (fld (r.w 2) 24 2) (fld (r.w 2) 16 8) (fld (r.w 2) 8 8)
        (fld (r.w 2) 0 8) (fld (r.w 3) 8 8) s) [])) ∧
    (∀ reply : CmisReply, High r 2 → ropeCmisBad s r = none → cmisReply s (fld (r.w 3) 0 8) reply = .noAnswer →
      Refuses (.ropeCmis r reply) r s .timeout 0) ∧
    (∀ x : Stroke × List Word, High r 1 → 1 ≤ fld (r.w 2) 16 16 → fld (r.w 2) 16 16 ≤ 63 → headsRope s = true →
      fld (r.w 2) 0 16 + fld (r.w 2) 16 16 ≤ 19 + s.rope.cfg.members → s.rope.seen = false → s.rope.arriving.getLast? = some x →
      Asks (.ropeRead r) r s ([x.2.getD 1 0, x.2.getD 2 0] ++ fit (16 * fld (r.w 2) 16 16) 0 (x.2.drop (16 * fld (r.w 2) 0 16)))) ∧
    (High r 1 → 1 ≤ fld (r.w 2) 16 16 → fld (r.w 2) 16 16 ≤ 63 → headsRope s = true →
      fld (r.w 2) 0 16 + fld (r.w 2) 16 16 ≤ 19 + s.rope.cfg.members → s.rope.seen = true →
      (let v := seeAs .clerk s
       let base := aPublished + 0x40000
       damagedIn v (currentCopy v base (64 * s.rope.landedLines)) (64 * s.rope.landedLines) = none) →
      ∃ t ws, exec (.ropeRead r) s = .next t ∧ Answered t r .ok 0 ws ∧ ws.length = 2 + 16 * fld (r.w 2) 16 16 ∧ Served s t)

/-- R321, R323, R326, R343: a link that trains comes UP with four lanes and one that is UP fails; a link held down trains again, and is down
where its rope's bypass has closed meanwhile; a cable's poll gives its temperature, and its first one the application; START's wait goes on and ends;
and a worker without a target for its hold falls back to the
autonomous target. Where the module does not stand at that step nothing changes. -/
def Obligations.RopeLinkEvents : Prop :=
  ∀ (port : Fin 4) (ps : Nat) (s : State), s.rope.ports.length = 4 →
    (s.rope.starting ≠ .openA →
      ((portOf s port.val).link = .training →
        ∃ t, exec (.linkUp ⟨port, ps⟩) s = .next t ∧ (portOf t port.val).link = .up ∧ (portOf t port.val).lanes = 0xF ∧
          (portOf t port.val).delay = ps ∧ t.funcs = s.funcs)) ∧
    ((portOf s port.val).link ≠ .training → exec (.linkUp ⟨port, ps⟩) s = .next s) ∧
    ((portOf s port.val).link = .up →
      ∃ t, exec (.linkFailed port) s = .next t ∧
        ((portOf t port.val).link = .training ∨ (portOf t port.val).link = .heldDown) ∧ (portOf t port.val).lanes = 0 ∧
        (portOf t port.val).fails = satAdd 65535 (portOf s port.val).fails 1) ∧
    ((portOf s port.val).link ≠ .up → exec (.linkFailed port) s = .next s) ∧
    ((portOf s port.val).link = .heldDown →
      let on := if portRope port.val then s.rope.openB else s.rope.openA
      exec (.heldDownExpired port) s = .next (portMod port.val (fun y => { y with link := if on then .training else .down }) s)) ∧
    (∀ c : CmisPoll, fnState s fROPE = .running → cmisRuns s = true →
      (c.answered = true → c.lossOfLock = false → ((portOf s port.val).asked = false → c.app = true) →
        exec (.cmisPoll port c) s = .next (portMod port.val
          (fun y => { y with asked := true, cmisOk := !y.asked || y.cmisOk, temp := c.temp }) s)) ∧
      (c.answered = false ∨ c.app = false → (portOf s port.val).asked = false → c.lossOfLock = false →
        ∃ t, exec (.cmisPoll port c) s = .next t ∧ (portOf t port.val).asked = true ∧ (portOf t port.val).cmisOk = false ∧
          t.funcs = s.funcs)) ∧
    (s.rope.starting = .openA → ∃ t, exec (.ropeStartWaitExpired false) s = .next t ∧ t.rope.openB = true ∧
      t.rope.starting = .waitFrame ∧ t.funcs = s.funcs) ∧
    (s.rope.starting = .waitFrame → fnState s fROPE = .stopped → Sound s →
      ∃ t, exec (.ropeStartWaitExpired true) s = .next t ∧ t.rope.starting = .no ∧ fnState t fROPE = .running) ∧
    (fnState s fROPE = .running → s.clerk.ropeRole = 3 → s.rope.lossExpired = false →
      s.rope.lastSlot.toNat + s.rope.cfg.lossHold ≤ s.clk.stroke.toNat →
      ∃ t, exec .ropeLossHoldExpired s = .next t ∧ t.rope.lossExpired = true ∧ t.pipe.target.targeted = false ∧
        t.pipe.target.ramp = none)

/-- R333, R334: a member takes the header of a frame of its own rope that fits its configuration, and remembers its stroke and its live
members; a head's copy that comes back on a rope is out no more, and its rope is whole or wrapped; one that does not come back
leaves its rope BROKEN. -/
def Obligations.RopeFrames : Prop :=
  ∀ (side : RopeSide) (s : State),
    (∀ (l : RopeLine) (rest : List RopeLine) (delay fwd : Nat), onRope s = true → timingHead s = false →
      s.rope.starting = .no → l.crcOk = true → fld (l.words.getD 0 0) 24 8 = 0xA5 → hRope l.words = s.rope.cfg.ropeId →
      hDiv l.words = s.clk.strokeDiv → hMembers l.words = s.rope.cfg.members → slotTaken s (l :: rest) = false →
      ∃ t, exec (.strokeFrameReceived side (l :: rest) delay fwd) s = .next t ∧ t.rope.header = l.words ∧
        t.rope.live = hLive l.words ∧ t.rope.lastFrame = BitVec.ofNat 64 (hStroke l.words) ∧ t.rope.frameNow = true ∧
        t.funcs = s.funcs) ∧
    (∀ (l : RopeLine) (rest : List RopeLine) (f : Flight), launches s = true → s.rope.starting = .no → l.crcOk = true →
      f ∈ s.rope.flight → f.stroke = BitVec.ofNat 64 (hStroke l.words) → hStroke l.words < 2 ^ 64 →
      (if hB l.words then f.outB else f.outA) = true →
      hRope l.words = s.rope.cfg.ropeId → hAddr l.words = s.rope.cfg.addr →
      ∃ t, exec (.frameCopyReturn side (l :: rest)) s = .next t ∧
        (if hB l.words then t.rope.stateB else t.rope.stateA) = (if hWrapped l.words then .wrapped else .whole) ∧
        ∀ x ∈ t.rope.flight, x.stroke = f.stroke → (if hB l.words then x.outB else x.outA) = false) ∧
    (∀ f : Flight, s.rope.flight.find? (fun x => if ropeB? side then x.outB else x.outA) = some f →
      ∃ t, exec (.frameCopyTimeout side) s = .next t ∧ (if ropeB? side then t.rope.stateB else t.rope.stateA) = .broken ∧
        ∀ x ∈ t.rope.flight, x.stroke = f.stroke → (if ropeB? side then x.outB else x.outA) = false)

/-! ### The storage converter (chapter 11) -/

/-- R387 to R392: STAGE_CONFIG while STAGE is STOPPED, LOOP_COEF while it is STOPPED or its loop is open, STAGE_MODE while it is
RUNNING: each stores its operands; LOOP_OPEN of a closed loop starts the ramp and waits, and of a loop that carries nothing completes;
LOOP_CLOSE starts a soft start with the stored coefficients; STAGE_QUERY answers its words.
R500, R389 to R391: commands of the loop outside their conditions are refused and change nothing: LOOP_CLOSE without authority, or where STAGE
does not run with its loop open, LOOP_OPEN in voltage mode, STAGE_CONFIG while STAGE runs. -/
def Obligations.StageCommands : Prop :=
  (∀ (r : Req) (s : State), Ready s →
    (Low r 31 → fnState s fSTAGE = .stopped → stageConfigBad r = none →
      Does (.stageConfig r) r s { s with stage := { s.stage with cfg := stageCfgOf r } } []) ∧
    (Low r 5 → fnState s fSTAGE = .stopped ∨ fnState s fSTAGE = .running ∧ s.stage.loop = .open_ →
      fIn (r.w 2) 0 1 = true → fIn (r.w 3) 0 1 = true → fIn (r.w 4) 0 1000 = true → fIn (r.w 5) 0 1000 = true →
      fIn (r.w 6) 0 1000 = true →
      let c : Coefs := { kpI := r.w 2, kiI := r.w 3, kiS := r.w 4, kpV := r.w 5, kiV := r.w 6 }
      Does (.loopCoef r) r s { s with stage := { s.stage with coefs := c } } []) ∧
    (Low r 0 → fnState s fSTAGE = .running → s.stage.modeV = false →
      (s.stage.loop = .closed → Awaits (.loopOpen r) r s (loopOpening s) .loopOpen ∧ (loopOpening s).stage.loop = .opening) ∧
      (s.stage.loop = .softStart ∨ s.stage.loop = .retryWait →
        Does (.loopOpen r) r s { s with stage := { stIdle s.stage with loop := .open_ } } []) ∧
      (s.stage.loop = .open_ → Asks (.loopOpen r) r s []) ∧
      (s.stage.loop = .opening → Awaits (.loopOpen r) r s s .loopOpen)) ∧
    (Low r 0 → fnState s fSTAGE = .running → s.stage.loop = .open_ → authority s = true → coefsOk s.stage.coefs = true →
      Does (.loopClose r) r s (softStart s) [] ∧ (softStart s).stage.loop = .softStart ∧
        (softStart s).stage.liveCoefs = s.stage.coefs) ∧
    (Low r 2 → stageModeBad s r = none →
      let c := { s.stage.cfg with vHold := if r.w 3 = 0 then s.stage.cfg.vHold else r.w 3 }
      Does (.stageMode r) r s { s with stage := { s.stage with modeReq := some (fld (r.w 2) 0 2), cfg := c } } []) ∧
    (Low r 0 → Asks (.stageQuery r) r s (stageWords s))) ∧
  (∀ (r : Req) (s : State), Ready s →
    (Low r 0 → fnState s fSTAGE = .running → s.stage.loop = .open_ → authority s = false →
      Refuses (.loopClose r) r s .notAuthority 0) ∧
    (Low r 0 → fnState s fSTAGE ≠ .running ∨ s.stage.loop ≠ .open_ → Refuses (.loopClose r) r s .state 1) ∧
    (Low r 0 → fnState s fSTAGE = .running → s.stage.modeV = true → Refuses (.loopOpen r) r s .state 2) ∧
    (Low r 31 → fnState s fSTAGE = .running → Refuses (.stageConfig r) r s .state 0) ∧
    (Low r 31 → fnState s fSTAGE = .faulted → Refuses (.stageConfig r) r s .fault 1))

/-- R65, R386, R393, R394: TRACE_ARM of a free capture takes its buffer; a trigger is taken after PRE points; the copy releases the buffer and
gives the capture its next number; TRACE_DISARM ends a capture; TRACE_QUERY answers its state and its points. While its gate bit is 0 a
trace unit neither triggers nor copies nor takes a TRACE_DISARM, and reads zero. -/
def Obligations.TraceCommands : Prop :=
  ∀ (r : Req) (s : State), Ready s → s.traces.length = 2 →
    (Low r 3 → traceArmBad s r = none →
      ∃ t, exec (.traceArm r) s = .next t ∧ Answered t r .ok 0 [] ∧ claimOwner t (0x200 + fld (r.w 2) 28 1) = some (0x30 + fld (r.w 2) 28 1) ∧
        (traceOf t (fld (r.w 2) 28 1)).st = .armed ∧ (traceOf t (fld (r.w 2) 28 1)).count = 0 ∧
        (traceOf t (fld (r.w 2) 28 1)).pre = fld (r.w 3) 0 15 ∧ (traceOf t (fld (r.w 2) 28 1)).decim = fld (r.w 2) 8 8 ∧
        t.stage = s.stage ∧ t.mem.cells = s.mem.cells) ∧
    (Low r 1 → fld (r.w 2) 1 31 = 0 →
      ∃ t, exec (.traceDisarm r) s = .next t ∧ Answered t r .ok 0 [] ∧ Served { s with traces := t.traces, claims := t.claims } t ∧
        (traceOn s (fld (r.w 2) 0 1) = true → (traceOf t (fld (r.w 2) 0 1)).busy = false) ∧
        (traceOn s (fld (r.w 2) 0 1) = false → t.traces = s.traces ∧ t.claims = s.claims) ∧
        t.mem.cells = s.mem.cells ∧ t.mem.writes = s.mem.writes) ∧
    (Low r 1 → fld (r.w 2) 1 31 = 0 →
      Asks (.traceQuery r) r s (if traceOn s (fld (r.w 2) 0 1) then
        [w32 (traceOf s (fld (r.w 2) 0 1)).st.num, w32 (traceOf s (fld (r.w 2) 0 1)).count] else [0, 0])) ∧
    (∀ die : Fin 2, traceOn s die.val = false → exec (.traceTrigger die) s = .next s ∧ exec (.traceCopied die) s = .next s) ∧
    (∀ die : Fin 2, traceOn s die.val = true → traceFires s (traceOf s die.val) = true → (traceOf s die.val).st = .armed →
      (traceOf s die.val).pre ≤ (traceOf s die.val).count →
      ∃ t, exec (.traceTrigger die) s = .next t ∧ t = { s with traces := t.traces } ∧ (traceOf t die.val).st = .triggered ∧
        (traceOf t die.val).left = 16384 - (traceOf s die.val).pre ∧ (traceOf t die.val).trigStroke = s.clk.stroke) ∧
    (∀ die : Fin 2, traceOn s die.val = true → (traceOf s die.val).st = .triggered → (traceOf s die.val).left = 0 →
      ∃ t, exec (.traceCopied die) s = .next t ∧ (traceOf t die.val).st = .copied ∧
        (traceOf t die.val).seq = (traceOf s die.val).seq + 1 ∧ t.claims = s.claims.filter (fun c => c.2 ≠ 0x30 + die.val))

/-- R358, R359: a sample boundary of the loop clock counts a sample and its conversions; with idle engines the duty that was computed
loads and the next one is zero. After the stroke's last sample, or without a loop clock, nothing happens. -/
def Obligations.SampleBoundary : Prop :=
  ∀ (codes : LoopCodes) (check : LoopCheck) (tripped : List Bool) (s : State),
    (loopClock s = true → s.stage.sample < s.clk.loopDiv → s.stage.loop = .idle → s.stage.ovLatch = false →
      ∃ t, exec (.sampleBoundary codes check tripped) s = .next t ∧ t.stage.sample = s.stage.sample + 1 ∧
        t.stage.sums.n = s.stage.sums.n + 1 ∧ t.stage.duty = s.stage.dutyNext ∧ t.stage.dutyNext = 0 ∧
        t.stage.vbus = (sampleOf s codes tripped).vbus ∧ t.stage.vstack = (sampleOf s codes tripped).vst ∧
        t.funcs = s.funcs ∧ t.mem.cells = s.mem.cells ∧ t.mem.writes = s.mem.writes) ∧
    (loopClock s = false ∨ s.clk.loopDiv ≤ s.stage.sample → exec (.sampleBoundary codes check tripped) s = .next s)

/-- R363, R366, R368, R369, R389: the timed steps of the converter, and nothing outside their conditions (without a loop clock soft start
stands still, R50): the ramp of soft start ends with
ORING_ON, the loop then closes in current mode, a retry begins a further attempt, voltage mode ends after its time, a starved reference
falls to zero with record 0x0605, and an opened loop parks. -/
def Obligations.StageTimedSteps : Prop :=
  ∀ s : State,
    (loopClock s = true → s.stage.loop = .softStart → s.stage.ssOring = false →
      exec .softStartRampEnd s = .next { s with stage := { s.stage with ssOring := true, oring := true } }) ∧
    (loopClock s = true → s.stage.loop = .softStart → s.stage.ssOring = true →
      let x : Stage := { s.stage with loop := .closed, modeV := false, x := 0, z := 0, iApp := 0, ssOring := false, fastRun := 0, lowBus := 0 }
      exec .softStartLoopClose s = .next { s with stage := x }) ∧
    (loopClock s = false ∨ s.stage.loop ≠ .softStart → exec .softStartRampEnd s = .next s ∧ exec .softStartLoopClose s = .next s) ∧
    (loopClock s = true → s.stage.loop = .retryWait →
      ∃ t, exec .softStartRetry s = .next t ∧ t = { s with stage := t.stage } ∧ t.stage.loop = .softStart ∧
        t.stage.attempt = s.stage.attempt + 1 ∧ t.stage.parked = false ∧ t.stage.oring = false ∧
        t.stage.duty = dLo s ∧ t.stage.dutyNext = dLo s) ∧
    (loopClock s = false ∨ s.stage.loop ≠ .retryWait → exec .softStartRetry s = .next s) ∧
    (s.stage.modeV = true → s.stage.modeSel = 0 → gridIn s = false →
      s.stage.cfg.modeExitMs * 100000 ≤ s.stage.zeroRun * sampleTicks s →
      ∃ t, exec .voltageModeExit s = .next t ∧ t.stage = { s.stage with modeV := false, iApp := s.stage.iStkEst, zeroRun := 0, lowBus := 0 }) ∧
    (s.stage.loop = .closed → s.stage.modeV = false → s.stage.refStarved = false → refAt s (nextSample s) = .none →
      ∃ t, exec .refStarved s = .next t ∧ t.stage = { s.stage with refStarved := true, iRefEntry := 0 }) ∧
    (s.stage.loop = .opening → (f32 s.stage.iApp).isZero = true → s.stage.stopAfterOpen = false →
      ∃ t, exec .loopOpenParked s = .next t ∧ t.stage = { stIdle s.stage with loop := .open_ } ∧ t.stage.parked = true ∧
        t.stage.oring = false)

/-- R372, R374 to R376, R384: the fast limit marks the phase of the sample, and cuts the pulse it came in (`pwmEdges`); an over-voltage, an under-voltage past its delay and a fault
input with action 3 put a RUNNING STAGE in FAULTED with their causes, its phases parked (after an over-voltage the latch holds instead); a
fault input's level is kept, and recorded where STAGE is RUNNING or FAULTED and the input has an action. -/
def Obligations.StageProtection : Prop :=
  ∀ s : State, Sound s →
    (∀ trip : FastTrip, s.stage.parked = false → s.stage.cfg.phaseEn.getLsbD trip.phase.val = true →
      exec (.fastLimitTrip trip) s = .next { s with stage := { s.stage with
        trips := setBit s.stage.trips trip.phase.val true, cuts := s.stage.cuts ++ [trip] } }) ∧
    (fnState s fSTAGE = .running →
      ∃ t, exec .ovLatch s = .next t ∧ fnState t fSTAGE = .faulted ∧ (fnRec t fSTAGE).faultCause = 0x0603 ∧
        t.stage.ovLatch = true ∧ t.stage.parked = false ∧ t.stage.oring = false ∧ OthersKeep s t fSTAGE) ∧
    (fnState s fSTAGE = .running → s.stage.cfg.uvEn = true → s.stage.uvPending = true →
      ∃ t, exec .uvTrip s = .next t ∧ fnState t fSTAGE = .faulted ∧ (fnRec t fSTAGE).faultCause = 0x0604 ∧
        t.stage.parked = true ∧ t.stage.oring = false ∧ OthersKeep s t fSTAGE) ∧
    (∀ pin : Fin 4, s.power.life = .up → fnState s fSTAGE = .running → finAction s.stage.cfg pin.val = 3 →
      ∃ t, exec (.faultInAsserted pin) s = .next t ∧ fnState t fSTAGE = .faulted ∧ (fnRec t fSTAGE).faultCause = 0x0607 ∧
        t.stage.parked = true ∧ t.stage.faultIn = s.stage.faultIn.set pin.val true) ∧
    (∀ pin : Fin 4, s.power.life = .up → fnState s fSTAGE = .faulted → finAction s.stage.cfg pin.val ≠ 0 →
      ∃ t, exec (.faultInAsserted pin) s = .next t ∧
        Served { s with stage := { s.stage with faultIn := s.stage.faultIn.set pin.val true } } t) ∧
    (∀ pin : Fin 4, s.power.life ≠ .up ∨ fnState s fSTAGE = .off ∨ fnState s fSTAGE = .stopped ∨ finAction s.stage.cfg pin.val = 0 →
      exec (.faultInAsserted pin) s = .next { s with stage := { s.stage with faultIn := s.stage.faultIn.set pin.val true } }) ∧
    (∀ pin : Fin 4,
      exec (.faultInDeasserted pin) s = .next { s with stage := { s.stage with faultIn := s.stage.faultIn.set pin.val false } }) ∧
    (fnState s fSTAGE ≠ .running → exec .ovLatch s = .next s ∧ exec .uvTrip s = .next s)

/-! ### The stack chains (chapter 12) -/

/-- R421 to R425: CHAIN_CONFIG while the chain is STOPPED and CHAIN_BAL while it is RUNNING store their operands; CHAIN_QUERY, CHAIN_READ
of a completed sweep and CHAIN_ID answer. -/
def Obligations.ChainCommands : Prop :=
  ∀ (r : Req) (s : State), Ready s →
    let b := reqChain r
    (High r 21 → fnState s (chainFn b) = .stopped → chainConfigBad r = none →
      Does (.chainConfig r) r s (chMod b (fun c => { c with cfg := chainCfgOf r }) s) []) ∧
    (High r 17 → chainBalBad s r = none →
      Does (.chainBal r) r s (chMod b (fun c => { c with
        bal := mask512 (fit 16 0 (r.payload.drop 1)), holdS := fld (r.w 2) 16 16, holdFrom := ticksNow s }) s) []) ∧
    (High r 1 → fld (r.w 2) 1 31 = 0 → Asks (.chainQuery r) r s (chainWords s b)) ∧
    (∀ c : Sweep, High r 1 → r.w 2 &&& 0xFFC0E0FE = 0 → 1 ≤ fld (r.w 2) 16 6 → fld (r.w 2) 8 5 + fld (r.w 2) 16 6 ≤ 32 →
      (chainOf s b).last = some c →
      Asks (.chainRead r) r s ([lo32 c.latchStroke.toNat, hi32 c.latchStroke.toNat, sweepWord3 c] ++
        (List.range (fld (r.w 2) 16 6)).flatMap fun i => chainPos c (fld (r.w 2) 8 5 + i))) ∧
    (High r 1 → r.w 2 &&& 0xFFC0E0FE = 0 → 1 ≤ fld (r.w 2) 16 6 → fld (r.w 2) 16 6 ≤ 32 → (chainOf s b).last = none →
      Refuses (.chainRead r) r s .state 1) ∧
    (High r 1 → fld (r.w 2) 1 31 = 0 →
      ∃ ws, Asks (.chainId r) r s ws ∧ ws = (chainOf s b).serials.flatMap fun x => [lo32 (x.getD 0).toNat, hi32 (x.getD 0).toNat])

/-- R399, R405, R408: a frame that fails its check is counted and does nothing else on a listener; a cell reading that the sweep awaits is
taken, with its own position; a first silence repeats the request at the same position; a chain that neither runs nor starts
takes nothing.
R403, R405, R411, R413, R419: the waits of a chain end: a settled sweep goes on to its first reading; ENUM and CONFIG that do not arrive are sent
from HI and bring-up goes on; BAL_SET that does not arrive is sent from HI and completes the sweep, or the STOP; the hold of a mask
clears it. A module that does not transmit on a chain awaits nothing there (R397, R420). -/
def Obligations.ChainEvents : Prop :=
  (∀ (c : ChainSel) (e : ChainEnd) (bytes : List Byte) (s : State),
    let b := chainB? c
    (fnState s (chainFn b) = .running → chTransmits s b = false → chainFrame bytes = none →
      exec (.chainFrameReceived c e bytes) s =
        .next (chMod b (fun c => { c with crcErr := satAdd (2 ^ 32 - 1) c.crcErr 1 }) s)) ∧
    (∀ (f : ChainFrame) (pos : Nat) (second : Bool), chTransmits s b = true → chainDrifts s = false → chainFrame bytes = some f →
      (chainOf s b).phase = .reading pos e second → f.cmd = 0x85 → f.addr = pos → f.num 0 1 = (chainOf s b).sweepId.toNat →
      ∃ t, exec (.chainFrameReceived c e bytes) s = .next t ∧ (chainOf t b).data = (chainOf s b).data.set pos (some f.mon) ∧
        chainOf t (!b) = chainOf s (!b) ∧ t.funcs = s.funcs) ∧
    (∀ pos : Nat, chTransmits s b = true → (chainOf s b).phase = .reading pos e false →
      ∃ t, exec (.readCellsTimeout c) s = .next t ∧ (chainOf t b).phase = .reading pos e true ∧
        (chainOf t b).timeouts = satAdd (2 ^ 32 - 1) (chainOf s b).timeouts 1 ∧ chainOf t (!b) = chainOf s (!b)) ∧
    (fnState s (chainFn b) ≠ .running → chStarting s b = false → exec (.chainFrameReceived c e bytes) s = .next s)) ∧
  (∀ (c : ChainSel) (s : State),
    let b := chainB? c
    (∀ p : Nat, chTransmits s b = true → (chainOf s b).phase = .settle → (chainOf s b).gapAt = none →
      (sweepPos (chainOf s b)).head? = some p →
      ∃ t, exec (.chainSettleWaitEnd c) s = .next t ∧ (chainOf t b).phase = .reading p .lo false) ∧
    (chTransmits s b = true → (chainOf s b).phase = .enumLo → ∃ t, exec (.enumHiTimeout c) s = .next t ∧ (chainOf t b).phase = .configLo) ∧
    (chTransmits s b = true → (chainOf s b).phase = .configLo → ∃ t, exec (.enumHiTimeout c) s = .next t ∧ (chainOf t b).phase = .readId 0 .lo false) ∧
    (chTransmits s b = true → (chainOf s b).phase = .balLo →
      ∃ t, exec (.balSetHiTimeout c) s = .next t ∧ (chainOf t b).phase = .idle ∧ (chainOf t b).complete = true) ∧
    (chTransmits s b = true → (chainOf s b).phase = .stopBal → fnState s (chainFn b) = .running → Sound s →
      ∃ t, exec (.balSetHiTimeout c) s = .next t ∧ (chainOf t b).phase = .idle ∧ fnState t (chainFn b) = .stopped) ∧
    (chTransmits s b = false → exec (.readCellsTimeout c) s = .next s ∧ exec (.enumHiTimeout c) s = .next s ∧
      exec (.balSetHiTimeout c) s = .next s) ∧
    ((chainOf s b).holdS ≠ 0 →
      ∃ t, exec (.balanceHoldExpired c) s = .next t ∧ (chainOf t b).bal = 0 ∧ (chainOf t b).holdS = 0 ∧
        chainOf t (!b) = chainOf s (!b)) ∧
    ((chainOf s b).holdS = 0 → exec (.balanceHoldExpired c) s = .next s))

/-! ### The estimator (chapter 13) -/

/-- R454 to R460: EST_CONFIG and EST_MODEL of a STOPPED estimator keep what they are given; EST_QUERY, EST_READ and EST_LIFE_READ answer and
change nothing (EST_QUERY answers E_FAULT where a word of the state area does not read, R193); EST_ANCHOR asks for an anchor; EST_SAVE waits for the record that it makes due. -/
def Obligations.EstimatorCommands : Prop :=
  ∀ (r : Req) (s : State), Ready s →
    (High r 20 → fnState s fEST = .stopped → estConfigBad r = none →
      ∃ t, exec (.estConfig r) s = .next t ∧ Answered t r .ok 0 [] ∧ Served { s with est := { s.est with cfg := t.est.cfg } } t ∧
        t.est.cfg.strings.length = fld (r.w 2) 0 4 ∧ t.est.cfg.qNom = r.w 11 ∧ t.est.cfg.floor_ = fld (r.w 16) 16 16 ∧
        t.est.cfg.ceil_ = fld (r.w 16) 0 16 ∧ t.est.cfg.uStart = fld (r.w 21) 16 16 ∧ t.est.cfg.capReset = bit (r.w 21) 0) ∧
    (High r 156 → fnState s fEST = .stopped → estModelBad r = none →
      Does (.estModel r) r s { s with est := { s.est with model := fit 156 0 r.payload } } []) ∧
    (High r 0 → areaDamage (seeAs .clerk s) aEstArea 448 = none →
      Asks (.estQuery r) r s (estWords s (if validOf s aEstArea then copyWords s aEstArea 448 else List.replicate 112 0))) ∧
    (High r 0 → (areaDamage (seeAs .clerk s) aEstArea 448).isSome = true →
      ∃ t, exec (.estQuery r) s = .next t ∧ Answered t r .fault 0 [] ∧ t.mem.cells = s.mem.cells) ∧
    (High r 1 → r.w 2 &&& 0xFC00FE00 = 0 → fld (r.w 2) 0 9 ≠ 0 → fld (r.w 2) 16 10 + fld (r.w 2) 0 9 ≤ 1024 →
      Asks (.estRead r) r s ((List.range (fld (r.w 2) 0 9)).flatMap fun i => cellWords s (fld (r.w 2) 16 10 + i))) ∧
    (High r 0 → fnState s fEST = .running → estAnchorBad s = none →
      Does (.estAnchor r) r s { s with est := { s.est with anchorReq := true } } []) ∧
    (High r 0 → Asks (.estLifeRead r) r s (lifeWords s)) ∧
    (High r 0 → fnState s fEST = .running → Awaits (.estSave r) r s (lifeDue s) .estSave)

/-- R442, R445, R447, R452: the estimator's own events: a second of running time counts one bin of each histogram; a save becomes
due, and begins, its spare copy erased, unless both feeds are lost (R32); an erased block waits for HOLDUP_GOOD; a record whose copy reads back
is committed: its slot holds the copy, and an entry of the log names it with the next SEQ; a copy that fails is written once more, and then given
up with no entry; an anchor hold ends; 256 strokes without a commit fault EST with cause 0x0801. Outside its condition each does nothing. -/
def Obligations.EstimatorEvents : Prop :=
  ∀ s : State, Sound s →
    (fnState s fEST = .running →
      ∃ h c : Nat, h < 256 ∧ c < 16 ∧ h % 16 = min 15 (16 * s.est.socStack).floor.toNat ∧
        let life := (s.est.life.set (14 + h) (s.est.life.getD (14 + h) 0 + 1)).set (270 + c) (s.est.life.getD (270 + c) 0 + 1)
        exec .lifetimeHistogramTick s = .next { s with est := { s.est with runS := s.est.runS + 1, life := life } }) ∧
    (fnState s fEST = .running → s.est.writing = none → s.est.duCap = false → norStop s = false →
      let n := s.est.norLife
      let e : Est := { s.est with
        duLife := false, norLife := { n with copies := n.copies.set (spareSlot n) none },
        writing := some { kind := 1, phase := .erasing, retry := false } }
      ∃ t, exec .lifetimeSaveTimer s = .next t ∧ t = { s with est := e, diag := { s.diag with clerk := t.diag.clerk } }) ∧
    (fnState s fEST = .running → norStop s = true →
      exec .lifetimeSaveTimer s = .next { s with est := { s.est with duLife := true } }) ∧
    (fnState s fEST ≠ .running → exec .lifetimeHistogramTick s = .next s ∧ exec .lifetimeSaveTimer s = .next s ∧
      exec .estCommitTimeout s = .next s) ∧
    (∀ w, s.est.writing = some w → w.phase = .erasing →
      ∃ t, exec .norEraseComplete s = .next t ∧ t.est = { s.est with writing := some { w with phase := .waiting } } ∧
        t.mem = s.mem ∧ t.funcs = s.funcs) ∧
    (∀ w ok, s.est.writing = some w → w.phase = .waiting → holdupGood s = false → exec (.norWriteResume ok) s = .next s) ∧
    (∀ w, s.est.writing = some w → w.phase = .waiting → holdupGood s = true →
      let commits (old new : NorKind) (r : NorRec) : Prop := ∃ e ∈ new.log.flatten,
        e.seq = recSeq old + 1 ∧ e.holds new = true ∧ new.copies.getD e.slot none = some r
      (∃ t, exec (.norWriteResume true) s = .next t ∧
        (w.kind = 0 → commits s.est.norCap t.est.norCap (recNow 0 s) ∧ t.est.norLife.log = s.est.norLife.log) ∧
        (w.kind = 1 → commits s.est.norLife t.est.norLife (recNow 1 s) ∧ t.est.norCap.log = s.est.norCap.log)) ∧
      (w.retry = false → ∃ t, exec (.norWriteResume false) s = .next t ∧
        t.est = { s.est with writing := some { w with retry := true } }) ∧
      (w.retry = true → ∃ t, exec (.norWriteResume false) s = .next t ∧ t.est.norCap.log = s.est.norCap.log ∧
        t.est.norLife.log = s.est.norLife.log)) ∧
    (s.est.anchor = true → ∃ t, exec .anchorTimeout s = .next t ∧
      Served { s with est := { s.est with anchor := false, anchorReq := false } } t) ∧
    (s.est.anchor = false → exec .anchorTimeout s = .next s) ∧
    (fnState s fEST = .running → s.est.lastCommit.toNat + 256 ≤ now s →
      ∃ t, exec .estCommitTimeout s = .next t ∧ fnState t fEST = .faulted ∧ (fnRec t fEST).faultCause = 0x0801 ∧
        OthersKeep s t fEST)

/-! ### Temperatures, power and the tiles' clock (chapter 14) -/

/-- R490 to R492: THERMAL_CONFIG is held until the next evaluation; THERMAL_QUERY and POWER_QUERY answer and change nothing. The
figures of POWER_QUERY are measured, and free in the model (entry 41).
R59, R60, R462, R465, R469, R472, R490: a conversion enters its sensor's last three, and at 115 °C the shutdown and veto 0x07 latch;
an evaluation takes the accepted configuration and raises PT by one at a hot die; rails settle, PLLs lock and dividers move by
one. An unpowered module converts and locks nothing. -/
def Obligations.ThermalAndClocks : Prop :=
  (∀ (r : Req) (s : State), Ready s →
    (High r 1 → r.w 2 &&& 0xFFFF00E8 = 0 → 60 ≤ fld (r.w 2) 9 7 → fld (r.w 2) 9 7 ≤ 100 → fld (r.w 2) 0 3 ≠ 0 →
      (bit (r.w 2) 8 = true → s.clk.nocSel ≠ 1) →
      let next := some (fld (r.w 2) 9 7, bit (r.w 2) 8, bit (r.w 2) 4, fld (r.w 2) 0 3)
      Does (.thermalConfig r) r s { s with therm := { s.therm with next := next } } []) ∧
    (High r 0 → Asks (.thermalQuery r) r s (thermalWords s)) ∧
    (High r 0 → Asks (.powerQuery r) r s ((List.range 9).map fun i => Config.powerFigure s.clk.stroke (3 + i)))) ∧
  (∀ s : State, s.therm.conv.length = 5 → s.clk.plls.length = 17 → s.clk.domains.length = 18 →
    (∀ (n : Fin 5) (v : Option Int), s.power.life = .up →
      ∃ t, exec (.temperatureConversion n v) s = .next t ∧ convOf t n.val = (convIn v :: convOf s n.val).take 3 ∧
        (∀ m : Fin 5, m ≠ n → convOf t m.val = convOf s m.val) ∧
        (s.therm.shutdown = none → 1840 ≤ dieTemp t n.val →
          t.therm.shutdown = some (n.val, dieTemp t n.val) ∧ t.pair.vetoes.getLsbD 7 = true) ∧
        (dieTemp t n.val < 1840 → t.therm.shutdown = s.therm.shutdown ∧ t.pair = s.pair) ∧ t.funcs = s.funcs) ∧
    (∀ (n : Fin 5) (v : Option Int), s.power.life ≠ .up → exec (.temperatureConversion n v) s = .next s) ∧
    (s.power.life = .up → s.clerk.mbOpen = true → s.boot.recovery = false →
      ∃ t, exec .throttleEvaluation s = .next t ∧ t.therm.next = none ∧ t.funcs = s.funcs ∧ t.mem.cells = s.mem.cells ∧
        t.therm.tThrottle = (thermCfg s.therm).1 ∧ t.therm.fMax = (thermCfg s.therm).2.2.2 ∧
        (16 * ((thermCfg s.therm).1 : Int) ≤ hotDie s → t.therm.pt = min 7 (s.therm.pt + 1)) ∧
        (hotDie s < 16 * ((thermCfg s.therm).1 : Int) → s.therm.coolFor = none → t.therm.pt = s.therm.pt)) ∧
    (s.clerk.mbOpen = false → exec .throttleEvaluation s = .next s) ∧
    (∀ p, s.therm.moving = some p → s.therm.railsUp = false →
      ∃ t, exec .railSettled s = .next t ∧ t = { s with therm := t.therm } ∧ t.therm.railsUp = true ∧
        (s.therm.switched = true → t.therm.moving = none) ∧ (s.therm.switched = false → t.therm.moving = some p)) ∧
    (s.therm.moving = none → exec .railSettled s = .next s) ∧
    (∀ p : Fin 17, s.power.life = .up → (s.clk.plls.getD p.val {}).started = true → (s.clk.plls.getD p.val {}).locked = false →
      ∃ t, exec (.pllLockCount p) s = .next t ∧ (t.clk.plls.getD p.val {}).locked = true ∧ t.funcs = s.funcs ∧ t.mem = s.mem ∧
        (p.val = 0 → (t.clk.plls.getD 1 {}).started = true ∧ (t.clk.plls.getD 2 {}).started = true)) ∧
    (∀ p : Fin 17, (s.clk.plls.getD p.val {}).locked = true → exec (.pllLockCount p) s = .next s) ∧
    (∀ d : Fin 18, let x := s.clk.domains.getD d.val {}
      ∃ t, exec (.dividerStep d) s = .next t ∧ t.funcs = s.funcs ∧ t.mem = s.mem ∧
        (x.divider < x.target → (t.clk.domains.getD d.val {}).divider = x.divider + 1) ∧
        (x.target < x.divider → (t.clk.domains.getD d.val {}).divider = x.divider - 1) ∧
        (x.divider = x.target → x.switching = true → (t.clk.domains.getD d.val {}).target = domGoal s d.val ∧
          (t.clk.domains.getD d.val {}).switching = false) ∧
        (x.divider = x.target → x.switching = false → t = s)))

/-! ### The ledger (chapter 14) -/

/-- R480, R494 to R498: LEDGER_TAG takes an inline entry, or every entry of a host descriptor, and answers the stroke from which it
applies; LEDGER_READ, LEDGER_QUERY and JOB_ENERGY_QUERY answer; LEDGER_CLOSE answers a job's cells and removes or zeroes them;
JOB_ENERGY_QUERY of JOB 0 clears OVERFLOW, and with CLEAR the entry goes.
R476 to R479: a conversion of the converter-control dies adds its products to the sums of every output, weighted by the ticks that are
left of the stroke; one beyond the converter's range counts as the full-scale code of its sign (R226); a conversion past the stroke's end,
or without a loop clock, adds nothing. -/
def Obligations.Ledger : Prop :=
  (∀ (r : Req) (s : State), Ready s →
    (∀ desc, High r 4 → fnState s fLEDGER = .running → isStandby s = false → fld (r.w 2) 1 31 = 0 → bit (r.w 2) 0 = false →
      let e : TagEntry := { mask := r.w 3, job := r.w 4, at_ := r.w 5, zero := 0 }
      tagEntryBad e 3 4 5 = none → tagShort s [e] = none →
      Does (.ledgerTag r desc) r s (tagTake e s) [w32 (applyAt s (r.w 5))]) ∧
    (∀ desc ws, High r 4 → fnState s fLEDGER = .running → isStandby s = false → fld (r.w 2) 1 31 = 0 → bit (r.w 2) 0 = true →
      descRead (wide (r.w 3) (r.w 4)) (r.w 5).toNat 3 desc = .ok ws →
      (tagEntries ws).findSome? (fun e => tagEntryBad e 3 4 5) = none → tagShort s (tagEntries ws) = none →
      Does (.ledgerTag r desc) r s ((tagEntries ws).foldl (fun t e => tagTake e t) s)
        [w32 (applyAt s (((tagEntries ws).getLast?.map (·.at_)).getD 0))]) ∧
    (High r 2 → fnState s fLEDGER ≠ .off → jobKnown s (r.w 2) = true → fld (r.w 3) 1 31 = 0 →
      Asks (.ledgerRead r) r s (ledgerReadWords s (r.w 2) (bit (r.w 3) 0))) ∧
    (High r 1 → ledgerCloseBad s (r.w 2) = none →
      let u := jobClose (r.w 2) s
      Does (.ledgerClose r) r s { u with pair := { u.pair with mirrorCloses := u.pair.mirrorCloses ++ [r.w 2] } }
        (ledgerReadWords s (r.w 2) true) ∧ (isReserved (r.w 2) = false → jobKnown u (r.w 2) = false)) ∧
    (High r 0 → Asks (.ledgerQuery r) r s
      ([w32 (fnState s fLEDGER).num, packW [(s.ledger.jobs.length, 16), (4096 - hostCells s, 0)], w32 s.ledger.lost,
        lo32 s.ledger.lastAdded.toNat, hi32 s.ledger.lastAdded.toNat] ++ fit 24 0 s.ledger.tags)) ∧
    (∀ e, High r 2 → s.ledger.energy.find? (fun e => e.job = r.w 2) = some e → fld (r.w 3) 1 31 = 0 →
      let es := if bit (r.w 3) 0 then s.ledger.energy.filter (fun x => x.job ≠ r.w 2) else s.ledger.energy
      (e.job ≠ 0 → Does (.jobEnergyQuery r) r s { s with ledger := { s.ledger with energy := es } } (jobEnergyWords s e)) ∧
      (e.job = 0 → Does (.jobEnergyQuery r) r s { s with ledger := { s.ledger with energy := es, overflow := 0, ovfArmed := true } }
        (jobEnergyWords s e)))) ∧
  (∀ (vbus : BitVec 16) (iout : List (BitVec 16)) (ov : List Bool) (vbusOver : Bool) (s : State),
    (loopClock s = true → s.ledger.convTick < s.clk.strokeDiv →
      let full (beyond : Bool) (c : BitVec 16) : Int := if beyond then (if c.toInt < 0 then -32768 else 32767) else c.toInt
      ∃ t, exec (.ledgerConversion vbus iout ov vbusOver) s = .next t ∧
        t = { s with ledger := t.ledger, diag := { s.diag with overRange := t.diag.overRange } } ∧
        t.ledger = { s.ledger with sums := t.ledger.sums, convTick := s.ledger.convTick + 100 } ∧
        t.ledger.sums.length = s.ledger.sums.length ∧
        ∀ (n : Nat) (x : OutSum), s.ledger.sums[n]? = some x →
          t.ledger.sums[n]? = some (outAdd (min 100 (s.clk.strokeDiv - s.ledger.convTick)) (full vbusOver vbus)
            (full (ov.getD n false) (iout.getD n 0)) (ov.getD n false || vbusOver) x)) ∧
    (loopClock s = false ∨ s.clk.strokeDiv ≤ s.ledger.convTick →
      exec (.ledgerConversion vbus iout ov vbusOver) s = .next s))

/-! ### Pairing (chapter 15) -/

/-- R527 to R529: PAIR_CONFIG of a STOPPED PAIR takes its fields; PAIR_QUERY answers its words, after the doorbell has ended a host loss (R162);
PAIR_HANDOVER that passes its checks opens the loop and waits. -/
def Obligations.PairCommands : Prop :=
  ∀ (r : Req) (s : State), Ready s →
    (Low r 4 → fnState s fPAIR = .stopped → fld (r.w 2) 7 5 = 0 → 1 ≤ fld (r.w 2) 16 16 → fld (r.w 2) 16 16 ≤ 1000 →
      2 ≤ fld (r.w 2) 12 4 → 1 ≤ fld (r.w 2) 0 7 → fld (r.w 2) 0 7 ≤ 64 → fld (r.w 3) 1 31 = 0 → 1 ≤ (r.w 4).toNat →
      (r.w 4).toNat ≤ 1000000 → (r.w 5).toNat ≤ 1000000 →
      let c : PairCfg := { tRelease := fld (r.w 2) 16 16, hbMiss := fld (r.w 2) 12 4, hbPeriod := fld (r.w 2) 0 7,
                           autoStart := bit (r.w 3) 0, holdStrokes := (r.w 4).toNat, ramp := (r.w 5).toNat }
      Does (.pairConfig r) r s { s with pair := { s.pair with cfg := c } } []) ∧
    (Low r 0 → Asks (.pairQuery r) r s (pairWords { s with link := { s.link with hostLoss := false } })) ∧
    (Low r 0 → pairHandoverBad s = none → Awaits (.pairHandover r) r s (handoverOpen true true s) .handover ∧
      (handoverOpen true true s).pair.handover = .opening true true s.clk.stroke ∧ (handoverOpen true true s).pair.pstate = .active)

/-- R39, R378, R504, R506, R508, R513: the events of the pair: the loss of the grant parks the converter and ends an anchor hold; its
rise is noted; a valid beat is kept and makes its path alive, a bad one is counted, on a rope as a line that failed its CRC too (R319); a silent path
reads silent; two strokes without a
token latch veto 0x06; three strokes after a release that no partner claims, the module claims again and the command times out. -/
def Obligations.PairEvents : Prop :=
  ∀ s : State,
    (s.pair.gnt = true → ∃ t, exec .grantLost s = .next t ∧ t.pair.gnt = false ∧ t.pair.gntBeats = 0 ∧ t.stage.parked = true ∧
      t.stage.oring = false ∧ t.est.anchor = false) ∧
    (s.pair.gnt = false → exec .grantLost s = .next s) ∧
    (s.pair.gnt = false → s.power.life = .up → ∃ t, exec .grantRise s = .next t ∧ t.pair.gnt = true ∧ t.pair.gntBeats = 0 ∧
      t.funcs = s.funcs) ∧
    (s.pair.gnt = true → exec .grantRise s = .next s) ∧
    (∀ path ws crc, s.power.life = .up → pathOpen s path = true → beatOk s path ws crc = true →
      ∃ t, exec (.beatReceived path ws crc) s = .next t ∧ t.pair.beat = some ws ∧ t.pair.beatAge = 0 ∧
        (path = .hb → t.pair.sinceHb = some 0 ∧ t.pair.silentHb = false) ∧
        (path = .rope → t.pair.sinceRope = some 0 ∧ t.pair.silentRope = false)) ∧
    (∀ path ws crc, s.power.life = .up → pathOpen s path = true → beatOk s path ws crc = false →
      let u := if crc = true ∨ path = .hb then s else crcFail (partnerPort s) 1 s
      exec (.beatReceived path ws crc) s = .next { u with pair := { s.pair with bad := satAdd (2 ^ 32 - 1) s.pair.bad 1 } }) ∧
    (∀ path ws crc, pathOpen s path = false → exec (.beatReceived path ws crc) s = .next s) ∧
    (s.power.life = .up → ∃ t, exec (.pathSilent .hb) s = .next t ∧ t.clk.hbClock = false ∧ t.pair.silentHb = true ∧
      t.funcs = s.funcs ∧ t.mem.cells = s.mem.cells) ∧
    (∀ n, s.power.life = .up → s.pair.sinceRope = some n → missLimit s ≤ n →
      ∃ t, exec (.pathSilent .rope) s = .next t ∧ t.pair.silentRope = true ∧ t.clk = s.clk ∧ t.funcs = s.funcs) ∧
    (∀ n, s.pair.sinceRope = some n → n < missLimit s → exec (.pathSilent .rope) s = .next s) ∧
    (2 ≤ s.pair.noToken → ∃ t, exec .watchdogVeto s = .next t ∧ t.pair.vetoes.getLsbD 6 = true ∧ t.funcs = s.funcs) ∧
    (s.pair.noToken < 2 → exec .watchdogVeto s = .next s) ∧
    (∀ cmd since begun, s.pair.handover = .released cmd since begun → 3 ≤ (s.clk.stroke - since).toNat →
      shows s (fun b => decide (bPstate b = 1 ∨ bPstate b = 2)) = false → vetoed s = false → s.pair.pstate = .releasing →
      ∃ t, exec .handoverReclaim s = .next t ∧ t.pair.handover = .no ∧ t.pair.pstate = .claiming ∧
        ∀ n, waitingMb (fun w => decide (w = if cmd then .handover else .funcStop fPAIR)) s = some n → Completed s t n .timeout 0 []) ∧
    (∀ cmd since begun, s.pair.handover = .released cmd since begun → (s.clk.stroke - since).toNat < 3 → exec .handoverReclaim s = .next s)

/-- R514, R515, R517, R520: a standby keeps the mirror lines that arrive until its boundary, and the ACTIVE module takes no more of
them than a target; mirror lines that fail their CRC are counted and dropped (R319); a snapshot of a standby out of SYNC is applied, and its package
digests are compared with the module's own, which stays out of SYNC while they differ; HOST_LOSS_HOLD ends
once. -/
def Obligations.MirrorAndHostLoss : Prop :=
  ∀ (stroke : Stroke) (items : List MirrorItem) (s : State),
    (s.power.life = .up → onRope s = true → mirrorTaker s = true →
      exec (.mirrorReceived stroke ⟨items, 0⟩) s =
        .next { s with pair := { s.pair with mirrorIn := s.pair.mirrorIn ++ [(stroke, items)] } }) ∧
    (s.power.life = .up → onRope s = true → s.pair.active = true →
      ∃ t, exec (.mirrorReceived stroke ⟨items, 0⟩) s = .next t ∧ t = { s with pipe := { s.pipe with pend := t.pipe.pend } }) ∧
    (∀ n, onRope s = false → exec (.mirrorReceived stroke ⟨items, n⟩) s = .next s) ∧
    (∀ n, n ≠ 0 → s.power.life = .up → onRope s = true → exec (.mirrorReceived stroke ⟨items, n⟩) s = .next (crcFail (partnerPort s) n s)) ∧
    (∀ m, s.power.life = .up → mirrorTaker s = true → s.pair.sync = false → s.pair.silentRope = false →
      ∃ t, exec (.snapshotRequest stroke items m) s = .next t ∧ t.pair.mirrored = some stroke ∧ t.pair.pkgNeeds = m ∧
        (pkgDiffers t = true → t.pair.pkgMismatch = true ∧ t.pair.sync = false) ∧
        t.pair.mirrorIn = s.pair.mirrorIn.filter (fun x => stroke < x.1) ∧ t.pair.pstate = s.pair.pstate ∧
        t.pair.active = s.pair.active) ∧
    (∀ m, s.pair.sync = true ∨ s.pair.silentRope = true ∨ mirrorTaker s = false →
      exec (.snapshotRequest stroke items m) s = .next s) ∧
    (s.link.hostLoss = true → s.link.holdExpired = false → s.link.holdLeft = 0 →
      ∃ t, exec .hostLossHoldExpired s = .next t ∧ t.link = { s.link with holdExpired := true } ∧ t.pair = s.pair ∧
        t.funcs = s.funcs ∧ t.mem.cells = s.mem.cells) ∧
    (s.link.hostLoss = false ∨ s.link.holdExpired = true ∨ s.link.holdLeft ≠ 0 → exec .hostLossHoldExpired s = .next s)

/-! ### Boot, firmware and attestation (chapter 16) -/

/-- R59, R64, R88, R537 to R540, R585: BOOT of an image whose boot goes well opens the mailboxes, starts Posin at stage 5 with every clock on,
takes the trim record and makes memory active; without an eligible image it is the boot ROM's recovery; a well that does not train fails the
boot with reason 2, and records of which no copy is signed, or a trim out of its bounds, with reason 1; a section whose digest is wrong passes
the image over, with stage 3 (entry 179). It goes well only with a bridge that is enabled (R191). Nothing boots before the clocks that it needs have
locked, and a module that has booted does not boot
again; the mailboxes stay closed where it fails; and the watchdog skips the image being booted. -/
def Obligations.Boot : Prop :=
  ∀ (env : BootEnv) (s : State),
    (s.power.life = .up → s.power.feedA = true ∨ s.power.feedB = true → bootClocks s = true → s.clerk.bootStage = 0 →
      (bootPick s = none → ∃ t, exec (.boot env) s = .next t ∧ t.clerk.bootStage = 6 ∧ t.clerk.bootFail = 3 ∧
        t.clerk.mbOpen = true ∧ t.boot.recovery = true ∧ t.funcs = s.funcs) ∧
      (∀ b, bootPick s = some b →
        let x := (slotOf s b).image
        let root := rootKey (manifestOf x)
        let well := keepsWell s.clerk.resetCause.toNat || env.wellTrained
        let whole := (List.range (imgSects x)).all (sectOk x)
        let trim := copyPick root s.boot.trim0.bytes s.boot.trim1.bytes
        let values := (if trim = some 0 then s.boot.trim0 else s.boot.trim1).values
        let kept := trim.isSome && (copyPick root s.boot.cert0 s.boot.cert1).isSome &&
          (copyPick root s.boot.helper0 s.boot.helper1).isSome && trimBounds values
        (∀ i : Fin 3, well = true → whole = true → kept = true →
          (s.mem.bridges.getD i.val { enabled := false }).enabled = true → env.bridgesFailed.getD i.val false = false →
          ∃ t, exec (.boot env) s = .next t ∧ t.clerk.mbOpen = true ∧ t.clerk.bootStage = 5 ∧ t.link.memActive = true ∧
            t.clerk.posin = imgVersion x ∧ t.clerk.serial = values.serial ∧ t.clk.gate = 0x1FFFFF ∧
            t.boot.running = manifestOf x ∧ t.boot.imageB = b ∧ t.boot.norLock = true ∧ t.funcs = s.funcs) ∧
        (well = false → s.clerk.mbOpen = false → ∃ t, exec (.boot env) s = .next t ∧ t.clerk.bootStage = 6 ∧ t.clerk.bootFail = 2 ∧
          t.clerk.mbOpen = false) ∧
        (well = true → whole = false → s.clerk.mbOpen = false → ∃ t, exec (.boot env) s = .next t ∧ t.boot.resetReq = true ∧ skipOf? t b = true ∧
          t.clerk.bootStage = 3 ∧ t.clerk.mbOpen = false) ∧
        (well = true → whole = true → kept = false → s.clerk.mbOpen = false → ∃ t, exec (.boot env) s = .next t ∧
          t.clerk.bootStage = 6 ∧ t.clerk.bootFail = 1 ∧ t.clerk.mbOpen = false))) ∧
    (bootClocks s = false ∨ s.clerk.bootStage ≠ 0 → exec (.boot env) s = .next s) ∧
    (s.clerk.mbOpen = true → exec .bootWatchdogExpired s = .next s) ∧
    (∀ b, s.power.life = .up → s.boot.watchdog = true → s.clerk.mbOpen = false → s.boot.resetReq = false → bootPick s = some b →
      ∃ t, exec .bootWatchdogExpired s = .next t ∧ t.boot.resetReq = true ∧ t.boot.watchdog = false ∧ skipOf? t b = true ∧
        t.clerk = s.clerk ∧ t.funcs = s.funcs)

/-- R541 to R544, R551 to R553: FW_QUERY answers; an accepted FW_WRITE begins its write of slot A, behind a copy of a confirmed A that B
does not hold; the write ends with slot A WRITTEN, or as its erase left it; FW_COMMIT confirms A, raises both counters to FLOOR, begins the copy into
slot B (R544 step 3), and waits for
HOLDUP_GOOD; the copy ends with slot B WRITTEN and CONFIRMED. With both feeds lost no program of NOR starts (R32). -/
def Obligations.Firmware : Prop :=
  ∀ (r : Req) (s : State), Ready s →
    (High r 0 → Asks (.fwQuery r) r s (fwWords s)) ∧
    (∀ image, let x := fwImage s r image
      High r 4 → fwWriteBad s r x = none → (bit (r.w 2) 0 = true → clerkRead s (wide (r.w 3) (r.w 4)) (r.w 5).toNat = none) →
      let wait := !s.boot.imageB && slotConfirmed s.boot.slotA && !slotsEqual s
      let w := { s with boot := { s.boot with writing := some x } }
      (wait = true → Does (.fwWrite r image) r s (copyBegin w) []) ∧
      (wait = false → Does (.fwWrite r image) r s (writeBegin x s) [])) ∧
    (∀ x ok, s.boot.writing = some x → s.boot.copying = false → s.boot.norHeld = false → norStop s = false →
      ∃ t, exec (.fwWriteComplete ok) s = .next t ∧ t.boot.writing = none ∧ t.boot.slotB = s.boot.slotB ∧
        t.boot.slotA = (if ok then { stateByte := 0xEF, image := x } else s.boot.slotA) ∧ t.funcs = s.funcs) ∧
    (s.boot.writing = none → ∀ ok, exec (.fwWriteComplete ok) s = .next s) ∧
    (∀ ok, s.boot.norHeld = true ∨ norStop s = true →
      exec (.fwWriteComplete ok) s = .next s ∧ exec (.slotBCopyComplete ok) s = .next s) ∧
    (∀ (u : State) (x : List Word) (n : Nat), u.power.life = .up → u.boot.writing = some x → u.boot.copying = false →
      u.boot.norHeld = false → norStop u = false →
      u.boot.recovery = true → waitingMb (fun w => decide (w = .fwWrite)) u = some n →
      ∃ t, exec (.fwWriteComplete true) u = .next t ∧ Completed u t n .ok 0 [] ∧ t.boot.writing = none) ∧
    (High r 0 → s.boot.imageB = false → s.boot.writing = none →
      let done := slotConfirmed s.boot.slotA && decide (imgFloor s.boot.slotA.image ≤ rollback s) && slotsEqual s
      (done = true → Asks (.fwCommit r) r s []) ∧
      (done = false → holdupGood s = true →
        ∃ t, exec (.fwCommit r) s = .next t ∧ Answered t r .ok 0 [] ∧ slotConfirmed t.boot.slotA = true ∧
          t.boot.slotA.image = s.boot.slotA.image ∧ t.boot.counter0 = max (rollback s) (imgFloor s.boot.slotA.image) ∧
          t.boot.counter1 = max (rollback s) (imgFloor s.boot.slotA.image) ∧ t.boot.copying = true ∧ t.funcs = s.funcs) ∧
      (done = false → holdupGood s = false → Awaits (.fwCommit r) r s s .fwCommit)) ∧
    (∀ ok, s.boot.copying = true → s.boot.norHeld = false → norStop s = false →
      ∃ t, exec (.slotBCopyComplete ok) s = .next t ∧ t.boot.copying = false ∧ t.boot.writing = s.boot.writing ∧
        (ok = true → t.boot.slotB = { stateByte := 0xE7, image := s.boot.slotA.image }) ∧
        (ok = false → t.boot.slotB = s.boot.slotB)) ∧
    (s.boot.copying = false → ∀ ok, exec (.slotBCopyComplete ok) s = .next s)

/-- R545 to R549, R554 to R558, R30: ATTEST_QUOTE answers the signed quote, and E_AUTH with detail 3 on a module whose identity is bad; the
log and the certificates are read; a policy that passes its checks is written as R445 has it, waits for HOLDUP_GOOD, and comes into force with
its commit entry, which the answer follows; after a second without HOLDUP_GOOD the waiting commands time out with detail 1. -/
def Obligations.AttestationAndPolicies : Prop :=
  ∀ (r : Req) (s : State), Ready s →
    (High r 8 → s.boot.identityBad = false →
      let q := quoteBody s ((List.range 8).map fun i => r.w (2 + i))
      Asks (.attestQuote r) r s (q ++ fit 16 0 (Config.identitySign q))) ∧
    (High r 8 → s.boot.identityBad = true → Refuses (.attestQuote r) r s .auth 3) ∧
    (High r 1 → fld (r.w 2) 22 10 = 0 → 1 ≤ fld (r.w 2) 16 6 → fld (r.w 2) 16 6 ≤ 42 →
      fld (r.w 2) 0 16 + fld (r.w 2) 16 6 ≤ s.boot.mlog.length →
      Asks (.attestLogRead r) r s
        (w32 s.boot.mlogCount :: ((s.boot.mlog.drop (fld (r.w 2) 0 16)).take (fld (r.w 2) 16 6)).flatten)) ∧
    (High r 1 → fld (r.w 2) 13 19 = 0 → 4 * fld (r.w 2) 0 13 < s.boot.certs.length →
      Asks (.attestCert r) r s
        (w32 s.boot.certs.length :: wordsOf ((s.boot.certs.drop (4 * fld (r.w 2) 0 13)).take 4000))) ∧
    (∀ desc p, High r 3 → (r.w 4).toNat = 512 → descRead (wide (r.w 2) (r.w 3)) 512 2 desc = .ok p → policyBad s p = none →
      (s.est.writing = none → norStop s = false → Awaits (.policySet r desc) r s (norErase 2 p s) (.policySet p)) ∧
      (s.est.writing.isSome = true ∨ norStop s = true → Awaits (.policySet r desc) r s s (.policySet p))) ∧
    (∀ (w : NorWrite) (n : Nat) (u : State), u.est.writing = some w → w.kind = 2 → w.phase = .waiting → holdupGood u = true →
      waitingMb (fun x => decide (x = .policySet w.policy)) u = some n → policyBad u w.policy = none →
      ∃ t, exec (.norWriteResume true) u = .next t ∧ Completed u t n .ok 0 [] ∧ t.boot.policy = some w.policy ∧
        t.boot.policySeq = (w.policy.getD 1 0).toNat) ∧
    (High r 0 → Asks (.policyQuery r) r s (fit 128 0 (s.boot.policy.getD []))) ∧
    (∀ (n : Nat) (u : State), holdupGood u = false → waitingMb (fun w => decide (w = .fwCommit)) u = some n →
      ∃ t, exec .holdupGoodWaitTimeout u = .next t ∧ Completed u t n .timeout 1 [] ∧
        (u.est.writing = none → t.boot = u.boot ∧ t.funcs = u.funcs)) ∧
    (∀ u : State, holdupGood u = true → exec .holdupGoodWaitTimeout u = .next u)

/-! ### Diagnostics (chapter 17) -/

/-- R572, R573, R575 to R580: the reads of the dump, of NOR summaries, of counters and of raw memory answer what stands there; a read of
group 0x01 re-arms the record of dropped writes, and CLEAR zeroes a group; DUMP_RELEASE drops a held dump; SELFTEST answers its
masks; a raw write under DENY_RAW is refused with E_AUTH and detail 4, and one to a divider sets its target (a divider whose source is being switched
takes it at the end of the switch). -/
def Obligations.DiagnosticCommands : Prop :=
  ∀ (r : Req) (s : State), Ready s →
    (High r 2 → (r.w 2).toNat % 4 = 0 → fld (r.w 3) 10 22 = 0 → 1 ≤ fld (r.w 3) 0 10 → fld (r.w 3) 0 10 ≤ 1000 →
      (r.w 2).toNat + 4 * fld (r.w 3) 0 10 ≤ 0x10000000 → s.clerk.dumpValid = true →
      clerkRead s (aDump + (r.w 2).toNat) (4 * fld (r.w 3) 0 10) = none →
      Asks (.dumpRead r) r s (memWords (seeAs .clerk s) (aDump + (r.w 2).toNat) (fld (r.w 3) 0 10))) ∧
    (High r 0 → s.clerk.dumpValid = true → Does (.dumpRelease r) r s (dumpDrop s) []) ∧
    (High r 0 → s.clerk.dumpValid = false → Asks (.dumpRelease r) r s []) ∧
    (∀ e, High r 1 → fld (r.w 2) 11 21 = 0 → (validSummaries s)[fld (r.w 2) 0 11]? = some e →
      Asks (.norSummaryRead r) r s (fit 128 0 e)) ∧
    (∀ l, High r 1 → fld (r.w 2) 8 23 = 0 → counterGroup (rung 0x0C04 [] r s).diag (fld (r.w 2) 0 8) = some l →
      ∃ t, exec (.counterRead r) s = .next t ∧ Answered t r .ok 0 (l.flatMap fun c => [lo32 c, hi32 c]) ∧
        Served { s with diag := t.diag, link := { s.link with dropArmed := t.link.dropArmed } } t ∧
        (fld (r.w 2) 0 8 = 1 → t.link.dropArmed = true) ∧
        (fld (r.w 2) 0 8 ≠ 1 → t.link.dropArmed = s.link.dropArmed) ∧
        (bit (r.w 2) 31 = false → t.diag = { s.diag with host := t.diag.host, clerk := t.diag.clerk }) ∧
        (bit (r.w 2) 31 = true → 2 ≤ fld (r.w 2) 0 8 → fld (r.w 2) 0 8 ≤ 6 →
          counterGroup t.diag (fld (r.w 2) 0 8) = some (l.map fun _ => 0))) ∧
    (∀ results, High r 1 → fld (r.w 2) 7 25 = 0 → (∀ c ∈ s.claims, c.2 ≠ oSelftest) →
      let l := ((List.range 7).filter fun i => bit (r.w 2) i).map fun i => (i, testEnd s results i)
      Asks (.selftest r results) r s
        [packW [(testBits l fun x => decide (x = .skipped), 16), (testBits l fun x => (failureOf x).isSome, 8),
           (testBits l fun x => decide (x = .passed), 0)], w32 ((l.findSome? fun x => failureOf x.2).getD 0)]) ∧
    (∀ reply, rawWrite r = true → High r (2 + rawCount r) → policyFlag s 2 = true → Refuses (.diagRaw r reply) r s .auth 4) ∧
    (∀ reply, rawWrite r = false → High r 2 → fld (r.w 2) 26 5 = 0 → rawSpace r = 0 → rawCount r ≠ 0 → rawBad s r = none →
      clerkRead s (rawAddr r) (4 * rawCount r) = none →
      ∃ t, exec (.diagRaw r reply) s = .next t ∧ t.mem.cells = s.mem.cells ∧ t.mem.writes = s.mem.writes ∧ t.funcs = s.funcs ∧
        Answered t r .ok 0 (memWords (seeAs .clerk s) (rawAddr r) (rawCount r))) ∧
    (∀ reply, rawWrite r = true → High r (2 + rawCount r) → policyFlag s 2 = false → fld (r.w 2) 26 5 = 0 → rawSpace r = 1 →
      rawCount r ≠ 0 → rawBad s r = none → bit (r.w 3) 8 = false → s.clk.domains.length = 18 →
      ∃ t, exec (.diagRaw r reply) s = .next t ∧ Answered t r .ok 0 [] ∧
        (t.clk.domains.getD (fld (r.w 3) 0 5) {}).rawDiv = some (r.w 4).toNat ∧
        ((s.clk.domains.getD (fld (r.w 3) 0 5) {}).switching = false →
          (t.clk.domains.getD (fld (r.w 3) 0 5) {}).target = (r.w 4).toNat) ∧ t.funcs = s.funcs ∧ t.mem.cells = s.mem.cells)

/-- R179, R191, R193, R560, R561: a bridge that is disabled stays so; the scrubber counts a correctable word and marks a damaged one, and
changes no byte; a fatal error latches veto 0x09, closes the mailboxes and, where the handler runs, leaves a dump of causes 1 to 4
unless one is held. Outside their conditions they do nothing. -/
def Obligations.ErrorsAndPanic : Prop :=
  ∀ s : State,
    (∀ b : Fin 3, s.power.life = .up → (s.mem.bridges.getD b.val { enabled := false }).enabled = true →
      ∃ t, exec (.bridgeDisabled b) s = .next t ∧ (t.mem.bridges.getD b.val { enabled := false }).enabled = false ∧
        (t.mem.bridges.any (·.enabled) = true → t.mem.cells = s.mem.cells ∧ t.funcs = s.funcs ∧ t.pair = s.pair) ∧
        (t.mem.bridges.any (·.enabled) = false → s.clerk.mbOpen = true → s.diag.panic = none →
          t.pair.vetoes.getLsbD 9 = true ∧ t.clerk.mbOpen = false)) ∧
    (∀ b : Fin 3, (s.mem.bridges.getD b.val { enabled := false }).enabled = false → exec (.bridgeDisabled b) s = .next s) ∧
    (∀ (a : BitVec 48) (f : ScrubFind), s.power.life = .up → isSram a.toNat = true ∨ inWell a.toNat = true →
      ∃ t, exec (.patrolScrub a f) s = .next t ∧ t.mem.cells = s.mem.cells ∧ t.funcs = s.funcs ∧
        (f = .clean → damagedIn s a.toNat 1 = none → t = s) ∧
        (f = .uncorrectable → damagedIn s a.toNat 1 = none → t.mem.damaged.contains (eccWord a.toNat) = true) ∧
        (f = .corrected → t.mem.damaged = s.mem.damaged)) ∧
    (∀ (a : BitVec 48) (f : ScrubFind), isSram a.toNat = false → inWell a.toNat = false → exec (.patrolScrub a f) s = .next s) ∧
    (∀ (c : Fin 8) (d : BitVec 16) (runs good : Bool), c ≠ 0 → s.power.life = .up → s.diag.panic = none →
      ∃ t, exec (.panic c d runs good) s = .next t ∧ t.clerk.mbOpen = false ∧ t.pair.vetoes.getLsbD 9 = true ∧
        (runs = true → t.diag.panic = some { cause := BitVec.ofNat 16 c.val, dumped := decide (c.val ≤ 4) && !s.clerk.dumpValid }) ∧
        (runs = true → c.val ≤ 4 → t.clerk.dumpValid = true) ∧
        (runs = true → c.val ≤ 4 → s.clerk.dumpValid = false → t.clerk.dumpCause = BitVec.ofNat 16 c.val ∧ t.clerk.fatal = true ∧
          t.clerk.dumpPtr = aDump) ∧
        (runs = false → t.diag.panic = none ∧ t.mem.cells = s.mem.cells)) ∧
    (∀ (c : Fin 8) (d : BitVec 16) (runs good : Bool), c = 0 ∨ s.diag.panic.isSome = true → exec (.panic c d runs good) s = .next s)

/-! ### The link and the well window (chapters 5 and 6) -/

/-- R132, R136, R161, R162: DL_DOWN of an active link resets configuration space, stops the rings and declares host loss; DL_ACTIVE brings the
link up as CXL or PCI Express; Bus Master Enable clears; D3hot is entered; HDM_COMMIT takes base, size and ways of R136 and marks others in
error, and a locked decoder takes nothing. What does not reach the module changes nothing. R137, R138, R141: on an active CXL link with memory
active and the decoder committed, CXL_MEM_READ of undamaged words of the host region completes with what the host sees there, and CXL_MEM_WRITE
there completes with its enabled bytes stored, every other byte of memory as it was. -/
def Obligations.LinkEvents : Prop :=
  ∀ s : State, Sound s →
    (s.link.up = true → ∃ t, exec .dlDown s = .next t ∧ t.link.up = false ∧ t.link.bme = false ∧ t.link.d3hot = false ∧
      t.link.hdmCommitted = false ∧ t.link.hostLoss = true ∧ t.msix.enable = false ∧ (∀ p : Fin 8, (pumpOf t p.val).state ≠ .running) ∧
      t.funcs = s.funcs ∧ ((∀ p : Fin 8, (pumpOf s p.val).inProg = []) → t.mem.cells = s.mem.cells)) ∧
    (s.link.up = false → exec .dlDown s = .next s) ∧
    (∀ cxl lanes gen, s.power.life = .up → exec (.dlActive ⟨cxl, lanes, gen⟩) s =
      .next { s with link := { s.link with up := true, pcieOnly := !cxl, lanes := lanes, gen := gen } }) ∧
    (∀ cxl lanes gen, s.power.life ≠ .up → exec (.dlActive ⟨cxl, lanes, gen⟩) s = .next s) ∧
    (configReaches s = true → s.link.bme = true → ∃ t, exec .busMasterEnableClear s = .next t ∧ t.link.bme = false ∧
      t.link.up = true ∧ ∀ p : Fin 8, (pumpOf t p.val).state ≠ .running) ∧
    (s.link.bme = false ∨ configReaches s = false → exec .busMasterEnableClear s = .next s) ∧
    (configReaches s = true → s.link.d3hot = false → ∃ t, exec .d3hotEntry s = .next t ∧ t.link.d3hot = true ∧ t.link.up = true ∧
      ∀ p : Fin 8, (pumpOf t p.val).state ≠ .running) ∧
    (s.link.d3hot = true ∨ configReaches s = false → exec .d3hotEntry s = .next s) ∧
    (∀ (base size : BitVec 64) (ways : Nat) (lock : Bool), hostReaches s = true →
      (s.link.hdmCommitted && s.link.hdmLock) = false →
      let good := decide (base.toNat % 0x10000000 = 0) && decide (size.toNat = 0x800000000) && decide (ways = 1)
      let l : Link := { s.link with hdmBase := base, hdmSize := size, hdmWays := ways, hdmCommitted := good, hdmError := !good,
                                    hdmLock := lock && good }
      exec (.hdmCommit base size ways lock) s = .next { s with link := l }) ∧
    (∀ (base size : BitVec 64) (ways : Nat) (lock : Bool),
      hostReaches s = false ∨ (s.link.hdmCommitted && s.link.hdmLock) = true → exec (.hdmCommit base size ways lock) s = .next s) ∧
    (∀ (hpa : BitVec 64) (n : Nat), s.link.up = true → s.link.d3hot = false → s.power.life = .up → s.link.pcieOnly = false →
      s.link.hdmCommitted = true → s.link.memActive = true → s.link.hdmBase.toNat ≤ hpa.toNat →
      hpa.toNat < s.link.hdmBase.toNat + 0x800000000 →
      let off := hpa.toNat - s.link.hdmBase.toNat
      0x40000000 ≤ off → off + 4 * n ≤ 0x7B0000000 → 0 < n → damagedIn (seeAs .host s) (aPublished + off) (4 * n) = none →
      ∃ t, exec (.cxlMemRead hpa n) s = .next t ∧ t.clerk.readData = memWords (seeAs .host s) (aPublished + off) n ∧
        t.clerk.readPoison = false ∧ t.mem = s.mem ∧ t.funcs = s.funcs ∧ t.mbs = s.mbs ∧ t.link = s.link) ∧
    (∀ (hpa : BitVec 64) (bytes : List (Option Byte)), s.link.up = true → s.link.d3hot = false → s.power.life = .up →
      s.link.pcieOnly = false → s.link.hdmCommitted = true → s.link.memActive = true → s.link.hdmBase.toNat ≤ hpa.toNat →
      hpa.toNat < s.link.hdmBase.toNat + 0x800000000 →
      let off := hpa.toNat - s.link.hdmBase.toNat
      0x40000000 ≤ off → off + bytes.length ≤ 0x7B0000000 →
      ∃ t, exec (.cxlMemWrite hpa bytes) s = .next t ∧ t.funcs = s.funcs ∧ t.mbs = s.mbs ∧ t.clerk = s.clerk ∧ t.link = s.link ∧
        (∀ i v, bytes[i]? = some (some v) → cellRead t.mem.cells (aPublished + off + i) = v) ∧
        (∀ i, bytes[i]? = some none → cellRead t.mem.cells (aPublished + off + i) = cellRead s.mem.cells (aPublished + off + i)) ∧
        ∀ a, a < aPublished + off ∨ aPublished + off + bytes.length ≤ a → cellRead t.mem.cells a = cellRead s.mem.cells a)

/-- R137, R138, R141, R193: the host's window: an access outside the committed decoder does nothing; a read answers what the host sees, zero
before memory is active and outside the readable regions, and poison where a word is damaged; a write stores its enabled bytes in the host
region and no others, and elsewhere stores nothing. -/
def Obligations.WellWindow : Prop :=
  ∀ (hpa : BitVec 64) (s : State), Sound s →
    (∀ n bytes, windowOff s hpa.toNat = none → exec (.cxlMemRead hpa n) s = .next s ∧ exec (.cxlMemWrite hpa bytes) s = .next s) ∧
    (∀ off n, windowOff s hpa.toNat = some off →
      ∃ t, exec (.cxlMemRead hpa n) s = .next t ∧ t.mem.cells = s.mem.cells ∧ t.mem.writes = s.mem.writes ∧ t.funcs = s.funcs ∧
        (s.link.memActive = false → t.clerk.readData = List.replicate n 0 ∧ t.clerk.readPoison = false) ∧
        (s.link.memActive = true →
          t.clerk.readData = (List.range n).map (fun i =>
            if windowReads (off + 4 * i) then memWord (seeAs .host s) (aPublished + off + 4 * i) else 0) ∧
          (windowReads off = true → t.clerk.readPoison = (damagedIn (seeAs .host s) (aPublished + off) (4 * n)).isSome) ∧
          (windowReads off = false → t.clerk.readPoison = false))) ∧
    (∀ (off : Nat) (bytes : List (Option Byte)), windowOff s hpa.toNat = some off →
      ∃ t, exec (.cxlMemWrite hpa bytes) s = .next t ∧ t.funcs = s.funcs ∧ t.mbs = s.mbs ∧ t.clerk = s.clerk ∧
        (s.link.memActive = true → windowWrites off = true → ∀ a : Nat, cellRead t.mem.cells a =
          match (if aPublished + off ≤ a then bytes.getD (a - (aPublished + off)) none else none) with
          | some v => v
          | none => cellRead s.mem.cells a) ∧
        (s.link.memActive = false ∨ windowWrites off = false → t.mem.cells = s.mem.cells ∧ t.mem.writes = s.mem.writes ∧
          t.link.dropArmed = false))

/-! ### Resets, feeds and references (chapters 2, 3 and 16) -/

/-- R79, R92, R134, R135, R531, R561: a reset of each kind leaves the state of `WasReset` with its RESET_CAUSE, at once where REFCLK is present
and held until it returns where it is not: a WARM_RESET with its KEY, PERST#, the Assayer's own, the one after a panic, a cold start, and
the restart after a clock loss. A wrong KEY is recorded and resets nothing. -/
def Obligations.Resets : Prop :=
  ∀ s : State,
    (∀ v : Word, hostReaches s = true → fld v 16 16 = 0xC1E4 → bit v 0 = true → ∃ t, exec (.warmReset v) s = .next t ∧ WasReset s t 3) ∧
    (∀ v : Word, hostReaches s = true → fld v 16 16 = 0xC1E4 → bit v 0 = false → exec (.warmReset v) s = .next s) ∧
    (∀ v : Word, hostReaches s = true → fld v 16 16 ≠ 0xC1E4 → ∃ t, exec (.warmReset v) s = .next t ∧ Served s t) ∧
    (∀ v : Word, hostReaches s = false → exec (.warmReset v) s = .next s) ∧
    (s.power.life = .up → ∃ t, exec .perstReset s = .next t ∧ WasReset s t 2) ∧
    (s.power.life = .unpowered → exec .perstReset s = .next s) ∧
    (s.power.life = .up → s.boot.resetReq = true ∨ s.pair.vetoes.getLsbD 6 = true →
      ∃ t, exec .assayerReset s = .next t ∧ WasReset s t 7) ∧
    (s.boot.resetReq = false → s.pair.vetoes.getLsbD 6 = false → exec .assayerReset s = .next s) ∧
    (s.power.life = .up → s.diag.panic.isSome = true → ∃ t, exec .panicReset s = .next t ∧ WasReset s t 6) ∧
    (s.diag.panic = none → exec .panicReset s = .next s) ∧
    (s.power.life ≠ .up → s.power.needCold = true → s.power.feedA = true ∨ s.power.feedB = true → s.power.sdLatch = false →
      ∃ t, exec .coldStart s = .next t ∧ WasReset s t (if s.power.regOff then 1 else 5)) ∧
    (s.power.life = .up → exec .coldStart s = .next s) ∧
    (s.power.life = .inReset → s.power.refLost = true → s.power.needCold = false →
      ∃ t, exec .clockLossRestart s = .next t ∧ t.power.life = .up ∧
        WasReset { s with clk := { s.clk with qualRefclk := true } } t (if s.power.waitCause = 0 then 4 else s.power.waitCause)) ∧
    (s.power.refLost = false → exec .clockLossRestart s = .next s)

/-- R30 to R33, R45, R78, R465, R466: a lost feed, both lost, the points of the hold-up sequence and a feed that returns at each of them;
the charged store; the loss of every reference; the steps of a thermal shutdown. Each happens only in its state. -/
def Obligations.FeedsAndShutdown : Prop :=
  ∀ s : State,
    (∀ (feed : Fin 2) (ov : Bool), let b := decide (feed.val = 1)
      (feedOk s b = true → feedOk s (!b) = true → ∃ t, exec (.feedLost feed ov) s = .next t ∧ Served (feedSet b false ov s) t ∧
        t.power = (feedSet b false ov s).power) ∧
      (feedOk s b = false ∨ feedOk s (!b) = false → exec (.feedLost feed ov) s = .next s) ∧
      (feedOk s b = true → feedOk s (!b) = false →
        ∃ t, exec (.bothFeedsLost feed ov) s = .next t ∧ t.power.charged = false ∧ t.power.feedA = false ∧ t.power.feedB = false ∧
          t.power.sdLatch = false ∧ (s.power.life ≠ .unpowered → t.power.loss = .lost) ∧ t.funcs = s.funcs)) ∧
    (∀ feed : Fin 2, let b := decide (feed.val = 1)
      (feedOk s b = false →
        (s.power.loss = .none ∨ s.power.loss = .lost → ∃ t, exec (.feedPresent feed) s = .next t ∧ feedOk t b = true ∧
          t.power.loss = .none ∧ t.power.life = s.power.life ∧ t.funcs = s.funcs ∧ t.pair = s.pair) ∧
        (s.power.loss = .authDropped → ∃ t, exec (.feedPresent feed) s = .next t ∧ feedOk t b = true ∧ t.power.loss = .none ∧
          t.pair.vetoes.getLsbD 8 = false) ∧
        (s.power.loss = .released → ∃ t, exec (.feedPresent feed) s = .next t ∧ feedOk t b = true ∧ t.power.life = .inReset ∧
          t.power.needCold = true ∧ ∀ f ∈ fnIds, fnState t f = .off)) ∧
      (feedOk s b = true → exec (.feedPresent feed) s = .next s)) ∧
    (s.power.loss = .lost → ∃ t, exec .holdupAuthDrop s = .next t ∧ t.power.loss = .authDropped ∧
      (s.power.life = .up → t.pair.vetoes.getLsbD 8 = true ∧ t.stage.parked = true ∧ t.stage.oring = false)) ∧
    (s.power.loss ≠ .lost → exec .holdupAuthDrop s = .next s) ∧
    (s.power.loss = .authDropped → ∃ t, exec .holdupRopeRelease s = .next t ∧ t.power.loss = .released ∧ t.rope.released = true) ∧
    (s.power.loss ≠ .authDropped → exec .holdupRopeRelease s = .next s) ∧
    (s.power.feedA = false → s.power.feedB = false → s.power.life ≠ .unpowered →
      ∃ t, exec .holdupExpired s = .next t ∧ t.power.life = .unpowered ∧ t.power.regOff = true ∧ t.power.needCold = true ∧
        ∀ f ∈ fnIds, fnState t f = .off) ∧
    (s.power.feedA = true ∨ s.power.feedB = true → exec .holdupExpired s = .next s) ∧
    (s.power.charged = false → s.power.feedA = true ∨ s.power.feedB = true → s.power.sdLatch = false →
      ∃ t, exec .holdupCharged s = .next t ∧ t.power.charged = true ∧ t.funcs = s.funcs) ∧
    (s.power.charged = true → exec .holdupCharged s = .next s) ∧
    (s.power.life = .up → refBest s = none → ∃ t, exec .lossOfEveryReference s = .next t ∧ t.power.life = .inReset ∧
      t.power.refLost = true ∧ t.pair.req = false ∧ t.stage.parked = true ∧ t.clerk.ropeRole = 0 ∧ t.rope.openA = false ∧
      t.rope.openB = false ∧ (∀ m ∈ t.mbs, m.busy = none)) ∧
    ((refBest s).isSome = true → exec .lossOfEveryReference s = .next s) ∧
    (∀ n d, s.therm.shutdown = some (n, d) → s.therm.sdReleased = false → s.power.life = .up →
      ∃ t, exec .shutdownRopeRelease s = .next t ∧ t.therm.sdReleased = true ∧ t.rope.released = true ∧
        (holdupGood s = true → ∃ e l, t.diag.summaries = e :: l ∧ fld (e.getD 0 0) 24 8 = 1)) ∧
    (s.therm.shutdown = none → exec .shutdownRopeRelease s = .next s ∧ exec .shutdownRegulatorsOff s = .next s) ∧
    (s.therm.shutdown.isSome = true → s.therm.sdReleased = true → s.power.life ≠ .unpowered →
      ∃ t, exec .shutdownRegulatorsOff s = .next t ∧ t.power.life = .unpowered ∧ t.power.sdLatch = true)

/-- R56, R57, R62, R68, R77, R503: reference inputs gain and lose qualification; a forced switch is counted for its domain; a watched domain
that is declared reads as declared, latches veto 0x04 where R503 says so, and a stopped loop faults STAGE with cause 0x0608; a
declaration ends. -/
def Obligations.ReferencesAndDomains : Prop :=
  ∀ s : State, s.clk.domains.length = 18 → Sound s →
    (∀ i : RefIn, s.power.life = .up → refQual s i = false → refArrives s i = true →
      ∃ t, exec (.refInputQualified i) s = .next t ∧ refQual t i = true ∧ t.funcs = s.funcs) ∧
    (∀ i : RefIn, refQual s i = true → ∃ t, exec (.refInputLost i) s = .next t ∧ refQual t i = false ∧ t.funcs = s.funcs) ∧
    (∀ i : RefIn, refQual s i = false → exec (.refInputLost i) s = .next s) ∧
    (∀ i : RefIn, refQual s i = true → exec (.refInputQualified i) s = .next s) ∧
    (∀ d : Fin 18, s.power.life = .up →
      ∃ t, exec (.forcedSwitch d) s = .next t ∧ t.clk.forcedSwitches = satAdd 65535 s.clk.forcedSwitches 1 ∧
        (t.clk.domains.getD d.val {}).forced = satAdd 65535 (s.clk.domains.getD d.val {}).forced 1 ∧
        (t.clk.domains.getD d.val {}).switching = false ∧ t.funcs = s.funcs) ∧
    (∀ d : Fin 18, domWatched s d.val = true →
      (∃ t, exec (.domainDeclaredStopped d) s = .next t ∧ (t.clk.domains.getD d.val {}).declared = .stopped ∧
        ((s.clk.domains.getD d.val {}).declared = .none → domVetoed d.val = true → t.pair.vetoes.getLsbD 4 = true) ∧
        ((s.clk.domains.getD d.val {}).declared = .none → d.val = 15 → fnState s fSTAGE = .running →
          fnState t fSTAGE = .faulted ∧ (fnRec t fSTAGE).faultCause = 0x0608 ∧ t.stage.parked = true)) ∧
      (∃ t, exec (.domainDeclaredOffFrequency d) s = .next t ∧ (t.clk.domains.getD d.val {}).declared = .offFrequency)) ∧
    (∀ d : Fin 18, domWatched s d.val = false →
      exec (.domainDeclaredStopped d) s = .next s ∧ exec (.domainDeclaredOffFrequency d) s = .next s) ∧
    (∀ d : Fin 18, s.power.life = .up → (s.clk.domains.getD d.val {}).declared ≠ .none →
      ∃ t, exec (.domainDeclarationEnds d) s = .next t ∧ (t.clk.domains.getD d.val {}).declared = .none ∧ t.funcs = s.funcs) ∧
    (∀ d : Fin 18, (s.clk.domains.getD d.val {}).declared = .none → exec (.domainDeclarationEnds d) s = .next s)

/-- R69, R71, R81, R185, R261: at a stroke boundary the count advances by one, the tick returns to zero, accepted divisions are in force, and
the stroke flags, signals and barriers are clear; without power or before PLL_REF has locked nothing happens. R40, R41, R283: a MARK edge
is noted with its tick (the ticks since reset before its stroke, and within it), unless it follows another within 10 ticks; with its
marker's gate off, without a loop clock, or at a tick that the stroke has not, it is none. -/
def Obligations.BoundaryAndMarks : Prop :=
  ∀ s : State,
    (∀ env : BoundaryEnv, s.power.life = .up → (s.clk.plls.getD 0 {}).locked = true →
      ∃ t, exec (.strokeBoundary env) s = .next t ∧ t.clk.stroke = s.clk.stroke + 1 ∧ t.clk.tick = 0 ∧ t.clk.nextDivs = none ∧
        (t.clk.strokeDiv, t.clk.loopDiv) = divsSet s ∧
        (s.clerk.bootStage = 5 → t.lists.flags = 0 ∧ t.lists.signals = [] ∧ t.lists.barriers = [])) ∧
    (∀ env : BoundaryEnv, s.power.life ≠ .up ∨ (s.clk.plls.getD 0 {}).locked = false → exec (.strokeBoundary env) s = .next s) ∧
    (∀ (n : Fin 24) (rising : Bool) (k : Stroke) (tick : BitVec 20), s.pipe.marks.length = 24 →
      let takes := gateOn s (if n.val < 12 then 9 else 10) && loopClock s && decide (k = s.clk.stroke) &&
        decide (tick.toNat < s.clk.strokeDiv) && decide (tick.toNat < s.clk.strokeLen)
      let x := s.clk.base + tick.toNat
      (takes = false → exec (.markEdge n rising k tick) s = .next s) ∧
      (takes = true → (∀ p, (s.pipe.marks.getD n.val {}).last = some p → p + 10 < x ∨ x + 10 < p) →
        ∃ t, exec (.markEdge n rising k tick) s = .next t ∧ (t.pipe.marks.getD n.val {}).last = some x ∧
          t.pipe.marked.length = s.pipe.marked.length + 1 ∧ t.mem = s.mem ∧ t.funcs = s.funcs) ∧
      (∀ p, takes = true → (s.pipe.marks.getD n.val {}).last = some p → x ≤ p + 10 → p ≤ x + 10 →
        exec (.markEdge n rising k tick) s = .next (markDrop n.val s)))
end

