-- ==== Sys2Proof/Laws/Dispatch.lean ====
section
/-! SUPPORT. The dispatch, one command at a time: what `exec` does with each constructor. -/

namespace Sys2Proof.Machine

theorem exec_nop (r : Req) (s : State) : exec (.nop r) s = execNop r s := rfl
theorem exec_eventRingSet (r : Req) (s : State) : exec (.eventRingSet r) s = execEventRingSet r s := rfl
theorem exec_funcQuery (r : Req) (s : State) : exec (.funcQuery r) s = execFuncQuery r s := rfl
theorem exec_funcOn (r : Req) (s : State) : exec (.funcOn r) s = execFuncOn r s := rfl
theorem exec_funcOff (r : Req) (s : State) : exec (.funcOff r) s = execFuncOff r s := rfl
theorem exec_funcStart (r : Req) (s : State) : exec (.funcStart r) s = execFuncStart r s := rfl
theorem exec_funcStop (r : Req) (s : State) : exec (.funcStop r) s = execFuncStop r s := rfl
theorem exec_funcClear (r : Req) (test : TestResult) (s : State) : exec (.funcClear r test) s = execFuncClear r test s := rfl
theorem exec_claimQuery (r : Req) (s : State) : exec (.claimQuery r) s = execClaimQuery r s := rfl
theorem exec_clockQuery (r : Req) (s : State) : exec (.clockQuery r) s = execClockQuery r s := rfl
theorem exec_strokeConfig (r : Req) (s : State) : exec (.strokeConfig r) s = execStrokeConfig r s := rfl
theorem exec_clockConfig (r : Req) (s : State) : exec (.clockConfig r) s = execClockConfig r s := rfl
theorem exec_clockMeasure (r : Req) (s : State) : exec (.clockMeasure r) s = execClockMeasure r s := rfl
theorem exec_clockMeasureComplete (count : Nat) (measStopped gateStopped : Bool) (s : State) : exec (.clockMeasureComplete count measStopped gateStopped) s = execClockMeasureComplete count measStopped gateStopped s := rfl
theorem exec_clockGate (r : Req) (s : State) : exec (.clockGate r) s = execClockGate r s := rfl
theorem exec_pumpRingSet (r : Req) (s : State) : exec (.pumpRingSet r) s = execPumpRingSet r s := rfl
theorem exec_pumpStart (r : Req) (prod : HostRead) (s : State) : exec (.pumpStart r prod) s = execPumpStart r prod s := rfl
theorem exec_pumpStop (r : Req) (s : State) : exec (.pumpStop r) s = execPumpStop r s := rfl
theorem exec_pumpClear (r : Req) (selfCheck : TestResult) (s : State) : exec (.pumpClear r selfCheck) s = execPumpClear r selfCheck s := rfl
theorem exec_pumpQuery (r : Req) (s : State) : exec (.pumpQuery r) s = execPumpQuery r s := rfl
theorem exec_pumpWake (p : Fin 8) (prod : HostRead) (s : State) : exec (.pumpWake p prod) s = execPumpWake p prod s := rfl
theorem exec_pumpDescriptorFetch (p : Fin 8) (d : HostRead) (s : State) : exec (.pumpDescriptorFetch p d) s = execPumpDescriptorFetch p d s := rfl
theorem exec_pumpDescriptorComplete (p : Fin 8) (data : List Word) (s : State) : exec (.pumpDescriptorComplete p data) s = execPumpDescriptorComplete p data s := rfl
theorem exec_pumpTransferFault (p : Fin 8) (cause : Fin 8) (moved : Nat) (addr : Nat) (linkAllows : Bool) (s : State) : exec (.pumpTransferFault p cause moved addr linkAllows) s = execPumpTransferFault p cause moved addr linkAllows s := rfl
theorem exec_listSubmit (r : Req) (desc : HostRead) (s : State) : exec (.listSubmit r desc) s = execListSubmit r desc s := rfl
theorem exec_listRemove (r : Req) (s : State) : exec (.listRemove r) s = execListRemove r s := rfl
theorem exec_listQuery (r : Req) (s : State) : exec (.listQuery r) s = execListQuery r s := rfl
theorem exec_schedQuery (r : Req) (s : State) : exec (.schedQuery r) s = execSchedQuery r s := rfl
theorem exec_modelLoad (r : Req) (desc : HostRead) (s : State) : exec (.modelLoad r desc) s = execModelLoad r desc s := rfl
theorem exec_modelUnload (r : Req) (s : State) : exec (.modelUnload r) s = execModelUnload r s := rfl
theorem exec_modelQuery (r : Req) (s : State) : exec (.modelQuery r) s = execModelQuery r s := rfl
theorem exec_bucketSet (r : Req) (s : State) : exec (.bucketSet r) s = execBucketSet r s := rfl
theorem exec_bucketQuery (r : Req) (s : State) : exec (.bucketQuery r) s = execBucketQuery r s := rfl
theorem exec_targetSet (r : Req) (s : State) : exec (.targetSet r) s = execTargetSet r s := rfl
theorem exec_pipeConfig (r : Req) (s : State) : exec (.pipeConfig r) s = execPipeConfig r s := rfl
theorem exec_pipeQuery (r : Req) (s : State) : exec (.pipeQuery r) s = execPipeQuery r s := rfl
theorem exec_roleSet (r : Req) (s : State) : exec (.roleSet r) s = execRoleSet r s := rfl
theorem exec_ropeConfig (r : Req) (s : State) : exec (.ropeConfig r) s = execRopeConfig r s := rfl
theorem exec_ropeQuery (r : Req) (s : State) : exec (.ropeQuery r) s = execRopeQuery r s := rfl
theorem exec_ropePortQuery (r : Req) (s : State) : exec (.ropePortQuery r) s = execRopePortQuery r s := rfl
theorem exec_ropeCmis (r : Req) (reply : CmisReply) (s : State) : exec (.ropeCmis r reply) s = execRopeCmis r reply s := rfl
theorem exec_ropeRead (r : Req) (s : State) : exec (.ropeRead r) s = execRopeRead r s := rfl
theorem exec_stageConfig (r : Req) (s : State) : exec (.stageConfig r) s = execStageConfig r s := rfl
theorem exec_loopCoef (r : Req) (s : State) : exec (.loopCoef r) s = execLoopCoef r s := rfl
theorem exec_loopOpen (r : Req) (s : State) : exec (.loopOpen r) s = execLoopOpen r s := rfl
theorem exec_loopOpenParked (s : State) : exec (.loopOpenParked) s = execLoopOpenParked s := rfl
theorem exec_loopClose (r : Req) (s : State) : exec (.loopClose r) s = execLoopClose r s := rfl
theorem exec_stageMode (r : Req) (s : State) : exec (.stageMode r) s = execStageMode r s := rfl
theorem exec_stageQuery (r : Req) (s : State) : exec (.stageQuery r) s = execStageQuery r s := rfl
theorem exec_traceArm (r : Req) (s : State) : exec (.traceArm r) s = execTraceArm r s := rfl
theorem exec_traceDisarm (r : Req) (s : State) : exec (.traceDisarm r) s = execTraceDisarm r s := rfl
theorem exec_traceQuery (r : Req) (s : State) : exec (.traceQuery r) s = execTraceQuery r s := rfl
theorem exec_traceTrigger (die : Fin 2) (s : State) : exec (.traceTrigger die) s = execTraceTrigger die s := rfl
theorem exec_traceCopied (die : Fin 2) (s : State) : exec (.traceCopied die) s = execTraceCopied die s := rfl
theorem exec_chainConfig (r : Req) (s : State) : exec (.chainConfig r) s = execChainConfig r s := rfl
theorem exec_chainBal (r : Req) (s : State) : exec (.chainBal r) s = execChainBal r s := rfl
theorem exec_chainQuery (r : Req) (s : State) : exec (.chainQuery r) s = execChainQuery r s := rfl
theorem exec_chainRead (r : Req) (s : State) : exec (.chainRead r) s = execChainRead r s := rfl
theorem exec_chainId (r : Req) (s : State) : exec (.chainId r) s = execChainId r s := rfl
theorem exec_estConfig (r : Req) (s : State) : exec (.estConfig r) s = execEstConfig r s := rfl
theorem exec_estModel (r : Req) (s : State) : exec (.estModel r) s = execEstModel r s := rfl
theorem exec_estQuery (r : Req) (s : State) : exec (.estQuery r) s = execEstQuery r s := rfl
theorem exec_estRead (r : Req) (s : State) : exec (.estRead r) s = execEstRead r s := rfl
theorem exec_estAnchor (r : Req) (s : State) : exec (.estAnchor r) s = execEstAnchor r s := rfl
theorem exec_estLifeRead (r : Req) (s : State) : exec (.estLifeRead r) s = execEstLifeRead r s := rfl
theorem exec_estSave (r : Req) (s : State) : exec (.estSave r) s = execEstSave r s := rfl
theorem exec_thermalConfig (r : Req) (s : State) : exec (.thermalConfig r) s = execThermalConfig r s := rfl
theorem exec_thermalQuery (r : Req) (s : State) : exec (.thermalQuery r) s = execThermalQuery r s := rfl
theorem exec_powerQuery (r : Req) (s : State) : exec (.powerQuery r) s = execPowerQuery r s := rfl
theorem exec_capSet (r : Req) (s : State) : exec (.capSet r) s = execCapSet r s := rfl
theorem exec_ledgerTag (r : Req) (desc : HostRead) (s : State) : exec (.ledgerTag r desc) s = execLedgerTag r desc s := rfl
theorem exec_ledgerRead (r : Req) (s : State) : exec (.ledgerRead r) s = execLedgerRead r s := rfl
theorem exec_ledgerClose (r : Req) (s : State) : exec (.ledgerClose r) s = execLedgerClose r s := rfl
theorem exec_ledgerQuery (r : Req) (s : State) : exec (.ledgerQuery r) s = execLedgerQuery r s := rfl
theorem exec_jobEnergyQuery (r : Req) (s : State) : exec (.jobEnergyQuery r) s = execJobEnergyQuery r s := rfl
theorem exec_pairConfig (r : Req) (s : State) : exec (.pairConfig r) s = execPairConfig r s := rfl
theorem exec_pairQuery (r : Req) (s : State) : exec (.pairQuery r) s = execPairQuery r s := rfl
theorem exec_pairHandover (r : Req) (s : State) : exec (.pairHandover r) s = execPairHandover r s := rfl
theorem exec_fwQuery (r : Req) (s : State) : exec (.fwQuery r) s = execFwQuery r s := rfl
theorem exec_fwWrite (r : Req) (image : ImageInfo) (s : State) : exec (.fwWrite r image) s = execFwWrite r image s := rfl
theorem exec_fwWriteComplete (writeOk : Bool) (s : State) : exec (.fwWriteComplete writeOk) s = execFwWriteComplete writeOk s := rfl
theorem exec_fwCommit (r : Req) (s : State) : exec (.fwCommit r) s = execFwCommit r s := rfl
theorem exec_slotBCopyComplete (ok : Bool) (s : State) : exec (.slotBCopyComplete ok) s = execSlotBCopyComplete ok s := rfl
theorem exec_attestQuote (r : Req) (s : State) : exec (.attestQuote r) s = execAttestQuote r s := rfl
theorem exec_attestLogRead (r : Req) (s : State) : exec (.attestLogRead r) s = execAttestLogRead r s := rfl
theorem exec_attestCert (r : Req) (s : State) : exec (.attestCert r) s = execAttestCert r s := rfl
theorem exec_policySet (r : Req) (desc : HostRead) (s : State) : exec (.policySet r desc) s = execPolicySet r desc s := rfl
theorem exec_policyQuery (r : Req) (s : State) : exec (.policyQuery r) s = execPolicyQuery r s := rfl
theorem exec_dumpRead (r : Req) (s : State) : exec (.dumpRead r) s = execDumpRead r s := rfl
theorem exec_dumpRelease (r : Req) (s : State) : exec (.dumpRelease r) s = execDumpRelease r s := rfl
theorem exec_norSummaryRead (r : Req) (s : State) : exec (.norSummaryRead r) s = execNorSummaryRead r s := rfl
theorem exec_counterRead (r : Req) (s : State) : exec (.counterRead r) s = execCounterRead r s := rfl
theorem exec_selftest (r : Req) (results : List TestResult) (s : State) : exec (.selftest r results) s = execSelftest r results s := rfl
theorem exec_diagRaw (r : Req) (reply : CmisReply) (s : State) : exec (.diagRaw r reply) s = execDiagRaw r reply s := rfl
theorem exec_load (t : Fin 48) (e : Line) (wait : Nat) (s : State) : exec (.load t e wait) s = execLoad t e wait s := rfl
theorem exec_store (t : Fin 48) (e : Line) (wait : Nat) (s : State) : exec (.store t e wait) s = execStore t e wait s := rfl
theorem exec_gemm (t : Fin 48) (e : Line) (wait : Nat) (s : State) : exec (.gemm t e wait) s = execGemm t e wait s := rfl
theorem exec_scan (t : Fin 48) (e : Line) (wait : Nat) (s : State) : exec (.scan t e wait) s = execScan t e wait s := rfl
theorem exec_vec (t : Fin 48) (e : Line) (wait : Nat) (s : State) : exec (.vec t e wait) s = execVec t e wait s := rfl
theorem exec_reduce (t : Fin 48) (e : Line) (wait : Nat) (s : State) : exec (.reduce t e wait) s = execReduce t e wait s := rfl
theorem exec_bracket (t : Fin 48) (e : Line) (wait : Nat) (s : State) : exec (.bracket t e wait) s = execBracket t e wait s := rfl
theorem exec_ledger (t : Fin 48) (e : Line) (wait : Nat) (s : State) : exec (.ledger t e wait) s = execLedger t e wait s := rfl
theorem exec_sync (t : Fin 48) (e : Line) (s : State) : exec (.sync t e) s = execSync t e s := rfl
theorem exec_syncRelease (t : Fin 48) (wait : Nat) (s : State) : exec (.syncRelease t wait) s = execSyncRelease t wait s := rfl
theorem exec_signal (t : Fin 48) (e : Line) (s : State) : exec (.signal t e) s = execSignal t e s := rfl
theorem exec_halt (t : Fin 48) (e : Line) (s : State) : exec (.halt t e) s = execHalt t e s := rfl
theorem exec_ropeGet (t : Fin 48) (e : Line) (s : State) : exec (.ropeGet t e) s = execRopeGet t e s := rfl
theorem exec_ropePut (t : Fin 48) (e : Line) (s : State) : exec (.ropePut t e) s = execRopePut t e s := rfl
theorem exec_segmentStart (t : Fin 48) (listId : BitVec 16) (seg : Fin 64) (s : State) : exec (.segmentStart t listId seg) s = execSegmentStart t listId seg s := rfl
theorem exec_budgetAbort (t : Fin 48) (s : State) : exec (.budgetAbort t) s = execBudgetAbort t s := rfl
theorem exec_memoryAbort (t : Fin 48) (addr : BitVec 48) (loadStore : Bool) (s : State) : exec (.memoryAbort t addr loadStore) s = execMemoryAbort t addr loadStore s := rfl
theorem exec_accessAbort (t : Fin 48) (addr : BitVec 48) (loadStore : Bool) (s : State) : exec (.accessAbort t addr loadStore) s = execAccessAbort t addr loadStore s := rfl
theorem exec_pairComparison (p : Fin 2) (pt : PairMeeting) (s : State) : exec (.pairComparison p pt) s = execPairComparison p pt s := rfl
theorem exec_remoteRequest (member : BitVec 11) (off : BitVec 40) (op : RemoteAsk) (s : State) : exec (.remoteRequest member off op) s = execRemoteRequest member off op s := rfl
theorem exec_remoteAccessTimeout (t : Fin 48) (why : RemoteLoss) (s : State) : exec (.remoteAccessTimeout t why) s = execRemoteAccessTimeout t why s := rfl
theorem exec_strokeBoundary (env : BoundaryEnv) (s : State) : exec (.strokeBoundary env) s = execStrokeBoundary env s := rfl
theorem exec_sampleBoundary (codes : LoopCodes) (check : LoopCheck) (tripped : List Bool) (s : State) : exec (.sampleBoundary codes check tripped) s = execSampleBoundary codes check tripped s := rfl
theorem exec_refStarved (s : State) : exec (.refStarved) s = execRefStarved s := rfl
theorem exec_softStartRampEnd (s : State) : exec (.softStartRampEnd) s = execSoftStartRampEnd s := rfl
theorem exec_softStartLoopClose (s : State) : exec (.softStartLoopClose) s = execSoftStartLoopClose s := rfl
theorem exec_softStartRetry (s : State) : exec (.softStartRetry) s = execSoftStartRetry s := rfl
theorem exec_voltageModeExit (s : State) : exec (.voltageModeExit) s = execVoltageModeExit s := rfl
theorem exec_fastLimitTrip (trip : FastTrip) (s : State) : exec (.fastLimitTrip trip) s = execFastLimitTrip trip s := rfl
theorem exec_ovLatch (s : State) : exec (.ovLatch) s = execOvLatch s := rfl
theorem exec_uvTrip (s : State) : exec (.uvTrip) s = execUvTrip s := rfl
theorem exec_faultInAsserted (pin : Fin 4) (s : State) : exec (.faultInAsserted pin) s = execFaultInAsserted pin s := rfl
theorem exec_markEdge (n : Fin 24) (rising : Bool) (stroke : Stroke) (tick : BitVec 20) (s : State) : exec (.markEdge n rising stroke tick) s = execMarkEdge n rising stroke tick s := rfl
theorem exec_ledgerConversion (vbus : BitVec 16) (iout : List (BitVec 16)) (overRange : List Bool) (vbusOver : Bool) (s : State) : exec (.ledgerConversion vbus iout overRange vbusOver) s = execLedgerConversion vbus iout overRange vbusOver s := rfl
theorem exec_grantLost (s : State) : exec (.grantLost) s = execGrantLost s := rfl
theorem exec_grantRise (s : State) : exec (.grantRise) s = execGrantRise s := rfl
theorem exec_beatReceived (path : HbPath) (words : Line) (crcOk : Bool) (s : State) : exec (.beatReceived path words crcOk) s = execBeatReceived path words crcOk s := rfl
theorem exec_pathSilent (path : HbPath) (s : State) : exec (.pathSilent path) s = execPathSilent path s := rfl
theorem exec_watchdogVeto (s : State) : exec (.watchdogVeto) s = execWatchdogVeto s := rfl
theorem exec_handoverReclaim (s : State) : exec (.handoverReclaim) s = execHandoverReclaim s := rfl
theorem exec_mirrorReceived (stroke : Stroke) (items : MirrorLines) (s : State) : exec (.mirrorReceived stroke items) s = execMirrorReceived stroke items s := rfl
theorem exec_snapshotRequest (stroke : Stroke) (items : List MirrorItem) (packages : List PkgNeed) (s : State) : exec (.snapshotRequest stroke items packages) s = execSnapshotRequest stroke items packages s := rfl
theorem exec_hostLossHoldExpired (s : State) : exec (.hostLossHoldExpired) s = execHostLossHoldExpired s := rfl
theorem exec_dlDown (s : State) : exec (.dlDown) s = execDlDown s := rfl
theorem exec_busMasterEnableClear (s : State) : exec (.busMasterEnableClear) s = execBusMasterEnableClear s := rfl
theorem exec_d3hotEntry (s : State) : exec (.d3hotEntry) s = execD3hotEntry s := rfl
theorem exec_msixUnmask (vector : Option (Fin 32)) (s : State) : exec (.msixUnmask vector) s = execMsixUnmask vector s := rfl
theorem exec_hdmCommit (base size : BitVec 64) (ways : Nat) (lock : Bool) (s : State) : exec (.hdmCommit base size ways lock) s = execHdmCommit base size ways lock s := rfl
theorem exec_cxlMemRead (hpa : BitVec 64) (words : Nat) (s : State) : exec (.cxlMemRead hpa words) s = execCxlMemRead hpa words s := rfl
theorem exec_cxlMemWrite (hpa : BitVec 64) (bytes : List (Option Byte)) (s : State) : exec (.cxlMemWrite hpa bytes) s = execCxlMemWrite hpa bytes s := rfl
theorem exec_warmReset (value : Word) (s : State) : exec (.warmReset value) s = execWarmReset value s := rfl
theorem exec_evtConsWrite (value : Word) (s : State) : exec (.evtConsWrite value) s = execEvtConsWrite value s := rfl
theorem exec_strokeLoRead (s : State) : exec (.strokeLoRead) s = execStrokeLoRead s := rfl
theorem exec_strokeHiRead (s : State) : exec (.strokeHiRead) s = execStrokeHiRead s := rfl
theorem exec_registerWrite (space : RegSpace) (off : BitVec 32) (value : Word) (wholeWord : Bool) (s : State) : exec (.registerWrite space off value wholeWord) s = execRegisterWrite space off value wholeWord s := rfl
theorem exec_perstReset (s : State) : exec (.perstReset) s = execPerstReset s := rfl
theorem exec_boot (env : BootEnv) (s : State) : exec (.boot env) s = execBoot env s := rfl
theorem exec_bootWatchdogExpired (s : State) : exec (.bootWatchdogExpired) s = execBootWatchdogExpired s := rfl
theorem exec_assayerReset (s : State) : exec (.assayerReset) s = execAssayerReset s := rfl
theorem exec_pllLockCount (pll : Fin 17) (s : State) : exec (.pllLockCount pll) s = execPllLockCount pll s := rfl
theorem exec_dividerStep (d : Fin 18) (s : State) : exec (.dividerStep d) s = execDividerStep d s := rfl
theorem exec_forcedSwitch (d : Fin 18) (s : State) : exec (.forcedSwitch d) s = execForcedSwitch d s := rfl
theorem exec_refInputQualified (x : RefIn) (s : State) : exec (.refInputQualified x) s = execRefInputQualified x s := rfl
theorem exec_refInputLost (x : RefIn) (s : State) : exec (.refInputLost x) s = execRefInputLost x s := rfl
theorem exec_lossOfEveryReference (s : State) : exec (.lossOfEveryReference) s = execLossOfEveryReference s := rfl
theorem exec_clockLossRestart (s : State) : exec (.clockLossRestart) s = execClockLossRestart s := rfl
theorem exec_domainDeclaredStopped (d : Fin 18) (s : State) : exec (.domainDeclaredStopped d) s = execDomainDeclaredStopped d s := rfl
theorem exec_domainDeclaredOffFrequency (d : Fin 18) (s : State) : exec (.domainDeclaredOffFrequency d) s = execDomainDeclaredOffFrequency d s := rfl
theorem exec_domainDeclarationEnds (d : Fin 18) (s : State) : exec (.domainDeclarationEnds d) s = execDomainDeclarationEnds d s := rfl
theorem exec_temperatureConversion (sensor : Fin 5) (reading : Option Int) (s : State) : exec (.temperatureConversion sensor reading) s = execTemperatureConversion sensor reading s := rfl
theorem exec_shutdownRopeRelease (s : State) : exec (.shutdownRopeRelease) s = execShutdownRopeRelease s := rfl
theorem exec_shutdownRegulatorsOff (s : State) : exec (.shutdownRegulatorsOff) s = execShutdownRegulatorsOff s := rfl
theorem exec_throttleEvaluation (s : State) : exec (.throttleEvaluation) s = execThrottleEvaluation s := rfl
theorem exec_railSettled (s : State) : exec (.railSettled) s = execRailSettled s := rfl
theorem exec_lifetimeHistogramTick (s : State) : exec (.lifetimeHistogramTick) s = execLifetimeHistogramTick s := rfl
theorem exec_lifetimeSaveTimer (s : State) : exec (.lifetimeSaveTimer) s = execLifetimeSaveTimer s := rfl
theorem exec_norWriteResume (readBackOk : Bool) (s : State) : exec (.norWriteResume readBackOk) s = execNorWriteResume readBackOk s := rfl
theorem exec_norEraseComplete (s : State) : exec (.norEraseComplete) s = execNorEraseComplete s := rfl
theorem exec_anchorTimeout (s : State) : exec (.anchorTimeout) s = execAnchorTimeout s := rfl
theorem exec_estCommitTimeout (s : State) : exec (.estCommitTimeout) s = execEstCommitTimeout s := rfl
theorem exec_chainSettleWaitEnd (c : ChainSel) (s : State) : exec (.chainSettleWaitEnd c) s = execChainSettleWaitEnd c s := rfl
theorem exec_chainFrameReceived (c : ChainSel) (e : ChainEnd) (bytes : List Byte) (s : State) : exec (.chainFrameReceived c e bytes) s = execChainFrameReceived c e bytes s := rfl
theorem exec_readCellsTimeout (c : ChainSel) (s : State) : exec (.readCellsTimeout c) s = execReadCellsTimeout c s := rfl
theorem exec_balSetHiTimeout (c : ChainSel) (s : State) : exec (.balSetHiTimeout c) s = execBalSetHiTimeout c s := rfl
theorem exec_balanceHoldExpired (c : ChainSel) (s : State) : exec (.balanceHoldExpired c) s = execBalanceHoldExpired c s := rfl
theorem exec_linkFailed (port : Fin 4) (s : State) : exec (.linkFailed port) s = execLinkFailed port s := rfl
theorem exec_linkUp (port : LinkTrained) (s : State) : exec (.linkUp port) s = execLinkUp port s := rfl
theorem exec_heldDownExpired (port : Fin 4) (s : State) : exec (.heldDownExpired port) s = execHeldDownExpired port s := rfl
theorem exec_cmisPoll (port : Fin 4) (poll : CmisPoll) (s : State) : exec (.cmisPoll port poll) s = execCmisPoll port poll s := rfl
theorem exec_strokeFrameReceived (rope : RopeSide) (lines : List RopeLine) (linkDelayPs forwardPs : Nat) (s : State) : exec (.strokeFrameReceived rope lines linkDelayPs forwardPs) s = execStrokeFrameReceived rope lines linkDelayPs forwardPs s := rfl
theorem exec_frameCopyReturn (rope : RopeSide) (lines : List RopeLine) (s : State) : exec (.frameCopyReturn rope lines) s = execFrameCopyReturn rope lines s := rfl
theorem exec_frameCopyTimeout (rope : RopeSide) (s : State) : exec (.frameCopyTimeout rope) s = execFrameCopyTimeout rope s := rfl
theorem exec_ropeLossHoldExpired (s : State) : exec (.ropeLossHoldExpired) s = execRopeLossHoldExpired s := rfl
theorem exec_feedLost (feed : Fin 2) (overVoltage : Bool) (s : State) : exec (.feedLost feed overVoltage) s = execFeedLost feed overVoltage s := rfl
theorem exec_feedPresent (feed : Fin 2) (s : State) : exec (.feedPresent feed) s = execFeedPresent feed s := rfl
theorem exec_holdupCharged (s : State) : exec (.holdupCharged) s = execHoldupCharged s := rfl
theorem exec_bothFeedsLost (feed : Fin 2) (overVoltage : Bool) (s : State) : exec (.bothFeedsLost feed overVoltage) s = execBothFeedsLost feed overVoltage s := rfl
theorem exec_holdupAuthDrop (s : State) : exec (.holdupAuthDrop) s = execHoldupAuthDrop s := rfl
theorem exec_holdupRopeRelease (s : State) : exec (.holdupRopeRelease) s = execHoldupRopeRelease s := rfl
theorem exec_holdupExpired (s : State) : exec (.holdupExpired) s = execHoldupExpired s := rfl
theorem exec_coldStart (s : State) : exec (.coldStart) s = execColdStart s := rfl
theorem exec_bridgeDisabled (b : Fin 3) (s : State) : exec (.bridgeDisabled b) s = execBridgeDisabled b s := rfl
theorem exec_patrolScrub (addr : BitVec 48) (found : ScrubFind) (s : State) : exec (.patrolScrub addr found) s = execPatrolScrub addr found s := rfl
theorem exec_panic (cause : Fin 8) (detail : BitVec 16) (handlerRuns : Bool) (holdupAt20 : Bool) (s : State) : exec (.panic cause detail handlerRuns holdupAt20) s = execPanic cause detail handlerRuns holdupAt20 s := rfl
theorem exec_panicReset (s : State) : exec (.panicReset) s = execPanicReset s := rfl
theorem exec_faultInDeasserted (pin : Fin 4) (s : State) : exec (.faultInDeasserted pin) s = execFaultInDeasserted pin s := rfl
theorem exec_dlActive (cxl : LinkMode) (s : State) : exec (.dlActive cxl) s = execDlActive cxl s := rfl
theorem exec_remoteResponse (t : Fin 48) (reply : RemoteAnswer) (s : State) : exec (.remoteResponse t reply) s = execRemoteResponse t reply s := rfl
theorem exec_unknownOpcode (r : Req) (opcode : BitVec 16) (s : State) : exec (.unknownOpcode r opcode) s = execUnknownOpcode r opcode s := rfl
theorem exec_pumpStopTimeout (p : Fin 8) (s : State) : exec (.pumpStopTimeout p) s = execPumpStopTimeout p s := rfl
theorem exec_holdupGoodWaitTimeout (s : State) : exec (.holdupGoodWaitTimeout) s = execHoldupGoodWaitTimeout s := rfl
theorem exec_ropeStartWaitExpired (second : Bool) (s : State) : exec (.ropeStartWaitExpired second) s = execRopeStartWaitExpired second s := rfl
theorem exec_enumHiTimeout (c : ChainSel) (s : State) : exec (.enumHiTimeout c) s = execEnumHiTimeout c s := rfl

end Sys2Proof.Machine
end

