-- ==== Sys2Proof/Laws/State.lean ====
section
/-! SUPPORT. What each shared update leaves as it was: one lemma for each part of State. -/

namespace Sys2Proof.Machine

variable (s : State)

@[simp] theorem takeFree_state_clk : ((takeFree s).1).clk = s.clk := rfl
@[simp] theorem takeFree_state_clerk : ((takeFree s).1).clerk = s.clerk := rfl
@[simp] theorem takeFree_state_mbs : ((takeFree s).1).mbs = s.mbs := rfl
@[simp] theorem takeFree_state_evt : ((takeFree s).1).evt = s.evt := rfl
@[simp] theorem takeFree_state_msix : ((takeFree s).1).msix = s.msix := rfl
@[simp] theorem takeFree_state_funcs : ((takeFree s).1).funcs = s.funcs := rfl
@[simp] theorem takeFree_state_claims : ((takeFree s).1).claims = s.claims := rfl
@[simp] theorem takeFree_state_link : ((takeFree s).1).link = s.link := rfl
@[simp] theorem takeFree_state_pumps : ((takeFree s).1).pumps = s.pumps := rfl
@[simp] theorem takeFree_state_mem : ((takeFree s).1).mem = s.mem := rfl
@[simp] theorem takeFree_state_tiles : ((takeFree s).1).tiles = s.tiles := rfl
@[simp] theorem takeFree_state_lists : ((takeFree s).1).lists = s.lists := rfl
@[simp] theorem takeFree_state_pipe : ((takeFree s).1).pipe = s.pipe := rfl
@[simp] theorem takeFree_state_rope : ((takeFree s).1).rope = s.rope := rfl
@[simp] theorem takeFree_state_stage : ((takeFree s).1).stage = s.stage := rfl
@[simp] theorem takeFree_state_traces : ((takeFree s).1).traces = s.traces := rfl
@[simp] theorem takeFree_state_chainA : ((takeFree s).1).chainA = s.chainA := rfl
@[simp] theorem takeFree_state_chainB : ((takeFree s).1).chainB = s.chainB := rfl
@[simp] theorem takeFree_state_est : ((takeFree s).1).est = s.est := rfl
@[simp] theorem takeFree_state_therm : ((takeFree s).1).therm = s.therm := rfl
@[simp] theorem takeFree_state_power : ((takeFree s).1).power = s.power := rfl
@[simp] theorem takeFree_state_ledger : ((takeFree s).1).ledger = s.ledger := rfl
@[simp] theorem takeFree_state_pair : ((takeFree s).1).pair = s.pair := rfl
@[simp] theorem takeFree_state_boot : ((takeFree s).1).boot = s.boot := rfl
@[simp] theorem takeFree_state_diag : ((takeFree s).1).diag = s.diag := rfl
@[simp] theorem takeFree_state_pending : ((takeFree s).1).pending = s.pending := rfl

@[simp] theorem memWrite_clk (a : Nat) (bs : List Byte) : (memWrite a bs s).clk = s.clk := rfl
@[simp] theorem memWrite_clerk (a : Nat) (bs : List Byte) : (memWrite a bs s).clerk = s.clerk := rfl
@[simp] theorem memWrite_mbs (a : Nat) (bs : List Byte) : (memWrite a bs s).mbs = s.mbs := rfl
@[simp] theorem memWrite_evt (a : Nat) (bs : List Byte) : (memWrite a bs s).evt = s.evt := rfl
@[simp] theorem memWrite_msix (a : Nat) (bs : List Byte) : (memWrite a bs s).msix = s.msix := rfl
@[simp] theorem memWrite_funcs (a : Nat) (bs : List Byte) : (memWrite a bs s).funcs = s.funcs := rfl
@[simp] theorem memWrite_claims (a : Nat) (bs : List Byte) : (memWrite a bs s).claims = s.claims := rfl
@[simp] theorem memWrite_link (a : Nat) (bs : List Byte) : (memWrite a bs s).link = s.link := rfl
@[simp] theorem memWrite_pumps (a : Nat) (bs : List Byte) : (memWrite a bs s).pumps = s.pumps := rfl
@[simp] theorem memWrite_tiles (a : Nat) (bs : List Byte) : (memWrite a bs s).tiles = s.tiles := rfl
@[simp] theorem memWrite_lists (a : Nat) (bs : List Byte) : (memWrite a bs s).lists = s.lists := rfl
@[simp] theorem memWrite_pipe (a : Nat) (bs : List Byte) : (memWrite a bs s).pipe = s.pipe := rfl
@[simp] theorem memWrite_rope (a : Nat) (bs : List Byte) : (memWrite a bs s).rope = s.rope := rfl
@[simp] theorem memWrite_stage (a : Nat) (bs : List Byte) : (memWrite a bs s).stage = s.stage := rfl
@[simp] theorem memWrite_traces (a : Nat) (bs : List Byte) : (memWrite a bs s).traces = s.traces := rfl
@[simp] theorem memWrite_chainA (a : Nat) (bs : List Byte) : (memWrite a bs s).chainA = s.chainA := rfl
@[simp] theorem memWrite_chainB (a : Nat) (bs : List Byte) : (memWrite a bs s).chainB = s.chainB := rfl
@[simp] theorem memWrite_est (a : Nat) (bs : List Byte) : (memWrite a bs s).est = s.est := rfl
@[simp] theorem memWrite_therm (a : Nat) (bs : List Byte) : (memWrite a bs s).therm = s.therm := rfl
@[simp] theorem memWrite_power (a : Nat) (bs : List Byte) : (memWrite a bs s).power = s.power := rfl
@[simp] theorem memWrite_ledger (a : Nat) (bs : List Byte) : (memWrite a bs s).ledger = s.ledger := rfl
@[simp] theorem memWrite_pair (a : Nat) (bs : List Byte) : (memWrite a bs s).pair = s.pair := rfl
@[simp] theorem memWrite_boot (a : Nat) (bs : List Byte) : (memWrite a bs s).boot = s.boot := rfl
@[simp] theorem memWrite_diag (a : Nat) (bs : List Byte) : (memWrite a bs s).diag = s.diag := rfl
@[simp] theorem memWrite_free (a : Nat) (bs : List Byte) : (memWrite a bs s).free = s.free := rfl
@[simp] theorem memWrite_pending (a : Nat) (bs : List Byte) : (memWrite a bs s).pending = s.pending := rfl

@[simp] theorem memDamage_clk (a : Nat) : (memDamage a s).clk = s.clk := rfl
@[simp] theorem memDamage_clerk (a : Nat) : (memDamage a s).clerk = s.clerk := rfl
@[simp] theorem memDamage_mbs (a : Nat) : (memDamage a s).mbs = s.mbs := rfl
@[simp] theorem memDamage_evt (a : Nat) : (memDamage a s).evt = s.evt := rfl
@[simp] theorem memDamage_msix (a : Nat) : (memDamage a s).msix = s.msix := rfl
@[simp] theorem memDamage_funcs (a : Nat) : (memDamage a s).funcs = s.funcs := rfl
@[simp] theorem memDamage_claims (a : Nat) : (memDamage a s).claims = s.claims := rfl
@[simp] theorem memDamage_link (a : Nat) : (memDamage a s).link = s.link := rfl
@[simp] theorem memDamage_pumps (a : Nat) : (memDamage a s).pumps = s.pumps := rfl
@[simp] theorem memDamage_tiles (a : Nat) : (memDamage a s).tiles = s.tiles := rfl
@[simp] theorem memDamage_lists (a : Nat) : (memDamage a s).lists = s.lists := rfl
@[simp] theorem memDamage_pipe (a : Nat) : (memDamage a s).pipe = s.pipe := rfl
@[simp] theorem memDamage_rope (a : Nat) : (memDamage a s).rope = s.rope := rfl
@[simp] theorem memDamage_stage (a : Nat) : (memDamage a s).stage = s.stage := rfl
@[simp] theorem memDamage_traces (a : Nat) : (memDamage a s).traces = s.traces := rfl
@[simp] theorem memDamage_chainA (a : Nat) : (memDamage a s).chainA = s.chainA := rfl
@[simp] theorem memDamage_chainB (a : Nat) : (memDamage a s).chainB = s.chainB := rfl
@[simp] theorem memDamage_est (a : Nat) : (memDamage a s).est = s.est := rfl
@[simp] theorem memDamage_therm (a : Nat) : (memDamage a s).therm = s.therm := rfl
@[simp] theorem memDamage_power (a : Nat) : (memDamage a s).power = s.power := rfl
@[simp] theorem memDamage_ledger (a : Nat) : (memDamage a s).ledger = s.ledger := rfl
@[simp] theorem memDamage_pair (a : Nat) : (memDamage a s).pair = s.pair := rfl
@[simp] theorem memDamage_boot (a : Nat) : (memDamage a s).boot = s.boot := rfl
@[simp] theorem memDamage_diag (a : Nat) : (memDamage a s).diag = s.diag := rfl
@[simp] theorem memDamage_free (a : Nat) : (memDamage a s).free = s.free := rfl
@[simp] theorem memDamage_pending (a : Nat) : (memDamage a s).pending = s.pending := rfl

@[simp] theorem pendWrite_clk (w : List Seer) (a : Nat) (bs : List Byte) : (pendWrite w a bs s).clk = s.clk := rfl
@[simp] theorem pendWrite_clerk (w : List Seer) (a : Nat) (bs : List Byte) : (pendWrite w a bs s).clerk = s.clerk := rfl
@[simp] theorem pendWrite_mbs (w : List Seer) (a : Nat) (bs : List Byte) : (pendWrite w a bs s).mbs = s.mbs := rfl
@[simp] theorem pendWrite_evt (w : List Seer) (a : Nat) (bs : List Byte) : (pendWrite w a bs s).evt = s.evt := rfl
@[simp] theorem pendWrite_msix (w : List Seer) (a : Nat) (bs : List Byte) : (pendWrite w a bs s).msix = s.msix := rfl
@[simp] theorem pendWrite_funcs (w : List Seer) (a : Nat) (bs : List Byte) : (pendWrite w a bs s).funcs = s.funcs := rfl
@[simp] theorem pendWrite_claims (w : List Seer) (a : Nat) (bs : List Byte) : (pendWrite w a bs s).claims = s.claims := rfl
@[simp] theorem pendWrite_link (w : List Seer) (a : Nat) (bs : List Byte) : (pendWrite w a bs s).link = s.link := rfl
@[simp] theorem pendWrite_pumps (w : List Seer) (a : Nat) (bs : List Byte) : (pendWrite w a bs s).pumps = s.pumps := rfl
@[simp] theorem pendWrite_tiles (w : List Seer) (a : Nat) (bs : List Byte) : (pendWrite w a bs s).tiles = s.tiles := rfl
@[simp] theorem pendWrite_lists (w : List Seer) (a : Nat) (bs : List Byte) : (pendWrite w a bs s).lists = s.lists := rfl
@[simp] theorem pendWrite_pipe (w : List Seer) (a : Nat) (bs : List Byte) : (pendWrite w a bs s).pipe = s.pipe := rfl
@[simp] theorem pendWrite_rope (w : List Seer) (a : Nat) (bs : List Byte) : (pendWrite w a bs s).rope = s.rope := rfl
@[simp] theorem pendWrite_stage (w : List Seer) (a : Nat) (bs : List Byte) : (pendWrite w a bs s).stage = s.stage := rfl
@[simp] theorem pendWrite_traces (w : List Seer) (a : Nat) (bs : List Byte) : (pendWrite w a bs s).traces = s.traces := rfl
@[simp] theorem pendWrite_chainA (w : List Seer) (a : Nat) (bs : List Byte) : (pendWrite w a bs s).chainA = s.chainA := rfl
@[simp] theorem pendWrite_chainB (w : List Seer) (a : Nat) (bs : List Byte) : (pendWrite w a bs s).chainB = s.chainB := rfl
@[simp] theorem pendWrite_est (w : List Seer) (a : Nat) (bs : List Byte) : (pendWrite w a bs s).est = s.est := rfl
@[simp] theorem pendWrite_therm (w : List Seer) (a : Nat) (bs : List Byte) : (pendWrite w a bs s).therm = s.therm := rfl
@[simp] theorem pendWrite_power (w : List Seer) (a : Nat) (bs : List Byte) : (pendWrite w a bs s).power = s.power := rfl
@[simp] theorem pendWrite_ledger (w : List Seer) (a : Nat) (bs : List Byte) : (pendWrite w a bs s).ledger = s.ledger := rfl
@[simp] theorem pendWrite_pair (w : List Seer) (a : Nat) (bs : List Byte) : (pendWrite w a bs s).pair = s.pair := rfl
@[simp] theorem pendWrite_boot (w : List Seer) (a : Nat) (bs : List Byte) : (pendWrite w a bs s).boot = s.boot := rfl
@[simp] theorem pendWrite_diag (w : List Seer) (a : Nat) (bs : List Byte) : (pendWrite w a bs s).diag = s.diag := rfl
@[simp] theorem pendWrite_free (w : List Seer) (a : Nat) (bs : List Byte) : (pendWrite w a bs s).free = s.free := rfl
@[simp] theorem pendWrite_pending (w : List Seer) (a : Nat) (bs : List Byte) : (pendWrite w a bs s).pending = s.pending := rfl

@[simp] theorem pendWords_clk (w : List Seer) (a : Nat) (ws : List Word) : (pendWords w a ws s).clk = s.clk := rfl
@[simp] theorem pendWords_clerk (w : List Seer) (a : Nat) (ws : List Word) : (pendWords w a ws s).clerk = s.clerk := rfl
@[simp] theorem pendWords_mbs (w : List Seer) (a : Nat) (ws : List Word) : (pendWords w a ws s).mbs = s.mbs := rfl
@[simp] theorem pendWords_evt (w : List Seer) (a : Nat) (ws : List Word) : (pendWords w a ws s).evt = s.evt := rfl
@[simp] theorem pendWords_msix (w : List Seer) (a : Nat) (ws : List Word) : (pendWords w a ws s).msix = s.msix := rfl
@[simp] theorem pendWords_funcs (w : List Seer) (a : Nat) (ws : List Word) : (pendWords w a ws s).funcs = s.funcs := rfl
@[simp] theorem pendWords_claims (w : List Seer) (a : Nat) (ws : List Word) : (pendWords w a ws s).claims = s.claims := rfl
@[simp] theorem pendWords_link (w : List Seer) (a : Nat) (ws : List Word) : (pendWords w a ws s).link = s.link := rfl
@[simp] theorem pendWords_pumps (w : List Seer) (a : Nat) (ws : List Word) : (pendWords w a ws s).pumps = s.pumps := rfl
@[simp] theorem pendWords_tiles (w : List Seer) (a : Nat) (ws : List Word) : (pendWords w a ws s).tiles = s.tiles := rfl
@[simp] theorem pendWords_lists (w : List Seer) (a : Nat) (ws : List Word) : (pendWords w a ws s).lists = s.lists := rfl
@[simp] theorem pendWords_pipe (w : List Seer) (a : Nat) (ws : List Word) : (pendWords w a ws s).pipe = s.pipe := rfl
@[simp] theorem pendWords_rope (w : List Seer) (a : Nat) (ws : List Word) : (pendWords w a ws s).rope = s.rope := rfl
@[simp] theorem pendWords_stage (w : List Seer) (a : Nat) (ws : List Word) : (pendWords w a ws s).stage = s.stage := rfl
@[simp] theorem pendWords_traces (w : List Seer) (a : Nat) (ws : List Word) : (pendWords w a ws s).traces = s.traces := rfl
@[simp] theorem pendWords_chainA (w : List Seer) (a : Nat) (ws : List Word) : (pendWords w a ws s).chainA = s.chainA := rfl
@[simp] theorem pendWords_chainB (w : List Seer) (a : Nat) (ws : List Word) : (pendWords w a ws s).chainB = s.chainB := rfl
@[simp] theorem pendWords_est (w : List Seer) (a : Nat) (ws : List Word) : (pendWords w a ws s).est = s.est := rfl
@[simp] theorem pendWords_therm (w : List Seer) (a : Nat) (ws : List Word) : (pendWords w a ws s).therm = s.therm := rfl
@[simp] theorem pendWords_power (w : List Seer) (a : Nat) (ws : List Word) : (pendWords w a ws s).power = s.power := rfl
@[simp] theorem pendWords_ledger (w : List Seer) (a : Nat) (ws : List Word) : (pendWords w a ws s).ledger = s.ledger := rfl
@[simp] theorem pendWords_pair (w : List Seer) (a : Nat) (ws : List Word) : (pendWords w a ws s).pair = s.pair := rfl
@[simp] theorem pendWords_boot (w : List Seer) (a : Nat) (ws : List Word) : (pendWords w a ws s).boot = s.boot := rfl
@[simp] theorem pendWords_diag (w : List Seer) (a : Nat) (ws : List Word) : (pendWords w a ws s).diag = s.diag := rfl
@[simp] theorem pendWords_free (w : List Seer) (a : Nat) (ws : List Word) : (pendWords w a ws s).free = s.free := rfl
@[simp] theorem pendWords_pending (w : List Seer) (a : Nat) (ws : List Word) : (pendWords w a ws s).pending = s.pending := rfl

@[simp] theorem seenJoin_clk (a b : Seer) : (seenJoin a b s).clk = s.clk := rfl
@[simp] theorem seenJoin_clerk (a b : Seer) : (seenJoin a b s).clerk = s.clerk := rfl
@[simp] theorem seenJoin_mbs (a b : Seer) : (seenJoin a b s).mbs = s.mbs := rfl
@[simp] theorem seenJoin_evt (a b : Seer) : (seenJoin a b s).evt = s.evt := rfl
@[simp] theorem seenJoin_msix (a b : Seer) : (seenJoin a b s).msix = s.msix := rfl
@[simp] theorem seenJoin_funcs (a b : Seer) : (seenJoin a b s).funcs = s.funcs := rfl
@[simp] theorem seenJoin_claims (a b : Seer) : (seenJoin a b s).claims = s.claims := rfl
@[simp] theorem seenJoin_link (a b : Seer) : (seenJoin a b s).link = s.link := rfl
@[simp] theorem seenJoin_pumps (a b : Seer) : (seenJoin a b s).pumps = s.pumps := rfl
@[simp] theorem seenJoin_tiles (a b : Seer) : (seenJoin a b s).tiles = s.tiles := rfl
@[simp] theorem seenJoin_lists (a b : Seer) : (seenJoin a b s).lists = s.lists := rfl
@[simp] theorem seenJoin_pipe (a b : Seer) : (seenJoin a b s).pipe = s.pipe := rfl
@[simp] theorem seenJoin_rope (a b : Seer) : (seenJoin a b s).rope = s.rope := rfl
@[simp] theorem seenJoin_stage (a b : Seer) : (seenJoin a b s).stage = s.stage := rfl
@[simp] theorem seenJoin_traces (a b : Seer) : (seenJoin a b s).traces = s.traces := rfl
@[simp] theorem seenJoin_chainA (a b : Seer) : (seenJoin a b s).chainA = s.chainA := rfl
@[simp] theorem seenJoin_chainB (a b : Seer) : (seenJoin a b s).chainB = s.chainB := rfl
@[simp] theorem seenJoin_est (a b : Seer) : (seenJoin a b s).est = s.est := rfl
@[simp] theorem seenJoin_therm (a b : Seer) : (seenJoin a b s).therm = s.therm := rfl
@[simp] theorem seenJoin_power (a b : Seer) : (seenJoin a b s).power = s.power := rfl
@[simp] theorem seenJoin_ledger (a b : Seer) : (seenJoin a b s).ledger = s.ledger := rfl
@[simp] theorem seenJoin_pair (a b : Seer) : (seenJoin a b s).pair = s.pair := rfl
@[simp] theorem seenJoin_boot (a b : Seer) : (seenJoin a b s).boot = s.boot := rfl
@[simp] theorem seenJoin_diag (a b : Seer) : (seenJoin a b s).diag = s.diag := rfl
@[simp] theorem seenJoin_free (a b : Seer) : (seenJoin a b s).free = s.free := rfl
@[simp] theorem seenJoin_pending (a b : Seer) : (seenJoin a b s).pending = s.pending := rfl

@[simp] theorem seenFrom_clk (n : Nat) (b : Seer) : (seenFrom n b s).clk = s.clk := rfl
@[simp] theorem seenFrom_clerk (n : Nat) (b : Seer) : (seenFrom n b s).clerk = s.clerk := rfl
@[simp] theorem seenFrom_mbs (n : Nat) (b : Seer) : (seenFrom n b s).mbs = s.mbs := rfl
@[simp] theorem seenFrom_evt (n : Nat) (b : Seer) : (seenFrom n b s).evt = s.evt := rfl
@[simp] theorem seenFrom_msix (n : Nat) (b : Seer) : (seenFrom n b s).msix = s.msix := rfl
@[simp] theorem seenFrom_funcs (n : Nat) (b : Seer) : (seenFrom n b s).funcs = s.funcs := rfl
@[simp] theorem seenFrom_claims (n : Nat) (b : Seer) : (seenFrom n b s).claims = s.claims := rfl
@[simp] theorem seenFrom_link (n : Nat) (b : Seer) : (seenFrom n b s).link = s.link := rfl
@[simp] theorem seenFrom_pumps (n : Nat) (b : Seer) : (seenFrom n b s).pumps = s.pumps := rfl
@[simp] theorem seenFrom_tiles (n : Nat) (b : Seer) : (seenFrom n b s).tiles = s.tiles := rfl
@[simp] theorem seenFrom_lists (n : Nat) (b : Seer) : (seenFrom n b s).lists = s.lists := rfl
@[simp] theorem seenFrom_pipe (n : Nat) (b : Seer) : (seenFrom n b s).pipe = s.pipe := rfl
@[simp] theorem seenFrom_rope (n : Nat) (b : Seer) : (seenFrom n b s).rope = s.rope := rfl
@[simp] theorem seenFrom_stage (n : Nat) (b : Seer) : (seenFrom n b s).stage = s.stage := rfl
@[simp] theorem seenFrom_traces (n : Nat) (b : Seer) : (seenFrom n b s).traces = s.traces := rfl
@[simp] theorem seenFrom_chainA (n : Nat) (b : Seer) : (seenFrom n b s).chainA = s.chainA := rfl
@[simp] theorem seenFrom_chainB (n : Nat) (b : Seer) : (seenFrom n b s).chainB = s.chainB := rfl
@[simp] theorem seenFrom_est (n : Nat) (b : Seer) : (seenFrom n b s).est = s.est := rfl
@[simp] theorem seenFrom_therm (n : Nat) (b : Seer) : (seenFrom n b s).therm = s.therm := rfl
@[simp] theorem seenFrom_power (n : Nat) (b : Seer) : (seenFrom n b s).power = s.power := rfl
@[simp] theorem seenFrom_ledger (n : Nat) (b : Seer) : (seenFrom n b s).ledger = s.ledger := rfl
@[simp] theorem seenFrom_pair (n : Nat) (b : Seer) : (seenFrom n b s).pair = s.pair := rfl
@[simp] theorem seenFrom_boot (n : Nat) (b : Seer) : (seenFrom n b s).boot = s.boot := rfl
@[simp] theorem seenFrom_diag (n : Nat) (b : Seer) : (seenFrom n b s).diag = s.diag := rfl
@[simp] theorem seenFrom_free (n : Nat) (b : Seer) : (seenFrom n b s).free = s.free := rfl
@[simp] theorem seenFrom_pending (n : Nat) (b : Seer) : (seenFrom n b s).pending = s.pending := rfl

@[simp] theorem hostWrite_clk (a : Nat) (bs : List Byte) : (hostWrite a bs s).clk = s.clk := rfl
@[simp] theorem hostWrite_clerk (a : Nat) (bs : List Byte) : (hostWrite a bs s).clerk = s.clerk := rfl
@[simp] theorem hostWrite_mbs (a : Nat) (bs : List Byte) : (hostWrite a bs s).mbs = s.mbs := rfl
@[simp] theorem hostWrite_evt (a : Nat) (bs : List Byte) : (hostWrite a bs s).evt = s.evt := rfl
@[simp] theorem hostWrite_msix (a : Nat) (bs : List Byte) : (hostWrite a bs s).msix = s.msix := rfl
@[simp] theorem hostWrite_funcs (a : Nat) (bs : List Byte) : (hostWrite a bs s).funcs = s.funcs := rfl
@[simp] theorem hostWrite_claims (a : Nat) (bs : List Byte) : (hostWrite a bs s).claims = s.claims := rfl
@[simp] theorem hostWrite_link (a : Nat) (bs : List Byte) : (hostWrite a bs s).link = s.link := rfl
@[simp] theorem hostWrite_pumps (a : Nat) (bs : List Byte) : (hostWrite a bs s).pumps = s.pumps := rfl
@[simp] theorem hostWrite_tiles (a : Nat) (bs : List Byte) : (hostWrite a bs s).tiles = s.tiles := rfl
@[simp] theorem hostWrite_lists (a : Nat) (bs : List Byte) : (hostWrite a bs s).lists = s.lists := rfl
@[simp] theorem hostWrite_pipe (a : Nat) (bs : List Byte) : (hostWrite a bs s).pipe = s.pipe := rfl
@[simp] theorem hostWrite_rope (a : Nat) (bs : List Byte) : (hostWrite a bs s).rope = s.rope := rfl
@[simp] theorem hostWrite_stage (a : Nat) (bs : List Byte) : (hostWrite a bs s).stage = s.stage := rfl
@[simp] theorem hostWrite_traces (a : Nat) (bs : List Byte) : (hostWrite a bs s).traces = s.traces := rfl
@[simp] theorem hostWrite_chainA (a : Nat) (bs : List Byte) : (hostWrite a bs s).chainA = s.chainA := rfl
@[simp] theorem hostWrite_chainB (a : Nat) (bs : List Byte) : (hostWrite a bs s).chainB = s.chainB := rfl
@[simp] theorem hostWrite_est (a : Nat) (bs : List Byte) : (hostWrite a bs s).est = s.est := rfl
@[simp] theorem hostWrite_therm (a : Nat) (bs : List Byte) : (hostWrite a bs s).therm = s.therm := rfl
@[simp] theorem hostWrite_power (a : Nat) (bs : List Byte) : (hostWrite a bs s).power = s.power := rfl
@[simp] theorem hostWrite_ledger (a : Nat) (bs : List Byte) : (hostWrite a bs s).ledger = s.ledger := rfl
@[simp] theorem hostWrite_pair (a : Nat) (bs : List Byte) : (hostWrite a bs s).pair = s.pair := rfl
@[simp] theorem hostWrite_boot (a : Nat) (bs : List Byte) : (hostWrite a bs s).boot = s.boot := rfl
@[simp] theorem hostWrite_diag (a : Nat) (bs : List Byte) : (hostWrite a bs s).diag = s.diag := rfl
@[simp] theorem hostWrite_free (a : Nat) (bs : List Byte) : (hostWrite a bs s).free = s.free := rfl
@[simp] theorem hostWrite_pending (a : Nat) (bs : List Byte) : (hostWrite a bs s).pending = s.pending := rfl

@[simp] theorem vecSend_clk (v : Nat) : (vecSend v s).clk = s.clk := rfl
@[simp] theorem vecSend_clerk (v : Nat) : (vecSend v s).clerk = s.clerk := rfl
@[simp] theorem vecSend_mbs (v : Nat) : (vecSend v s).mbs = s.mbs := rfl
@[simp] theorem vecSend_evt (v : Nat) : (vecSend v s).evt = s.evt := rfl
@[simp] theorem vecSend_funcs (v : Nat) : (vecSend v s).funcs = s.funcs := rfl
@[simp] theorem vecSend_claims (v : Nat) : (vecSend v s).claims = s.claims := rfl
@[simp] theorem vecSend_link (v : Nat) : (vecSend v s).link = s.link := rfl
@[simp] theorem vecSend_pumps (v : Nat) : (vecSend v s).pumps = s.pumps := rfl
@[simp] theorem vecSend_mem (v : Nat) : (vecSend v s).mem = s.mem := rfl
@[simp] theorem vecSend_tiles (v : Nat) : (vecSend v s).tiles = s.tiles := rfl
@[simp] theorem vecSend_lists (v : Nat) : (vecSend v s).lists = s.lists := rfl
@[simp] theorem vecSend_pipe (v : Nat) : (vecSend v s).pipe = s.pipe := rfl
@[simp] theorem vecSend_rope (v : Nat) : (vecSend v s).rope = s.rope := rfl
@[simp] theorem vecSend_stage (v : Nat) : (vecSend v s).stage = s.stage := rfl
@[simp] theorem vecSend_traces (v : Nat) : (vecSend v s).traces = s.traces := rfl
@[simp] theorem vecSend_chainA (v : Nat) : (vecSend v s).chainA = s.chainA := rfl
@[simp] theorem vecSend_chainB (v : Nat) : (vecSend v s).chainB = s.chainB := rfl
@[simp] theorem vecSend_est (v : Nat) : (vecSend v s).est = s.est := rfl
@[simp] theorem vecSend_therm (v : Nat) : (vecSend v s).therm = s.therm := rfl
@[simp] theorem vecSend_power (v : Nat) : (vecSend v s).power = s.power := rfl
@[simp] theorem vecSend_ledger (v : Nat) : (vecSend v s).ledger = s.ledger := rfl
@[simp] theorem vecSend_pair (v : Nat) : (vecSend v s).pair = s.pair := rfl
@[simp] theorem vecSend_boot (v : Nat) : (vecSend v s).boot = s.boot := rfl
@[simp] theorem vecSend_diag (v : Nat) : (vecSend v s).diag = s.diag := rfl
@[simp] theorem vecSend_free (v : Nat) : (vecSend v s).free = s.free := rfl
@[simp] theorem vecSend_pending (v : Nat) : (vecSend v s).pending = s.pending := rfl

@[simp] theorem msixDue_clk (v : Nat) : (msixDue v s).clk = s.clk := by
  unfold msixDue; split <;> [rfl; (split <;> rfl)]
@[simp] theorem msixDue_clerk (v : Nat) : (msixDue v s).clerk = s.clerk := by
  unfold msixDue; split <;> [rfl; (split <;> rfl)]
@[simp] theorem msixDue_mbs (v : Nat) : (msixDue v s).mbs = s.mbs := by
  unfold msixDue; split <;> [rfl; (split <;> rfl)]
@[simp] theorem msixDue_evt (v : Nat) : (msixDue v s).evt = s.evt := by
  unfold msixDue; split <;> [rfl; (split <;> rfl)]
@[simp] theorem msixDue_funcs (v : Nat) : (msixDue v s).funcs = s.funcs := by
  unfold msixDue; split <;> [rfl; (split <;> rfl)]
@[simp] theorem msixDue_claims (v : Nat) : (msixDue v s).claims = s.claims := by
  unfold msixDue; split <;> [rfl; (split <;> rfl)]
@[simp] theorem msixDue_link (v : Nat) : (msixDue v s).link = s.link := by
  unfold msixDue; split <;> [rfl; (split <;> rfl)]
@[simp] theorem msixDue_pumps (v : Nat) : (msixDue v s).pumps = s.pumps := by
  unfold msixDue; split <;> [rfl; (split <;> rfl)]
@[simp] theorem msixDue_mem (v : Nat) : (msixDue v s).mem = s.mem := by
  unfold msixDue; split <;> [rfl; (split <;> rfl)]
@[simp] theorem msixDue_tiles (v : Nat) : (msixDue v s).tiles = s.tiles := by
  unfold msixDue; split <;> [rfl; (split <;> rfl)]
@[simp] theorem msixDue_lists (v : Nat) : (msixDue v s).lists = s.lists := by
  unfold msixDue; split <;> [rfl; (split <;> rfl)]
@[simp] theorem msixDue_pipe (v : Nat) : (msixDue v s).pipe = s.pipe := by
  unfold msixDue; split <;> [rfl; (split <;> rfl)]
@[simp] theorem msixDue_rope (v : Nat) : (msixDue v s).rope = s.rope := by
  unfold msixDue; split <;> [rfl; (split <;> rfl)]
@[simp] theorem msixDue_stage (v : Nat) : (msixDue v s).stage = s.stage := by
  unfold msixDue; split <;> [rfl; (split <;> rfl)]
@[simp] theorem msixDue_traces (v : Nat) : (msixDue v s).traces = s.traces := by
  unfold msixDue; split <;> [rfl; (split <;> rfl)]
@[simp] theorem msixDue_chainA (v : Nat) : (msixDue v s).chainA = s.chainA := by
  unfold msixDue; split <;> [rfl; (split <;> rfl)]
@[simp] theorem msixDue_chainB (v : Nat) : (msixDue v s).chainB = s.chainB := by
  unfold msixDue; split <;> [rfl; (split <;> rfl)]
@[simp] theorem msixDue_est (v : Nat) : (msixDue v s).est = s.est := by
  unfold msixDue; split <;> [rfl; (split <;> rfl)]
@[simp] theorem msixDue_therm (v : Nat) : (msixDue v s).therm = s.therm := by
  unfold msixDue; split <;> [rfl; (split <;> rfl)]
@[simp] theorem msixDue_power (v : Nat) : (msixDue v s).power = s.power := by
  unfold msixDue; split <;> [rfl; (split <;> rfl)]
@[simp] theorem msixDue_ledger (v : Nat) : (msixDue v s).ledger = s.ledger := by
  unfold msixDue; split <;> [rfl; (split <;> rfl)]
@[simp] theorem msixDue_pair (v : Nat) : (msixDue v s).pair = s.pair := by
  unfold msixDue; split <;> [rfl; (split <;> rfl)]
@[simp] theorem msixDue_boot (v : Nat) : (msixDue v s).boot = s.boot := by
  unfold msixDue; split <;> [rfl; (split <;> rfl)]
@[simp] theorem msixDue_diag (v : Nat) : (msixDue v s).diag = s.diag := by
  unfold msixDue; split <;> [rfl; (split <;> rfl)]
@[simp] theorem msixDue_free (v : Nat) : (msixDue v s).free = s.free := by
  unfold msixDue; split <;> [rfl; (split <;> rfl)]
@[simp] theorem msixDue_pending (v : Nat) : (msixDue v s).pending = s.pending := by
  unfold msixDue; split <;> [rfl; (split <;> rfl)]

@[simp] theorem evtWrite_clk (r : Line) : (evtWrite r s).clk = s.clk := rfl
@[simp] theorem evtWrite_clerk (r : Line) : (evtWrite r s).clerk = s.clerk := rfl
@[simp] theorem evtWrite_mbs (r : Line) : (evtWrite r s).mbs = s.mbs := rfl
@[simp] theorem evtWrite_msix (r : Line) : (evtWrite r s).msix = s.msix := rfl
@[simp] theorem evtWrite_funcs (r : Line) : (evtWrite r s).funcs = s.funcs := rfl
@[simp] theorem evtWrite_claims (r : Line) : (evtWrite r s).claims = s.claims := rfl
@[simp] theorem evtWrite_link (r : Line) : (evtWrite r s).link = s.link := rfl
@[simp] theorem evtWrite_pumps (r : Line) : (evtWrite r s).pumps = s.pumps := rfl
@[simp] theorem evtWrite_tiles (r : Line) : (evtWrite r s).tiles = s.tiles := rfl
@[simp] theorem evtWrite_lists (r : Line) : (evtWrite r s).lists = s.lists := rfl
@[simp] theorem evtWrite_pipe (r : Line) : (evtWrite r s).pipe = s.pipe := rfl
@[simp] theorem evtWrite_rope (r : Line) : (evtWrite r s).rope = s.rope := rfl
@[simp] theorem evtWrite_stage (r : Line) : (evtWrite r s).stage = s.stage := rfl
@[simp] theorem evtWrite_traces (r : Line) : (evtWrite r s).traces = s.traces := rfl
@[simp] theorem evtWrite_chainA (r : Line) : (evtWrite r s).chainA = s.chainA := rfl
@[simp] theorem evtWrite_chainB (r : Line) : (evtWrite r s).chainB = s.chainB := rfl
@[simp] theorem evtWrite_est (r : Line) : (evtWrite r s).est = s.est := rfl
@[simp] theorem evtWrite_therm (r : Line) : (evtWrite r s).therm = s.therm := rfl
@[simp] theorem evtWrite_power (r : Line) : (evtWrite r s).power = s.power := rfl
@[simp] theorem evtWrite_ledger (r : Line) : (evtWrite r s).ledger = s.ledger := rfl
@[simp] theorem evtWrite_pair (r : Line) : (evtWrite r s).pair = s.pair := rfl
@[simp] theorem evtWrite_boot (r : Line) : (evtWrite r s).boot = s.boot := rfl
@[simp] theorem evtWrite_diag (r : Line) : (evtWrite r s).diag = s.diag := rfl
@[simp] theorem evtWrite_free (r : Line) : (evtWrite r s).free = s.free := rfl
@[simp] theorem evtWrite_pending (r : Line) : (evtWrite r s).pending = s.pending := rfl

@[simp] theorem evtDrop_clk : (evtDrop s).clk = s.clk := rfl
@[simp] theorem evtDrop_clerk : (evtDrop s).clerk = s.clerk := rfl
@[simp] theorem evtDrop_mbs : (evtDrop s).mbs = s.mbs := rfl
@[simp] theorem evtDrop_msix : (evtDrop s).msix = s.msix := rfl
@[simp] theorem evtDrop_funcs : (evtDrop s).funcs = s.funcs := rfl
@[simp] theorem evtDrop_claims : (evtDrop s).claims = s.claims := rfl
@[simp] theorem evtDrop_link : (evtDrop s).link = s.link := rfl
@[simp] theorem evtDrop_pumps : (evtDrop s).pumps = s.pumps := rfl
@[simp] theorem evtDrop_mem : (evtDrop s).mem = s.mem := rfl
@[simp] theorem evtDrop_tiles : (evtDrop s).tiles = s.tiles := rfl
@[simp] theorem evtDrop_lists : (evtDrop s).lists = s.lists := rfl
@[simp] theorem evtDrop_pipe : (evtDrop s).pipe = s.pipe := rfl
@[simp] theorem evtDrop_rope : (evtDrop s).rope = s.rope := rfl
@[simp] theorem evtDrop_stage : (evtDrop s).stage = s.stage := rfl
@[simp] theorem evtDrop_traces : (evtDrop s).traces = s.traces := rfl
@[simp] theorem evtDrop_chainA : (evtDrop s).chainA = s.chainA := rfl
@[simp] theorem evtDrop_chainB : (evtDrop s).chainB = s.chainB := rfl
@[simp] theorem evtDrop_est : (evtDrop s).est = s.est := rfl
@[simp] theorem evtDrop_therm : (evtDrop s).therm = s.therm := rfl
@[simp] theorem evtDrop_power : (evtDrop s).power = s.power := rfl
@[simp] theorem evtDrop_ledger : (evtDrop s).ledger = s.ledger := rfl
@[simp] theorem evtDrop_pair : (evtDrop s).pair = s.pair := rfl
@[simp] theorem evtDrop_boot : (evtDrop s).boot = s.boot := rfl
@[simp] theorem evtDrop_free : (evtDrop s).free = s.free := rfl
@[simp] theorem evtDrop_pending : (evtDrop s).pending = s.pending := rfl

@[simp] theorem evtCreate_clk (r : Line) : (evtCreate r s).clk = s.clk := rfl
@[simp] theorem evtCreate_clerk (r : Line) : (evtCreate r s).clerk = s.clerk := rfl
@[simp] theorem evtCreate_mbs (r : Line) : (evtCreate r s).mbs = s.mbs := rfl
@[simp] theorem evtCreate_msix (r : Line) : (evtCreate r s).msix = s.msix := rfl
@[simp] theorem evtCreate_funcs (r : Line) : (evtCreate r s).funcs = s.funcs := rfl
@[simp] theorem evtCreate_claims (r : Line) : (evtCreate r s).claims = s.claims := rfl
@[simp] theorem evtCreate_link (r : Line) : (evtCreate r s).link = s.link := rfl
@[simp] theorem evtCreate_pumps (r : Line) : (evtCreate r s).pumps = s.pumps := rfl
@[simp] theorem evtCreate_mem (r : Line) : (evtCreate r s).mem = s.mem := rfl
@[simp] theorem evtCreate_tiles (r : Line) : (evtCreate r s).tiles = s.tiles := rfl
@[simp] theorem evtCreate_lists (r : Line) : (evtCreate r s).lists = s.lists := rfl
@[simp] theorem evtCreate_pipe (r : Line) : (evtCreate r s).pipe = s.pipe := rfl
@[simp] theorem evtCreate_rope (r : Line) : (evtCreate r s).rope = s.rope := rfl
@[simp] theorem evtCreate_stage (r : Line) : (evtCreate r s).stage = s.stage := rfl
@[simp] theorem evtCreate_traces (r : Line) : (evtCreate r s).traces = s.traces := rfl
@[simp] theorem evtCreate_chainA (r : Line) : (evtCreate r s).chainA = s.chainA := rfl
@[simp] theorem evtCreate_chainB (r : Line) : (evtCreate r s).chainB = s.chainB := rfl
@[simp] theorem evtCreate_est (r : Line) : (evtCreate r s).est = s.est := rfl
@[simp] theorem evtCreate_therm (r : Line) : (evtCreate r s).therm = s.therm := rfl
@[simp] theorem evtCreate_power (r : Line) : (evtCreate r s).power = s.power := rfl
@[simp] theorem evtCreate_ledger (r : Line) : (evtCreate r s).ledger = s.ledger := rfl
@[simp] theorem evtCreate_pair (r : Line) : (evtCreate r s).pair = s.pair := rfl
@[simp] theorem evtCreate_boot (r : Line) : (evtCreate r s).boot = s.boot := rfl
@[simp] theorem evtCreate_diag (r : Line) : (evtCreate r s).diag = s.diag := rfl
@[simp] theorem evtCreate_free (r : Line) : (evtCreate r s).free = s.free := rfl
@[simp] theorem evtCreate_pending (r : Line) : (evtCreate r s).pending = s.pending := rfl

@[simp] theorem evtPlace_clk (r : Line) : (evtPlace r s).clk = s.clk := by
  unfold evtPlace; split <;> split <;> rfl
@[simp] theorem evtPlace_clerk (r : Line) : (evtPlace r s).clerk = s.clerk := by
  unfold evtPlace; split <;> split <;> rfl
@[simp] theorem evtPlace_mbs (r : Line) : (evtPlace r s).mbs = s.mbs := by
  unfold evtPlace; split <;> split <;> rfl
@[simp] theorem evtPlace_msix (r : Line) : (evtPlace r s).msix = s.msix := by
  unfold evtPlace; split <;> split <;> rfl
@[simp] theorem evtPlace_funcs (r : Line) : (evtPlace r s).funcs = s.funcs := by
  unfold evtPlace; split <;> split <;> rfl
@[simp] theorem evtPlace_claims (r : Line) : (evtPlace r s).claims = s.claims := by
  unfold evtPlace; split <;> split <;> rfl
@[simp] theorem evtPlace_link (r : Line) : (evtPlace r s).link = s.link := by
  unfold evtPlace; split <;> split <;> rfl
@[simp] theorem evtPlace_pumps (r : Line) : (evtPlace r s).pumps = s.pumps := by
  unfold evtPlace; split <;> split <;> rfl
@[simp] theorem evtPlace_tiles (r : Line) : (evtPlace r s).tiles = s.tiles := by
  unfold evtPlace; split <;> split <;> rfl
@[simp] theorem evtPlace_lists (r : Line) : (evtPlace r s).lists = s.lists := by
  unfold evtPlace; split <;> split <;> rfl
@[simp] theorem evtPlace_pipe (r : Line) : (evtPlace r s).pipe = s.pipe := by
  unfold evtPlace; split <;> split <;> rfl
@[simp] theorem evtPlace_rope (r : Line) : (evtPlace r s).rope = s.rope := by
  unfold evtPlace; split <;> split <;> rfl
@[simp] theorem evtPlace_stage (r : Line) : (evtPlace r s).stage = s.stage := by
  unfold evtPlace; split <;> split <;> rfl
@[simp] theorem evtPlace_traces (r : Line) : (evtPlace r s).traces = s.traces := by
  unfold evtPlace; split <;> split <;> rfl
@[simp] theorem evtPlace_chainA (r : Line) : (evtPlace r s).chainA = s.chainA := by
  unfold evtPlace; split <;> split <;> rfl
@[simp] theorem evtPlace_chainB (r : Line) : (evtPlace r s).chainB = s.chainB := by
  unfold evtPlace; split <;> split <;> rfl
@[simp] theorem evtPlace_est (r : Line) : (evtPlace r s).est = s.est := by
  unfold evtPlace; split <;> split <;> rfl
@[simp] theorem evtPlace_therm (r : Line) : (evtPlace r s).therm = s.therm := by
  unfold evtPlace; split <;> split <;> rfl
@[simp] theorem evtPlace_power (r : Line) : (evtPlace r s).power = s.power := by
  unfold evtPlace; split <;> split <;> rfl
@[simp] theorem evtPlace_ledger (r : Line) : (evtPlace r s).ledger = s.ledger := by
  unfold evtPlace; split <;> split <;> rfl
@[simp] theorem evtPlace_pair (r : Line) : (evtPlace r s).pair = s.pair := by
  unfold evtPlace; split <;> split <;> rfl
@[simp] theorem evtPlace_boot (r : Line) : (evtPlace r s).boot = s.boot := by
  unfold evtPlace; split <;> split <;> rfl
@[simp] theorem evtPlace_free (r : Line) : (evtPlace r s).free = s.free := by
  unfold evtPlace; split <;> split <;> rfl
@[simp] theorem evtPlace_pending (r : Line) : (evtPlace r s).pending = s.pending := by
  unfold evtPlace; split <;> split <;> rfl

@[simp] theorem emit_clk (a b c : Nat) (d : List Word) : (emit a b c d s).clk = s.clk := by simp only [emit]; split <;> simp
@[simp] theorem emit_clerk (a b c : Nat) (d : List Word) : (emit a b c d s).clerk = s.clerk := by simp only [emit]; split <;> simp
@[simp] theorem emit_mbs (a b c : Nat) (d : List Word) : (emit a b c d s).mbs = s.mbs := by simp only [emit]; split <;> simp
@[simp] theorem emit_msix (a b c : Nat) (d : List Word) : (emit a b c d s).msix = s.msix := by simp only [emit]; split <;> simp
@[simp] theorem emit_funcs (a b c : Nat) (d : List Word) : (emit a b c d s).funcs = s.funcs := by simp only [emit]; split <;> simp
@[simp] theorem emit_claims (a b c : Nat) (d : List Word) : (emit a b c d s).claims = s.claims := by simp only [emit]; split <;> simp
@[simp] theorem emit_link (a b c : Nat) (d : List Word) : (emit a b c d s).link = s.link := by simp only [emit]; split <;> simp
@[simp] theorem emit_pumps (a b c : Nat) (d : List Word) : (emit a b c d s).pumps = s.pumps := by simp only [emit]; split <;> simp
@[simp] theorem emit_tiles (a b c : Nat) (d : List Word) : (emit a b c d s).tiles = s.tiles := by simp only [emit]; split <;> simp
@[simp] theorem emit_lists (a b c : Nat) (d : List Word) : (emit a b c d s).lists = s.lists := by simp only [emit]; split <;> simp
@[simp] theorem emit_pipe (a b c : Nat) (d : List Word) : (emit a b c d s).pipe = s.pipe := by simp only [emit]; split <;> simp
@[simp] theorem emit_rope (a b c : Nat) (d : List Word) : (emit a b c d s).rope = s.rope := by simp only [emit]; split <;> simp
@[simp] theorem emit_stage (a b c : Nat) (d : List Word) : (emit a b c d s).stage = s.stage := by simp only [emit]; split <;> simp
@[simp] theorem emit_traces (a b c : Nat) (d : List Word) : (emit a b c d s).traces = s.traces := by simp only [emit]; split <;> simp
@[simp] theorem emit_chainA (a b c : Nat) (d : List Word) : (emit a b c d s).chainA = s.chainA := by simp only [emit]; split <;> simp
@[simp] theorem emit_chainB (a b c : Nat) (d : List Word) : (emit a b c d s).chainB = s.chainB := by simp only [emit]; split <;> simp
@[simp] theorem emit_est (a b c : Nat) (d : List Word) : (emit a b c d s).est = s.est := by simp only [emit]; split <;> simp
@[simp] theorem emit_therm (a b c : Nat) (d : List Word) : (emit a b c d s).therm = s.therm := by simp only [emit]; split <;> simp
@[simp] theorem emit_power (a b c : Nat) (d : List Word) : (emit a b c d s).power = s.power := by simp only [emit]; split <;> simp
@[simp] theorem emit_ledger (a b c : Nat) (d : List Word) : (emit a b c d s).ledger = s.ledger := by simp only [emit]; split <;> simp
@[simp] theorem emit_pair (a b c : Nat) (d : List Word) : (emit a b c d s).pair = s.pair := by simp only [emit]; split <;> simp
@[simp] theorem emit_boot (a b c : Nat) (d : List Word) : (emit a b c d s).boot = s.boot := by simp only [emit]; split <;> simp
@[simp] theorem emit_free (a b c : Nat) (d : List Word) : (emit a b c d s).free = s.free := by simp only [emit]; split <;> simp
@[simp] theorem emit_pending (a b c : Nat) (d : List Word) : (emit a b c d s).pending = s.pending := by simp only [emit]; split <;> simp

@[simp] theorem fnSet_clk (f : Nat) (x : FState) (c : Nat) : (fnSet f x c s).clk = s.clk := by
  unfold fnSet; split <;> [rfl; (dsimp only; split <;> [rfl; (split <;> simp)])]
@[simp] theorem fnSet_clerk (f : Nat) (x : FState) (c : Nat) : (fnSet f x c s).clerk = s.clerk := by
  unfold fnSet; split <;> [rfl; (dsimp only; split <;> [rfl; (split <;> simp)])]
@[simp] theorem fnSet_mbs (f : Nat) (x : FState) (c : Nat) : (fnSet f x c s).mbs = s.mbs := by
  unfold fnSet; split <;> [rfl; (dsimp only; split <;> [rfl; (split <;> simp)])]
@[simp] theorem fnSet_claims (f : Nat) (x : FState) (c : Nat) : (fnSet f x c s).claims = s.claims := by
  unfold fnSet; split <;> [rfl; (dsimp only; split <;> [rfl; (split <;> simp)])]
@[simp] theorem fnSet_link (f : Nat) (x : FState) (c : Nat) : (fnSet f x c s).link = s.link := by
  unfold fnSet; split <;> [rfl; (dsimp only; split <;> [rfl; (split <;> simp)])]
@[simp] theorem fnSet_pumps (f : Nat) (x : FState) (c : Nat) : (fnSet f x c s).pumps = s.pumps := by
  unfold fnSet; split <;> [rfl; (dsimp only; split <;> [rfl; (split <;> simp)])]
@[simp] theorem fnSet_tiles (f : Nat) (x : FState) (c : Nat) : (fnSet f x c s).tiles = s.tiles := by
  unfold fnSet; split <;> [rfl; (dsimp only; split <;> [rfl; (split <;> simp)])]
@[simp] theorem fnSet_lists (f : Nat) (x : FState) (c : Nat) : (fnSet f x c s).lists = s.lists := by
  unfold fnSet; split <;> [rfl; (dsimp only; split <;> [rfl; (split <;> simp)])]
@[simp] theorem fnSet_pipe (f : Nat) (x : FState) (c : Nat) : (fnSet f x c s).pipe = s.pipe := by
  unfold fnSet; split <;> [rfl; (dsimp only; split <;> [rfl; (split <;> simp)])]
@[simp] theorem fnSet_rope (f : Nat) (x : FState) (c : Nat) : (fnSet f x c s).rope = s.rope := by
  unfold fnSet; split <;> [rfl; (dsimp only; split <;> [rfl; (split <;> simp)])]
@[simp] theorem fnSet_stage (f : Nat) (x : FState) (c : Nat) : (fnSet f x c s).stage = s.stage := by
  unfold fnSet; split <;> [rfl; (dsimp only; split <;> [rfl; (split <;> simp)])]
@[simp] theorem fnSet_traces (f : Nat) (x : FState) (c : Nat) : (fnSet f x c s).traces = s.traces := by
  unfold fnSet; split <;> [rfl; (dsimp only; split <;> [rfl; (split <;> simp)])]
@[simp] theorem fnSet_chainA (f : Nat) (x : FState) (c : Nat) : (fnSet f x c s).chainA = s.chainA := by
  unfold fnSet; split <;> [rfl; (dsimp only; split <;> [rfl; (split <;> simp)])]
@[simp] theorem fnSet_chainB (f : Nat) (x : FState) (c : Nat) : (fnSet f x c s).chainB = s.chainB := by
  unfold fnSet; split <;> [rfl; (dsimp only; split <;> [rfl; (split <;> simp)])]
@[simp] theorem fnSet_est (f : Nat) (x : FState) (c : Nat) : (fnSet f x c s).est = s.est := by
  unfold fnSet; split <;> [rfl; (dsimp only; split <;> [rfl; (split <;> simp)])]
@[simp] theorem fnSet_therm (f : Nat) (x : FState) (c : Nat) : (fnSet f x c s).therm = s.therm := by
  unfold fnSet; split <;> [rfl; (dsimp only; split <;> [rfl; (split <;> simp)])]
@[simp] theorem fnSet_power (f : Nat) (x : FState) (c : Nat) : (fnSet f x c s).power = s.power := by
  unfold fnSet; split <;> [rfl; (dsimp only; split <;> [rfl; (split <;> simp)])]
@[simp] theorem fnSet_ledger (f : Nat) (x : FState) (c : Nat) : (fnSet f x c s).ledger = s.ledger := by
  unfold fnSet; split <;> [rfl; (dsimp only; split <;> [rfl; (split <;> simp)])]
@[simp] theorem fnSet_pair (f : Nat) (x : FState) (c : Nat) : (fnSet f x c s).pair = s.pair := by
  unfold fnSet; split <;> [rfl; (dsimp only; split <;> [rfl; (split <;> simp)])]
@[simp] theorem fnSet_boot (f : Nat) (x : FState) (c : Nat) : (fnSet f x c s).boot = s.boot := by
  unfold fnSet; split <;> [rfl; (dsimp only; split <;> [rfl; (split <;> simp)])]
@[simp] theorem fnSet_free (f : Nat) (x : FState) (c : Nat) : (fnSet f x c s).free = s.free := by
  unfold fnSet; split <;> [rfl; (dsimp only; split <;> [rfl; (split <;> simp)])]
@[simp] theorem fnSet_pending (f : Nat) (x : FState) (c : Nat) : (fnSet f x c s).pending = s.pending := by
  unfold fnSet; split <;> [rfl; (dsimp only; split <;> [rfl; (split <;> simp)])]

@[simp] theorem fnFault_clk (f c : Nat) : (fnFault f c s).clk = s.clk := by simp [fnFault]
@[simp] theorem fnFault_clerk (f c : Nat) : (fnFault f c s).clerk = s.clerk := by simp [fnFault]
@[simp] theorem fnFault_mbs (f c : Nat) : (fnFault f c s).mbs = s.mbs := by simp [fnFault]
@[simp] theorem fnFault_claims (f c : Nat) : (fnFault f c s).claims = s.claims := by simp [fnFault]
@[simp] theorem fnFault_link (f c : Nat) : (fnFault f c s).link = s.link := by simp [fnFault]
@[simp] theorem fnFault_pumps (f c : Nat) : (fnFault f c s).pumps = s.pumps := by simp [fnFault]
@[simp] theorem fnFault_tiles (f c : Nat) : (fnFault f c s).tiles = s.tiles := by simp [fnFault]
@[simp] theorem fnFault_lists (f c : Nat) : (fnFault f c s).lists = s.lists := by simp [fnFault]
@[simp] theorem fnFault_pipe (f c : Nat) : (fnFault f c s).pipe = s.pipe := by simp [fnFault]
@[simp] theorem fnFault_rope (f c : Nat) : (fnFault f c s).rope = s.rope := by simp [fnFault]
@[simp] theorem fnFault_stage (f c : Nat) : (fnFault f c s).stage = s.stage := by simp [fnFault]
@[simp] theorem fnFault_traces (f c : Nat) : (fnFault f c s).traces = s.traces := by simp [fnFault]
@[simp] theorem fnFault_chainA (f c : Nat) : (fnFault f c s).chainA = s.chainA := by simp [fnFault]
@[simp] theorem fnFault_chainB (f c : Nat) : (fnFault f c s).chainB = s.chainB := by simp [fnFault]
@[simp] theorem fnFault_est (f c : Nat) : (fnFault f c s).est = s.est := by simp [fnFault]
@[simp] theorem fnFault_therm (f c : Nat) : (fnFault f c s).therm = s.therm := by simp [fnFault]
@[simp] theorem fnFault_power (f c : Nat) : (fnFault f c s).power = s.power := by simp [fnFault]
@[simp] theorem fnFault_ledger (f c : Nat) : (fnFault f c s).ledger = s.ledger := by simp [fnFault]
@[simp] theorem fnFault_pair (f c : Nat) : (fnFault f c s).pair = s.pair := by simp [fnFault]
@[simp] theorem fnFault_boot (f c : Nat) : (fnFault f c s).boot = s.boot := by simp [fnFault]
@[simp] theorem fnFault_free (f c : Nat) : (fnFault f c s).free = s.free := by simp [fnFault]
@[simp] theorem fnFault_pending (f c : Nat) : (fnFault f c s).pending = s.pending := by simp [fnFault]

@[simp] theorem claimAll_clk (o : Nat) (rs : List Nat) : (claimAll o rs s).clk = s.clk := rfl
@[simp] theorem claimAll_clerk (o : Nat) (rs : List Nat) : (claimAll o rs s).clerk = s.clerk := rfl
@[simp] theorem claimAll_mbs (o : Nat) (rs : List Nat) : (claimAll o rs s).mbs = s.mbs := rfl
@[simp] theorem claimAll_evt (o : Nat) (rs : List Nat) : (claimAll o rs s).evt = s.evt := rfl
@[simp] theorem claimAll_msix (o : Nat) (rs : List Nat) : (claimAll o rs s).msix = s.msix := rfl
@[simp] theorem claimAll_funcs (o : Nat) (rs : List Nat) : (claimAll o rs s).funcs = s.funcs := rfl
@[simp] theorem claimAll_link (o : Nat) (rs : List Nat) : (claimAll o rs s).link = s.link := rfl
@[simp] theorem claimAll_pumps (o : Nat) (rs : List Nat) : (claimAll o rs s).pumps = s.pumps := rfl
@[simp] theorem claimAll_mem (o : Nat) (rs : List Nat) : (claimAll o rs s).mem = s.mem := rfl
@[simp] theorem claimAll_tiles (o : Nat) (rs : List Nat) : (claimAll o rs s).tiles = s.tiles := rfl
@[simp] theorem claimAll_lists (o : Nat) (rs : List Nat) : (claimAll o rs s).lists = s.lists := rfl
@[simp] theorem claimAll_pipe (o : Nat) (rs : List Nat) : (claimAll o rs s).pipe = s.pipe := rfl
@[simp] theorem claimAll_rope (o : Nat) (rs : List Nat) : (claimAll o rs s).rope = s.rope := rfl
@[simp] theorem claimAll_stage (o : Nat) (rs : List Nat) : (claimAll o rs s).stage = s.stage := rfl
@[simp] theorem claimAll_traces (o : Nat) (rs : List Nat) : (claimAll o rs s).traces = s.traces := rfl
@[simp] theorem claimAll_chainA (o : Nat) (rs : List Nat) : (claimAll o rs s).chainA = s.chainA := rfl
@[simp] theorem claimAll_chainB (o : Nat) (rs : List Nat) : (claimAll o rs s).chainB = s.chainB := rfl
@[simp] theorem claimAll_est (o : Nat) (rs : List Nat) : (claimAll o rs s).est = s.est := rfl
@[simp] theorem claimAll_therm (o : Nat) (rs : List Nat) : (claimAll o rs s).therm = s.therm := rfl
@[simp] theorem claimAll_power (o : Nat) (rs : List Nat) : (claimAll o rs s).power = s.power := rfl
@[simp] theorem claimAll_ledger (o : Nat) (rs : List Nat) : (claimAll o rs s).ledger = s.ledger := rfl
@[simp] theorem claimAll_pair (o : Nat) (rs : List Nat) : (claimAll o rs s).pair = s.pair := rfl
@[simp] theorem claimAll_boot (o : Nat) (rs : List Nat) : (claimAll o rs s).boot = s.boot := rfl
@[simp] theorem claimAll_diag (o : Nat) (rs : List Nat) : (claimAll o rs s).diag = s.diag := rfl
@[simp] theorem claimAll_free (o : Nat) (rs : List Nat) : (claimAll o rs s).free = s.free := rfl
@[simp] theorem claimAll_pending (o : Nat) (rs : List Nat) : (claimAll o rs s).pending = s.pending := rfl

@[simp] theorem claimRelease_clk (o : Nat) : (claimRelease o s).clk = s.clk := rfl
@[simp] theorem claimRelease_clerk (o : Nat) : (claimRelease o s).clerk = s.clerk := rfl
@[simp] theorem claimRelease_mbs (o : Nat) : (claimRelease o s).mbs = s.mbs := rfl
@[simp] theorem claimRelease_evt (o : Nat) : (claimRelease o s).evt = s.evt := rfl
@[simp] theorem claimRelease_msix (o : Nat) : (claimRelease o s).msix = s.msix := rfl
@[simp] theorem claimRelease_funcs (o : Nat) : (claimRelease o s).funcs = s.funcs := rfl
@[simp] theorem claimRelease_link (o : Nat) : (claimRelease o s).link = s.link := rfl
@[simp] theorem claimRelease_pumps (o : Nat) : (claimRelease o s).pumps = s.pumps := rfl
@[simp] theorem claimRelease_mem (o : Nat) : (claimRelease o s).mem = s.mem := rfl
@[simp] theorem claimRelease_tiles (o : Nat) : (claimRelease o s).tiles = s.tiles := rfl
@[simp] theorem claimRelease_lists (o : Nat) : (claimRelease o s).lists = s.lists := rfl
@[simp] theorem claimRelease_pipe (o : Nat) : (claimRelease o s).pipe = s.pipe := rfl
@[simp] theorem claimRelease_rope (o : Nat) : (claimRelease o s).rope = s.rope := rfl
@[simp] theorem claimRelease_stage (o : Nat) : (claimRelease o s).stage = s.stage := rfl
@[simp] theorem claimRelease_traces (o : Nat) : (claimRelease o s).traces = s.traces := rfl
@[simp] theorem claimRelease_chainA (o : Nat) : (claimRelease o s).chainA = s.chainA := rfl
@[simp] theorem claimRelease_chainB (o : Nat) : (claimRelease o s).chainB = s.chainB := rfl
@[simp] theorem claimRelease_est (o : Nat) : (claimRelease o s).est = s.est := rfl
@[simp] theorem claimRelease_therm (o : Nat) : (claimRelease o s).therm = s.therm := rfl
@[simp] theorem claimRelease_power (o : Nat) : (claimRelease o s).power = s.power := rfl
@[simp] theorem claimRelease_ledger (o : Nat) : (claimRelease o s).ledger = s.ledger := rfl
@[simp] theorem claimRelease_pair (o : Nat) : (claimRelease o s).pair = s.pair := rfl
@[simp] theorem claimRelease_boot (o : Nat) : (claimRelease o s).boot = s.boot := rfl
@[simp] theorem claimRelease_diag (o : Nat) : (claimRelease o s).diag = s.diag := rfl
@[simp] theorem claimRelease_free (o : Nat) : (claimRelease o s).free = s.free := rfl
@[simp] theorem claimRelease_pending (o : Nat) : (claimRelease o s).pending = s.pending := rfl

@[simp] theorem dropReq_clk : (dropReq s).clk = s.clk := by unfold dropReq; split <;> simp
@[simp] theorem dropReq_clerk : (dropReq s).clerk = s.clerk := by unfold dropReq; split <;> simp
@[simp] theorem dropReq_mbs : (dropReq s).mbs = s.mbs := by unfold dropReq; split <;> simp
@[simp] theorem dropReq_evt : (dropReq s).evt = s.evt := by unfold dropReq; split <;> simp
@[simp] theorem dropReq_funcs : (dropReq s).funcs = s.funcs := by unfold dropReq; split <;> simp
@[simp] theorem dropReq_claims : (dropReq s).claims = s.claims := by unfold dropReq; split <;> simp
@[simp] theorem dropReq_link : (dropReq s).link = s.link := by unfold dropReq; split <;> simp
@[simp] theorem dropReq_pumps : (dropReq s).pumps = s.pumps := by unfold dropReq; split <;> simp
@[simp] theorem dropReq_mem : (dropReq s).mem = s.mem := by unfold dropReq; split <;> simp
@[simp] theorem dropReq_tiles : (dropReq s).tiles = s.tiles := by unfold dropReq; split <;> simp
@[simp] theorem dropReq_lists : (dropReq s).lists = s.lists := by unfold dropReq; split <;> simp
@[simp] theorem dropReq_pipe : (dropReq s).pipe = s.pipe := by unfold dropReq; split <;> simp
@[simp] theorem dropReq_rope : (dropReq s).rope = s.rope := by unfold dropReq; split <;> simp
@[simp] theorem dropReq_stage : (dropReq s).stage = s.stage := by unfold dropReq; split <;> simp
@[simp] theorem dropReq_traces : (dropReq s).traces = s.traces := by unfold dropReq; split <;> simp
@[simp] theorem dropReq_chainA : (dropReq s).chainA = s.chainA := by unfold dropReq; split <;> simp
@[simp] theorem dropReq_chainB : (dropReq s).chainB = s.chainB := by unfold dropReq; split <;> simp
@[simp] theorem dropReq_est : (dropReq s).est = s.est := by unfold dropReq; split <;> simp
@[simp] theorem dropReq_therm : (dropReq s).therm = s.therm := by unfold dropReq; split <;> simp
@[simp] theorem dropReq_power : (dropReq s).power = s.power := by unfold dropReq; split <;> simp
@[simp] theorem dropReq_ledger : (dropReq s).ledger = s.ledger := by unfold dropReq; split <;> simp
@[simp] theorem dropReq_boot : (dropReq s).boot = s.boot := by unfold dropReq; split <;> simp
@[simp] theorem dropReq_diag : (dropReq s).diag = s.diag := by unfold dropReq; split <;> simp
@[simp] theorem dropReq_free : (dropReq s).free = s.free := by unfold dropReq; split <;> simp
@[simp] theorem dropReq_pending : (dropReq s).pending = s.pending := by unfold dropReq; split <;> simp

@[simp] theorem vetoLatch_clk (c : Nat) : (vetoLatch c s).clk = s.clk := by
  unfold vetoLatch; split <;> simp
@[simp] theorem vetoLatch_clerk (c : Nat) : (vetoLatch c s).clerk = s.clerk := by
  unfold vetoLatch; split <;> simp
@[simp] theorem vetoLatch_mbs (c : Nat) : (vetoLatch c s).mbs = s.mbs := by
  unfold vetoLatch; split <;> simp
@[simp] theorem vetoLatch_funcs (c : Nat) : (vetoLatch c s).funcs = s.funcs := by
  unfold vetoLatch; split <;> simp
@[simp] theorem vetoLatch_claims (c : Nat) : (vetoLatch c s).claims = s.claims := by
  unfold vetoLatch; split <;> simp
@[simp] theorem vetoLatch_link (c : Nat) : (vetoLatch c s).link = s.link := by
  unfold vetoLatch; split <;> simp
@[simp] theorem vetoLatch_pumps (c : Nat) : (vetoLatch c s).pumps = s.pumps := by
  unfold vetoLatch; split <;> simp
@[simp] theorem vetoLatch_tiles (c : Nat) : (vetoLatch c s).tiles = s.tiles := by
  unfold vetoLatch; split <;> simp
@[simp] theorem vetoLatch_lists (c : Nat) : (vetoLatch c s).lists = s.lists := by
  unfold vetoLatch; split <;> simp
@[simp] theorem vetoLatch_pipe (c : Nat) : (vetoLatch c s).pipe = s.pipe := by
  unfold vetoLatch; split <;> simp
@[simp] theorem vetoLatch_rope (c : Nat) : (vetoLatch c s).rope = s.rope := by
  unfold vetoLatch; split <;> simp
@[simp] theorem vetoLatch_stage (c : Nat) : (vetoLatch c s).stage = s.stage := by
  unfold vetoLatch; split <;> simp
@[simp] theorem vetoLatch_traces (c : Nat) : (vetoLatch c s).traces = s.traces := by
  unfold vetoLatch; split <;> simp
@[simp] theorem vetoLatch_chainA (c : Nat) : (vetoLatch c s).chainA = s.chainA := by
  unfold vetoLatch; split <;> simp
@[simp] theorem vetoLatch_chainB (c : Nat) : (vetoLatch c s).chainB = s.chainB := by
  unfold vetoLatch; split <;> simp
@[simp] theorem vetoLatch_est (c : Nat) : (vetoLatch c s).est = s.est := by
  unfold vetoLatch; split <;> simp
@[simp] theorem vetoLatch_therm (c : Nat) : (vetoLatch c s).therm = s.therm := by
  unfold vetoLatch; split <;> simp
@[simp] theorem vetoLatch_power (c : Nat) : (vetoLatch c s).power = s.power := by
  unfold vetoLatch; split <;> simp
@[simp] theorem vetoLatch_ledger (c : Nat) : (vetoLatch c s).ledger = s.ledger := by
  unfold vetoLatch; split <;> simp
@[simp] theorem vetoLatch_boot (c : Nat) : (vetoLatch c s).boot = s.boot := by
  unfold vetoLatch; split <;> simp
@[simp] theorem vetoLatch_free (c : Nat) : (vetoLatch c s).free = s.free := by
  unfold vetoLatch; split <;> simp
@[simp] theorem vetoLatch_pending (c : Nat) : (vetoLatch c s).pending = s.pending := by
  unfold vetoLatch; split <;> simp

@[simp] theorem pairLeave_clk (p : PState) (n : Nat) : (pairLeave p n s).clk = s.clk := by
  unfold pairLeave; split <;> [rfl; (dsimp only; split <;> simp)]
@[simp] theorem pairLeave_clerk (p : PState) (n : Nat) : (pairLeave p n s).clerk = s.clerk := by
  unfold pairLeave; split <;> [rfl; (dsimp only; split <;> simp)]
@[simp] theorem pairLeave_mbs (p : PState) (n : Nat) : (pairLeave p n s).mbs = s.mbs := by
  unfold pairLeave; split <;> [rfl; (dsimp only; split <;> simp)]
@[simp] theorem pairLeave_funcs (p : PState) (n : Nat) : (pairLeave p n s).funcs = s.funcs := by
  unfold pairLeave; split <;> [rfl; (dsimp only; split <;> simp)]
@[simp] theorem pairLeave_claims (p : PState) (n : Nat) : (pairLeave p n s).claims = s.claims := by
  unfold pairLeave; split <;> [rfl; (dsimp only; split <;> simp)]
@[simp] theorem pairLeave_link (p : PState) (n : Nat) : (pairLeave p n s).link = s.link := by
  unfold pairLeave; split <;> [rfl; (dsimp only; split <;> simp)]
@[simp] theorem pairLeave_pumps (p : PState) (n : Nat) : (pairLeave p n s).pumps = s.pumps := by
  unfold pairLeave; split <;> [rfl; (dsimp only; split <;> simp)]
@[simp] theorem pairLeave_tiles (p : PState) (n : Nat) : (pairLeave p n s).tiles = s.tiles := by
  unfold pairLeave; split <;> [rfl; (dsimp only; split <;> simp)]
@[simp] theorem pairLeave_lists (p : PState) (n : Nat) : (pairLeave p n s).lists = s.lists := by
  unfold pairLeave; split <;> [rfl; (dsimp only; split <;> simp)]
@[simp] theorem pairLeave_pipe (p : PState) (n : Nat) : (pairLeave p n s).pipe = s.pipe := by
  unfold pairLeave; split <;> [rfl; (dsimp only; split <;> simp)]
@[simp] theorem pairLeave_rope (p : PState) (n : Nat) : (pairLeave p n s).rope = s.rope := by
  unfold pairLeave; split <;> [rfl; (dsimp only; split <;> simp)]
@[simp] theorem pairLeave_stage (p : PState) (n : Nat) : (pairLeave p n s).stage = s.stage := by
  unfold pairLeave; split <;> [rfl; (dsimp only; split <;> simp)]
@[simp] theorem pairLeave_traces (p : PState) (n : Nat) : (pairLeave p n s).traces = s.traces := by
  unfold pairLeave; split <;> [rfl; (dsimp only; split <;> simp)]
@[simp] theorem pairLeave_chainA (p : PState) (n : Nat) : (pairLeave p n s).chainA = s.chainA := by
  unfold pairLeave; split <;> [rfl; (dsimp only; split <;> simp)]
@[simp] theorem pairLeave_chainB (p : PState) (n : Nat) : (pairLeave p n s).chainB = s.chainB := by
  unfold pairLeave; split <;> [rfl; (dsimp only; split <;> simp)]
@[simp] theorem pairLeave_est (p : PState) (n : Nat) : (pairLeave p n s).est = s.est := by
  unfold pairLeave; split <;> [rfl; (dsimp only; split <;> simp)]
@[simp] theorem pairLeave_therm (p : PState) (n : Nat) : (pairLeave p n s).therm = s.therm := by
  unfold pairLeave; split <;> [rfl; (dsimp only; split <;> simp)]
@[simp] theorem pairLeave_power (p : PState) (n : Nat) : (pairLeave p n s).power = s.power := by
  unfold pairLeave; split <;> [rfl; (dsimp only; split <;> simp)]
@[simp] theorem pairLeave_ledger (p : PState) (n : Nat) : (pairLeave p n s).ledger = s.ledger := by
  unfold pairLeave; split <;> [rfl; (dsimp only; split <;> simp)]
@[simp] theorem pairLeave_boot (p : PState) (n : Nat) : (pairLeave p n s).boot = s.boot := by
  unfold pairLeave; split <;> [rfl; (dsimp only; split <;> simp)]
@[simp] theorem pairLeave_free (p : PState) (n : Nat) : (pairLeave p n s).free = s.free := by
  unfold pairLeave; split <;> [rfl; (dsimp only; split <;> simp)]
@[simp] theorem pairLeave_pending (p : PState) (n : Nat) : (pairLeave p n s).pending = s.pending := by
  unfold pairLeave; split <;> [rfl; (dsimp only; split <;> simp)]

@[simp] theorem vetoRelease_clk (c : Nat) : (vetoRelease c s).clk = s.clk := by
  unfold vetoRelease; split <;> [(dsimp only; split <;> simp); rfl]
@[simp] theorem vetoRelease_clerk (c : Nat) : (vetoRelease c s).clerk = s.clerk := by
  unfold vetoRelease; split <;> [(dsimp only; split <;> simp); rfl]
@[simp] theorem vetoRelease_mbs (c : Nat) : (vetoRelease c s).mbs = s.mbs := by
  unfold vetoRelease; split <;> [(dsimp only; split <;> simp); rfl]
@[simp] theorem vetoRelease_funcs (c : Nat) : (vetoRelease c s).funcs = s.funcs := by
  unfold vetoRelease; split <;> [(dsimp only; split <;> simp); rfl]
@[simp] theorem vetoRelease_claims (c : Nat) : (vetoRelease c s).claims = s.claims := by
  unfold vetoRelease; split <;> [(dsimp only; split <;> simp); rfl]
@[simp] theorem vetoRelease_link (c : Nat) : (vetoRelease c s).link = s.link := by
  unfold vetoRelease; split <;> [(dsimp only; split <;> simp); rfl]
@[simp] theorem vetoRelease_pumps (c : Nat) : (vetoRelease c s).pumps = s.pumps := by
  unfold vetoRelease; split <;> [(dsimp only; split <;> simp); rfl]
@[simp] theorem vetoRelease_tiles (c : Nat) : (vetoRelease c s).tiles = s.tiles := by
  unfold vetoRelease; split <;> [(dsimp only; split <;> simp); rfl]
@[simp] theorem vetoRelease_lists (c : Nat) : (vetoRelease c s).lists = s.lists := by
  unfold vetoRelease; split <;> [(dsimp only; split <;> simp); rfl]
@[simp] theorem vetoRelease_pipe (c : Nat) : (vetoRelease c s).pipe = s.pipe := by
  unfold vetoRelease; split <;> [(dsimp only; split <;> simp); rfl]
@[simp] theorem vetoRelease_rope (c : Nat) : (vetoRelease c s).rope = s.rope := by
  unfold vetoRelease; split <;> [(dsimp only; split <;> simp); rfl]
@[simp] theorem vetoRelease_stage (c : Nat) : (vetoRelease c s).stage = s.stage := by
  unfold vetoRelease; split <;> [(dsimp only; split <;> simp); rfl]
@[simp] theorem vetoRelease_traces (c : Nat) : (vetoRelease c s).traces = s.traces := by
  unfold vetoRelease; split <;> [(dsimp only; split <;> simp); rfl]
@[simp] theorem vetoRelease_chainA (c : Nat) : (vetoRelease c s).chainA = s.chainA := by
  unfold vetoRelease; split <;> [(dsimp only; split <;> simp); rfl]
@[simp] theorem vetoRelease_chainB (c : Nat) : (vetoRelease c s).chainB = s.chainB := by
  unfold vetoRelease; split <;> [(dsimp only; split <;> simp); rfl]
@[simp] theorem vetoRelease_est (c : Nat) : (vetoRelease c s).est = s.est := by
  unfold vetoRelease; split <;> [(dsimp only; split <;> simp); rfl]
@[simp] theorem vetoRelease_therm (c : Nat) : (vetoRelease c s).therm = s.therm := by
  unfold vetoRelease; split <;> [(dsimp only; split <;> simp); rfl]
@[simp] theorem vetoRelease_power (c : Nat) : (vetoRelease c s).power = s.power := by
  unfold vetoRelease; split <;> [(dsimp only; split <;> simp); rfl]
@[simp] theorem vetoRelease_ledger (c : Nat) : (vetoRelease c s).ledger = s.ledger := by
  unfold vetoRelease; split <;> [(dsimp only; split <;> simp); rfl]
@[simp] theorem vetoRelease_boot (c : Nat) : (vetoRelease c s).boot = s.boot := by
  unfold vetoRelease; split <;> [(dsimp only; split <;> simp); rfl]
@[simp] theorem vetoRelease_free (c : Nat) : (vetoRelease c s).free = s.free := by
  unfold vetoRelease; split <;> [(dsimp only; split <;> simp); rfl]
@[simp] theorem vetoRelease_pending (c : Nat) : (vetoRelease c s).pending = s.pending := by
  unfold vetoRelease; split <;> [(dsimp only; split <;> simp); rfl]

@[simp] theorem hostLossDeclare_clk : (hostLossDeclare s).clk = s.clk := by unfold hostLossDeclare; split <;> simp
@[simp] theorem hostLossDeclare_clerk : (hostLossDeclare s).clerk = s.clerk := by unfold hostLossDeclare; split <;> simp
@[simp] theorem hostLossDeclare_mbs : (hostLossDeclare s).mbs = s.mbs := by unfold hostLossDeclare; split <;> simp
@[simp] theorem hostLossDeclare_msix : (hostLossDeclare s).msix = s.msix := by unfold hostLossDeclare; split <;> simp
@[simp] theorem hostLossDeclare_funcs : (hostLossDeclare s).funcs = s.funcs := by unfold hostLossDeclare; split <;> simp
@[simp] theorem hostLossDeclare_claims : (hostLossDeclare s).claims = s.claims := by unfold hostLossDeclare; split <;> simp
@[simp] theorem hostLossDeclare_pumps : (hostLossDeclare s).pumps = s.pumps := by unfold hostLossDeclare; split <;> simp
@[simp] theorem hostLossDeclare_tiles : (hostLossDeclare s).tiles = s.tiles := by unfold hostLossDeclare; split <;> simp
@[simp] theorem hostLossDeclare_lists : (hostLossDeclare s).lists = s.lists := by unfold hostLossDeclare; split <;> simp
@[simp] theorem hostLossDeclare_pipe : (hostLossDeclare s).pipe = s.pipe := by unfold hostLossDeclare; split <;> simp
@[simp] theorem hostLossDeclare_rope : (hostLossDeclare s).rope = s.rope := by unfold hostLossDeclare; split <;> simp
@[simp] theorem hostLossDeclare_stage : (hostLossDeclare s).stage = s.stage := by unfold hostLossDeclare; split <;> simp
@[simp] theorem hostLossDeclare_traces : (hostLossDeclare s).traces = s.traces := by unfold hostLossDeclare; split <;> simp
@[simp] theorem hostLossDeclare_chainA : (hostLossDeclare s).chainA = s.chainA := by unfold hostLossDeclare; split <;> simp
@[simp] theorem hostLossDeclare_chainB : (hostLossDeclare s).chainB = s.chainB := by unfold hostLossDeclare; split <;> simp
@[simp] theorem hostLossDeclare_est : (hostLossDeclare s).est = s.est := by unfold hostLossDeclare; split <;> simp
@[simp] theorem hostLossDeclare_therm : (hostLossDeclare s).therm = s.therm := by unfold hostLossDeclare; split <;> simp
@[simp] theorem hostLossDeclare_power : (hostLossDeclare s).power = s.power := by unfold hostLossDeclare; split <;> simp
@[simp] theorem hostLossDeclare_ledger : (hostLossDeclare s).ledger = s.ledger := by unfold hostLossDeclare; split <;> simp
@[simp] theorem hostLossDeclare_pair : (hostLossDeclare s).pair = s.pair := by unfold hostLossDeclare; split <;> simp
@[simp] theorem hostLossDeclare_boot : (hostLossDeclare s).boot = s.boot := by unfold hostLossDeclare; split <;> simp
@[simp] theorem hostLossDeclare_free : (hostLossDeclare s).free = s.free := by unfold hostLossDeclare; split <;> simp
@[simp] theorem hostLossDeclare_pending : (hostLossDeclare s).pending = s.pending := by unfold hostLossDeclare; split <;> simp

@[simp] theorem hostLossEnd_clk : (hostLossEnd s).clk = s.clk := by unfold hostLossEnd; split <;> simp
@[simp] theorem hostLossEnd_clerk : (hostLossEnd s).clerk = s.clerk := by unfold hostLossEnd; split <;> simp
@[simp] theorem hostLossEnd_mbs : (hostLossEnd s).mbs = s.mbs := by unfold hostLossEnd; split <;> simp
@[simp] theorem hostLossEnd_msix : (hostLossEnd s).msix = s.msix := by unfold hostLossEnd; split <;> simp
@[simp] theorem hostLossEnd_funcs : (hostLossEnd s).funcs = s.funcs := by unfold hostLossEnd; split <;> simp
@[simp] theorem hostLossEnd_claims : (hostLossEnd s).claims = s.claims := by unfold hostLossEnd; split <;> simp
@[simp] theorem hostLossEnd_pumps : (hostLossEnd s).pumps = s.pumps := by unfold hostLossEnd; split <;> simp
@[simp] theorem hostLossEnd_tiles : (hostLossEnd s).tiles = s.tiles := by unfold hostLossEnd; split <;> simp
@[simp] theorem hostLossEnd_lists : (hostLossEnd s).lists = s.lists := by unfold hostLossEnd; split <;> simp
@[simp] theorem hostLossEnd_pipe : (hostLossEnd s).pipe = s.pipe := by unfold hostLossEnd; split <;> simp
@[simp] theorem hostLossEnd_rope : (hostLossEnd s).rope = s.rope := by unfold hostLossEnd; split <;> simp
@[simp] theorem hostLossEnd_stage : (hostLossEnd s).stage = s.stage := by unfold hostLossEnd; split <;> simp
@[simp] theorem hostLossEnd_traces : (hostLossEnd s).traces = s.traces := by unfold hostLossEnd; split <;> simp
@[simp] theorem hostLossEnd_chainA : (hostLossEnd s).chainA = s.chainA := by unfold hostLossEnd; split <;> simp
@[simp] theorem hostLossEnd_chainB : (hostLossEnd s).chainB = s.chainB := by unfold hostLossEnd; split <;> simp
@[simp] theorem hostLossEnd_est : (hostLossEnd s).est = s.est := by unfold hostLossEnd; split <;> simp
@[simp] theorem hostLossEnd_therm : (hostLossEnd s).therm = s.therm := by unfold hostLossEnd; split <;> simp
@[simp] theorem hostLossEnd_power : (hostLossEnd s).power = s.power := by unfold hostLossEnd; split <;> simp
@[simp] theorem hostLossEnd_ledger : (hostLossEnd s).ledger = s.ledger := by unfold hostLossEnd; split <;> simp
@[simp] theorem hostLossEnd_pair : (hostLossEnd s).pair = s.pair := by unfold hostLossEnd; split <;> simp
@[simp] theorem hostLossEnd_boot : (hostLossEnd s).boot = s.boot := by unfold hostLossEnd; split <;> simp
@[simp] theorem hostLossEnd_free : (hostLossEnd s).free = s.free := by unfold hostLossEnd; split <;> simp
@[simp] theorem hostLossEnd_pending : (hostLossEnd s).pending = s.pending := by unfold hostLossEnd; split <;> simp

@[simp] theorem complete_clk (n : Nat) (c : Code) (d : Nat) (w : List Word) : (complete n c d w s).clk = s.clk := by
  unfold complete; dsimp only; split <;> [rfl; (split <;> simp)]
@[simp] theorem complete_evt (n : Nat) (c : Code) (d : Nat) (w : List Word) : (complete n c d w s).evt = s.evt := by
  unfold complete; dsimp only; split <;> [rfl; (split <;> simp)]
@[simp] theorem complete_funcs (n : Nat) (c : Code) (d : Nat) (w : List Word) : (complete n c d w s).funcs = s.funcs := by
  unfold complete; dsimp only; split <;> [rfl; (split <;> simp)]
@[simp] theorem complete_claims (n : Nat) (c : Code) (d : Nat) (w : List Word) : (complete n c d w s).claims = s.claims := by
  unfold complete; dsimp only; split <;> [rfl; (split <;> simp)]
@[simp] theorem complete_link (n : Nat) (c : Code) (d : Nat) (w : List Word) : (complete n c d w s).link = s.link := by
  unfold complete; dsimp only; split <;> [rfl; (split <;> simp)]
@[simp] theorem complete_pumps (n : Nat) (c : Code) (d : Nat) (w : List Word) : (complete n c d w s).pumps = s.pumps := by
  unfold complete; dsimp only; split <;> [rfl; (split <;> simp)]
@[simp] theorem complete_mem (n : Nat) (c : Code) (d : Nat) (w : List Word) : (complete n c d w s).mem = s.mem := by
  unfold complete; dsimp only; split <;> [rfl; (split <;> simp)]
@[simp] theorem complete_tiles (n : Nat) (c : Code) (d : Nat) (w : List Word) : (complete n c d w s).tiles = s.tiles := by
  unfold complete; dsimp only; split <;> [rfl; (split <;> simp)]
@[simp] theorem complete_lists (n : Nat) (c : Code) (d : Nat) (w : List Word) : (complete n c d w s).lists = s.lists := by
  unfold complete; dsimp only; split <;> [rfl; (split <;> simp)]
@[simp] theorem complete_pipe (n : Nat) (c : Code) (d : Nat) (w : List Word) : (complete n c d w s).pipe = s.pipe := by
  unfold complete; dsimp only; split <;> [rfl; (split <;> simp)]
@[simp] theorem complete_rope (n : Nat) (c : Code) (d : Nat) (w : List Word) : (complete n c d w s).rope = s.rope := by
  unfold complete; dsimp only; split <;> [rfl; (split <;> simp)]
@[simp] theorem complete_stage (n : Nat) (c : Code) (d : Nat) (w : List Word) : (complete n c d w s).stage = s.stage := by
  unfold complete; dsimp only; split <;> [rfl; (split <;> simp)]
@[simp] theorem complete_traces (n : Nat) (c : Code) (d : Nat) (w : List Word) : (complete n c d w s).traces = s.traces := by
  unfold complete; dsimp only; split <;> [rfl; (split <;> simp)]
@[simp] theorem complete_chainA (n : Nat) (c : Code) (d : Nat) (w : List Word) : (complete n c d w s).chainA = s.chainA := by
  unfold complete; dsimp only; split <;> [rfl; (split <;> simp)]
@[simp] theorem complete_chainB (n : Nat) (c : Code) (d : Nat) (w : List Word) : (complete n c d w s).chainB = s.chainB := by
  unfold complete; dsimp only; split <;> [rfl; (split <;> simp)]
@[simp] theorem complete_est (n : Nat) (c : Code) (d : Nat) (w : List Word) : (complete n c d w s).est = s.est := by
  unfold complete; dsimp only; split <;> [rfl; (split <;> simp)]
@[simp] theorem complete_therm (n : Nat) (c : Code) (d : Nat) (w : List Word) : (complete n c d w s).therm = s.therm := by
  unfold complete; dsimp only; split <;> [rfl; (split <;> simp)]
@[simp] theorem complete_power (n : Nat) (c : Code) (d : Nat) (w : List Word) : (complete n c d w s).power = s.power := by
  unfold complete; dsimp only; split <;> [rfl; (split <;> simp)]
@[simp] theorem complete_ledger (n : Nat) (c : Code) (d : Nat) (w : List Word) : (complete n c d w s).ledger = s.ledger := by
  unfold complete; dsimp only; split <;> [rfl; (split <;> simp)]
@[simp] theorem complete_pair (n : Nat) (c : Code) (d : Nat) (w : List Word) : (complete n c d w s).pair = s.pair := by
  unfold complete; dsimp only; split <;> [rfl; (split <;> simp)]
@[simp] theorem complete_boot (n : Nat) (c : Code) (d : Nat) (w : List Word) : (complete n c d w s).boot = s.boot := by
  unfold complete; dsimp only; split <;> [rfl; (split <;> simp)]
@[simp] theorem complete_free (n : Nat) (c : Code) (d : Nat) (w : List Word) : (complete n c d w s).free = s.free := by
  unfold complete; dsimp only; split <;> [rfl; (split <;> simp)]
@[simp] theorem complete_pending (n : Nat) (c : Code) (d : Nat) (w : List Word) : (complete n c d w s).pending = s.pending := by
  unfold complete; dsimp only; split <;> [rfl; (split <;> simp)]

@[simp] theorem answer_clk (w : Waiting) (c : Code) (d : Nat) (l : List Word) : (answer w c d l s).clk = s.clk := by unfold answer; split <;> simp
@[simp] theorem answer_evt (w : Waiting) (c : Code) (d : Nat) (l : List Word) : (answer w c d l s).evt = s.evt := by unfold answer; split <;> simp
@[simp] theorem answer_funcs (w : Waiting) (c : Code) (d : Nat) (l : List Word) : (answer w c d l s).funcs = s.funcs := by unfold answer; split <;> simp
@[simp] theorem answer_claims (w : Waiting) (c : Code) (d : Nat) (l : List Word) : (answer w c d l s).claims = s.claims := by unfold answer; split <;> simp
@[simp] theorem answer_link (w : Waiting) (c : Code) (d : Nat) (l : List Word) : (answer w c d l s).link = s.link := by unfold answer; split <;> simp
@[simp] theorem answer_pumps (w : Waiting) (c : Code) (d : Nat) (l : List Word) : (answer w c d l s).pumps = s.pumps := by unfold answer; split <;> simp
@[simp] theorem answer_mem (w : Waiting) (c : Code) (d : Nat) (l : List Word) : (answer w c d l s).mem = s.mem := by unfold answer; split <;> simp
@[simp] theorem answer_tiles (w : Waiting) (c : Code) (d : Nat) (l : List Word) : (answer w c d l s).tiles = s.tiles := by unfold answer; split <;> simp
@[simp] theorem answer_lists (w : Waiting) (c : Code) (d : Nat) (l : List Word) : (answer w c d l s).lists = s.lists := by unfold answer; split <;> simp
@[simp] theorem answer_pipe (w : Waiting) (c : Code) (d : Nat) (l : List Word) : (answer w c d l s).pipe = s.pipe := by unfold answer; split <;> simp
@[simp] theorem answer_rope (w : Waiting) (c : Code) (d : Nat) (l : List Word) : (answer w c d l s).rope = s.rope := by unfold answer; split <;> simp
@[simp] theorem answer_stage (w : Waiting) (c : Code) (d : Nat) (l : List Word) : (answer w c d l s).stage = s.stage := by unfold answer; split <;> simp
@[simp] theorem answer_traces (w : Waiting) (c : Code) (d : Nat) (l : List Word) : (answer w c d l s).traces = s.traces := by unfold answer; split <;> simp
@[simp] theorem answer_chainA (w : Waiting) (c : Code) (d : Nat) (l : List Word) : (answer w c d l s).chainA = s.chainA := by unfold answer; split <;> simp
@[simp] theorem answer_chainB (w : Waiting) (c : Code) (d : Nat) (l : List Word) : (answer w c d l s).chainB = s.chainB := by unfold answer; split <;> simp
@[simp] theorem answer_est (w : Waiting) (c : Code) (d : Nat) (l : List Word) : (answer w c d l s).est = s.est := by unfold answer; split <;> simp
@[simp] theorem answer_therm (w : Waiting) (c : Code) (d : Nat) (l : List Word) : (answer w c d l s).therm = s.therm := by unfold answer; split <;> simp
@[simp] theorem answer_power (w : Waiting) (c : Code) (d : Nat) (l : List Word) : (answer w c d l s).power = s.power := by unfold answer; split <;> simp
@[simp] theorem answer_ledger (w : Waiting) (c : Code) (d : Nat) (l : List Word) : (answer w c d l s).ledger = s.ledger := by unfold answer; split <;> simp
@[simp] theorem answer_pair (w : Waiting) (c : Code) (d : Nat) (l : List Word) : (answer w c d l s).pair = s.pair := by unfold answer; split <;> simp
@[simp] theorem answer_boot (w : Waiting) (c : Code) (d : Nat) (l : List Word) : (answer w c d l s).boot = s.boot := by unfold answer; split <;> simp
@[simp] theorem answer_free (w : Waiting) (c : Code) (d : Nat) (l : List Word) : (answer w c d l s).free = s.free := by unfold answer; split <;> simp
@[simp] theorem answer_pending (w : Waiting) (c : Code) (d : Nat) (l : List Word) : (answer w c d l s).pending = s.pending := by unfold answer; split <;> simp

@[simp] theorem mbPost_clk (o : Nat) (r : Req) : (mbPost o r s).clk = s.clk := rfl
@[simp] theorem mbPost_clerk (o : Nat) (r : Req) : (mbPost o r s).clerk = s.clerk := rfl
@[simp] theorem mbPost_evt (o : Nat) (r : Req) : (mbPost o r s).evt = s.evt := rfl
@[simp] theorem mbPost_msix (o : Nat) (r : Req) : (mbPost o r s).msix = s.msix := rfl
@[simp] theorem mbPost_funcs (o : Nat) (r : Req) : (mbPost o r s).funcs = s.funcs := rfl
@[simp] theorem mbPost_claims (o : Nat) (r : Req) : (mbPost o r s).claims = s.claims := rfl
@[simp] theorem mbPost_link (o : Nat) (r : Req) : (mbPost o r s).link = s.link := rfl
@[simp] theorem mbPost_pumps (o : Nat) (r : Req) : (mbPost o r s).pumps = s.pumps := rfl
@[simp] theorem mbPost_mem (o : Nat) (r : Req) : (mbPost o r s).mem = s.mem := rfl
@[simp] theorem mbPost_tiles (o : Nat) (r : Req) : (mbPost o r s).tiles = s.tiles := rfl
@[simp] theorem mbPost_lists (o : Nat) (r : Req) : (mbPost o r s).lists = s.lists := rfl
@[simp] theorem mbPost_pipe (o : Nat) (r : Req) : (mbPost o r s).pipe = s.pipe := rfl
@[simp] theorem mbPost_rope (o : Nat) (r : Req) : (mbPost o r s).rope = s.rope := rfl
@[simp] theorem mbPost_stage (o : Nat) (r : Req) : (mbPost o r s).stage = s.stage := rfl
@[simp] theorem mbPost_traces (o : Nat) (r : Req) : (mbPost o r s).traces = s.traces := rfl
@[simp] theorem mbPost_chainA (o : Nat) (r : Req) : (mbPost o r s).chainA = s.chainA := rfl
@[simp] theorem mbPost_chainB (o : Nat) (r : Req) : (mbPost o r s).chainB = s.chainB := rfl
@[simp] theorem mbPost_est (o : Nat) (r : Req) : (mbPost o r s).est = s.est := rfl
@[simp] theorem mbPost_therm (o : Nat) (r : Req) : (mbPost o r s).therm = s.therm := rfl
@[simp] theorem mbPost_power (o : Nat) (r : Req) : (mbPost o r s).power = s.power := rfl
@[simp] theorem mbPost_ledger (o : Nat) (r : Req) : (mbPost o r s).ledger = s.ledger := rfl
@[simp] theorem mbPost_pair (o : Nat) (r : Req) : (mbPost o r s).pair = s.pair := rfl
@[simp] theorem mbPost_boot (o : Nat) (r : Req) : (mbPost o r s).boot = s.boot := rfl
@[simp] theorem mbPost_diag (o : Nat) (r : Req) : (mbPost o r s).diag = s.diag := rfl
@[simp] theorem mbPost_free (o : Nat) (r : Req) : (mbPost o r s).free = s.free := rfl
@[simp] theorem mbPost_pending (o : Nat) (r : Req) : (mbPost o r s).pending = s.pending := rfl

@[simp] theorem mbStart_clk (o : Nat) (a : List Nat) (r : Req) : (mbStart o a r s).clk = s.clk := by simp [mbStart]
@[simp] theorem mbStart_msix (o : Nat) (a : List Nat) (r : Req) : (mbStart o a r s).msix = s.msix := by simp [mbStart]
@[simp] theorem mbStart_funcs (o : Nat) (a : List Nat) (r : Req) : (mbStart o a r s).funcs = s.funcs := by simp [mbStart]
@[simp] theorem mbStart_claims (o : Nat) (a : List Nat) (r : Req) : (mbStart o a r s).claims = s.claims := by simp [mbStart]
@[simp] theorem mbStart_pumps (o : Nat) (a : List Nat) (r : Req) : (mbStart o a r s).pumps = s.pumps := by simp [mbStart]
@[simp] theorem mbStart_tiles (o : Nat) (a : List Nat) (r : Req) : (mbStart o a r s).tiles = s.tiles := by simp [mbStart]
@[simp] theorem mbStart_lists (o : Nat) (a : List Nat) (r : Req) : (mbStart o a r s).lists = s.lists := by simp [mbStart]
@[simp] theorem mbStart_pipe (o : Nat) (a : List Nat) (r : Req) : (mbStart o a r s).pipe = s.pipe := by simp [mbStart]
@[simp] theorem mbStart_rope (o : Nat) (a : List Nat) (r : Req) : (mbStart o a r s).rope = s.rope := by simp [mbStart]
@[simp] theorem mbStart_stage (o : Nat) (a : List Nat) (r : Req) : (mbStart o a r s).stage = s.stage := by simp [mbStart]
@[simp] theorem mbStart_traces (o : Nat) (a : List Nat) (r : Req) : (mbStart o a r s).traces = s.traces := by simp [mbStart]
@[simp] theorem mbStart_chainA (o : Nat) (a : List Nat) (r : Req) : (mbStart o a r s).chainA = s.chainA := by simp [mbStart]
@[simp] theorem mbStart_chainB (o : Nat) (a : List Nat) (r : Req) : (mbStart o a r s).chainB = s.chainB := by simp [mbStart]
@[simp] theorem mbStart_est (o : Nat) (a : List Nat) (r : Req) : (mbStart o a r s).est = s.est := by simp [mbStart]
@[simp] theorem mbStart_therm (o : Nat) (a : List Nat) (r : Req) : (mbStart o a r s).therm = s.therm := by simp [mbStart]
@[simp] theorem mbStart_power (o : Nat) (a : List Nat) (r : Req) : (mbStart o a r s).power = s.power := by simp [mbStart]
@[simp] theorem mbStart_ledger (o : Nat) (a : List Nat) (r : Req) : (mbStart o a r s).ledger = s.ledger := by simp [mbStart]
@[simp] theorem mbStart_pair (o : Nat) (a : List Nat) (r : Req) : (mbStart o a r s).pair = s.pair := by simp [mbStart]
@[simp] theorem mbStart_boot (o : Nat) (a : List Nat) (r : Req) : (mbStart o a r s).boot = s.boot := by simp [mbStart]
@[simp] theorem mbStart_free (o : Nat) (a : List Nat) (r : Req) : (mbStart o a r s).free = s.free := by simp [mbStart]
@[simp] theorem mbStart_pending (o : Nat) (a : List Nat) (r : Req) : (mbStart o a r s).pending = s.pending := by simp [mbStart]

@[simp] theorem mbWait_clk (n : Nat) (w : Waiting) : (mbWait n w s).clk = s.clk := rfl
@[simp] theorem mbWait_clerk (n : Nat) (w : Waiting) : (mbWait n w s).clerk = s.clerk := rfl
@[simp] theorem mbWait_evt (n : Nat) (w : Waiting) : (mbWait n w s).evt = s.evt := rfl
@[simp] theorem mbWait_msix (n : Nat) (w : Waiting) : (mbWait n w s).msix = s.msix := rfl
@[simp] theorem mbWait_funcs (n : Nat) (w : Waiting) : (mbWait n w s).funcs = s.funcs := rfl
@[simp] theorem mbWait_claims (n : Nat) (w : Waiting) : (mbWait n w s).claims = s.claims := rfl
@[simp] theorem mbWait_link (n : Nat) (w : Waiting) : (mbWait n w s).link = s.link := rfl
@[simp] theorem mbWait_pumps (n : Nat) (w : Waiting) : (mbWait n w s).pumps = s.pumps := rfl
@[simp] theorem mbWait_mem (n : Nat) (w : Waiting) : (mbWait n w s).mem = s.mem := rfl
@[simp] theorem mbWait_tiles (n : Nat) (w : Waiting) : (mbWait n w s).tiles = s.tiles := rfl
@[simp] theorem mbWait_lists (n : Nat) (w : Waiting) : (mbWait n w s).lists = s.lists := rfl
@[simp] theorem mbWait_pipe (n : Nat) (w : Waiting) : (mbWait n w s).pipe = s.pipe := rfl
@[simp] theorem mbWait_rope (n : Nat) (w : Waiting) : (mbWait n w s).rope = s.rope := rfl
@[simp] theorem mbWait_stage (n : Nat) (w : Waiting) : (mbWait n w s).stage = s.stage := rfl
@[simp] theorem mbWait_traces (n : Nat) (w : Waiting) : (mbWait n w s).traces = s.traces := rfl
@[simp] theorem mbWait_chainA (n : Nat) (w : Waiting) : (mbWait n w s).chainA = s.chainA := rfl
@[simp] theorem mbWait_chainB (n : Nat) (w : Waiting) : (mbWait n w s).chainB = s.chainB := rfl
@[simp] theorem mbWait_est (n : Nat) (w : Waiting) : (mbWait n w s).est = s.est := rfl
@[simp] theorem mbWait_therm (n : Nat) (w : Waiting) : (mbWait n w s).therm = s.therm := rfl
@[simp] theorem mbWait_power (n : Nat) (w : Waiting) : (mbWait n w s).power = s.power := rfl
@[simp] theorem mbWait_ledger (n : Nat) (w : Waiting) : (mbWait n w s).ledger = s.ledger := rfl
@[simp] theorem mbWait_pair (n : Nat) (w : Waiting) : (mbWait n w s).pair = s.pair := rfl
@[simp] theorem mbWait_boot (n : Nat) (w : Waiting) : (mbWait n w s).boot = s.boot := rfl
@[simp] theorem mbWait_diag (n : Nat) (w : Waiting) : (mbWait n w s).diag = s.diag := rfl
@[simp] theorem mbWait_free (n : Nat) (w : Waiting) : (mbWait n w s).free = s.free := rfl
@[simp] theorem mbWait_pending (n : Nat) (w : Waiting) : (mbWait n w s).pending = s.pending := rfl

@[simp] theorem mbAnswer_clk (n : Nat) (a : Answer) : (mbAnswer n a s).clk = s.clk := by cases a <;> simp [mbAnswer]
@[simp] theorem mbAnswer_evt (n : Nat) (a : Answer) : (mbAnswer n a s).evt = s.evt := by cases a <;> simp [mbAnswer]
@[simp] theorem mbAnswer_funcs (n : Nat) (a : Answer) : (mbAnswer n a s).funcs = s.funcs := by cases a <;> simp [mbAnswer]
@[simp] theorem mbAnswer_claims (n : Nat) (a : Answer) : (mbAnswer n a s).claims = s.claims := by cases a <;> simp [mbAnswer]
@[simp] theorem mbAnswer_link (n : Nat) (a : Answer) : (mbAnswer n a s).link = s.link := by cases a <;> simp [mbAnswer]
@[simp] theorem mbAnswer_pumps (n : Nat) (a : Answer) : (mbAnswer n a s).pumps = s.pumps := by cases a <;> simp [mbAnswer]
@[simp] theorem mbAnswer_mem (n : Nat) (a : Answer) : (mbAnswer n a s).mem = s.mem := by cases a <;> simp [mbAnswer]
@[simp] theorem mbAnswer_tiles (n : Nat) (a : Answer) : (mbAnswer n a s).tiles = s.tiles := by cases a <;> simp [mbAnswer]
@[simp] theorem mbAnswer_lists (n : Nat) (a : Answer) : (mbAnswer n a s).lists = s.lists := by cases a <;> simp [mbAnswer]
@[simp] theorem mbAnswer_pipe (n : Nat) (a : Answer) : (mbAnswer n a s).pipe = s.pipe := by cases a <;> simp [mbAnswer]
@[simp] theorem mbAnswer_rope (n : Nat) (a : Answer) : (mbAnswer n a s).rope = s.rope := by cases a <;> simp [mbAnswer]
@[simp] theorem mbAnswer_stage (n : Nat) (a : Answer) : (mbAnswer n a s).stage = s.stage := by cases a <;> simp [mbAnswer]
@[simp] theorem mbAnswer_traces (n : Nat) (a : Answer) : (mbAnswer n a s).traces = s.traces := by cases a <;> simp [mbAnswer]
@[simp] theorem mbAnswer_chainA (n : Nat) (a : Answer) : (mbAnswer n a s).chainA = s.chainA := by cases a <;> simp [mbAnswer]
@[simp] theorem mbAnswer_chainB (n : Nat) (a : Answer) : (mbAnswer n a s).chainB = s.chainB := by cases a <;> simp [mbAnswer]
@[simp] theorem mbAnswer_est (n : Nat) (a : Answer) : (mbAnswer n a s).est = s.est := by cases a <;> simp [mbAnswer]
@[simp] theorem mbAnswer_therm (n : Nat) (a : Answer) : (mbAnswer n a s).therm = s.therm := by cases a <;> simp [mbAnswer]
@[simp] theorem mbAnswer_power (n : Nat) (a : Answer) : (mbAnswer n a s).power = s.power := by cases a <;> simp [mbAnswer]
@[simp] theorem mbAnswer_ledger (n : Nat) (a : Answer) : (mbAnswer n a s).ledger = s.ledger := by cases a <;> simp [mbAnswer]
@[simp] theorem mbAnswer_pair (n : Nat) (a : Answer) : (mbAnswer n a s).pair = s.pair := by cases a <;> simp [mbAnswer]
@[simp] theorem mbAnswer_boot (n : Nat) (a : Answer) : (mbAnswer n a s).boot = s.boot := by cases a <;> simp [mbAnswer]
@[simp] theorem mbAnswer_free (n : Nat) (a : Answer) : (mbAnswer n a s).free = s.free := by cases a <;> simp [mbAnswer]
@[simp] theorem mbAnswer_pending (n : Nat) (a : Answer) : (mbAnswer n a s).pending = s.pending := by cases a <;> simp [mbAnswer]

@[simp] theorem mbOverrun_clk (n : Nat) : (mbOverrun n s).clk = s.clk := rfl
@[simp] theorem mbOverrun_clerk (n : Nat) : (mbOverrun n s).clerk = s.clerk := rfl
@[simp] theorem mbOverrun_evt (n : Nat) : (mbOverrun n s).evt = s.evt := rfl
@[simp] theorem mbOverrun_msix (n : Nat) : (mbOverrun n s).msix = s.msix := rfl
@[simp] theorem mbOverrun_funcs (n : Nat) : (mbOverrun n s).funcs = s.funcs := rfl
@[simp] theorem mbOverrun_claims (n : Nat) : (mbOverrun n s).claims = s.claims := rfl
@[simp] theorem mbOverrun_link (n : Nat) : (mbOverrun n s).link = s.link := rfl
@[simp] theorem mbOverrun_pumps (n : Nat) : (mbOverrun n s).pumps = s.pumps := rfl
@[simp] theorem mbOverrun_mem (n : Nat) : (mbOverrun n s).mem = s.mem := rfl
@[simp] theorem mbOverrun_tiles (n : Nat) : (mbOverrun n s).tiles = s.tiles := rfl
@[simp] theorem mbOverrun_lists (n : Nat) : (mbOverrun n s).lists = s.lists := rfl
@[simp] theorem mbOverrun_pipe (n : Nat) : (mbOverrun n s).pipe = s.pipe := rfl
@[simp] theorem mbOverrun_rope (n : Nat) : (mbOverrun n s).rope = s.rope := rfl
@[simp] theorem mbOverrun_stage (n : Nat) : (mbOverrun n s).stage = s.stage := rfl
@[simp] theorem mbOverrun_traces (n : Nat) : (mbOverrun n s).traces = s.traces := rfl
@[simp] theorem mbOverrun_chainA (n : Nat) : (mbOverrun n s).chainA = s.chainA := rfl
@[simp] theorem mbOverrun_chainB (n : Nat) : (mbOverrun n s).chainB = s.chainB := rfl
@[simp] theorem mbOverrun_est (n : Nat) : (mbOverrun n s).est = s.est := rfl
@[simp] theorem mbOverrun_therm (n : Nat) : (mbOverrun n s).therm = s.therm := rfl
@[simp] theorem mbOverrun_power (n : Nat) : (mbOverrun n s).power = s.power := rfl
@[simp] theorem mbOverrun_ledger (n : Nat) : (mbOverrun n s).ledger = s.ledger := rfl
@[simp] theorem mbOverrun_pair (n : Nat) : (mbOverrun n s).pair = s.pair := rfl
@[simp] theorem mbOverrun_boot (n : Nat) : (mbOverrun n s).boot = s.boot := rfl
@[simp] theorem mbOverrun_free (n : Nat) : (mbOverrun n s).free = s.free := rfl
@[simp] theorem mbOverrun_pending (n : Nat) : (mbOverrun n s).pending = s.pending := rfl

@[simp] theorem rung_clk (o : Nat) (a : List Nat) (r : Req) : (rung o a r s).clk = s.clk := by simp [rung]
@[simp] theorem rung_msix (o : Nat) (a : List Nat) (r : Req) : (rung o a r s).msix = s.msix := by simp [rung]
@[simp] theorem rung_funcs (o : Nat) (a : List Nat) (r : Req) : (rung o a r s).funcs = s.funcs := by simp [rung]
@[simp] theorem rung_claims (o : Nat) (a : List Nat) (r : Req) : (rung o a r s).claims = s.claims := by simp [rung]
@[simp] theorem rung_pumps (o : Nat) (a : List Nat) (r : Req) : (rung o a r s).pumps = s.pumps := by simp [rung]
@[simp] theorem rung_tiles (o : Nat) (a : List Nat) (r : Req) : (rung o a r s).tiles = s.tiles := by simp [rung]
@[simp] theorem rung_lists (o : Nat) (a : List Nat) (r : Req) : (rung o a r s).lists = s.lists := by simp [rung]
@[simp] theorem rung_pipe (o : Nat) (a : List Nat) (r : Req) : (rung o a r s).pipe = s.pipe := by simp [rung]
@[simp] theorem rung_rope (o : Nat) (a : List Nat) (r : Req) : (rung o a r s).rope = s.rope := by simp [rung]
@[simp] theorem rung_stage (o : Nat) (a : List Nat) (r : Req) : (rung o a r s).stage = s.stage := by simp [rung]
@[simp] theorem rung_traces (o : Nat) (a : List Nat) (r : Req) : (rung o a r s).traces = s.traces := by simp [rung]
@[simp] theorem rung_chainA (o : Nat) (a : List Nat) (r : Req) : (rung o a r s).chainA = s.chainA := by simp [rung]
@[simp] theorem rung_chainB (o : Nat) (a : List Nat) (r : Req) : (rung o a r s).chainB = s.chainB := by simp [rung]
@[simp] theorem rung_est (o : Nat) (a : List Nat) (r : Req) : (rung o a r s).est = s.est := by simp [rung]
@[simp] theorem rung_therm (o : Nat) (a : List Nat) (r : Req) : (rung o a r s).therm = s.therm := by simp [rung]
@[simp] theorem rung_power (o : Nat) (a : List Nat) (r : Req) : (rung o a r s).power = s.power := by simp [rung]
@[simp] theorem rung_ledger (o : Nat) (a : List Nat) (r : Req) : (rung o a r s).ledger = s.ledger := by simp [rung]
@[simp] theorem rung_pair (o : Nat) (a : List Nat) (r : Req) : (rung o a r s).pair = s.pair := by simp [rung]
@[simp] theorem rung_boot (o : Nat) (a : List Nat) (r : Req) : (rung o a r s).boot = s.boot := by simp [rung]
@[simp] theorem rung_free (o : Nat) (a : List Nat) (r : Req) : (rung o a r s).free = s.free := by simp [rung]
@[simp] theorem rung_pending (o : Nat) (a : List Nat) (r : Req) : (rung o a r s).pending = s.pending := by simp [rung]

end Sys2Proof.Machine
end

