-- ==== Sys2Proof/Laws/Clerk.lean ====
section
/-! SUPPORT. What the mailbox protocol can do (R96 to R104, R582): a doorbell that the module takes, the completion of a command, and
what either leaves as it was. -/

namespace Sys2Proof.Machine

/-! ### Frames -/

@[simp] theorem served_refl (s : State) : Served s s := by simp [Served]

theorem Served.trans {s t u : State} (h : Served s t) (k : Served t u) : Served s u := by
  unfold Served at *
  obtain ⟨h1, h2, h3, h4, h5, h6, h7, h8, h9, h10, h11, h12, h13, h14, h15, h16, h17, h18, h19, h20, h21, h22, h23, h24⟩ := h
  obtain ⟨k1, k2, k3, k4, k5, k6, k7, k8, k9, k10, k11, k12, k13, k14, k15, k16, k17, k18, k19, k20, k21, k22, k23, k24⟩ := k
  refine ⟨k1.trans h1, ?_, k3.trans h3, k4.trans h4, k5.trans h5, ?_, k7.trans h7, ?_, k9.trans h9, k10.trans h10, k11.trans h11,
    k12.trans h12, k13.trans h13, k14.trans h14, k15.trans h15, k16.trans h16, k17.trans h17, k18.trans h18, k19.trans h19,
    k20.trans h20, k21.trans h21, k22.trans h22, ?_, k24.trans h24⟩
  · rw [k2, h2]
  · rw [k6, h6]
  · rw [k8, h8]
  · rw [k23, h23]

theorem served_evtWrite (r : Line) (s : State) : Served s (evtWrite r s) := by simp [Served]; rfl
theorem served_evtDrop (s : State) : Served s (evtDrop s) := by simp [Served]; rfl
theorem served_evtCreate (r : Line) (s : State) : Served s (evtCreate r s) := by simp [Served]

theorem served_evtPlace (r : Line) (s : State) : Served s (evtPlace r s) := by
  unfold evtPlace
  split
  · split
    · exact served_evtWrite ..
    · exact served_evtDrop ..
  · split
    · simp [Served]
    · exact served_evtDrop ..

/-- A record changes the ring, its queue and their counters. -/
theorem served_emit (a b c : Nat) (d : List Word) (s : State) : Served s (emit a b c d s) := by
  simp only [emit]
  split
  · exact served_evtCreate ..
  · exact (served_evtCreate ..).trans (served_evtPlace ..)

theorem served_hostLossEnd (s : State) : Served s (hostLossEnd s) := by
  unfold hostLossEnd
  split
  · exact Served.trans (t := { s with link := { s.link with hostLoss := false, holdLeft := 0, holdExpired := false } })
      (by simp [Served]) (served_emit ..)
  · simp

theorem served_rung (o : Nat) (a : List Nat) (r : Req) (s : State) : Served s (rung o a r s) := by
  have h1 : Served s (mbPost o r s) := by simp [Served, mbPost]
  have h2 := h1.trans (served_hostLossEnd (mbPost o r s))
  refine h2.trans ?_
  simp [rung, mbStart, Served]

theorem served_complete (n : Nat) (c : Code) (d : Nat) (w : List Word) (s : State) : Served s (complete n c d w s) := by
  unfold complete
  dsimp only
  split
  · simp
  · split
    · simp only [Served, msixDue_mbs, msixDue_clerk, msixDue_clk, msixDue_funcs, msixDue_claims, msixDue_link, msixDue_pumps,
        msixDue_mem, msixDue_tiles, msixDue_lists, msixDue_pipe, msixDue_rope, msixDue_stage, msixDue_traces, msixDue_chainA,
        msixDue_chainB, msixDue_est, msixDue_therm, msixDue_power, msixDue_ledger, msixDue_pair, msixDue_boot, msixDue_diag,
        msixDue_pending]
      simp
    · simp [Served]

/-! ### A doorbell that the module takes -/

theorem ready_idle {s : State} (h : Ready s) (n : Nat) : (s.mbs.getD n {}).busy = none := by
  obtain ⟨-, -, -, -, h⟩ := h
  rw [List.getD_eq_getElem?_getD]
  cases hm : s.mbs[n]? with
  | none => rfl
  | some m => exact h m (List.mem_of_getElem? hm)

theorem ready_acting {s : State} (h : Ready s) (f : Nat) : actingMb s f = none := by
  rw [actingMb, List.find?_eq_none]
  intro n _
  rw [ready_idle h n]
  exact Bool.false_ne_true

/-- A request on a mailbox changes what the host wrote and nothing else of it. -/
theorem mbPost_getD_busy (o : Nat) (r : Req) (s : State) (n : Nat) :
    ((mbPost o r s).mbs.getD n {}).busy = (s.mbs.getD n {}).busy := by
  simp only [mbPost, List.getD_eq_getElem?_getD, List.getElem?_modify]
  by_cases h : r.mb.val = n <;> simp [h]
  cases s.mbs[n]? <;> simp

theorem ready_post {s : State} (h : Ready s) (o : Nat) (r : Req) : Ready (mbPost o r s) := by
  obtain ⟨h1, h2, h3, h4, h5⟩ := h
  refine ⟨h1, by simpa using h2, by simpa using h3, by simpa [mbPost] using h4, ?_⟩
  intro m hm
  obtain ⟨n, hn⟩ := List.getElem?_of_mem hm
  have := mbPost_getD_busy o r s n
  rw [List.getD_eq_getElem?_getD, hn] at this
  rw [show m.busy = (s.mbs.getD n {}).busy from this]
  exact ready_idle ⟨h1, h2, h3, h4, h5⟩ n

/-- R582: a request that passes every header check, on an idle module. -/
theorem headerBad_none {s : State} (h : Ready s) (c : Cmd) (r : Req) (hk : c.known = true) (hm : c.onMb r.mb = true)
    (hl : r.length.toNat ≤ 1023) (hc : c.lenOk r.length.toNat = true) : headerBad s c r = none := by
  have ha : c.acts.findSome? (fun f => actingMb s f) = none := by
    simp [List.findSome?_eq_none_iff, ready_acting h]
  simp [headerBad, h.2.2.1, hk, hm, hc, ha, Nat.not_lt.2 hl]

/-- A command that the module takes runs its body and carries out the body's answer. -/
theorem mailbox_ready {s : State} (h : Ready s) (c : Cmd) (r : Req) (body : State → State × Answer) (hk : c.known = true)
    (hm : c.onMb r.mb = true) (hl : r.length.toNat ≤ 1023) (hc : c.lenOk r.length.toNat = true) :
    mailbox c r body s = .next (mbAnswer r.mb.val (body (rung c.op c.acts r s)).2 (body (rung c.op c.acts r s)).1) := by
  have hp := ready_post h c.op r
  have hb := ready_idle hp r.mb.val
  have hh := headerBad_none hp c r hk hm hl hc
  simp only [mailbox, h.1, Bool.not_true, Bool.false_eq_true, if_false, hp.2.1, hb, Option.isSome_none, hh, rung]

/-- The mailbox of a command whose doorbell has been rung. -/
theorem rung_mailbox {s : State} (h : Ready s) (o : Nat) (a : List Nat) (r : Req) :
    ∃ m, (rung o a r s).mbs[r.mb.val]? = some m ∧ m.tag = r.tag ∧
      ∃ b, m.busy = some b ∧ b.tag = r.tag ∧ b.waits = .body := by
  have hn : r.mb.val < s.mbs.length := by rw [h.2.2.2.1]; exact r.mb.isLt
  obtain ⟨m, hm⟩ : ∃ m, s.mbs[r.mb.val]? = some m := ⟨_, List.getElem?_eq_getElem hn⟩
  simp [rung, mbStart, mbPost, hm]

/-! The parts of the Clerk, the link, memory and the diagnostics that a doorbell leaves as they were. -/

@[simp] theorem rung_clerk_posin (o : Nat) (a : List Nat) (r : Req) (s : State) : (rung o a r s).clerk.posin = s.clerk.posin :=
  congrArg (·.posin) (served_rung o a r s).2.1
@[simp] theorem rung_clerk_serial (o : Nat) (a : List Nat) (r : Req) (s : State) : (rung o a r s).clerk.serial = s.clerk.serial :=
  congrArg (·.serial) (served_rung o a r s).2.1
@[simp] theorem rung_clerk_mbOpen (o : Nat) (a : List Nat) (r : Req) (s : State) : (rung o a r s).clerk.mbOpen = s.clerk.mbOpen :=
  congrArg (·.mbOpen) (served_rung o a r s).2.1
@[simp] theorem rung_clerk_bootStage (o : Nat) (a : List Nat) (r : Req) (s : State) : (rung o a r s).clerk.bootStage = s.clerk.bootStage :=
  congrArg (·.bootStage) (served_rung o a r s).2.1
@[simp] theorem rung_clerk_resetCause (o : Nat) (a : List Nat) (r : Req) (s : State) : (rung o a r s).clerk.resetCause = s.clerk.resetCause :=
  congrArg (·.resetCause) (served_rung o a r s).2.1
@[simp] theorem rung_clerk_bootFail (o : Nat) (a : List Nat) (r : Req) (s : State) : (rung o a r s).clerk.bootFail = s.clerk.bootFail :=
  congrArg (·.bootFail) (served_rung o a r s).2.1
@[simp] theorem rung_clerk_fatal (o : Nat) (a : List Nat) (r : Req) (s : State) : (rung o a r s).clerk.fatal = s.clerk.fatal :=
  congrArg (·.fatal) (served_rung o a r s).2.1
@[simp] theorem rung_clerk_ropeRole (o : Nat) (a : List Nat) (r : Req) (s : State) : (rung o a r s).clerk.ropeRole = s.clerk.ropeRole :=
  congrArg (·.ropeRole) (served_rung o a r s).2.1
@[simp] theorem rung_clerk_strokeLatch (o : Nat) (a : List Nat) (r : Req) (s : State) : (rung o a r s).clerk.strokeLatch = s.clerk.strokeLatch :=
  congrArg (·.strokeLatch) (served_rung o a r s).2.1
@[simp] theorem rung_clerk_dumpPtr (o : Nat) (a : List Nat) (r : Req) (s : State) : (rung o a r s).clerk.dumpPtr = s.clerk.dumpPtr :=
  congrArg (·.dumpPtr) (served_rung o a r s).2.1
@[simp] theorem rung_clerk_dumpValid (o : Nat) (a : List Nat) (r : Req) (s : State) : (rung o a r s).clerk.dumpValid = s.clerk.dumpValid :=
  congrArg (·.dumpValid) (served_rung o a r s).2.1
@[simp] theorem rung_clerk_dumpPreserved (o : Nat) (a : List Nat) (r : Req) (s : State) : (rung o a r s).clerk.dumpPreserved = s.clerk.dumpPreserved :=
  congrArg (·.dumpPreserved) (served_rung o a r s).2.1
@[simp] theorem rung_clerk_dumpCause (o : Nat) (a : List Nat) (r : Req) (s : State) : (rung o a r s).clerk.dumpCause = s.clerk.dumpCause :=
  congrArg (·.dumpCause) (served_rung o a r s).2.1
@[simp] theorem rung_clerk_readData (o : Nat) (a : List Nat) (r : Req) (s : State) : (rung o a r s).clerk.readData = s.clerk.readData :=
  congrArg (·.readData) (served_rung o a r s).2.1
@[simp] theorem rung_clerk_readPoison (o : Nat) (a : List Nat) (r : Req) (s : State) : (rung o a r s).clerk.readPoison = s.clerk.readPoison :=
  congrArg (·.readPoison) (served_rung o a r s).2.1
@[simp] theorem rung_link_up (o : Nat) (a : List Nat) (r : Req) (s : State) : (rung o a r s).link.up = s.link.up :=
  congrArg (·.up) (served_rung o a r s).2.2.2.2.2.1
@[simp] theorem rung_link_pcieOnly (o : Nat) (a : List Nat) (r : Req) (s : State) : (rung o a r s).link.pcieOnly = s.link.pcieOnly :=
  congrArg (·.pcieOnly) (served_rung o a r s).2.2.2.2.2.1
@[simp] theorem rung_link_bme (o : Nat) (a : List Nat) (r : Req) (s : State) : (rung o a r s).link.bme = s.link.bme :=
  congrArg (·.bme) (served_rung o a r s).2.2.2.2.2.1
@[simp] theorem rung_link_d3hot (o : Nat) (a : List Nat) (r : Req) (s : State) : (rung o a r s).link.d3hot = s.link.d3hot :=
  congrArg (·.d3hot) (served_rung o a r s).2.2.2.2.2.1
@[simp] theorem rung_link_memActive (o : Nat) (a : List Nat) (r : Req) (s : State) : (rung o a r s).link.memActive = s.link.memActive :=
  congrArg (·.memActive) (served_rung o a r s).2.2.2.2.2.1
@[simp] theorem rung_link_bar0 (o : Nat) (a : List Nat) (r : Req) (s : State) : (rung o a r s).link.bar0 = s.link.bar0 :=
  congrArg (·.bar0) (served_rung o a r s).2.2.2.2.2.1
@[simp] theorem rung_link_bar2 (o : Nat) (a : List Nat) (r : Req) (s : State) : (rung o a r s).link.bar2 = s.link.bar2 :=
  congrArg (·.bar2) (served_rung o a r s).2.2.2.2.2.1
@[simp] theorem rung_link_hdmBase (o : Nat) (a : List Nat) (r : Req) (s : State) : (rung o a r s).link.hdmBase = s.link.hdmBase :=
  congrArg (·.hdmBase) (served_rung o a r s).2.2.2.2.2.1
@[simp] theorem rung_link_hdmSize (o : Nat) (a : List Nat) (r : Req) (s : State) : (rung o a r s).link.hdmSize = s.link.hdmSize :=
  congrArg (·.hdmSize) (served_rung o a r s).2.2.2.2.2.1
@[simp] theorem rung_link_hdmWays (o : Nat) (a : List Nat) (r : Req) (s : State) : (rung o a r s).link.hdmWays = s.link.hdmWays :=
  congrArg (·.hdmWays) (served_rung o a r s).2.2.2.2.2.1
@[simp] theorem rung_link_hdmCommitted (o : Nat) (a : List Nat) (r : Req) (s : State) : (rung o a r s).link.hdmCommitted = s.link.hdmCommitted :=
  congrArg (·.hdmCommitted) (served_rung o a r s).2.2.2.2.2.1
@[simp] theorem rung_link_hdmError (o : Nat) (a : List Nat) (r : Req) (s : State) : (rung o a r s).link.hdmError = s.link.hdmError :=
  congrArg (·.hdmError) (served_rung o a r s).2.2.2.2.2.1
@[simp] theorem rung_link_hdmLock (o : Nat) (a : List Nat) (r : Req) (s : State) : (rung o a r s).link.hdmLock = s.link.hdmLock :=
  congrArg (·.hdmLock) (served_rung o a r s).2.2.2.2.2.1
@[simp] theorem rung_link_dropArmed (o : Nat) (a : List Nat) (r : Req) (s : State) : (rung o a r s).link.dropArmed = s.link.dropArmed :=
  congrArg (·.dropArmed) (served_rung o a r s).2.2.2.2.2.1
@[simp] theorem rung_link_rasStatus (o : Nat) (a : List Nat) (r : Req) (s : State) : (rung o a r s).link.rasStatus = s.link.rasStatus :=
  congrArg (·.rasStatus) (served_rung o a r s).2.2.2.2.2.1
@[simp] theorem rung_link_hdmGlobal (o : Nat) (a : List Nat) (r : Req) (s : State) : (rung o a r s).link.hdmGlobal = s.link.hdmGlobal :=
  congrArg (·.hdmGlobal) (served_rung o a r s).2.2.2.2.2.1
@[simp] theorem rung_link_lanes (o : Nat) (a : List Nat) (r : Req) (s : State) : (rung o a r s).link.lanes = s.link.lanes :=
  congrArg (·.lanes) (served_rung o a r s).2.2.2.2.2.1
@[simp] theorem rung_link_gen (o : Nat) (a : List Nat) (r : Req) (s : State) : (rung o a r s).link.gen = s.link.gen :=
  congrArg (·.gen) (served_rung o a r s).2.2.2.2.2.1
@[simp] theorem rung_link_cache (o : Nat) (a : List Nat) (r : Req) (s : State) : (rung o a r s).link.cache = s.link.cache :=
  congrArg (·.cache) (served_rung o a r s).2.2.2.2.2.1
@[simp] theorem rung_mem_cells (o : Nat) (a : List Nat) (r : Req) (s : State) : (rung o a r s).mem.cells = s.mem.cells :=
  congrArg (·.cells) (served_rung o a r s).2.2.2.2.2.2.2.1
@[simp] theorem rung_mem_damaged (o : Nat) (a : List Nat) (r : Req) (s : State) : (rung o a r s).mem.damaged = s.mem.damaged :=
  congrArg (·.damaged) (served_rung o a r s).2.2.2.2.2.2.2.1
@[simp] theorem rung_mem_bridges (o : Nat) (a : List Nat) (r : Req) (s : State) : (rung o a r s).mem.bridges = s.mem.bridges :=
  congrArg (·.bridges) (served_rung o a r s).2.2.2.2.2.2.2.1
@[simp] theorem rung_mem_corrSec (o : Nat) (a : List Nat) (r : Req) (s : State) : (rung o a r s).mem.corrSec = s.mem.corrSec :=
  congrArg (·.corrSec) (served_rung o a r s).2.2.2.2.2.2.2.1
@[simp] theorem rung_mem_corrRec (o : Nat) (a : List Nat) (r : Req) (s : State) : (rung o a r s).mem.corrRec = s.mem.corrRec :=
  congrArg (·.corrRec) (served_rung o a r s).2.2.2.2.2.2.2.1
@[simp] theorem rung_mem_writes (o : Nat) (a : List Nat) (r : Req) (s : State) : (rung o a r s).mem.writes = s.mem.writes :=
  congrArg (·.writes) (served_rung o a r s).2.2.2.2.2.2.2.1
@[simp] theorem rung_diag_memory (o : Nat) (a : List Nat) (r : Req) (s : State) : (rung o a r s).diag.memory = s.diag.memory :=
  congrArg (·.memory) (served_rung o a r s).2.2.2.2.2.2.2.2.2.2.2.2.2.2.2.2.2.2.2.2.2.2.1
@[simp] theorem rung_diag_markers (o : Nat) (a : List Nat) (r : Req) (s : State) : (rung o a r s).diag.markers = s.diag.markers :=
  congrArg (·.markers) (served_rung o a r s).2.2.2.2.2.2.2.2.2.2.2.2.2.2.2.2.2.2.2.2.2.2.1
@[simp] theorem rung_diag_overRange (o : Nat) (a : List Nat) (r : Req) (s : State) : (rung o a r s).diag.overRange = s.diag.overRange :=
  congrArg (·.overRange) (served_rung o a r s).2.2.2.2.2.2.2.2.2.2.2.2.2.2.2.2.2.2.2.2.2.2.1
@[simp] theorem rung_diag_compute (o : Nat) (a : List Nat) (r : Req) (s : State) : (rung o a r s).diag.compute = s.diag.compute :=
  congrArg (·.compute) (served_rung o a r s).2.2.2.2.2.2.2.2.2.2.2.2.2.2.2.2.2.2.2.2.2.2.1
@[simp] theorem rung_diag_perf (o : Nat) (a : List Nat) (r : Req) (s : State) : (rung o a r s).diag.perf = s.diag.perf :=
  congrArg (·.perf) (served_rung o a r s).2.2.2.2.2.2.2.2.2.2.2.2.2.2.2.2.2.2.2.2.2.2.1
@[simp] theorem rung_diag_summaries (o : Nat) (a : List Nat) (r : Req) (s : State) : (rung o a r s).diag.summaries = s.diag.summaries :=
  congrArg (·.summaries) (served_rung o a r s).2.2.2.2.2.2.2.2.2.2.2.2.2.2.2.2.2.2.2.2.2.2.1
@[simp] theorem rung_diag_fresh (o : Nat) (a : List Nat) (r : Req) (s : State) : (rung o a r s).diag.fresh = s.diag.fresh :=
  congrArg (·.fresh) (served_rung o a r s).2.2.2.2.2.2.2.2.2.2.2.2.2.2.2.2.2.2.2.2.2.2.1
@[simp] theorem rung_diag_skipped (o : Nat) (a : List Nat) (r : Req) (s : State) : (rung o a r s).diag.skipped = s.diag.skipped :=
  congrArg (·.skipped) (served_rung o a r s).2.2.2.2.2.2.2.2.2.2.2.2.2.2.2.2.2.2.2.2.2.2.1
@[simp] theorem rung_diag_panic (o : Nat) (a : List Nat) (r : Req) (s : State) : (rung o a r s).diag.panic = s.diag.panic :=
  congrArg (·.panic) (served_rung o a r s).2.2.2.2.2.2.2.2.2.2.2.2.2.2.2.2.2.2.2.2.2.2.1

theorem rung_mbs_length (o : Nat) (a : List Nat) (r : Req) (s : State) : (rung o a r s).mbs.length = s.mbs.length := by
  simp [rung, mbStart, mbPost]

/-- What a doorbell changes, field by field. -/
theorem rung_eq (o : Nat) (a : List Nat) (r : Req) (s : State) :
    rung o a r s = { s with
      mbs := (rung o a r s).mbs, evt := (rung o a r s).evt,
      clerk := { s.clerk with log := (rung o a r s).clerk.log, logCount := (rung o a r s).clerk.logCount }
      link := { s.link with
        hostLoss := (rung o a r s).link.hostLoss, holdLeft := (rung o a r s).link.holdLeft,
        holdExpired := (rung o a r s).link.holdExpired }
      mem := { s.mem with host := (rung o a r s).mem.host }
      diag := { s.diag with host := (rung o a r s).diag.host, clerk := (rung o a r s).diag.clerk } } := by
  have h := served_rung o a r s
  obtain ⟨h1, h2, h3, h4, h5, h6, h7, h8, h9, h10, h11, h12, h13, h14, h15, h16, h17, h18, h19, h20, h21, h22, h23, h24⟩ := h
  have m := rung_msix (s := s) o a r
  have f := rung_free (s := s) o a r
  generalize rung o a r s = t at *
  cases t
  simp only at *
  subst h1 h4 h5 h7 h9 h10 h11 h12 h13 h14 h15 h16 h17 h18 h19 h20 h21 h22 h24 m f
  rw [← h2, ← h6, ← h8, ← h23]

/-- A conflict is between the claims alone. -/
theorem claimConflict_claims {s t : State} (h : s.claims = t.claims) (o : Nat) (l : List Nat) :
    claimConflict s o l = claimConflict t o l := by
  induction l with
  | nil => rfl
  | cons r l ih => simp only [claimConflict, claimOwner, h, ih]

/-! The checks of a START do not see the doorbell. -/

theorem stageStartBad_rung (o : Nat) (a : List Nat) (r : Req) (s : State) : stageStartBad (rung o a r s) = stageStartBad s := by
  have h : claimConflict (rung o a r s) = claimConflict s := by
    funext o l; exact claimConflict_claims (by simp) ..
  simp only [stageStartBad, h]
  rw [rung_eq]; with_unfolding_all rfl

theorem startBad_rung (o : Nat) (a : List Nat) (r : Req) (s : State) (f : Nat) : startBad (rung o a r s) f = startBad s f := by
  simp only [startBad, stageStartBad_rung]
  rw [rung_eq]; with_unfolding_all rfl

/-- A command that has been rung completes (R96 steps 4 and 5). -/
theorem answered_complete {s b : State} (h : Ready s) (o : Nat) (a : List Nat) (r : Req) (hb : b.mbs = (rung o a r s).mbs)
    (c : Code) (d : Nat) (w : List Word) : Answered (complete r.mb.val c d w b) r c d w := by
  obtain ⟨m, hm, -, p, hp, ht, -⟩ := rung_mailbox h o a r
  rw [← hb] at hm
  have hg : b.mbs.getD r.mb.val {} = m := by rw [List.getD_eq_getElem?_getD, hm]; rfl
  have hn : r.mb.val < b.mbs.length := (List.getElem?_eq_some_iff.1 hm).1
  unfold complete Answered
  simp only [hg, hp]
  split <;> simp [hn, ht]

/-- The same where the body left the state as the doorbell did. -/
theorem answered_asks {s : State} (h : Ready s) (o : Nat) (a : List Nat) (r : Req) (c : Code) (d : Nat) (w : List Word) :
    Answered (mbAnswer r.mb.val (.now c d w) (rung o a r s)) r c d w := answered_complete h o a r rfl c d w

/-- What a body's state keeps, its completion keeps. -/
theorem served_now {s b : State} (h : Served s b) (n : Nat) (c : Code) (d : Nat) (w : List Word) :
    Served s (mbAnswer n (.now c d w) b) := h.trans (served_complete n c d w b)

/-- A query that the module takes answers OK, and changes nothing. -/
theorem mailbox_asks {s : State} (h : Ready s) (c : Cmd) (r : Req) (q : State → Answer) (w : List Word) (hk : c.known = true)
    (hm : c.onMb r.mb = true) (hl : r.length.toNat ≤ 1023) (hc : c.lenOk r.length.toNat = true)
    (hq : q (rung c.op c.acts r s) = okR w) :
    ∃ t, mailbox c r (asks q) s = .next t ∧ Answered t r .ok 0 w ∧ Served s t := by
  refine ⟨_, mailbox_ready h c r _ hk hm hl hc, ?_, ?_⟩
  · rw [asks, hq]; exact answered_asks h ..
  · rw [asks, hq]; exact served_now (served_rung ..) ..

/-- A command whose body changes the state and answers OK. -/
theorem mailbox_does {s u b : State} (h : Ready s) (c : Cmd) (r : Req) (body : State → State × Answer) (w : List Word)
    (hk : c.known = true) (hm : c.onMb r.mb = true) (hl : r.length.toNat ≤ 1023) (hc : c.lenOk r.length.toNat = true)
    (hb : body (rung c.op c.acts r s) = (b, okR w)) (hbs : b.mbs = (rung c.op c.acts r s).mbs) (hu : Served u b) :
    ∃ t, mailbox c r body s = .next t ∧ Answered t r .ok 0 w ∧ Served u t := by
  refine ⟨_, mailbox_ready h c r _ hk hm hl hc, ?_, ?_⟩
  · rw [hb]; exact answered_complete h c.op c.acts r hbs ..
  · rw [hb]; exact served_now hu ..

/-- A command whose body refuses. -/
theorem mailbox_refuses {s : State} (h : Ready s) (c : Cmd) (r : Req) (body : State → State × Answer) (k : Code) (d : Nat)
    (hk : c.known = true) (hm : c.onMb r.mb = true) (hl : r.length.toNat ≤ 1023) (hc : c.lenOk r.length.toNat = true)
    (hb : body (rung c.op c.acts r s) = (rung c.op c.acts r s, errR k d)) :
    ∃ t, mailbox c r body s = .next t ∧ Answered t r k d [] ∧ Served s t := by
  refine ⟨_, mailbox_ready h c r _ hk hm hl hc, ?_, ?_⟩
  · rw [hb]; exact answered_complete h c.op c.acts r rfl ..
  · rw [hb]; exact served_now (served_rung ..) ..

/-- A command that waits after its body. -/
theorem waits_later {s b : State} (h : Ready s) (o : Nat) (a : List Nat) (r : Req) (hb : b.mbs = (rung o a r s).mbs) (w : Waiting) :
    Waits (mbAnswer r.mb.val (.later w) b) r w := by
  obtain ⟨m, hm, -, p, hp, -, -⟩ := rung_mailbox h o a r
  rw [← hb] at hm
  simp [mbAnswer, mbWait, Waits, hm, hp]

/-- A command whose body leaves it in progress. -/
theorem mailbox_awaits {s u b : State} (h : Ready s) (c : Cmd) (r : Req) (body : State → State × Answer) (w : Waiting)
    (hk : c.known = true) (hm : c.onMb r.mb = true) (hl : r.length.toNat ≤ 1023) (hc : c.lenOk r.length.toNat = true)
    (hb : body (rung c.op c.acts r s) = (b, .later w)) (hbs : b.mbs = (rung c.op c.acts r s).mbs) (hu : Served u b) :
    ∃ t, mailbox c r body s = .next t ∧ Waits t r w ∧ Served u t := by
  refine ⟨_, mailbox_ready h c r _ hk hm hl hc, ?_, ?_⟩
  · rw [hb]; exact waits_later h c.op c.acts r hbs w
  · rw [hb]
    refine hu.trans ?_
    simp [Served, mbAnswer, mbWait]

/-- Every mailbox command goes through the protocol of chapter 4. -/
theorem exec_mailbox {i : Instr} {r : Req} (h : requestOf i = some r) : ∃ body, ∀ s, ∃ c, exec i s = mailbox c r body s := by
  cases i <;> simp only [requestOf, Option.some.injEq, reduceCtorEq] at h <;> subst h
  · exact ⟨_, fun s => ⟨_, by rw [exec_nop, execNop]⟩⟩
  · exact ⟨_, fun s => ⟨_, by rw [exec_eventRingSet, execEventRingSet]⟩⟩
  · exact ⟨_, fun s => ⟨_, by rw [exec_funcQuery, execFuncQuery]⟩⟩
  · exact ⟨_, fun s => ⟨_, by rw [exec_funcOn, execFuncOn]⟩⟩
  · exact ⟨_, fun s => ⟨_, by rw [exec_funcOff, execFuncOff]⟩⟩
  · exact ⟨_, fun s => ⟨_, by rw [exec_funcStart, execFuncStart]⟩⟩
  · exact ⟨_, fun s => ⟨_, by rw [exec_funcStop, execFuncStop]⟩⟩
  · exact ⟨_, fun s => ⟨_, by rw [exec_funcClear, execFuncClear]⟩⟩
  · exact ⟨_, fun s => ⟨_, by rw [exec_claimQuery, execClaimQuery]⟩⟩
  · exact ⟨_, fun s => ⟨_, by rw [exec_clockQuery, execClockQuery]⟩⟩
  · exact ⟨_, fun s => ⟨_, by rw [exec_strokeConfig, execStrokeConfig]⟩⟩
  · exact ⟨_, fun s => ⟨_, by rw [exec_clockConfig, execClockConfig]⟩⟩
  · exact ⟨_, fun s => ⟨_, by rw [exec_clockMeasure, execClockMeasure]⟩⟩
  · exact ⟨_, fun s => ⟨_, by rw [exec_clockGate, execClockGate]⟩⟩
  · exact ⟨_, fun s => ⟨_, by rw [exec_pumpRingSet, execPumpRingSet]⟩⟩
  · exact ⟨_, fun s => ⟨_, by rw [exec_pumpStart, execPumpStart]⟩⟩
  · exact ⟨_, fun s => ⟨_, by rw [exec_pumpStop, execPumpStop]⟩⟩
  · exact ⟨_, fun s => ⟨_, by rw [exec_pumpClear, execPumpClear]⟩⟩
  · exact ⟨_, fun s => ⟨_, by rw [exec_pumpQuery, execPumpQuery]⟩⟩
  · exact ⟨_, fun s => ⟨_, by rw [exec_listSubmit, execListSubmit]⟩⟩
  · exact ⟨_, fun s => ⟨_, by rw [exec_listRemove, execListRemove]⟩⟩
  · exact ⟨_, fun s => ⟨_, by rw [exec_listQuery, execListQuery]⟩⟩
  · exact ⟨_, fun s => ⟨_, by rw [exec_schedQuery, execSchedQuery]⟩⟩
  · exact ⟨_, fun s => ⟨_, by rw [exec_modelLoad, execModelLoad]⟩⟩
  · exact ⟨_, fun s => ⟨_, by rw [exec_modelUnload, execModelUnload]⟩⟩
  · exact ⟨_, fun s => ⟨_, by rw [exec_modelQuery, execModelQuery]⟩⟩
  · exact ⟨_, fun s => ⟨_, by rw [exec_bucketSet, execBucketSet]⟩⟩
  · exact ⟨_, fun s => ⟨_, by rw [exec_bucketQuery, execBucketQuery]⟩⟩
  · exact ⟨_, fun s => ⟨_, by rw [exec_targetSet, execTargetSet]⟩⟩
  · exact ⟨_, fun s => ⟨_, by rw [exec_pipeConfig, execPipeConfig]⟩⟩
  · exact ⟨_, fun s => ⟨_, by rw [exec_pipeQuery, execPipeQuery]⟩⟩
  · exact ⟨_, fun s => ⟨_, by rw [exec_roleSet, execRoleSet]⟩⟩
  · exact ⟨_, fun s => ⟨_, by rw [exec_ropeConfig, execRopeConfig]⟩⟩
  · exact ⟨_, fun s => ⟨_, by rw [exec_ropeQuery, execRopeQuery]⟩⟩
  · exact ⟨_, fun s => ⟨_, by rw [exec_ropePortQuery, execRopePortQuery]⟩⟩
  · exact ⟨_, fun s => ⟨_, by rw [exec_ropeCmis, execRopeCmis]⟩⟩
  · exact ⟨_, fun s => ⟨_, by rw [exec_ropeRead, execRopeRead]⟩⟩
  · exact ⟨_, fun s => ⟨_, by rw [exec_stageConfig, execStageConfig]⟩⟩
  · exact ⟨_, fun s => ⟨_, by rw [exec_loopCoef, execLoopCoef]⟩⟩
  · exact ⟨_, fun s => ⟨_, by rw [exec_loopOpen, execLoopOpen]⟩⟩
  · exact ⟨_, fun s => ⟨_, by rw [exec_loopClose, execLoopClose]⟩⟩
  · exact ⟨_, fun s => ⟨_, by rw [exec_stageMode, execStageMode]⟩⟩
  · exact ⟨_, fun s => ⟨_, by rw [exec_stageQuery, execStageQuery]⟩⟩
  · exact ⟨_, fun s => ⟨_, by rw [exec_traceArm, execTraceArm]⟩⟩
  · exact ⟨_, fun s => ⟨_, by rw [exec_traceDisarm, execTraceDisarm]⟩⟩
  · exact ⟨_, fun s => ⟨_, by rw [exec_traceQuery, execTraceQuery]⟩⟩
  · exact ⟨_, fun s => ⟨_, by rw [exec_chainConfig, execChainConfig]⟩⟩
  · exact ⟨_, fun s => ⟨_, by rw [exec_chainBal, execChainBal]⟩⟩
  · exact ⟨_, fun s => ⟨_, by rw [exec_chainQuery, execChainQuery]⟩⟩
  · exact ⟨_, fun s => ⟨_, by rw [exec_chainRead, execChainRead]⟩⟩
  · exact ⟨_, fun s => ⟨_, by rw [exec_chainId, execChainId]⟩⟩
  · exact ⟨_, fun s => ⟨_, by rw [exec_estConfig, execEstConfig]⟩⟩
  · exact ⟨_, fun s => ⟨_, by rw [exec_estModel, execEstModel]⟩⟩
  · exact ⟨_, fun s => ⟨_, by rw [exec_estQuery, execEstQuery]⟩⟩
  · exact ⟨_, fun s => ⟨_, by rw [exec_estRead, execEstRead]⟩⟩
  · exact ⟨_, fun s => ⟨_, by rw [exec_estAnchor, execEstAnchor]⟩⟩
  · exact ⟨_, fun s => ⟨_, by rw [exec_estLifeRead, execEstLifeRead]⟩⟩
  · exact ⟨_, fun s => ⟨_, by rw [exec_estSave, execEstSave]⟩⟩
  · exact ⟨_, fun s => ⟨_, by rw [exec_thermalConfig, execThermalConfig]⟩⟩
  · exact ⟨_, fun s => ⟨_, by rw [exec_thermalQuery, execThermalQuery]⟩⟩
  · exact ⟨_, fun s => ⟨_, by rw [exec_powerQuery, execPowerQuery]⟩⟩
  · exact ⟨_, fun s => ⟨_, by rw [exec_capSet, execCapSet]⟩⟩
  · exact ⟨_, fun s => ⟨_, by rw [exec_ledgerTag, execLedgerTag]⟩⟩
  · exact ⟨_, fun s => ⟨_, by rw [exec_ledgerRead, execLedgerRead]⟩⟩
  · exact ⟨_, fun s => ⟨_, by rw [exec_ledgerClose, execLedgerClose]⟩⟩
  · exact ⟨_, fun s => ⟨_, by rw [exec_ledgerQuery, execLedgerQuery]⟩⟩
  · exact ⟨_, fun s => ⟨_, by rw [exec_jobEnergyQuery, execJobEnergyQuery]⟩⟩
  · exact ⟨_, fun s => ⟨_, by rw [exec_pairConfig, execPairConfig]⟩⟩
  · exact ⟨_, fun s => ⟨_, by rw [exec_pairQuery, execPairQuery]⟩⟩
  · exact ⟨_, fun s => ⟨_, by rw [exec_pairHandover, execPairHandover]⟩⟩
  · exact ⟨_, fun s => ⟨_, by rw [exec_fwQuery, execFwQuery]⟩⟩
  · exact ⟨_, fun s => ⟨_, by rw [exec_fwWrite, execFwWrite]⟩⟩
  · exact ⟨_, fun s => ⟨_, by rw [exec_fwCommit, execFwCommit]⟩⟩
  · exact ⟨_, fun s => ⟨_, by rw [exec_attestQuote, execAttestQuote]⟩⟩
  · exact ⟨_, fun s => ⟨_, by rw [exec_attestLogRead, execAttestLogRead]⟩⟩
  · exact ⟨_, fun s => ⟨_, by rw [exec_attestCert, execAttestCert]⟩⟩
  · exact ⟨_, fun s => ⟨_, by rw [exec_policySet, execPolicySet]⟩⟩
  · exact ⟨_, fun s => ⟨_, by rw [exec_policyQuery, execPolicyQuery]⟩⟩
  · exact ⟨_, fun s => ⟨_, by rw [exec_dumpRead, execDumpRead]⟩⟩
  · exact ⟨_, fun s => ⟨_, by rw [exec_dumpRelease, execDumpRelease]⟩⟩
  · exact ⟨_, fun s => ⟨_, by rw [exec_norSummaryRead, execNorSummaryRead]⟩⟩
  · exact ⟨_, fun s => ⟨_, by rw [exec_counterRead, execCounterRead]⟩⟩
  · exact ⟨_, fun s => ⟨_, by rw [exec_selftest, execSelftest]⟩⟩
  · exact ⟨_, fun s => ⟨_, by rw [exec_diagRaw, execDiagRaw]⟩⟩
  · exact ⟨_, fun s => ⟨_, by rw [exec_unknownOpcode, execUnknownOpcode]⟩⟩

/-- A command of mailboxes 1 to 3 declares its one LENGTH to the header checks (R101, R95). -/
theorem exec_high {i : Instr} {r : Req} {n : Nat} (h : requestOf i = some r) (k : highLength i = some n) :
    ∃ body, ∀ s, ∃ c, exec i s = mailbox c r body s ∧ c.known = true ∧ c.onMb = mbHigh ∧ ∀ l, c.lenOk l = decide (l = n) := by
  cases i <;> simp only [requestOf, Option.some.injEq, reduceCtorEq] at h <;> subst h <;>
    simp only [highLength, Option.some.injEq, reduceCtorEq] at k <;> subst k
  · exact ⟨_, fun s => ⟨_, by rw [exec_eventRingSet, execEventRingSet], rfl, rfl, fun _ => rfl⟩⟩
  · exact ⟨_, fun s => ⟨_, by rw [exec_strokeConfig, execStrokeConfig], rfl, rfl, fun _ => rfl⟩⟩
  · exact ⟨_, fun s => ⟨_, by rw [exec_clockConfig, execClockConfig], rfl, rfl, fun _ => rfl⟩⟩
  · exact ⟨_, fun s => ⟨_, by rw [exec_clockMeasure, execClockMeasure], rfl, rfl, fun _ => rfl⟩⟩
  · exact ⟨_, fun s => ⟨_, by rw [exec_clockGate, execClockGate], rfl, rfl, fun _ => rfl⟩⟩
  · exact ⟨_, fun s => ⟨_, by rw [exec_pumpRingSet, execPumpRingSet], rfl, rfl, fun _ => rfl⟩⟩
  · exact ⟨_, fun s => ⟨_, by rw [exec_pumpStart, execPumpStart], rfl, rfl, fun _ => rfl⟩⟩
  · exact ⟨_, fun s => ⟨_, by rw [exec_pumpStop, execPumpStop], rfl, rfl, fun _ => rfl⟩⟩
  · exact ⟨_, fun s => ⟨_, by rw [exec_pumpClear, execPumpClear], rfl, rfl, fun _ => rfl⟩⟩
  · exact ⟨_, fun s => ⟨_, by rw [exec_pumpQuery, execPumpQuery], rfl, rfl, fun _ => rfl⟩⟩
  · exact ⟨_, fun s => ⟨_, by rw [exec_listSubmit, execListSubmit], rfl, rfl, fun _ => rfl⟩⟩
  · exact ⟨_, fun s => ⟨_, by rw [exec_listRemove, execListRemove], rfl, rfl, fun _ => rfl⟩⟩
  · exact ⟨_, fun s => ⟨_, by rw [exec_listQuery, execListQuery], rfl, rfl, fun _ => rfl⟩⟩
  · exact ⟨_, fun s => ⟨_, by rw [exec_schedQuery, execSchedQuery], rfl, rfl, fun _ => rfl⟩⟩
  · exact ⟨_, fun s => ⟨_, by rw [exec_modelLoad, execModelLoad], rfl, rfl, fun _ => rfl⟩⟩
  · exact ⟨_, fun s => ⟨_, by rw [exec_modelUnload, execModelUnload], rfl, rfl, fun _ => rfl⟩⟩
  · exact ⟨_, fun s => ⟨_, by rw [exec_modelQuery, execModelQuery], rfl, rfl, fun _ => rfl⟩⟩
  · exact ⟨_, fun s => ⟨_, by rw [exec_bucketSet, execBucketSet], rfl, rfl, fun _ => rfl⟩⟩
  · exact ⟨_, fun s => ⟨_, by rw [exec_bucketQuery, execBucketQuery], rfl, rfl, fun _ => rfl⟩⟩
  · exact ⟨_, fun s => ⟨_, by rw [exec_targetSet, execTargetSet], rfl, rfl, fun _ => rfl⟩⟩
  · exact ⟨_, fun s => ⟨_, by rw [exec_pipeConfig, execPipeConfig], rfl, rfl, fun _ => rfl⟩⟩
  · exact ⟨_, fun s => ⟨_, by rw [exec_pipeQuery, execPipeQuery], rfl, rfl, fun _ => rfl⟩⟩
  · exact ⟨_, fun s => ⟨_, by rw [exec_roleSet, execRoleSet], rfl, rfl, fun _ => rfl⟩⟩
  · exact ⟨_, fun s => ⟨_, by rw [exec_ropeConfig, execRopeConfig], rfl, rfl, fun _ => rfl⟩⟩
  · exact ⟨_, fun s => ⟨_, by rw [exec_ropeQuery, execRopeQuery], rfl, rfl, fun _ => rfl⟩⟩
  · exact ⟨_, fun s => ⟨_, by rw [exec_ropePortQuery, execRopePortQuery], rfl, rfl, fun _ => rfl⟩⟩
  · exact ⟨_, fun s => ⟨_, by rw [exec_ropeCmis, execRopeCmis], rfl, rfl, fun _ => rfl⟩⟩
  · exact ⟨_, fun s => ⟨_, by rw [exec_ropeRead, execRopeRead], rfl, rfl, fun _ => rfl⟩⟩
  · exact ⟨_, fun s => ⟨_, by rw [exec_chainConfig, execChainConfig], rfl, rfl, fun _ => rfl⟩⟩
  · exact ⟨_, fun s => ⟨_, by rw [exec_chainBal, execChainBal], rfl, rfl, fun _ => rfl⟩⟩
  · exact ⟨_, fun s => ⟨_, by rw [exec_chainQuery, execChainQuery], rfl, rfl, fun _ => rfl⟩⟩
  · exact ⟨_, fun s => ⟨_, by rw [exec_chainRead, execChainRead], rfl, rfl, fun _ => rfl⟩⟩
  · exact ⟨_, fun s => ⟨_, by rw [exec_chainId, execChainId], rfl, rfl, fun _ => rfl⟩⟩
  · exact ⟨_, fun s => ⟨_, by rw [exec_estConfig, execEstConfig], rfl, rfl, fun _ => rfl⟩⟩
  · exact ⟨_, fun s => ⟨_, by rw [exec_estModel, execEstModel], rfl, rfl, fun _ => rfl⟩⟩
  · exact ⟨_, fun s => ⟨_, by rw [exec_estQuery, execEstQuery], rfl, rfl, fun _ => rfl⟩⟩
  · exact ⟨_, fun s => ⟨_, by rw [exec_estRead, execEstRead], rfl, rfl, fun _ => rfl⟩⟩
  · exact ⟨_, fun s => ⟨_, by rw [exec_estAnchor, execEstAnchor], rfl, rfl, fun _ => rfl⟩⟩
  · exact ⟨_, fun s => ⟨_, by rw [exec_estLifeRead, execEstLifeRead], rfl, rfl, fun _ => rfl⟩⟩
  · exact ⟨_, fun s => ⟨_, by rw [exec_estSave, execEstSave], rfl, rfl, fun _ => rfl⟩⟩
  · exact ⟨_, fun s => ⟨_, by rw [exec_thermalConfig, execThermalConfig], rfl, rfl, fun _ => rfl⟩⟩
  · exact ⟨_, fun s => ⟨_, by rw [exec_thermalQuery, execThermalQuery], rfl, rfl, fun _ => rfl⟩⟩
  · exact ⟨_, fun s => ⟨_, by rw [exec_powerQuery, execPowerQuery], rfl, rfl, fun _ => rfl⟩⟩
  · exact ⟨_, fun s => ⟨_, by rw [exec_capSet, execCapSet], rfl, rfl, fun _ => rfl⟩⟩
  · exact ⟨_, fun s => ⟨_, by rw [exec_ledgerTag, execLedgerTag], rfl, rfl, fun _ => rfl⟩⟩
  · exact ⟨_, fun s => ⟨_, by rw [exec_ledgerRead, execLedgerRead], rfl, rfl, fun _ => rfl⟩⟩
  · exact ⟨_, fun s => ⟨_, by rw [exec_ledgerClose, execLedgerClose], rfl, rfl, fun _ => rfl⟩⟩
  · exact ⟨_, fun s => ⟨_, by rw [exec_ledgerQuery, execLedgerQuery], rfl, rfl, fun _ => rfl⟩⟩
  · exact ⟨_, fun s => ⟨_, by rw [exec_jobEnergyQuery, execJobEnergyQuery], rfl, rfl, fun _ => rfl⟩⟩
  · exact ⟨_, fun s => ⟨_, by rw [exec_fwQuery, execFwQuery], rfl, rfl, fun _ => rfl⟩⟩
  · exact ⟨_, fun s => ⟨_, by rw [exec_fwWrite, execFwWrite], rfl, rfl, fun _ => rfl⟩⟩
  · exact ⟨_, fun s => ⟨_, by rw [exec_fwCommit, execFwCommit], rfl, rfl, fun _ => rfl⟩⟩
  · exact ⟨_, fun s => ⟨_, by rw [exec_attestQuote, execAttestQuote], rfl, rfl, fun _ => rfl⟩⟩
  · exact ⟨_, fun s => ⟨_, by rw [exec_attestLogRead, execAttestLogRead], rfl, rfl, fun _ => rfl⟩⟩
  · exact ⟨_, fun s => ⟨_, by rw [exec_attestCert, execAttestCert], rfl, rfl, fun _ => rfl⟩⟩
  · exact ⟨_, fun s => ⟨_, by rw [exec_policySet, execPolicySet], rfl, rfl, fun _ => rfl⟩⟩
  · exact ⟨_, fun s => ⟨_, by rw [exec_policyQuery, execPolicyQuery], rfl, rfl, fun _ => rfl⟩⟩
  · exact ⟨_, fun s => ⟨_, by rw [exec_dumpRead, execDumpRead], rfl, rfl, fun _ => rfl⟩⟩
  · exact ⟨_, fun s => ⟨_, by rw [exec_dumpRelease, execDumpRelease], rfl, rfl, fun _ => rfl⟩⟩
  · exact ⟨_, fun s => ⟨_, by rw [exec_norSummaryRead, execNorSummaryRead], rfl, rfl, fun _ => rfl⟩⟩
  · exact ⟨_, fun s => ⟨_, by rw [exec_counterRead, execCounterRead], rfl, rfl, fun _ => rfl⟩⟩
  · exact ⟨_, fun s => ⟨_, by rw [exec_selftest, execSelftest], rfl, rfl, fun _ => rfl⟩⟩

/-- A command of mailbox 0 declares its one LENGTH to the header checks (R101, R95). -/
theorem exec_zero {i : Instr} {r : Req} {n : Nat} (h : requestOf i = some r) (k : zeroLength i = some n) :
    ∃ body, ∀ s, ∃ c, exec i s = mailbox c r body s ∧ c.known = true ∧ c.onMb = mbZero ∧ ∀ l, c.lenOk l = decide (l = n) := by
  cases i <;> simp only [requestOf, Option.some.injEq, reduceCtorEq] at h <;> subst h <;>
    simp only [zeroLength, Option.some.injEq, reduceCtorEq] at k <;> subst k
  · exact ⟨_, fun s => ⟨_, by rw [exec_stageConfig, execStageConfig], rfl, rfl, fun _ => rfl⟩⟩
  · exact ⟨_, fun s => ⟨_, by rw [exec_loopCoef, execLoopCoef], rfl, rfl, fun _ => rfl⟩⟩
  · exact ⟨_, fun s => ⟨_, by rw [exec_loopOpen, execLoopOpen], rfl, rfl, fun _ => rfl⟩⟩
  · exact ⟨_, fun s => ⟨_, by rw [exec_loopClose, execLoopClose], rfl, rfl, fun _ => rfl⟩⟩
  · exact ⟨_, fun s => ⟨_, by rw [exec_stageMode, execStageMode], rfl, rfl, fun _ => rfl⟩⟩
  · exact ⟨_, fun s => ⟨_, by rw [exec_stageQuery, execStageQuery], rfl, rfl, fun _ => rfl⟩⟩
  · exact ⟨_, fun s => ⟨_, by rw [exec_traceArm, execTraceArm], rfl, rfl, fun _ => rfl⟩⟩
  · exact ⟨_, fun s => ⟨_, by rw [exec_traceDisarm, execTraceDisarm], rfl, rfl, fun _ => rfl⟩⟩
  · exact ⟨_, fun s => ⟨_, by rw [exec_traceQuery, execTraceQuery], rfl, rfl, fun _ => rfl⟩⟩
  · exact ⟨_, fun s => ⟨_, by rw [exec_pairConfig, execPairConfig], rfl, rfl, fun _ => rfl⟩⟩
  · exact ⟨_, fun s => ⟨_, by rw [exec_pairQuery, execPairQuery], rfl, rfl, fun _ => rfl⟩⟩
  · exact ⟨_, fun s => ⟨_, by rw [exec_pairHandover, execPairHandover], rfl, rfl, fun _ => rfl⟩⟩

/-! Requests that a header check refuses (R582). -/

theorem refuses_header {s : State} (h : Ready s) (c : Cmd) (r : Req) (body : State → State × Answer) (k : Code) (d : Nat)
    (hh : headerBad (mbPost c.op r s) c r = some (errR k d)) :
    ∃ t, mailbox c r body s = .next t ∧ Answered t r k d [] ∧ Served s t := by
  have hp := ready_post h c.op r
  have hb := ready_idle hp r.mb.val
  refine ⟨mbAnswer r.mb.val (errR k d) (rung c.op [] r s), ?_, answered_asks h .., served_now (served_rung ..) ..⟩
  simp only [mailbox, h.1, Bool.not_true, Bool.false_eq_true, if_false, hp.2.1, hb, Option.isSome_none, hh, rung]

theorem bad_mb {s : State} (h : Ready s) (c : Cmd) (r : Req) (hk : c.known = true) (hm : c.onMb r.mb = false) :
    headerBad (mbPost c.op r s) c r = some (errR .badCmd 1) := by
  have hr : s.boot.recovery = false := h.2.2.1
  simp [headerBad, hr, hk, hm]

theorem bad_len {s : State} (h : Ready s) (c : Cmd) (r : Req) (hk : c.known = true) (hm : c.onMb r.mb = true)
    (hl : c.lenOk r.length.toNat = false) : headerBad (mbPost c.op r s) c r = some (errR .badLen 0) := by
  have hr : s.boot.recovery = false := h.2.2.1
  simp [headerBad, hr, hk, hm, hl]

end Sys2Proof.Machine
end

