-- ==== Sys2Proof/Laws/Memory.lean ====
section
/-! SUPPORT. Sparse memory (R181): what a read gives after a write, and that every operation on device memory and on the host memory that
the module writes keeps the canonical form. -/

namespace Sys2Proof.Machine

/-! ### The canonical form -/

/-- A list whose addresses lie above a bound lies above every lower one. -/
theorem cellsAbove_mono {m : List Host.Cell} {lo lo' : Nat} (h : cellsAbove lo m = true) (hle : lo' ≤ lo) : cellsAbove lo' m = true := by
  cases m with
  | nil => rfl
  | cons c t =>
    simp only [cellsAbove, Bool.and_eq_true, decide_eq_true_eq] at h ⊢
    exact ⟨⟨by omega, h.1.2⟩, h.2⟩

/-- Below its bound a list reads as zero. -/
theorem cellRead_above {m : List Host.Cell} {lo a : Nat} (h : cellsAbove lo m = true) (ha : a < lo) : cellRead m a = 0 := by
  cases m with
  | nil => rfl
  | cons c t =>
    simp only [cellsAbove, Bool.and_eq_true, decide_eq_true_eq] at h
    simp only [cellRead, if_pos (show a < c.1 by omega)]

theorem cellsAbove_cellCons {m : List Host.Cell} {lo a : Nat} {v : Byte} (h : cellsAbove (a + 1) m = true) (ha : lo ≤ a) :
    cellsAbove lo (cellCons a v m) = true := by
  unfold cellCons
  split
  · exact cellsAbove_mono h (by omega)
  · simp_all [cellsAbove]

/-- Writing a byte keeps the addresses rising and no zero byte listed. -/
theorem cellsAbove_cellWrite {m : List Host.Cell} {lo a : Nat} {v : Byte} (h : cellsAbove lo m = true) (ha : lo ≤ a) :
    cellsAbove lo (cellWrite m a v) = true := by
  induction m generalizing lo with
  | nil => exact cellsAbove_cellCons rfl ha
  | cons c t ih =>
    obtain ⟨b, w⟩ := c
    have k := h
    simp only [cellsAbove, Bool.and_eq_true, decide_eq_true_eq] at k
    simp only [cellWrite]
    split
    · exact cellsAbove_cellCons (by simp only [cellsAbove, Bool.and_eq_true, decide_eq_true_eq]; exact ⟨⟨by omega, k.1.2⟩, k.2⟩) ha
    · split
      · subst_vars; exact cellsAbove_cellCons k.2 ha
      · simp only [cellsAbove, Bool.and_eq_true, decide_eq_true_eq]
        exact ⟨k.1, ih k.2 (by omega)⟩

theorem cellsWf_nil : cellsWf [] = true := rfl

/-- A write of one byte keeps the canonical form. -/
theorem cellsWf_cellWrite {m : List Host.Cell} (h : cellsWf m = true) (a : Nat) (v : Byte) : cellsWf (cellWrite m a v) = true :=
  cellsAbove_cellWrite h (Nat.zero_le a)

/-- A write of bytes keeps the canonical form. -/
theorem cellsWf_cellsWrite {m : List Host.Cell} (h : cellsWf m = true) (a : Nat) (bs : List Byte) : cellsWf (cellsWrite m a bs) = true := by
  induction bs generalizing m a with
  | nil => exact h
  | cons v t ih => exact ih (cellsWf_cellWrite h a v) (a + 1)

theorem cellsAbove_filter {m : List Host.Cell} {lo : Nat} (p : Host.Cell → Bool) (h : cellsAbove lo m = true) :
    cellsAbove lo (m.filter p) = true := by
  induction m generalizing lo with
  | nil => rfl
  | cons c t ih =>
    have k := h
    simp only [cellsAbove, Bool.and_eq_true, decide_eq_true_eq] at k
    rw [List.filter_cons]
    split
    · simp only [cellsAbove, Bool.and_eq_true, decide_eq_true_eq]; exact ⟨k.1, ih k.2⟩
    · exact cellsAbove_mono (ih k.2) (by omega)

/-- Leaving out addresses keeps the canonical form. -/
theorem cellsWf_filter {m : List Host.Cell} (h : cellsWf m = true) (p : Host.Cell → Bool) : cellsWf (m.filter p) = true :=
  cellsAbove_filter p h

/-! ### Read after write -/

theorem cellRead_cellCons {m : List Host.Cell} {a : Nat} {v : Byte} (h : cellsAbove (a + 1) m = true) (x : Nat) :
    cellRead (cellCons a v m) x = if x = a then v else cellRead m x := by
  unfold cellCons
  split
  · rename_i hv
    split
    · subst_vars; exact cellRead_above h (Nat.lt_succ_self _)
    · rfl
  · simp only [cellRead]
    by_cases hx : x = a
    · simp [hx]
    · simp only [hx, if_false]
      split
      · exact (cellRead_above h (by omega)).symm
      · rfl

/-- A byte written is the byte read; every other address reads as before. -/
theorem cellRead_cellWrite {m : List Host.Cell} {lo : Nat} (h : cellsAbove lo m = true) (a x : Nat) (v : Byte) :
    cellRead (cellWrite m a v) x = if x = a then v else cellRead m x := by
  induction m generalizing lo with
  | nil =>
    simp only [cellWrite]
    exact cellRead_cellCons rfl x
  | cons c t ih =>
    obtain ⟨b, w⟩ := c
    have k := h
    simp only [cellsAbove, Bool.and_eq_true, decide_eq_true_eq] at k
    simp only [cellWrite]
    split
    · refine cellRead_cellCons ?_ x
      simp only [cellsAbove, Bool.and_eq_true, decide_eq_true_eq]
      exact ⟨⟨by omega, k.1.2⟩, k.2⟩
    · split
      · subst_vars
        rw [cellRead_cellCons k.2 x]
        by_cases hx : x = b
        · simp [hx]
        · simp only [hx, if_false, cellRead]
          split
          · exact cellRead_above k.2 (by omega)
          · rfl
      · simp only [cellRead]
        rw [ih k.2]
        by_cases h1 : x < b
        · simp only [h1, if_true]; split
          · omega
          · rfl
        · simp only [h1, if_false]
          by_cases h2 : x = b
          · simp only [h2, if_true]; split
            · omega
            · rfl
          · simp only [h2, if_false]

/-- The bytes written are the bytes read; every address outside them reads as before. -/
theorem cellRead_cellsWrite {m : List Host.Cell} (h : cellsWf m = true) (a x : Nat) (bs : List Byte) :
    cellRead (cellsWrite m a bs) x = if a ≤ x ∧ x < a + bs.length then bs.getD (x - a) 0 else cellRead m x := by
  induction bs generalizing m a with
  | nil => simp only [cellsWrite, List.length_nil]; rw [if_neg (by omega)]
  | cons v t ih =>
    simp only [cellsWrite, List.length_cons]
    rw [ih (cellsWf_cellWrite h a v) (a + 1), cellRead_cellWrite h]
    by_cases h1 : x = a
    · subst h1; rw [if_neg (by omega), if_pos (by omega)]; simp
    · by_cases h2 : a ≤ x ∧ x < a + (t.length + 1)
      · rw [if_pos (by omega), if_pos h2]
        rw [show x - a = (x - (a + 1)) + 1 by omega]
        rfl
      · rw [if_neg (by omega), if_neg h1, if_neg h2]

/-! ### The memory operations of the module -/

/-- Both memories of the module are in canonical form. -/
def MemWf (s : State) : Prop := cellsWf s.mem.cells = true ∧ cellsWf s.mem.host = true

theorem memWf_reset : MemWf State.reset := ⟨rfl, rfl⟩

theorem memWf_memWrite {s : State} (h : MemWf s) (a : Nat) (bs : List Byte) : MemWf (memWrite a bs s) :=
  ⟨cellsWf_cellsWrite h.1 a bs, h.2⟩

theorem memWf_memWriteWords {s : State} (h : MemWf s) (a : Nat) (ws : List Word) : MemWf (memWriteWords a ws s) :=
  memWf_memWrite h a _

theorem memWf_memDamage {s : State} (h : MemWf s) (a : Nat) : MemWf (memDamage a s) := h

theorem memWf_pendWrite {s : State} (h : MemWf s) (seen : List Seer) (a : Nat) (bs : List Byte) : MemWf (pendWrite seen a bs s) := h

theorem memWf_pendWords {s : State} (h : MemWf s) (seen : List Seer) (a : Nat) (ws : List Word) : MemWf (pendWords seen a ws s) := h

theorem memWf_writeLand {s : State} (h : MemWf s) (w : PendWrite) : MemWf (writeLand w s) := by
  unfold writeLand
  split
  · exact h
  · exact memWf_memWrite h _ _

theorem memWf_writeLands {s : State} (h : MemWf s) (l : List PendWrite) : MemWf (l.foldl (fun t w => writeLand w t) s) := by
  induction l generalizing s with
  | nil => exact h
  | cons w t ih => exact ih (memWf_writeLand h w)

theorem memWf_seeAs {s : State} (h : MemWf s) (r : Seer) : MemWf (seeAs r s) := memWf_writeLands h _

theorem memWf_inView {s : State} (h : MemWf s) (r : Seer) (f : State → State) (hf : ∀ t, MemWf t → MemWf (f t)) : MemWf (inView r f s) :=
  ⟨h.1, (hf _ (memWf_seeAs h r)).2⟩

theorem memWf_seenJoin {s : State} (h : MemWf s) (a b : Seer) : MemWf (seenJoin a b s) := h

theorem memWf_seenFrom {s : State} (h : MemWf s) (n : Nat) (b : Seer) : MemWf (seenFrom n b s) := h

theorem memWf_writesLand {s : State} (h : MemWf s) : MemWf (writesLand s) := memWf_writeLands h s.mem.writes

theorem memWf_hostWrite {s : State} (h : MemWf s) (a : Nat) (bs : List Byte) : MemWf (hostWrite a bs s) :=
  ⟨h.1, cellsWf_cellsWrite h.2 a bs⟩

/-- A reset keeps the form of what it keeps (R531). -/
theorem cellsWf_resetMem {m : Mem} (h : cellsWf m.cells = true ∧ cellsWf m.host = true) (cause : Nat) :
    cellsWf (resetMem cause m).cells = true ∧ cellsWf (resetMem cause m).host = true := by
  refine ⟨?_, h.2⟩
  simp only [resetMem]
  split
  · exact cellsWf_filter h.1 _
  · rfl

/-- After a write of bytes, memory reads as the bytes within them and as before elsewhere. -/
theorem memRead_memWrite {s : State} (h : MemWf s) (a x : Nat) (bs : List Byte) :
    cellRead (memWrite a bs s).mem.cells x = if a ≤ x ∧ x < a + bs.length then bs.getD (x - a) 0 else cellRead s.mem.cells x :=
  cellRead_cellsWrite h.1 a x bs

end Sys2Proof.Machine
end

