-- ==== Sys2Proof/WellFormed.lean ====
section
/-! DEFINITION. Well-formed commands: the operands have the sizes that the manual gives them. A meaning is total, and is given
for ill-formed commands too; the host and the module's own parts send none. -/

namespace Sys2Proof

/-- A request has at most the 1,022 payload words of the request area (R94). -/
def Req.wf (r : Req) : Bool := decide (r.payload.length ≤ 1022)

/-- A read of host memory gives at most the words that it asked for. -/
def HostRead.wf (n : Nat) : HostRead → Bool
  | .words ws => decide (ws.length ≤ n)
  | .poison => true
  | .error => true
  | .timeout => true

/-- A management-interface access moves at most 128 bytes (R350, R579). -/
def CmisReply.wf : CmisReply → Bool
  | .bytes bs => decide (bs.length ≤ 128)
  | .noAnswer => true

/-- A rope line has sixteen words (R319). -/
def RopeLine.wf (l : RopeLine) : Bool := decide (l.words.length = 16)

/-- Conversions of twelve phases and 24 outputs (R358). -/
def LoopCodes.wf (c : LoopCodes) : Bool := decide (c.iph.length = 12) && decide (c.iout.length = 24)

/-- A remote access moves whole 64-byte lines (R187). -/
def RemoteOp.wf : RemoteOp → Bool
  | .read n => decide (0 < n ∧ n % 64 = 0)
  | .write ws => decide (0 < ws.length ∧ ws.length % 16 = 0)

/-- The answer to a remote read carries whole 64-byte lines (R187). -/
def RemoteReply.wf : RemoteReply → Bool
  | .data ws => decide (ws.length % 16 = 0)
  | .acknowledged => true
  | .refused => true
  | .memoryError => true

/-- A mirrored ledger cell has four sums of each line (R514). -/
def LedgerMirror.wf (c : LedgerMirror) : Bool := decide (c.lineN.length = 4) && decide (c.lineS.length = 4)

/-- The sizes of a mirror item (R514): a status line of sixteen words, 24 outputs, eight strings. -/
def MirrorItem.wf : MirrorItem → Bool
  | .stateArea _ _ _ status _ => decide (status.length = 16)
  | .estimator _ _ openCycles => decide (openCycles.length = 8)
  | .ledgerStroke _ jobs sums ovr _ => decide (jobs.length = 24) && decide (sums.length = 24) && decide (ovr.length = 24)
  | .ledgerTags tags pendTags => decide (tags.length = 24) && decide (pendTags.length = 24)
  | .ledgerTable cells => cells.all LedgerMirror.wf
  | .ledgerClose _ => true
  | .target _ _ _ _ _ _ => true
  | .allocation _ _ _ _ _ => true

/-- An image begins with a manifest of 1,024 words (R536). -/
def ImageInfo.wf (i : ImageInfo) : Bool := decide (1024 ≤ i.words.length)

/-- A boot names the result of each of the three bridges. -/
def BootEnv.wf (e : BootEnv) : Bool := decide (e.bridgesFailed.length = 3)

/-- The well-formed commands. -/
def Instr.wf : Instr → Bool
  | .nop r => r.wf
  | .eventRingSet r => r.wf
  | .funcQuery r => r.wf
  | .funcOn r => r.wf
  | .funcOff r => r.wf
  | .funcStart r => r.wf
  | .funcStop r => r.wf
  | .funcClear r _ => r.wf
  | .claimQuery r => r.wf
  | .clockQuery r => r.wf
  | .strokeConfig r => r.wf
  | .clockConfig r => r.wf
  | .clockMeasure r => r.wf
  | .clockMeasureComplete _ _ _ => true
  | .clockGate r => r.wf
  | .pumpRingSet r => r.wf
  | .pumpStart r prod => r.wf && prod.wf 1
  | .pumpStop r => r.wf
  | .pumpClear r _ => r.wf
  | .pumpQuery r => r.wf
  | .pumpWake _ prod => prod.wf 1
  | .pumpDescriptorFetch _ d => d.wf 8
  | .pumpDescriptorComplete _ _ => true
  | .pumpTransferFault _ _ _ _ _ => true
  | .listSubmit r desc => r.wf && desc.wf 16384
  | .listRemove r => r.wf
  | .listQuery r => r.wf
  | .schedQuery r => r.wf
  | .modelLoad r desc => r.wf && desc.wf 16384
  | .modelUnload r => r.wf
  | .modelQuery r => r.wf
  | .bucketSet r => r.wf
  | .bucketQuery r => r.wf
  | .targetSet r => r.wf
  | .pipeConfig r => r.wf
  | .pipeQuery r => r.wf
  | .roleSet r => r.wf
  | .ropeConfig r => r.wf
  | .ropeQuery r => r.wf
  | .ropePortQuery r => r.wf
  | .ropeCmis r reply => r.wf && reply.wf
  | .ropeRead r => r.wf
  | .stageConfig r => r.wf
  | .loopCoef r => r.wf
  | .loopOpen r => r.wf
  | .loopOpenParked => true
  | .loopClose r => r.wf
  | .stageMode r => r.wf
  | .stageQuery r => r.wf
  | .traceArm r => r.wf
  | .traceDisarm r => r.wf
  | .traceQuery r => r.wf
  | .traceTrigger _ => true
  | .traceCopied _ => true
  | .chainConfig r => r.wf
  | .chainBal r => r.wf
  | .chainQuery r => r.wf
  | .chainRead r => r.wf
  | .chainId r => r.wf
  | .estConfig r => r.wf
  | .estModel r => r.wf
  | .estQuery r => r.wf
  | .estRead r => r.wf
  | .estAnchor r => r.wf
  | .estLifeRead r => r.wf
  | .estSave r => r.wf
  | .thermalConfig r => r.wf
  | .thermalQuery r => r.wf
  | .powerQuery r => r.wf
  | .capSet r => r.wf
  | .ledgerTag r desc => r.wf && desc.wf 16384
  | .ledgerRead r => r.wf
  | .ledgerClose r => r.wf
  | .ledgerQuery r => r.wf
  | .jobEnergyQuery r => r.wf
  | .pairConfig r => r.wf
  | .pairQuery r => r.wf
  | .pairHandover r => r.wf
  | .fwQuery r => r.wf
  | .fwWrite r image => r.wf && image.wf
  | .fwWriteComplete _ => true
  | .fwCommit r => r.wf
  | .slotBCopyComplete _ => true
  | .attestQuote r => r.wf
  | .attestLogRead r => r.wf
  | .attestCert r => r.wf
  | .policySet r desc => r.wf && desc.wf 16384
  | .policyQuery r => r.wf
  | .dumpRead r => r.wf
  | .dumpRelease r => r.wf
  | .norSummaryRead r => r.wf
  | .counterRead r => r.wf
  | .selftest r results => r.wf && decide (results.length = 7)
  | .diagRaw r reply => r.wf && reply.wf
  | .load _ e _ => decide (e.length = 16)
  | .store _ e _ => decide (e.length = 16)
  | .gemm _ e _ => decide (e.length = 16)
  | .scan _ e _ => decide (e.length = 16)
  | .vec _ e _ => decide (e.length = 16)
  | .reduce _ e _ => decide (e.length = 16)
  | .bracket _ e _ => decide (e.length = 16)
  | .ledger _ e _ => decide (e.length = 16)
  | .sync _ e => decide (e.length = 16)
  | .syncRelease _ _ => true
  | .signal _ e => decide (e.length = 16)
  | .halt _ e => decide (e.length = 16)
  | .ropeGet _ e => decide (e.length = 16)
  | .ropePut _ e => decide (e.length = 16)
  | .segmentStart _ _ _ => true
  | .budgetAbort _ => true
  | .memoryAbort _ _ _ => true
  | .accessAbort _ _ _ => true
  | .pairComparison _ _ => true
  | .remoteRequest _ _ ask => ask.op.wf
  | .remoteAccessTimeout _ _ => true
  | .strokeBoundary _ => true
  | .sampleBoundary codes _ tripped => codes.wf && decide (tripped.length = 12)
  | .refStarved => true
  | .softStartRampEnd => true
  | .softStartLoopClose => true
  | .softStartRetry => true
  | .voltageModeExit => true
  | .fastLimitTrip _ => true
  | .ovLatch => true
  | .uvTrip => true
  | .faultInAsserted _ => true
  | .markEdge _ _ _ _ => true
  | .ledgerConversion _ iout overRange _ => decide (iout.length = 24) && decide (overRange.length = 24)
  | .grantLost => true
  | .grantRise => true
  | .beatReceived _ words _ => decide (words.length = 16)
  | .pathSilent _ => true
  | .watchdogVeto => true
  | .handoverReclaim => true
  | .mirrorReceived _ lines => lines.items.all MirrorItem.wf
  | .snapshotRequest _ items _ => items.all MirrorItem.wf
  | .hostLossHoldExpired => true
  | .dlDown => true
  | .busMasterEnableClear => true
  | .d3hotEntry => true
  | .msixUnmask _ => true
  | .hdmCommit _ _ _ _ => true
  | .cxlMemRead _ words => decide (1 ≤ words ∧ words ≤ 16)
  | .cxlMemWrite _ bytes => decide (1 ≤ bytes.length ∧ bytes.length ≤ 64)
  | .warmReset _ => true
  | .evtConsWrite _ => true
  | .strokeLoRead => true
  | .strokeHiRead => true
  | .registerWrite _ _ _ _ => true
  | .perstReset => true
  | .boot env => env.wf
  | .bootWatchdogExpired => true
  | .assayerReset => true
  | .pllLockCount _ => true
  | .dividerStep _ => true
  | .forcedSwitch _ => true
  | .refInputQualified _ => true
  | .refInputLost _ => true
  | .lossOfEveryReference => true
  | .clockLossRestart => true
  | .domainDeclaredStopped _ => true
  | .domainDeclaredOffFrequency _ => true
  | .domainDeclarationEnds _ => true
  | .temperatureConversion _ _ => true
  | .shutdownRopeRelease => true
  | .shutdownRegulatorsOff => true
  | .throttleEvaluation => true
  | .railSettled => true
  | .lifetimeHistogramTick => true
  | .lifetimeSaveTimer => true
  | .norWriteResume _ => true
  | .norEraseComplete => true
  | .anchorTimeout => true
  | .estCommitTimeout => true
  | .chainSettleWaitEnd _ => true
  | .chainFrameReceived _ _ bytes => decide (bytes.length ≤ 262)
  | .readCellsTimeout _ => true
  | .balSetHiTimeout _ => true
  | .balanceHoldExpired _ => true
  | .linkFailed _ => true
  | .linkUp _ => true
  | .heldDownExpired _ => true
  | .cmisPoll _ _ => true
  | .strokeFrameReceived _ lines _ _ => lines.all RopeLine.wf
  | .frameCopyReturn _ lines => lines.all RopeLine.wf
  | .frameCopyTimeout _ => true
  | .ropeLossHoldExpired => true
  | .feedLost _ _ => true
  | .feedPresent _ => true
  | .holdupCharged => true
  | .bothFeedsLost _ _ => true
  | .holdupAuthDrop => true
  | .holdupRopeRelease => true
  | .holdupExpired => true
  | .coldStart => true
  | .bridgeDisabled _ => true
  | .patrolScrub _ _ => true
  | .panic _ _ _ _ => true
  | .panicReset => true
  | .faultInDeasserted _ => true
  | .dlActive m => [1, 2, 4, 8, 16].contains m.lanes && decide (1 ≤ m.gen) && decide (m.gen ≤ 5)
  | .remoteResponse _ answer => answer.reply.wf
  | .unknownOpcode r _ => r.wf
  | .pumpStopTimeout _ => true
  | .holdupGoodWaitTimeout => true
  | .ropeStartWaitExpired _ => true
  | .enumHiTimeout _ => true

end Sys2Proof
end

