-- ==== Sys2Proof/Laws/PerInstr.lean ====
section
/-! SUPPORT. The family Request of LAWS.json: a command's request is well-formed where the command is. -/

namespace Sys2Proof.Laws.Request

open Sys2Proof Sys2Proof.Machine

/-- A well-formed mailbox command carries a request that fits the request area (R94). -/
def Statement (i : Instr) : Prop := ∀ r, requestOf i = some r → i.wf = true → r.payload.length ≤ 1022

/-- The request of a well-formed request command. -/
theorem of_wf {r : Req} (h : r.wf = true) : r.payload.length ≤ 1022 := of_decide_eq_true h

theorem nop : ∀ r, Statement (.nop r) := fun _ => fun _ h w => by cases h; exact of_wf w
theorem eventRingSet : ∀ r, Statement (.eventRingSet r) := fun _ => fun _ h w => by cases h; exact of_wf w
theorem funcQuery : ∀ r, Statement (.funcQuery r) := fun _ => fun _ h w => by cases h; exact of_wf w
theorem funcOn : ∀ r, Statement (.funcOn r) := fun _ => fun _ h w => by cases h; exact of_wf w
theorem funcOff : ∀ r, Statement (.funcOff r) := fun _ => fun _ h w => by cases h; exact of_wf w
theorem funcStart : ∀ r, Statement (.funcStart r) := fun _ => fun _ h w => by cases h; exact of_wf w
theorem funcStop : ∀ r, Statement (.funcStop r) := fun _ => fun _ h w => by cases h; exact of_wf w
theorem funcClear : ∀ r x1, Statement (.funcClear r x1) := fun _ _ => fun _ h w => by cases h; exact of_wf w
theorem claimQuery : ∀ r, Statement (.claimQuery r) := fun _ => fun _ h w => by cases h; exact of_wf w
theorem clockQuery : ∀ r, Statement (.clockQuery r) := fun _ => fun _ h w => by cases h; exact of_wf w
theorem strokeConfig : ∀ r, Statement (.strokeConfig r) := fun _ => fun _ h w => by cases h; exact of_wf w
theorem clockConfig : ∀ r, Statement (.clockConfig r) := fun _ => fun _ h w => by cases h; exact of_wf w
theorem clockMeasure : ∀ r, Statement (.clockMeasure r) := fun _ => fun _ h w => by cases h; exact of_wf w
theorem clockMeasureComplete : ∀ x0 x1 x2, Statement (.clockMeasureComplete x0 x1 x2) := fun _ _ _ => fun _ h _ => nomatch h
theorem clockGate : ∀ r, Statement (.clockGate r) := fun _ => fun _ h w => by cases h; exact of_wf w
theorem pumpRingSet : ∀ r, Statement (.pumpRingSet r) := fun _ => fun _ h w => by cases h; exact of_wf w
theorem pumpStart : ∀ r x1, Statement (.pumpStart r x1) := fun _ _ => fun _ h w => by cases h; exact of_wf ((Bool.and_eq_true _ _).mp w).1
theorem pumpStop : ∀ r, Statement (.pumpStop r) := fun _ => fun _ h w => by cases h; exact of_wf w
theorem pumpClear : ∀ r x1, Statement (.pumpClear r x1) := fun _ _ => fun _ h w => by cases h; exact of_wf w
theorem pumpQuery : ∀ r, Statement (.pumpQuery r) := fun _ => fun _ h w => by cases h; exact of_wf w
theorem pumpWake : ∀ x0 x1, Statement (.pumpWake x0 x1) := fun _ _ => fun _ h _ => nomatch h
theorem pumpDescriptorFetch : ∀ x0 x1, Statement (.pumpDescriptorFetch x0 x1) := fun _ _ => fun _ h _ => nomatch h
theorem pumpDescriptorComplete : ∀ x0 x1, Statement (.pumpDescriptorComplete x0 x1) := fun _ _ => fun _ h _ => nomatch h
theorem pumpTransferFault : ∀ x0 x1 x2 x3 x4, Statement (.pumpTransferFault x0 x1 x2 x3 x4) := fun _ _ _ _ _ => fun _ h _ => nomatch h
theorem listSubmit : ∀ r x1, Statement (.listSubmit r x1) := fun _ _ => fun _ h w => by cases h; exact of_wf ((Bool.and_eq_true _ _).mp w).1
theorem listRemove : ∀ r, Statement (.listRemove r) := fun _ => fun _ h w => by cases h; exact of_wf w
theorem listQuery : ∀ r, Statement (.listQuery r) := fun _ => fun _ h w => by cases h; exact of_wf w
theorem schedQuery : ∀ r, Statement (.schedQuery r) := fun _ => fun _ h w => by cases h; exact of_wf w
theorem modelLoad : ∀ r x1, Statement (.modelLoad r x1) := fun _ _ => fun _ h w => by cases h; exact of_wf ((Bool.and_eq_true _ _).mp w).1
theorem modelUnload : ∀ r, Statement (.modelUnload r) := fun _ => fun _ h w => by cases h; exact of_wf w
theorem modelQuery : ∀ r, Statement (.modelQuery r) := fun _ => fun _ h w => by cases h; exact of_wf w
theorem bucketSet : ∀ r, Statement (.bucketSet r) := fun _ => fun _ h w => by cases h; exact of_wf w
theorem bucketQuery : ∀ r, Statement (.bucketQuery r) := fun _ => fun _ h w => by cases h; exact of_wf w
theorem targetSet : ∀ r, Statement (.targetSet r) := fun _ => fun _ h w => by cases h; exact of_wf w
theorem pipeConfig : ∀ r, Statement (.pipeConfig r) := fun _ => fun _ h w => by cases h; exact of_wf w
theorem pipeQuery : ∀ r, Statement (.pipeQuery r) := fun _ => fun _ h w => by cases h; exact of_wf w
theorem roleSet : ∀ r, Statement (.roleSet r) := fun _ => fun _ h w => by cases h; exact of_wf w
theorem ropeConfig : ∀ r, Statement (.ropeConfig r) := fun _ => fun _ h w => by cases h; exact of_wf w
theorem ropeQuery : ∀ r, Statement (.ropeQuery r) := fun _ => fun _ h w => by cases h; exact of_wf w
theorem ropePortQuery : ∀ r, Statement (.ropePortQuery r) := fun _ => fun _ h w => by cases h; exact of_wf w
theorem ropeCmis : ∀ r x1, Statement (.ropeCmis r x1) := fun _ _ => fun _ h w => by cases h; exact of_wf ((Bool.and_eq_true _ _).mp w).1
theorem ropeRead : ∀ r, Statement (.ropeRead r) := fun _ => fun _ h w => by cases h; exact of_wf w
theorem stageConfig : ∀ r, Statement (.stageConfig r) := fun _ => fun _ h w => by cases h; exact of_wf w
theorem loopCoef : ∀ r, Statement (.loopCoef r) := fun _ => fun _ h w => by cases h; exact of_wf w
theorem loopOpen : ∀ r, Statement (.loopOpen r) := fun _ => fun _ h w => by cases h; exact of_wf w
theorem loopOpenParked : Statement .loopOpenParked := fun _ h _ => nomatch h
theorem loopClose : ∀ r, Statement (.loopClose r) := fun _ => fun _ h w => by cases h; exact of_wf w
theorem stageMode : ∀ r, Statement (.stageMode r) := fun _ => fun _ h w => by cases h; exact of_wf w
theorem stageQuery : ∀ r, Statement (.stageQuery r) := fun _ => fun _ h w => by cases h; exact of_wf w
theorem traceArm : ∀ r, Statement (.traceArm r) := fun _ => fun _ h w => by cases h; exact of_wf w
theorem traceDisarm : ∀ r, Statement (.traceDisarm r) := fun _ => fun _ h w => by cases h; exact of_wf w
theorem traceQuery : ∀ r, Statement (.traceQuery r) := fun _ => fun _ h w => by cases h; exact of_wf w
theorem traceTrigger : ∀ x0, Statement (.traceTrigger x0) := fun _ => fun _ h _ => nomatch h
theorem traceCopied : ∀ x0, Statement (.traceCopied x0) := fun _ => fun _ h _ => nomatch h
theorem chainConfig : ∀ r, Statement (.chainConfig r) := fun _ => fun _ h w => by cases h; exact of_wf w
theorem chainBal : ∀ r, Statement (.chainBal r) := fun _ => fun _ h w => by cases h; exact of_wf w
theorem chainQuery : ∀ r, Statement (.chainQuery r) := fun _ => fun _ h w => by cases h; exact of_wf w
theorem chainRead : ∀ r, Statement (.chainRead r) := fun _ => fun _ h w => by cases h; exact of_wf w
theorem chainId : ∀ r, Statement (.chainId r) := fun _ => fun _ h w => by cases h; exact of_wf w
theorem estConfig : ∀ r, Statement (.estConfig r) := fun _ => fun _ h w => by cases h; exact of_wf w
theorem estModel : ∀ r, Statement (.estModel r) := fun _ => fun _ h w => by cases h; exact of_wf w
theorem estQuery : ∀ r, Statement (.estQuery r) := fun _ => fun _ h w => by cases h; exact of_wf w
theorem estRead : ∀ r, Statement (.estRead r) := fun _ => fun _ h w => by cases h; exact of_wf w
theorem estAnchor : ∀ r, Statement (.estAnchor r) := fun _ => fun _ h w => by cases h; exact of_wf w
theorem estLifeRead : ∀ r, Statement (.estLifeRead r) := fun _ => fun _ h w => by cases h; exact of_wf w
theorem estSave : ∀ r, Statement (.estSave r) := fun _ => fun _ h w => by cases h; exact of_wf w
theorem thermalConfig : ∀ r, Statement (.thermalConfig r) := fun _ => fun _ h w => by cases h; exact of_wf w
theorem thermalQuery : ∀ r, Statement (.thermalQuery r) := fun _ => fun _ h w => by cases h; exact of_wf w
theorem powerQuery : ∀ r, Statement (.powerQuery r) := fun _ => fun _ h w => by cases h; exact of_wf w
theorem capSet : ∀ r, Statement (.capSet r) := fun _ => fun _ h w => by cases h; exact of_wf w
theorem ledgerTag : ∀ r x1, Statement (.ledgerTag r x1) := fun _ _ => fun _ h w => by cases h; exact of_wf ((Bool.and_eq_true _ _).mp w).1
theorem ledgerRead : ∀ r, Statement (.ledgerRead r) := fun _ => fun _ h w => by cases h; exact of_wf w
theorem ledgerClose : ∀ r, Statement (.ledgerClose r) := fun _ => fun _ h w => by cases h; exact of_wf w
theorem ledgerQuery : ∀ r, Statement (.ledgerQuery r) := fun _ => fun _ h w => by cases h; exact of_wf w
theorem jobEnergyQuery : ∀ r, Statement (.jobEnergyQuery r) := fun _ => fun _ h w => by cases h; exact of_wf w
theorem pairConfig : ∀ r, Statement (.pairConfig r) := fun _ => fun _ h w => by cases h; exact of_wf w
theorem pairQuery : ∀ r, Statement (.pairQuery r) := fun _ => fun _ h w => by cases h; exact of_wf w
theorem pairHandover : ∀ r, Statement (.pairHandover r) := fun _ => fun _ h w => by cases h; exact of_wf w
theorem fwQuery : ∀ r, Statement (.fwQuery r) := fun _ => fun _ h w => by cases h; exact of_wf w
theorem fwWrite : ∀ r x1, Statement (.fwWrite r x1) := fun _ _ => fun _ h w => by cases h; exact of_wf ((Bool.and_eq_true _ _).mp w).1
theorem fwWriteComplete : ∀ x0, Statement (.fwWriteComplete x0) := fun _ => fun _ h _ => nomatch h
theorem fwCommit : ∀ r, Statement (.fwCommit r) := fun _ => fun _ h w => by cases h; exact of_wf w
theorem slotBCopyComplete : ∀ x0, Statement (.slotBCopyComplete x0) := fun _ => fun _ h _ => nomatch h
theorem attestQuote : ∀ r, Statement (.attestQuote r) := fun _ => fun _ h w => by cases h; exact of_wf w
theorem attestLogRead : ∀ r, Statement (.attestLogRead r) := fun _ => fun _ h w => by cases h; exact of_wf w
theorem attestCert : ∀ r, Statement (.attestCert r) := fun _ => fun _ h w => by cases h; exact of_wf w
theorem policySet : ∀ r x1, Statement (.policySet r x1) := fun _ _ => fun _ h w => by cases h; exact of_wf ((Bool.and_eq_true _ _).mp w).1
theorem policyQuery : ∀ r, Statement (.policyQuery r) := fun _ => fun _ h w => by cases h; exact of_wf w
theorem dumpRead : ∀ r, Statement (.dumpRead r) := fun _ => fun _ h w => by cases h; exact of_wf w
theorem dumpRelease : ∀ r, Statement (.dumpRelease r) := fun _ => fun _ h w => by cases h; exact of_wf w
theorem norSummaryRead : ∀ r, Statement (.norSummaryRead r) := fun _ => fun _ h w => by cases h; exact of_wf w
theorem counterRead : ∀ r, Statement (.counterRead r) := fun _ => fun _ h w => by cases h; exact of_wf w
theorem selftest : ∀ r x1, Statement (.selftest r x1) := fun _ _ => fun _ h w => by cases h; exact of_wf ((Bool.and_eq_true _ _).mp w).1
theorem diagRaw : ∀ r x1, Statement (.diagRaw r x1) := fun _ _ => fun _ h w => by cases h; exact of_wf ((Bool.and_eq_true _ _).mp w).1
theorem load : ∀ x0 x1 x2, Statement (.load x0 x1 x2) := fun _ _ _ => fun _ h _ => nomatch h
theorem store : ∀ x0 x1 x2, Statement (.store x0 x1 x2) := fun _ _ _ => fun _ h _ => nomatch h
theorem gemm : ∀ x0 x1 x2, Statement (.gemm x0 x1 x2) := fun _ _ _ => fun _ h _ => nomatch h
theorem scan : ∀ x0 x1 x2, Statement (.scan x0 x1 x2) := fun _ _ _ => fun _ h _ => nomatch h
theorem vec : ∀ x0 x1 x2, Statement (.vec x0 x1 x2) := fun _ _ _ => fun _ h _ => nomatch h
theorem reduce : ∀ x0 x1 x2, Statement (.reduce x0 x1 x2) := fun _ _ _ => fun _ h _ => nomatch h
theorem bracket : ∀ x0 x1 x2, Statement (.bracket x0 x1 x2) := fun _ _ _ => fun _ h _ => nomatch h
theorem ledger : ∀ x0 x1 x2, Statement (.ledger x0 x1 x2) := fun _ _ _ => fun _ h _ => nomatch h
theorem sync : ∀ x0 x1, Statement (.sync x0 x1) := fun _ _ => fun _ h _ => nomatch h
theorem syncRelease : ∀ x0 x1, Statement (.syncRelease x0 x1) := fun _ _ => fun _ h _ => nomatch h
theorem signal : ∀ x0 x1, Statement (.signal x0 x1) := fun _ _ => fun _ h _ => nomatch h
theorem halt : ∀ x0 x1, Statement (.halt x0 x1) := fun _ _ => fun _ h _ => nomatch h
theorem ropeGet : ∀ x0 x1, Statement (.ropeGet x0 x1) := fun _ _ => fun _ h _ => nomatch h
theorem ropePut : ∀ x0 x1, Statement (.ropePut x0 x1) := fun _ _ => fun _ h _ => nomatch h
theorem segmentStart : ∀ x0 x1 x2, Statement (.segmentStart x0 x1 x2) := fun _ _ _ => fun _ h _ => nomatch h
theorem budgetAbort : ∀ x0, Statement (.budgetAbort x0) := fun _ => fun _ h _ => nomatch h
theorem memoryAbort : ∀ x0 x1 x2, Statement (.memoryAbort x0 x1 x2) := fun _ _ _ => fun _ h _ => nomatch h
theorem accessAbort : ∀ x0 x1 x2, Statement (.accessAbort x0 x1 x2) := fun _ _ _ => fun _ h _ => nomatch h
theorem pairComparison : ∀ x0 x1, Statement (.pairComparison x0 x1) := fun _ _ => fun _ h _ => nomatch h
theorem remoteRequest : ∀ x0 x1 x2, Statement (.remoteRequest x0 x1 x2) := fun _ _ _ => fun _ h _ => nomatch h
theorem remoteAccessTimeout : ∀ x0 x1, Statement (.remoteAccessTimeout x0 x1) := fun _ _ => fun _ h _ => nomatch h
theorem strokeBoundary : ∀ x0, Statement (.strokeBoundary x0) := fun _ => fun _ h _ => nomatch h
theorem sampleBoundary : ∀ x0 x1 x2, Statement (.sampleBoundary x0 x1 x2) := fun _ _ _ => fun _ h _ => nomatch h
theorem refStarved : Statement .refStarved := fun _ h _ => nomatch h
theorem softStartRampEnd : Statement .softStartRampEnd := fun _ h _ => nomatch h
theorem softStartLoopClose : Statement .softStartLoopClose := fun _ h _ => nomatch h
theorem softStartRetry : Statement .softStartRetry := fun _ h _ => nomatch h
theorem voltageModeExit : Statement .voltageModeExit := fun _ h _ => nomatch h
theorem fastLimitTrip : ∀ x0, Statement (.fastLimitTrip x0) := fun _ => fun _ h _ => nomatch h
theorem ovLatch : Statement .ovLatch := fun _ h _ => nomatch h
theorem uvTrip : Statement .uvTrip := fun _ h _ => nomatch h
theorem faultInAsserted : ∀ x0, Statement (.faultInAsserted x0) := fun _ => fun _ h _ => nomatch h
theorem markEdge : ∀ x0 x1 x2 x3, Statement (.markEdge x0 x1 x2 x3) := fun _ _ _ _ => fun _ h _ => nomatch h
theorem ledgerConversion : ∀ x0 x1 x2 x3, Statement (.ledgerConversion x0 x1 x2 x3) := fun _ _ _ _ => fun _ h _ => nomatch h
theorem grantLost : Statement .grantLost := fun _ h _ => nomatch h
theorem grantRise : Statement .grantRise := fun _ h _ => nomatch h
theorem beatReceived : ∀ x0 x1 x2, Statement (.beatReceived x0 x1 x2) := fun _ _ _ => fun _ h _ => nomatch h
theorem pathSilent : ∀ x0, Statement (.pathSilent x0) := fun _ => fun _ h _ => nomatch h
theorem watchdogVeto : Statement .watchdogVeto := fun _ h _ => nomatch h
theorem handoverReclaim : Statement .handoverReclaim := fun _ h _ => nomatch h
theorem mirrorReceived : ∀ x0 x1, Statement (.mirrorReceived x0 x1) := fun _ _ => fun _ h _ => nomatch h
theorem snapshotRequest : ∀ x0 x1 x2, Statement (.snapshotRequest x0 x1 x2) := fun _ _ _ => fun _ h _ => nomatch h
theorem hostLossHoldExpired : Statement .hostLossHoldExpired := fun _ h _ => nomatch h
theorem dlDown : Statement .dlDown := fun _ h _ => nomatch h
theorem busMasterEnableClear : Statement .busMasterEnableClear := fun _ h _ => nomatch h
theorem d3hotEntry : Statement .d3hotEntry := fun _ h _ => nomatch h
theorem msixUnmask : ∀ x0, Statement (.msixUnmask x0) := fun _ => fun _ h _ => nomatch h
theorem hdmCommit : ∀ x0 x1 x2 x3, Statement (.hdmCommit x0 x1 x2 x3) := fun _ _ _ _ => fun _ h _ => nomatch h
theorem cxlMemRead : ∀ x0 x1, Statement (.cxlMemRead x0 x1) := fun _ _ => fun _ h _ => nomatch h
theorem cxlMemWrite : ∀ x0 x1, Statement (.cxlMemWrite x0 x1) := fun _ _ => fun _ h _ => nomatch h
theorem warmReset : ∀ x0, Statement (.warmReset x0) := fun _ => fun _ h _ => nomatch h
theorem evtConsWrite : ∀ x0, Statement (.evtConsWrite x0) := fun _ => fun _ h _ => nomatch h
theorem strokeLoRead : Statement .strokeLoRead := fun _ h _ => nomatch h
theorem strokeHiRead : Statement .strokeHiRead := fun _ h _ => nomatch h
theorem registerWrite : ∀ x0 x1 x2 x3, Statement (.registerWrite x0 x1 x2 x3) := fun _ _ _ _ => fun _ h _ => nomatch h
theorem perstReset : Statement .perstReset := fun _ h _ => nomatch h
theorem boot : ∀ x0, Statement (.boot x0) := fun _ => fun _ h _ => nomatch h
theorem bootWatchdogExpired : Statement .bootWatchdogExpired := fun _ h _ => nomatch h
theorem assayerReset : Statement .assayerReset := fun _ h _ => nomatch h
theorem pllLockCount : ∀ x0, Statement (.pllLockCount x0) := fun _ => fun _ h _ => nomatch h
theorem dividerStep : ∀ x0, Statement (.dividerStep x0) := fun _ => fun _ h _ => nomatch h
theorem forcedSwitch : ∀ x0, Statement (.forcedSwitch x0) := fun _ => fun _ h _ => nomatch h
theorem refInputQualified : ∀ x0, Statement (.refInputQualified x0) := fun _ => fun _ h _ => nomatch h
theorem refInputLost : ∀ x0, Statement (.refInputLost x0) := fun _ => fun _ h _ => nomatch h
theorem lossOfEveryReference : Statement .lossOfEveryReference := fun _ h _ => nomatch h
theorem clockLossRestart : Statement .clockLossRestart := fun _ h _ => nomatch h
theorem domainDeclaredStopped : ∀ x0, Statement (.domainDeclaredStopped x0) := fun _ => fun _ h _ => nomatch h
theorem domainDeclaredOffFrequency : ∀ x0, Statement (.domainDeclaredOffFrequency x0) := fun _ => fun _ h _ => nomatch h
theorem domainDeclarationEnds : ∀ x0, Statement (.domainDeclarationEnds x0) := fun _ => fun _ h _ => nomatch h
theorem temperatureConversion : ∀ x0 x1, Statement (.temperatureConversion x0 x1) := fun _ _ => fun _ h _ => nomatch h
theorem shutdownRopeRelease : Statement .shutdownRopeRelease := fun _ h _ => nomatch h
theorem shutdownRegulatorsOff : Statement .shutdownRegulatorsOff := fun _ h _ => nomatch h
theorem throttleEvaluation : Statement .throttleEvaluation := fun _ h _ => nomatch h
theorem railSettled : Statement .railSettled := fun _ h _ => nomatch h
theorem lifetimeHistogramTick : Statement .lifetimeHistogramTick := fun _ h _ => nomatch h
theorem lifetimeSaveTimer : Statement .lifetimeSaveTimer := fun _ h _ => nomatch h
theorem norWriteResume : ∀ x0, Statement (.norWriteResume x0) := fun _ => fun _ h _ => nomatch h
theorem norEraseComplete : Statement .norEraseComplete := fun _ h _ => nomatch h
theorem anchorTimeout : Statement .anchorTimeout := fun _ h _ => nomatch h
theorem estCommitTimeout : Statement .estCommitTimeout := fun _ h _ => nomatch h
theorem chainSettleWaitEnd : ∀ x0, Statement (.chainSettleWaitEnd x0) := fun _ => fun _ h _ => nomatch h
theorem chainFrameReceived : ∀ x0 x1 x2, Statement (.chainFrameReceived x0 x1 x2) := fun _ _ _ => fun _ h _ => nomatch h
theorem readCellsTimeout : ∀ x0, Statement (.readCellsTimeout x0) := fun _ => fun _ h _ => nomatch h
theorem balSetHiTimeout : ∀ x0, Statement (.balSetHiTimeout x0) := fun _ => fun _ h _ => nomatch h
theorem balanceHoldExpired : ∀ x0, Statement (.balanceHoldExpired x0) := fun _ => fun _ h _ => nomatch h
theorem linkFailed : ∀ x0, Statement (.linkFailed x0) := fun _ => fun _ h _ => nomatch h
theorem linkUp : ∀ x0, Statement (.linkUp x0) := fun _ => fun _ h _ => nomatch h
theorem heldDownExpired : ∀ x0, Statement (.heldDownExpired x0) := fun _ => fun _ h _ => nomatch h
theorem cmisPoll : ∀ x0 x1, Statement (.cmisPoll x0 x1) := fun _ _ => fun _ h _ => nomatch h
theorem strokeFrameReceived : ∀ x0 x1 x2 x3, Statement (.strokeFrameReceived x0 x1 x2 x3) := fun _ _ _ _ => fun _ h _ => nomatch h
theorem frameCopyReturn : ∀ x0 x1, Statement (.frameCopyReturn x0 x1) := fun _ _ => fun _ h _ => nomatch h
theorem frameCopyTimeout : ∀ x0, Statement (.frameCopyTimeout x0) := fun _ => fun _ h _ => nomatch h
theorem ropeLossHoldExpired : Statement .ropeLossHoldExpired := fun _ h _ => nomatch h
theorem feedLost : ∀ x0 x1, Statement (.feedLost x0 x1) := fun _ _ => fun _ h _ => nomatch h
theorem feedPresent : ∀ x0, Statement (.feedPresent x0) := fun _ => fun _ h _ => nomatch h
theorem holdupCharged : Statement .holdupCharged := fun _ h _ => nomatch h
theorem bothFeedsLost : ∀ x0 x1, Statement (.bothFeedsLost x0 x1) := fun _ _ => fun _ h _ => nomatch h
theorem holdupAuthDrop : Statement .holdupAuthDrop := fun _ h _ => nomatch h
theorem holdupRopeRelease : Statement .holdupRopeRelease := fun _ h _ => nomatch h
theorem holdupExpired : Statement .holdupExpired := fun _ h _ => nomatch h
theorem coldStart : Statement .coldStart := fun _ h _ => nomatch h
theorem bridgeDisabled : ∀ x0, Statement (.bridgeDisabled x0) := fun _ => fun _ h _ => nomatch h
theorem patrolScrub : ∀ x0 x1, Statement (.patrolScrub x0 x1) := fun _ _ => fun _ h _ => nomatch h
theorem panic : ∀ x0 x1 x2 x3, Statement (.panic x0 x1 x2 x3) := fun _ _ _ _ => fun _ h _ => nomatch h
theorem panicReset : Statement .panicReset := fun _ h _ => nomatch h
theorem faultInDeasserted : ∀ x0, Statement (.faultInDeasserted x0) := fun _ => fun _ h _ => nomatch h
theorem dlActive : ∀ x0, Statement (.dlActive x0) := fun _ => fun _ h _ => nomatch h
theorem remoteResponse : ∀ x0 x1, Statement (.remoteResponse x0 x1) := fun _ _ => fun _ h _ => nomatch h
theorem unknownOpcode : ∀ r x1, Statement (.unknownOpcode r x1) := fun _ _ => fun _ h w => by cases h; exact of_wf w
theorem pumpStopTimeout : ∀ x0, Statement (.pumpStopTimeout x0) := fun _ => fun _ h _ => nomatch h
theorem holdupGoodWaitTimeout : Statement .holdupGoodWaitTimeout := fun _ h _ => nomatch h
theorem ropeStartWaitExpired : ∀ x0, Statement (.ropeStartWaitExpired x0) := fun _ => fun _ h _ => nomatch h
theorem enumHiTimeout : ∀ x0, Statement (.enumHiTimeout x0) := fun _ => fun _ h _ => nomatch h

end Sys2Proof.Laws.Request
end

