-- ==== Sys2Proof/Tests/Slice0.lean ====
section
/-! SUPPORT. Tests: what each check of WellFormed refuses, single steps on small states, and for the hypotheses of every statement a state
and operands that meet them. -/

namespace Sys2Proof.Tests

open Sys2Proof Sys2Proof.Machine

set_option Elab.async false

/-! ### Small states -/

/-- A module whose Posin serves, with its link up. -/
def serving : State := { State.reset with
  clerk := { mbOpen := true, bootStage := 5 }, link := { up := true, bme := true, memActive := true }
  clk := { State.reset.clk with plls := List.replicate 17 { started := true, locked := true } } }

/-- A function in a state. -/
def fnAt (f : Nat) (x : FState) (s : State) : State := { s with funcs := s.funcs.set ((fnIdx f).getD 0) { state := x } }

/-- Requests on mailbox 1 and on mailbox 0. -/
def onOne (ws : List Word) : Req := { mb := 1, tag := 7, irqEn := false, length := BitVec.ofNat 12 ws.length, payload := ws }
def onZero (ws : List Word) : Req := { onOne ws with mb := 0 }

/-- A command in progress on mailbox `n` that waits for `w`. -/
def waiting (n : Nat) (w : Waiting) (s : State) : State :=
  { s with mbs := s.mbs.modify n fun m => { m with busy := some { opcode := 0, tag := 3, acts := [], waits := w, logIdx := 0 } } }

/-! ### Hypotheses of the statements: mailboxes, functions, clocks -/

theorem serving_ready : Ready serving := by unfold Ready; decide
theorem serving_sound : Sound serving := by unfold Sound; decide
theorem reset_sound : Sound State.reset := by unfold Sound; decide

theorem wit_front : ({ serving with pending := [.dlDown] } : State).pending = .dlDown :: [] := by decide
theorem wit_queue_empty :
    (serving.pending = [] ∧ serving.power.life = .up ∧ (serving.clk.plls.getD 0 {}).locked = true ∧ serving.clk.refSrc.isSome = true) ∧
    (State.reset.pending = [] ∧ (State.reset.clk.plls.getD 0 {}).locked = false) := by decide

theorem wit_doorbells :
    requestOf (.nop (onOne [])) = some (onOne []) ∧ hostReaches State.reset = false ∧
    (hostReaches { serving with clerk := {} } = true ∧ ({ serving with clerk := {} } : State).clerk.mbOpen = false) ∧
    (hostReaches (waiting 1 .estSave serving) = true ∧ (waiting 1 .estSave serving).clerk.mbOpen = true ∧
      ∃ m b, (waiting 1 .estSave serving).mbs[1]? = some m ∧ m.busy = some b) :=
  ⟨by decide, by decide, ⟨by decide, by decide⟩, by decide, by decide, _, _, rfl, rfl⟩

theorem wit_mailbox_and_length :
    highLength (.chainQuery (onOne [])) = some 1 ∧ (onZero [0]).mb.val = 0 ∧ (onOne [0, 0]).mb.val ≠ 0 ∧
      (onOne [0, 0]).length.toNat ≠ 1 ∧ zeroLength (.stageMode (onZero [])) = some 2 ∧ (onZero [0]).length.toNat ≠ 2 := by decide

theorem wit_queries :
    ((onOne (List.replicate 1023 0)).length.toNat ≤ 1023) ∧
    ((onOne [0xFF]).length.toNat = 1 ∧ fld ((onOne [0xFF]).w 2) 8 24 = 0 ∧ fld ((onOne [0xFF]).w 2) 0 8 = 0xFF) ∧
    (fld ((onOne [0x23]).w 2) 8 24 = 0 ∧ fld ((onOne [0x23]).w 2) 0 8 ∈ fnIds) ∧
    (fld ((onOne [0x303]).w 2) 16 16 = 0 ∧ isResource (fld ((onOne [0x303]).w 2) 0 16) = true) ∧
    (onOne []).length.toNat = 0 := by decide +kernel

theorem wit_event_ring :
    (High (onOne [0x40, 1, 0]) 3 ∧ fld ((onOne [0x40, 1, 0]).w 2) 0 6 = 0 ∧ fld ((onOne [0x40, 1, 0]).w 4) 5 27 = 0 ∧
      fld ((onOne [0x40, 1, 0]).w 4) 0 5 = 0) ∧
    (6 ≤ fld ((onOne [0, 0, 6]).w 4) 0 5 ∧ fld ((onOne [0, 0, 16]).w 4) 0 5 ≤ 16) ∧
    (let s := { serving with evt := { queue := [List.replicate 16 0], dropped := 1 } }
     s.link.hostLoss = false ∧ s.diag.panic = none ∧ s.link.bme = true ∧ Ready s ∧ Sound s ∧ (∀ q ∈ s.evt.queue, q.length = 16) ∧
       s.evt.dropped ≠ 0 ∧ s.evt.queue.length < 2 ^ 6 ∧ serving.evt.dropped = 0) ∧
    ({ serving with link := { serving.link with bme := false } } : State).link.bme = false ∧
    hostReaches { serving with evt := { log2 := 6 } } = true ∧ ({ serving with evt := { log2 := 6 } } : State).evt.log2 ≠ 0 := by
  unfold High Ready Sound; decide +kernel

theorem wit_functions :
    FuncHeader (onOne [0x10]) ∧ FuncHeader (onZero [6]) ∧ fnState serving (fcId (onOne [0x10])) = .off ∧
    (Ready (fnAt 0x10 .stopped serving) ∧ Sound (fnAt 0x10 .stopped serving) ∧
      fnState (fnAt 0x10 .stopped serving) (fcId (onOne [0x10])) = .stopped) ∧
    (Ready (fnAt 0x10 .running serving) ∧ Sound (fnAt 0x10 .running serving) ∧
      fnState (fnAt 0x10 .running serving) (fcId (onOne [0x10])) = .running) ∧
    (Ready (fnAt 0x10 .faulted serving) ∧ Sound (fnAt 0x10 .faulted serving) ∧
      fnState (fnAt 0x10 .faulted serving) (fcId (onOne [0x10])) = .faulted) := by
  unfold FuncHeader Ready Sound; decide +kernel

/-- A module with every gate bit set and nothing running, on which LEDGER, ROPE and the queues can start. -/
def gated (s : State) : State := { s with clk := { s.clk with gate := 0x1FFFFF } }

theorem wit_start :
    (startFault (gated (fnAt 0x12 .stopped serving)) 0x12 = none ∧ startBad (gated (fnAt 0x12 .stopped serving)) 0x12 = none ∧
      FuncHeader (onOne [0x12])) := by
  unfold FuncHeader; decide +kernel

theorem wit_start_domain :
    startFault { fnAt fSTAGE .stopped serving with
      clk := { serving.clk with domains := serving.clk.domains.set 15 { declared := .stopped } } } (fcId (onZero [1])) = some 0x0608 ∧
    fnState (fnAt fSTAGE .stopped serving) (fcId (onZero [1])) = .stopped ∧ FuncHeader (onZero [1]) := by
  unfold FuncHeader; decide +kernel

theorem wit_stop :
    (fnState (fnAt fROPE .running serving) fROPE = .running ∧ FuncHeader (onOne [w32 fROPE])) ∧
    (fnState (fnAt fCHAINA .running serving) fCHAINA = .running ∧ (fnAt fCHAINA .running serving).pair.gnt = false) ∧
    (fnState (fnAt fSTAGE .running serving) fSTAGE = .running ∧ (fnAt fSTAGE .running serving).stage.loop ≠ .closed ∧
      (fnAt fSTAGE .running serving).stage.loop ≠ .opening ∧ FuncHeader (onZero [w32 fSTAGE])) ∧
    (fnState (fnAt fLEDGER .running serving) fLEDGER = .running ∧ fnState (fnAt 0x23 .running serving) 0x23 = .running) ∧
    (fnState (fnAt fEST .running serving) fEST = .running) := by
  unfold FuncHeader; decide +kernel

theorem wit_clear :
    condGone (fnAt fROPE .faulted serving) fROPE (clearEnd (fnAt fROPE .faulted serving) fROPE .passed) = true ∧
    condGone (fnAt fPAIR .faulted serving) fPAIR (clearEnd (fnAt fPAIR .faulted serving) fPAIR .passed) = false := by decide +kernel

theorem wit_clocks :
    (∀ f ∈ serving.funcs, f.state = .off ∨ f.state = .stopped) ∧
    (1000 ≤ fld ((onOne [1000, 10]).w 2) 0 20 ∧ fld ((onOne [1000, 10]).w 2) 0 20 % fld ((onOne [1000, 10]).w 3) 0 6 = 0 ∧
      100 ≤ fld ((onOne [1000, 10]).w 2) 0 20 / fld ((onOne [1000, 10]).w 3) 0 6) ∧
    (fld ((onOne [1000000, 1]).w 2) 0 20 ≤ 1000000 ∧ 1 ≤ fld ((onOne [1000000, 1]).w 3) 0 6 ∧
      fld ((onOne [1000000, 1]).w 2) 20 12 = 0 ∧ fld ((onOne [1000000, 1]).w 3) 6 26 = 0) ∧
    (onOne [1, 5000]).w 2 &&& 0xFFFFFECC = 0 ∧ fld ((onOne [1, 5000]).w 2) 0 2 ≠ 3 ∧ fld ((onOne [1, 5000]).w 3) 13 19 = 0 ∧
      fld ((onOne [1, 5000]).w 3) 0 13 ≤ 5000 ∧ boostSet serving = false ∧ serving.clerk.ropeRole ≠ 1 ∧
      serving.clerk.ropeRole ≠ 2 ∧
    fld ((onOne [0x1FFFFF]).w 2) 21 11 = 0 ∧ gateConflict serving ((onOne [0x1FFFFF]).w 2) = none ∧
    gateConflict (gated { serving with claims := [(0x10C, 0x40)] }) ((onOne [0]).w 2) = some (0x40, 12) ∧ ratiosDone serving = true ∧
    ratiosDone { serving with clk := { serving.clk with domains := serving.clk.domains.set 8 { divider := 2, target := 3 } } } = false := by
  decide +kernel

/-- A measurement of two clocks. -/
def measuring : State := waiting 1 .measure { gated serving with
  clk := { (gated serving).clk with measure := some { mb := 1, k := 8, gateIn := 1, measIn := 0, ratio := some 2, gateDead := false, measDead := false } } }

theorem wit_measure :
    ((onOne [0x081515]).w 2 &&& 0xFFE0E0E0 = 0 ∧ 8 ≤ fld ((onOne [0x081515]).w 2) 16 5 ∧ fld ((onOne [0x181515]).w 2) 16 5 ≤ 24 ∧
      fld ((onOne [0x081515]).w 2) 8 5 ≤ 21 ∧ (gated serving).clk.measure = none ∧ gateOn (gated serving) 8 = true ∧
      claimOwner (gated serving) 0x210 = none) ∧
    gateOn measuring 8 = true ∧ inputDead measuring 1 = false ∧ inputDead measuring 0 = false ∧
    (∃ m, measuring.mbs[1]? = some m ∧ m.busy.isSome = true) ∧
    (measuring.clk.measure.bind (·.ratio)) = some 2 ∧ (0 : Rat) ≤ 2 :=
  ⟨by decide +kernel, by decide +kernel, by decide +kernel, by decide +kernel, ⟨_, rfl, by decide +kernel⟩, by decide +kernel,
    by decide +kernel⟩

theorem wit_registers :
    (({ serving with clerk := { serving.clerk with strokeLatch := some 5 } } : State).clerk.strokeLatch = some 5 ∧
      hostReaches { serving with clerk := { serving.clerk with strokeLatch := some 5 } } = true) ∧
    serving.clerk.strokeLatch = none ∧ (2 : BitVec 32).toNat % 4 ≠ 0 ∧
    (let s := { serving with msix := { serving.msix with enable := true, pba := 0x80000000 } }
     s.msix.enable = true ∧ s.msix.funMask = false ∧ s.msix.pba.getLsbD 31 = true ∧ 31 < s.msix.sent.length ∧
       4 * 31 + 3 < s.msix.table.length ∧ hostReaches s = true) := by decide +kernel

/-! ### Pumps -/

/-- Pump 3 as given. -/
def pump3 (v : Pump) : State := { gated serving with pumps := serving.pumps.set 3 v }

/-- PUMP_RING_SET of pump 3 over one page of the host region. -/
def ringSet (log2 : Word) : Req := onOne [3 ||| (log2 <<< 11), 0x40, 0, 0x40000000, 0x18, 1]

/-- A move into the well of 64 bytes, in progress. -/
def moving : PumpDesc := { k := 0, words := [0x01000000, 64, 0, 0, 0x1000, 0, 0, 0], reject := none }

theorem wit_pumps :
    (Ready (pump3 {}) ∧ Sound (pump3 {}) ∧ pumpSel (ringSet 4) = 3 ∧ pumpRingSetBad (ringSet 4) = none ∧ fld ((ringSet 4).w 2) 11 5 ≠ 0 ∧
      pumpRingSetBad (ringSet 16) = none ∧ (pumpOf (pump3 {}) 3).state = .off) ∧
    (let s := pump3 { state := .stopped, log2 := 4 }
     (onOne [3]).w 2 &&& 0xFFFFFFF8 = 0 ∧ gateOn s 15 = true ∧ s.link.bme = true ∧ claimOwner s 0x10F = none ∧
       (16 - (pumpOf s 3).cons).toNat ≤ 2 ^ (pumpOf s 3).log2 ∧ 2 ^ (pumpOf s 3).log2 < (17 - (pumpOf s 3).cons).toNat) ∧
    ((pumpOf (pump3 { state := .running }) 3).inProg = [] ∧ (onOne [3]).w 2 &&& 0xFFFFFEF8 = 0) ∧
    (pumpOf (pump3 { state := .running, inProg := [moving] }) 3).inProg ≠ [] ∧ bit ((onOne [3]).w 2) 8 = false ∧
    (let s := pump3 { state := .faulted, faultCause := 6 }
     (pumpOf s 3).state = .faulted ∧ pumpGone s (pumpOf s 3) .passed = true) ∧
    (let s := pump3 { state := .running, log2 := 4, prod := 1 }
     (pumpOf s 3).draining = false ∧ (pumpOf s 3).next ≠ (pumpOf s 3).prod ∧ (pumpOf s 3).inProg.length < 4 ∧ s.link.up = true) ∧
    (moving.reject = none ∧ dOp moving.words = 1 ∧ moving.clash = []) ∧
    (let s := pump3 { state := .running, log2 := 4 }
     wakeDue s 3 = true ∧ (16 - (pumpOf s 3).cons).toNat ≤ 2 ^ (pumpOf s 3).log2 ∧
       2 ^ (pumpOf s 3).log2 < (17 - (pumpOf s 3).cons).toNat ∧
       wakeDue { s with link := { s.link with pcieOnly := true }, clk := { s.clk with tick := 1 } } 3 = false) ∧
    bit ((onOne [0x103]).w 2) 8 = true ∧ (onOne [0x103]).w 2 &&& 0xFFFFFEF8 = 0 ∧
    (pumpRingSetBad (ringSet 0) = none ∧ fld ((ringSet 0).w 2) 11 5 = 0) ∧
    (gateOn (pump3 {}) 15 = true ∧ gateOn serving 15 = false ∧ (pumpOf (pump3 { state := .running }) 3).inProg.any (·.lost) = false) ∧
    (let s := waiting 1 (.pumpStop 3) (pump3 { state := .running, draining := true, inProg := [moving] })
     (pumpOf s 3).draining = true ∧ waitingMb (fun x => decide (x = .pumpStop 3)) s = some 1 ∧ Sound s) := by
  unfold Ready Sound; decide +kernel

/-! ### Tiles -/

/-- A list of one segment that runs on queue `q` from this stroke, with one command on the tiles of a mask. -/
def listWith (q mask : Nat) (e : Line) : Inst :=
  { id := 5, queue := q, once := false, dormant := false, jobTag := 0, period0 := 1, period := 1, phase := 0, phase0 := 0,
    stretch := false, fallback := 0, areas := [], segs := [{ firstCmd := 0, cmds := 1, mask := mask, cyc := 1000, waitNs := 0, ext := 0, slot := 0 }],
    cmds := [e], setsFlags := [], builtin := none, modelId := 0, run := some { start := 0, done := [], flags := 0, cycles := 0 } }

/-- Its segment on a tile. -/
def segNow : TileSeg := { listId := 5, seg := 0, cmd := 0, budget := 1000, used := 0 }

/-- A tile that stands at that command, or waits in it. -/
def onTile (t q mask : Nat) (e : Line) (w : Option TileWait) : State :=
  { serving with
    lists := { serving.lists with inst := [listWith q mask e] }
    tiles := serving.tiles.set t { seg := some segNow, waiting := w } }

/-- A command of an opcode with no operands. -/
def cmdOf (o : Word) : Line := (o <<< 24) :: List.replicate 15 0

/-- A tile stands at a command of an opcode, within its budget. -/
def standsAt (t q mask : Nat) (o : Word) : Bool :=
  let s := onTile t q mask (cmdOf o) none
  decide (tileCur s t = some (listWith q mask (cmdOf o), segNow, cmdOf o)) &&
  decide (cmdDamage (seeAs (.tile t) s) (listWith q mask (cmdOf o)) t (cmdOf o) = none) &&
  decide (segNow.used + (cmdCycles s t (cmdOf o) + 0) < segNow.budget) && decide (opcOf (cmdOf o) = o.toNat)

theorem wit_tile_commands : ([1, 2, 3, 4, 5, 6, 7, 8] : List Word).all (standsAt 0 0x10 1) = true := by decide +kernel
/-- The second chunk of a SCAN over two tiles waits for the first one's state, and runs with it. -/
theorem wit_scan_waits :
    (let e : Line := 0x04000200 :: List.replicate 15 0
     let s := onTile 1 0x10 3 e none
     let c : ScanCarry := { listId := 5, seg := 0, cmd := 0, tile := 0, states := [] }
     tileCur s 1 = some (listWith 0x10 3 e, segNow, e) ∧ scanWaits s 1 = true ∧
       scanWaits { s with lists := { s.lists with carries := [c] } } 1 = false) := by decide +kernel

theorem wit_tile_points : ([9, 10, 13] : List Word).all (standsAt 0 0x10 1) = true ∧ tileFixed 0 = false ∧
    ([9, 10, 13] : List Word).all (standsAt 11 0x20 1) = true ∧ tileFixed 11 = true := by decide +kernel
theorem wit_tile_remote : ([11, 12] : List Word).all (standsAt 0 0x10 1) = true := by decide +kernel

theorem wit_signal :
    (let s := onTile 0 0x10 1 (cmdOf 10) none
     allArrived (listWith 0x10 1 (cmdOf 10)) segNow (arrive 5 0 0 0 s.lists.signals) = true) ∧
    (let s := onTile 0 0x10 3 (cmdOf 10) none
     allArrived (listWith 0x10 3 (cmdOf 10)) segNow (arrive 5 0 0 0 s.lists.signals) = false) := by decide +kernel

theorem wit_sync_release :
    (let s := onTile 0 0x10 1 (cmdOf 9) (some (.flag 63))
     (tileOf s 0).seg = some segNow ∧ (tileOf s 0).waiting = some (.flag 63) ∧ (instOf s 5).isSome = true ∧
       s.lists.flags.getLsbD 63 = false ∧ segNow.used + 0 < segNow.budget) ∧
    (let s := onTile 0 0x10 1 (cmdOf 9) (some (.flag 63))
     ({ s with lists := { s.lists with flags := 0x8000000000000000 } } : State).lists.flags.getLsbD 63 = true) := by decide +kernel

theorem wit_segment_start :
    (let s := { onTile 0 0x10 1 (cmdOf 13) none with tiles := serving.tiles }
     Sound s ∧ instOf s 5 = some (listWith 0x10 1 (cmdOf 13)) ∧ s.diag.panic = none ∧ (tileOf s 0).seg = none ∧
       nextOn s 0 = some (0x10, 5, 0)) := by unfold Sound; decide +kernel

/-- Both members of pair 0 at the HALT of a list of FIXED.Q0, the second with a CRC. -/
def pairAtHalt (crc : BitVec 64) : State :=
  let s := onTile 11 0x20 1 (cmdOf 13) (some .point)
  fnAt fFIXED0 .running { s with tiles := s.tiles.set 35 { seg := some segNow, waiting := some .point, crc := crc } }

theorem wit_comparison :
    (∀ b : Bool, let s := pairAtHalt (if b then 1 else 0)
      Sound s ∧ (tileOf s (pairTiles 0).1).seg = some segNow ∧ (tileOf s (pairTiles 0).2).seg = some segNow ∧
        (tileOf s (pairTiles 0).1).waiting = some .point ∧ (tileOf s (pairTiles 0).2).waiting = some .point ∧
        (instOf s 5).isSome = true ∧ opcOf (cmdOf 13) = 0x0D ∧
        ((tileOf s (pairTiles 0).1).crc = (tileOf s (pairTiles 0).2).crc ↔ b = false)) ∧
    assayerSlow (pairAtHalt 0) = false ∧ segNow.used + 0 < segNow.budget ∧
    (listWith 0x20 1 (cmdOf 13)).queue = fFIXED0 ∧ fnState (pairAtHalt 1) fFIXED0 = .running := by unfold Sound; decide +kernel

theorem wit_remote :
    (let s := onTile 0 0x10 1 (cmdOf 12) (some (.remote (cmdOf 12)))
     (tileOf s 0).waiting = some (.remote (cmdOf 12)) ∧ opcOf (cmdOf 12) = 0x0C ∧ opcOf (cmdOf 11) = 0x0B ∧ Sound s ∧
       ((instOf s 5).bind (·.run)).isSome = true) ∧
    (let s := onTile 0 0x10 1 (cmdOf 12) none
     fnRunning { s with funcs := (fnAt fROPE .running serving).funcs } fROPE = true ∧ fnRunning s fROPE = false) ∧
    (let s := { fnAt fROPE .running serving with
        clerk := { serving.clerk with ropeRole := 3 }, rope := { serving.rope with cfg := { winPages := 1, remoteWr := true } } }
     onRope s = true ∧ s.clerk.ropeRole ≠ 1 ∧ inWindow s 4032 64 = true ∧ s.rope.cfg.remoteWr = true ∧ inWindow s 4096 64 = false ∧
       damagedIn (seeAs (.member 0) s) (s.rope.cfg.winBase + 4032) 64 = none) := by
  unfold Sound; decide +kernel

theorem wit_aborts :
    (let s := onTile 0 0x10 1 (cmdOf 13) none
     Sound s ∧ tileFixed 0 = false ∧ (tileOf s 0).seg = some segNow ∧ tileLive s 0 = true ∧
       ((instOf s 5).bind (·.run)).isSome = true) := by unfold Sound; decide +kernel

/-! ### Lists, packages, buckets -/

/-- A list of one segment with a HALT on tile 0 of cistern 0, for queue 1. -/
def image : List Word :=
  [0x01004001, 1, 0, 1] ++ List.replicate 12 0 ++ ([1, 1, 1000] ++ List.replicate 13 0) ++ ([0x0D000000] ++ List.replicate 15 0)

theorem wit_list_submit :
    (let s := fnAt 0x11 .stopped serving
     let l := { instFrom (nextId s) 0 none image with from_ := s.clk.stroke + 1 }
     image.length = 48 ∧ headerCheck 192 image = none ∧ queueCheck s (headerOf image).fid = none ∧ policyFlag s 1 = false ∧
       bodyCheck s 0 [] image = none ∧ (submitShort s l).any = false ∧ Ready s ∧ fld ((onOne [0, 0, 0, 192]).w 2) 1 31 = 0) ∧
    (onOne [0, 0, 0, 192]).w 5 = 192 := by unfold Ready; decide +kernel

theorem wit_list_commands :
    (let s := { serving with lists := { serving.lists with inst := [{ listWith 0x11 1 [] with run := none }] } }
     (instOf s 5).isSome = true ∧ Ready s ∧ (s.lists.inst.all fun x => decide (x.fallback ≠ 5)) = true ∧
       fld ((onOne [5]).w 2) 16 16 = 0 ∧ fnRunning s 0x11 = false) ∧
    (let s := fnAt 0x11 .running { serving with lists := { serving.lists with inst := [listWith 0x11 1 []] } }
     ((instOf s 5).bind (·.run)).isSome = true ∧ fnRunning s 0x11 = true ∧ queueNo 0x11 ≠ 0) ∧
    fld ((onOne [4]).w 2) 3 29 = 0 ∧ fld ((onOne [4]).w 2) 0 3 ≤ 4 := by unfold Ready; decide +kernel

/-- MODEL_LOAD of built-in package 1. -/
def loadOne : Req := onOne [0x00000102, 0, 0, 0]

/-- The queues of FIXED and the estimator's queue STOPPED. -/
def fixedStopped : State :=
  fnAt 0x1A .stopped <| fnAt 0x20 .stopped (fnAt 0x21 .stopped (fnAt 0x22 .stopped (fnAt 0x23 .stopped (gated serving))))

theorem wit_model_load :
    modelLoadBad loadOne = none ∧ fld (loadOne.w 2) 0 2 = 2 ∧ Ready fixedStopped ∧
    (let p := builtinPkg 1 0
     pkgQueues fixedStopped p.lists = none ∧ pkgPresent fixedStopped p = none ∧
       claimConflict fixedStopped fFIXED0 (p.lists.flatMap fun l => l.setsFlags.map (0x400 + ·)) = none ∧
       (pkgShort fixedStopped p []).any = false) := by unfold Ready; decide +kernel

/-- A package without lists. -/
def withPkg : State := { serving with pipe := { serving.pipe with pkgs := [{ (default : Pkg) with modelId := 9 }] } }

theorem wit_model_commands :
    Ready withPkg ∧ modelUnloadBad withPkg (onOne [9]) = none ∧ (pkgOf withPkg (fld ((onOne [9]).w 2) 0 16)).isSome = true ∧
    fld ((onOne [9]).w 2) 16 16 = 0 ∧ (((pkgOf withPkg 9).map (·.listIds)).getD [1]).filterMap (instOf withPkg) = [] := by
  unfold Ready; decide +kernel

/-- A place exists wherever the counted places are not zero. -/
theorem placeAt_isSome (unit size : Nat) (k : Nat) (fs : List Span) (h : k < (fs.map (places unit size)).sum) :
    ∃ a, placeAt unit size k fs = some a := by
  induction fs generalizing k with
  | nil => simp at h
  | cons f t ih =>
    unfold placeAt
    split
    · exact ⟨_, rfl⟩
    · rename_i hk
      refine ih _ ?_
      simp only [List.map_cons, List.sum_cons] at h
      omega

theorem wit_buckets :
    (∃ a, placeIn 4096 (bucketBytes 0x00 10) (some serving.free) (freeAligned 4096 poolLo poolHi (poolUsed serving)) = some a) ∧
    (let w : Word := 0x00010A00
     bucketSetBad serving (onOne [w]) = none ∧ fld w 8 5 = 10 ∧ fld w 0 8 = 0x00 ∧ fld w 16 12 = 1) ∧
    bucketSetBad serving (onOne [0]) = none ∧ isStream 0 = true ∧ bucketOf serving 0 = none ∧
    (let s := { serving with pipe := { serving.pipe with buckets := [{ (default : Bucket) with stream := 0 }] } }
     (bucketOf s 0).isSome = true ∧ damagedIn (seeAs .clerk s) 0 64 = none) ∧
    (let s := { serving with mem := { serving.mem with damaged := [0x580100000] } }
     (damagedIn (seeAs .clerk s) 0x580100000 64).isSome = true) := by
  refine ⟨?_, by decide +kernel, by decide +kernel, by decide +kernel, by decide +kernel, by decide +kernel, by decide +kernel⟩
  have h : ((freeAligned 4096 poolLo poolHi (poolUsed serving)).map (places 4096 (bucketBytes 0x00 10))).sum ≠ 0 := by decide +kernel
  unfold placeIn
  rw [if_neg h]
  exact placeAt_isSome _ _ _ _ (Nat.mod_lt _ (Nat.pos_of_ne_zero h))

/-! ### The pipeline and the rope -/

/-- A worker on the rope whose hold has passed. -/
def worker : State := { fnAt fROPE .running serving with
  clerk := { serving.clerk with ropeRole := 3 }, clk := { serving.clk with stroke := 5000 }
  rope := { serving.rope with cfg := { ropeId := 0, members := 2, lossHold := 2000 } } }

/-- The active head of a rope of two members, with a frame out on both ropes. -/
def head : State := { fnAt fROPE .running serving with
  clerk := { serving.clerk with ropeRole := 2 }, pair := { serving.pair with active := true }
  rope := { serving.rope with
    cfg := { members := 2 }, landed := some 3, flight := [{ stroke := 3, outA := true, outB := true, landed := false }] } }

/-- A frame header of stroke 3 from member 0 of a rope of two members. -/
def frame3 : RopeLine := { words := [0xA5000000, 3, 0, 0, 0x00020002, 5000, 0] ++ List.replicate 9 0, crcOk := true }

theorem wit_pipeline :
    (let s := { fnAt fFIXED0 .running serving with clerk := { serving.clerk with ropeRole := 1 } }
     Ready s ∧ fnState s fFIXED0 = .running ∧ standaloneStandby s = false ∧ fnState serving fFIXED0 = .off) ∧
    (headsRope { head with funcs := (fnAt fFIXED0 .running head).funcs } = true ∧ fnState (fnAt fFIXED0 .running head) fFIXED0 = .running) ∧
    ((onOne [0, 16000000, 0, 0]).w 3).toInt ≤ 16000000 ∧ ((onOne [2, 0, 0, 0]).w 3).toInt = 0 ∧ fld ((onOne [2, 0, 0, 0]).w 2) 2 30 = 0 ∧
    (let s := { fnAt fFIXED0 .running (fnAt fPAIR .running serving) with clerk := { serving.clerk with ropeRole := 1 } }
     standaloneStandby s = true ∧ ({ s with pair := { s.pair with silentRope := false } } : State).pair.silentRope = false) ∧
    ((onOne [16000000, 0]).w 2).toNat ≤ 16000000 ∧ (onOne [0xFFFFFFFF, 0]).w 2 = 0xFFFFFFFF ∧
    16000000 < ((onOne [16000001, 0]).w 2).toNat ∧ (onOne [16000001, 0]).w 2 ≠ 0xFFFFFFFF ∧
    (let r := onOne ([0x01000001, 24, 0, 0] ++ List.replicate 12 0)
     High r 16 ∧ fld (r.w 2) 25 7 = 0 ∧ fld (r.w 2) 16 9 = 256 ∧ fld (r.w 2) 0 16 ≠ 0 ∧ fld (r.w 3) 5 27 = 0 ∧
       fld (r.w 3) 0 5 = 24 ∧ r.w 5 = 0) ∧
    areaDamage (seeAs .clerk serving) aRecord 64 = none ∧
    (areaDamage (seeAs .clerk { serving with mem := { serving.mem with damaged := [aRecord] } }) aRecord 64).isSome = true ∧
    Ready (fnAt 0x11 .stopped fixedStopped) ∧ fnState (fnAt 0x11 .stopped fixedStopped) fFIXED0 = .stopped ∧
    fnState (fnAt 0x11 .stopped fixedStopped) 0x11 = .stopped := by
  unfold Ready High; decide +kernel

theorem wit_rope_commands :
    fnState serving fROPE = .off ∧ fnState (fnAt fROPE .stopped serving) fROPE = .stopped ∧ serving.clk.sscPpm = 0 ∧
    fld ((onOne [3]).w 2) 2 30 = 0 ∧ ropeConfigBad (onOne [1, 0x07FF0800, 1, 0, 25165824, 1000000]) = none ∧
    ropeConfigBad (onOne [1, 2, 0, 0, 0, 1]) = none ∧
    ropeCmisBad serving (onOne [0x80, 128]) = none ∧ cmisReply (gated serving) 128 (.bytes [1]) = .bytes [1] ∧
    ropeCmisBad serving (onOne [0x800000FF, 0x100]) = none ∧ bit ((onOne [0x800000FF, 0x100]).w 2) 31 = true ∧
    cmisReply (gated serving) 128 .noAnswer = .noAnswer ∧
    headsRope head = true ∧ Ready head ∧ ({ head.rope with seen := true } : Rope).seen = true ∧ head.rope.seen = false ∧
    ({ head.rope with arriving := [(3, frame3.words)] } : Rope).arriving.getLast? = some (3, frame3.words) ∧
    damagedIn (seeAs .clerk head) (currentCopy (seeAs .clerk head) (aPublished + 0x40000) (64 * head.rope.landedLines))
      (64 * head.rope.landedLines) = none ∧
    (let r := onOne [0x00150000]
     fld (r.w 2) 0 16 + fld (r.w 2) 16 16 ≤ 19 + head.rope.cfg.members ∧ fld (r.w 2) 16 16 = 21) := by
  unfold Ready; decide +kernel

theorem wit_rope_links :
    serving.rope.ports.length = 4 ∧ serving.rope.starting ≠ .openA ∧
    (let s := portMod 2 (fun y => { y with link := .training }) serving
     (portOf s 2).link = .training ∧ (portOf (portMod 2 (fun y => { y with link := .up }) s) 2).link = .up ∧
       (portOf (portMod 2 (fun y => { y with link := .heldDown }) s) 2).link = .heldDown ∧
       (portMod 2 (fun y => { y with link := .training }) s).rope.ports.length = 4) ∧
    (portOf serving 0).link ≠ .training ∧ (portOf worker 0).asked = false ∧ cmisRuns worker = true ∧ fnState worker fROPE = .running ∧
    (let s := { fnAt fROPE .stopped serving with rope := { serving.rope with starting := .waitFrame } }
     s.rope.starting = .waitFrame ∧ fnState s fROPE = .stopped ∧ Sound s ∧
       ({ s with rope := { s.rope with starting := .openA } } : State).rope.starting = .openA) ∧
    (worker.clerk.ropeRole = 3 ∧ worker.rope.lossExpired = false ∧
      worker.rope.lastSlot.toNat + worker.rope.cfg.lossHold ≤ worker.clk.stroke.toNat) := by unfold Sound; decide +kernel

theorem wit_rope_frames :
    (onRope worker = true ∧ timingHead worker = false ∧ worker.rope.starting = .no ∧ frame3.crcOk = true ∧
      fld (frame3.words.getD 0 0) 24 8 = 0xA5 ∧ hRope frame3.words = worker.rope.cfg.ropeId ∧
      hDiv frame3.words = worker.clk.strokeDiv ∧ hMembers frame3.words = worker.rope.cfg.members ∧
      slotTaken worker [frame3] = false) ∧
    (launches head = true ∧ head.rope.starting = .no ∧ hStroke frame3.words = 3 ∧ hB frame3.words = false ∧
      hRope frame3.words = head.rope.cfg.ropeId ∧ hAddr frame3.words = head.rope.cfg.addr ∧
      (head.rope.flight.find? (fun x => if ropeB? .a then x.outB else x.outA)).isSome = true) := by decide +kernel

/-! ### The converter and its traces -/

/-- STAGE in a state, with a given loop. -/
def stage (f : FState) (x : Stage) : State := { fnAt fSTAGE f serving with stage := x }

/-- A STAGE_CONFIG whose values lie within their bounds, several at an end of them. -/
def stageWords31 : List Word :=
  [0xFFF, 0, 0, 0x3F800000, 0x3F800000, 0x3F800000, 0x3F800000, 0x4E2009C4, 0x06400020, 2000, 0x43FA0000, 0x3F800000, 0xFFFF2710,
   0, 0, 0x447A0000, 0x42C80000, 0x43C80000, 0x42200000, 0x42700000, 0x41A00000, 16000000, 0x42200000, 0x42680000, 0xFFFFFF01,
   0x42C80000, 0x447A0000, 0x2710FF00, 50000, 0x3F000000, 0x3F800000]

theorem wit_stage_commands :
    (stageConfigBad (onZero stageWords31) = none ∧ Low (onZero stageWords31) 31 ∧ fnState (stage .stopped {}) fSTAGE = .stopped ∧
      Ready (stage .stopped {})) ∧
    (let w : Word := 0x447A0000
     fIn 0x3F800000 0 1 = true ∧ fIn 0 0 1 = true ∧ fIn w 0 1000 = true) ∧
    (fnState (stage .running { loop := .open_ }) fSTAGE = .running ∧ Low (onZero []) 0 ∧ Ready (stage .running { loop := .open_ })) ∧
    (let s := { stage .running { loop := .closed } with pair := { serving.pair with gnt := true, pstate := .active } }
     s.stage.modeV = false ∧ authority s = true ∧ stageModeBad s (onZero [0, 0]) = none ∧ stageModeBad s (onZero [2, 0]) = none) ∧
    coefsOk { kpI := 0x3F800000, kiI := 0x3F800000, kiS := 0, kpV := 0x3F800000, kiV := 0 } = true ∧
    authority (stage .running {}) = false ∧ (stage .running { modeV := true }).stage.modeV = true ∧
    fnState (stage .faulted {}) fSTAGE = .faulted := by unfold Low Ready; decide +kernel

theorem wit_traces :
    (gated serving).traces.length = 2 ∧ traceArmBad (gated serving) (onZero [0x0100, 0, 0]) = none ∧
    traceArmBad (gated serving) (onZero [0x1000FF00, 16384, 0]) = none ∧ fld ((onZero [1]).w 2) 1 31 = 0 ∧
    (let s := { gated serving with traces := [{ st := .armed, pre := 4, count := 4 }, { st := .triggered, left := 0 }] }
     (traceOf s 0).st = .armed ∧ (traceOf s 0).pre ≤ (traceOf s 0).count ∧ (traceOf s 1).st = .triggered ∧
       (traceOf s 1).left = 0 ∧ traceOn s 0 = true ∧ traceOn s 1 = true ∧ traceFires s (traceOf s 0) = true) ∧
    traceOn serving 1 = false := by decide +kernel

theorem wit_loops :
    (loopClock serving = true ∧ serving.stage.sample < serving.clk.loopDiv ∧ serving.stage.loop = .idle ∧
      serving.stage.ovLatch = false) ∧
    loopClock { serving with power := { serving.power with refLost := true } } = false ∧
    (let s := stage .running { loop := .softStart, ssOring := true }
     loopClock s = true ∧ s.stage.loop = .softStart ∧ s.stage.ssOring = true ∧ (stage .running { loop := .softStart }).stage.ssOring = false ∧
       (stage .running { loop := .retryWait }).stage.loop = .retryWait) ∧
    (let s := stage .running { loop := .closed, modeV := true, modeSel := 0, zeroRun := 100000000 }
     s.stage.modeV = true ∧ s.stage.modeSel = 0 ∧ gridIn s = false ∧
       s.stage.cfg.modeExitMs * 100000 ≤ s.stage.zeroRun * sampleTicks s) ∧
    (let s := stage .running { loop := .closed }
     s.stage.refStarved = false ∧ refAt s (nextSample s) = .none) ∧
    (let s := stage .running { loop := .opening }
     (f32 s.stage.iApp).isZero = true ∧ s.stage.stopAfterOpen = false) ∧
    (let s := stage .running { parked := false, uvPending := true, cfg := { finAct := 0x3000, uvEn := true, phaseEn := 0x800 } }
     s.stage.parked = false ∧ s.stage.cfg.phaseEn.getLsbD 11 = true ∧ s.stage.cfg.uvEn = true ∧ s.stage.uvPending = true ∧
       finAction s.stage.cfg 3 = 3 ∧ finAction s.stage.cfg 2 = 0 ∧ s.power.life = .up ∧ Sound s) := by unfold Sound; decide +kernel

/-! ### The stack chains -/

/-- Chain A in a state, with the grant. -/
def chain (f : FState) (x : Chain) : State :=
  { fnAt fCHAINA f serving with chainA := x, pair := { serving.pair with gnt := true } }

/-- A frame with its CRC. -/
def frameOf (cmd addr : Byte) (payload : List Byte) : List Byte :=
  let b := cmd :: addr :: BitVec.ofNat 8 payload.length :: payload
  b ++ [(chainCrc b).setWidth 8, (chainCrc b >>> 8).setWidth 8]

theorem wit_chain_commands :
    (chainConfigBad (onOne ([0x00010140, 0x27100400, 0] ++ List.replicate 18 0)) = none ∧
      chainConfigBad (onOne ([0xFFFFFF02, 1, 0] ++ List.replicate 18 0)) = none ∧ fnState (chain .stopped {}) fCHAINA = .stopped ∧
      reqChain (onOne [0]) = false ∧ chainFn false = fCHAINA) ∧
    (chainBalBad (chain .running { cfg := { nMon := 1, cellUse := List.replicate 32 0xFFFF } })
      (onOne ([0x0E100000, 0x8001] ++ List.replicate 15 0)) = none) ∧ High (onOne (0 :: List.replicate 16 0)) 17 ∧
    (let w : Word := 0x00011F00
     w &&& 0xFFC0E0FE = 0 ∧ 1 ≤ fld w 16 6 ∧ fld w 8 5 + fld w 16 6 ≤ 32 ∧
       (chainOf (chain .running { last := some default }) false).last = some default ∧ (chainOf (chain .running {}) false).last = none) ∧
    fld ((onOne [1]).w 2) 1 31 = 0 := by unfold High; decide +kernel

theorem wit_chain_events :
    (let s := fnAt fCHAINA .running serving
     fnState s (chainFn (chainB? .a)) = .running ∧ chTransmits s (chainB? .a) = false ∧ chainFrame [] = none) ∧
    (let s := chain .running { phase := .reading 31 .lo false, cfg := { nMon := 32 } }
     let bs := frameOf 0x85 31 (List.replicate 44 0)
     chTransmits s false = true ∧ chainDrifts s = false ∧ (chainOf s false).phase = .reading 31 .lo false ∧
       (chainFrame bs).any (fun f => decide (f.cmd = 0x85 ∧ f.addr = 31 ∧ f.num 0 1 = (chainOf s false).sweepId.toNat)) = true) ∧
    (fnState serving fCHAINA ≠ .running ∧ chStarting serving false = false) ∧
    (let s := chain .running { phase := .settle, found := [0, 1], cfg := { nMon := 2 } }
     chTransmits s false = true ∧ (chainOf s false).phase = .settle ∧ (chainOf s false).gapAt = none ∧
       (sweepPos (chainOf s false)).head? = some 0) ∧
    ((chain .running { phase := .enumLo }).chainA.phase = .enumLo ∧ (chain .running { phase := .configLo }).chainA.phase = .configLo ∧
      (chain .running { phase := .balLo }).chainA.phase = .balLo ∧ (chain .running { holdS := 1 }).chainA.holdS ≠ 0 ∧
      chTransmits (chain .running { phase := .enumLo }) false = true ∧ chTransmits (chain .running { phase := .balLo }) false = true) ∧
    (let s := chain .running { phase := .stopBal }
     (chainOf s false).phase = .stopBal ∧ chTransmits s false = true ∧ fnState s fCHAINA = .running ∧ Sound s) := by
  unfold Sound; decide +kernel

/-! ### The estimator, temperatures, the ledger -/

/-- An EST_CONFIG with its values at an end of their ranges. -/
def estConfig20 : Req :=
  onOne ([1, 0x00000060] ++ List.replicate 7 0 ++ [0x44228000, 0x41A00000, 0x3F000000, 0, 0, 0x80008000, 0x0E101C20, 0x00018000,
    0x43FA0000, 0x43FA0000, 0x80000001])

/-- An EST_MODEL: temperatures, four rising tables, positive resistances and time constants. -/
def estModel156 : Req :=
  onOne ([0xC2200000, 0, 0x41C80000, 0x42A00000] ++
    (List.range 4).flatMap (fun _ => (List.range 33).map fun i => w32 (0x3F800000 + i * 0x80000)) ++ List.replicate 20 0x3F800000)

/-- The estimator in a state. -/
def est (f : FState) (x : Est) : State := { fnAt fEST f serving with est := x }

theorem wit_estimator_commands :
    (High estConfig20 20 ∧ estConfigBad estConfig20 = none ∧ fnState (est .stopped {}) fEST = .stopped ∧ Ready (est .stopped {})) ∧
    (High estModel156 156 ∧ estModelBad estModel156 = none) ∧
    (let w : Word := 0x03FF0001
     w &&& 0xFC00FE00 = 0 ∧ fld w 0 9 ≠ 0 ∧ fld w 16 10 + fld w 0 9 = 1024) ∧
    areaDamage (seeAs .clerk serving) aEstArea 448 = none ∧
    (areaDamage (seeAs .clerk { serving with mem := { serving.mem with damaged := [aEstArea] } }) aEstArea 448).isSome = true ∧
    (let s := { est .running { init_ := false } with pair := { serving.pair with active := true } }
     Ready s ∧ fnState s fEST = .running ∧ estAnchorBad s = none) := by unfold High Ready; decide +kernel

theorem wit_estimator_events :
    (let s := est .running {}
     Sound s ∧ fnState s fEST = .running ∧ s.est.writing = none ∧ s.est.duCap = false ∧ s.est.anchor = false ∧ norStop s = false ∧
       norStop { s with power := { s.power with feedA := false, feedB := false } } = true) ∧
    fnState serving fEST ≠ .running ∧
    (let s := est .running { writing := some { kind := 0, phase := .erasing, retry := false } }
     s.est.writing = some { kind := 0, phase := .erasing, retry := false } ∧ holdupGood s = false) ∧
    (let s := { est .running { writing := some { kind := 1, phase := .waiting, retry := true } } with power := { serving.power with charged := true } }
     s.est.writing = some { kind := 1, phase := .waiting, retry := true } ∧ holdupGood s = true ∧ Sound s) ∧
    ((est .running { writing := some { kind := 0, phase := .waiting, retry := false } }).est.writing.map (·.retry)) = some false ∧
    (est .running { anchor := true }).est.anchor = true ∧
    (let s := { est .running {} with clk := { serving.clk with stroke := 256 } }
     s.est.lastCommit.toNat + 256 ≤ now s) := by unfold Sound; decide +kernel

theorem wit_thermal :
    (let w : Word := 0x00007911
     w &&& 0xFFFF00E8 = 0 ∧ fld w 9 7 = 60 ∧ fld w 0 3 ≠ 0 ∧ serving.clk.nocSel ≠ 1) ∧ fld (0x0000C807 : Word) 9 7 = 100 ∧
    serving.therm.conv.length = 5 ∧ serving.clk.plls.length = 17 ∧ serving.clk.domains.length = 18 ∧ serving.power.life = .up ∧
    ({ serving with power := { serving.power with life := .inReset } } : State).power.life ≠ .up ∧ serving.therm.shutdown = none ∧
    (let s := { serving with therm := { serving.therm with conv := serving.therm.conv.set 4 [some 1840, some 1840, some 1840] } }
     (match execTemperatureConversion 4 (some 1840) s with
      | .next t => decide (1840 ≤ dieTemp t 4)
      | _ => false) = true) ∧
    (match execTemperatureConversion 0 (some 0) serving with
      | .next t => decide (dieTemp t 0 < 1840)
      | _ => false) = true ∧
    (let s := { serving with therm := { serving.therm with conv := List.replicate 5 [some 1600, some 1600, some 1600], coolFor := none } }
     decide (16 * ((thermCfg s.therm).1 : Int) ≤ hotDie s) = true) ∧
    decide (hotDie serving < 16 * ((thermCfg serving.therm).1 : Int)) = true ∧ serving.boot.recovery = false ∧
    (let s := { serving with therm := { serving.therm with moving := some (3, 0), railsUp := false, switched := true } }
     s.therm.moving = some (3, 0) ∧ s.therm.railsUp = false ∧ s.therm.switched = true) ∧
    (let s := { serving with clk := { serving.clk with plls := serving.clk.plls.set 0 { started := true, locked := false } } }
     (s.clk.plls.getD 0 {}).started = true ∧ (s.clk.plls.getD 0 {}).locked = false ∧ s.clk.plls.length = 17) ∧
    (let s := { serving with clk := { serving.clk with domains := serving.clk.domains.set 17 { divider := 4, target := 9, switching := true } } }
     (s.clk.domains.getD 17 {}).divider < (s.clk.domains.getD 17 {}).target ∧ s.clk.domains.length = 18) ∧
    (let s := { serving with clk := { serving.clk with domains := serving.clk.domains.set 0 { divider := 4, target := 4, switching := true } } }
     (s.clk.domains.getD 0 {}).divider = (s.clk.domains.getD 0 {}).target ∧ (s.clk.domains.getD 0 {}).switching = true) := by
  decide +kernel

/-- LEDGER_TAG entries of a descriptor: the highest output, from the next stroke on. -/
def tagWords : List Word := (List.range 4).flatMap fun _ => [0x800000, 5, 0, 0]

theorem wit_ledger :
    (let s := fnAt fLEDGER .running serving
     let e : TagEntry := { mask := 0x800000, job := 5, at_ := 0, zero := 0 }
     Ready s ∧ fnState s fLEDGER = .running ∧ isStandby s = false ∧ tagEntryBad e 3 4 5 = none ∧ tagShort s [e] = none ∧
       descRead 0x40 64 3 (.words tagWords) = .ok tagWords ∧
       (tagEntries tagWords).findSome? (fun e => tagEntryBad e 3 4 5) = none ∧ tagShort s (tagEntries tagWords) = none) ∧
    (let s := { fnAt fLEDGER .running serving with
        ledger := { serving.ledger with cells := [{ job := 5, out := 23 }], jobs := [5] } }
     jobKnown s 5 = true ∧ ledgerCloseBad s 5 = none ∧ isReserved 5 = false ∧ fnState s fLEDGER ≠ .off) ∧
    (let s := { serving with ledger := { serving.ledger with energy := [{ (default : JobEnergy) with job := 0 }, { (default : JobEnergy) with job := 9 }] } }
     (s.ledger.energy.find? (fun e => e.job = 0)).isSome = true ∧ (s.ledger.energy.find? (fun e => e.job = 9)).isSome = true) ∧
    (loopClock serving = true ∧ serving.ledger.convTick < serving.clk.strokeDiv ∧
      loopClock { serving with power := { serving.power with refLost := true } } = false) := by unfold Ready; decide +kernel

/-! ### Pairing -/

/-- PAIR in a state, with its rope. -/
def pair (f : FState) (x : Pair) : State :=
  { fnAt fROPE .running (fnAt fPAIR f (gated serving)) with pair := x, clerk := { serving.clerk with ropeRole := 1 } }

theorem wit_pair_commands :
    (let r := onZero [0x0001_2001, 1, 1000000, 1000000]
     Low r 4 ∧ fld (r.w 2) 7 5 = 0 ∧ fld (r.w 2) 16 16 = 1 ∧ fld (r.w 2) 12 4 = 2 ∧ fld (r.w 2) 0 7 = 1 ∧ fld (r.w 3) 1 31 = 0 ∧
       (r.w 4).toNat = 1000000 ∧ (r.w 5).toNat = 1000000) ∧
    (let r := onZero [0x03E8_F040, 0, 1, 0]
     fld (r.w 2) 16 16 = 1000 ∧ fld (r.w 2) 0 7 = 64 ∧ (r.w 4).toNat = 1) ∧
    fnState (pair .stopped {}) fPAIR = .stopped ∧ Ready (pair .stopped {}) ∧
    pairHandoverBad (pair .running { pstate := .active, active := true, beat := some [0xB7000800, 0, 0, 0], beatAge := 0 }) = none := by
  unfold Low Ready; decide +kernel

theorem wit_pair_events :
    (pair .running { gnt := true }).pair.gnt = true ∧ (pair .running {}).pair.gnt = false ∧
    (let s := pair .running {}
     pathOpen s .hb = true ∧ pathOpen s .rope = true ∧ beatOk s .hb [0xB7000000, 0, 0, 0] true = true ∧
       beatOk s .rope [0xB7000000, 0, w32 (partnerAddr s), 0] true = true ∧ beatOk s .hb [] false = false ∧
       pathOpen serving .rope = false ∧ s.power.life = .up) ∧
    (let s := pair .running { sinceRope := some 64, cfg := { hbMiss := 4, hbPeriod := 16 } }
     missLimit s = 64 ∧ missLimit s ≤ 64 ∧ 63 < missLimit s) ∧
    (2 ≤ (pair .running { noToken := 2 }).pair.noToken ∧ (pair .running { noToken := 1 }).pair.noToken < 2) ∧
    (let s := { pair .running { handover := .released true 0 0, pstate := .releasing } with clk := { serving.clk with stroke := 3 } }
     3 ≤ (s.clk.stroke - 0).toNat ∧ shows s (fun b => decide (bPstate b = 1 ∨ bPstate b = 2)) = false ∧ vetoed s = false ∧
       (s.clk.stroke - 1).toNat < 3) := by decide +kernel

theorem wit_mirror :
    (let s := pair .running {}
     onRope s = true ∧ mirrorTaker s = true ∧ s.pair.sync = false ∧ ({ s.pair with silentRope := false } : Pair).silentRope = false ∧
       s.power.life = .up) ∧
    mirrorTaker (pair .running { silentRope := false }) = true ∧ (pair .running { active := true }).pair.active = true ∧
    onRope serving = false ∧ (pair .running { sync := true }).pair.sync = true ∧
    (let s := { serving with link := { serving.link with hostLoss := true } }
     s.link.hostLoss = true ∧ s.link.holdExpired = false ∧ s.link.holdLeft = 0) := by decide +kernel

/-! ### Boot, firmware, attestation, diagnostics -/

/-- A boot on which nothing fails. -/
def goodBoot : BootEnv := { wellTrained := true, identityOk := true, bridgesFailed := [false, false, false] }

/-- Reset with the clocks locked and the boot watchdog running, and the same with an image of which a section does not hold. -/
def bootable : State := { State.reset with clk := serving.clk, boot := { State.reset.boot with watchdog := true } }

/-- The root key of the factory image. -/
def root : List Byte := rootKey (manifestOf factoryImage)

/-- A signed image with a second section, of KIND 1, whose DIGEST is zero. -/
def tornImage : List Word :=
  (factoryManifest.take 44).set 1 0x01000002 |>.set 4 4224 |> (· ++ [4160, 64, 1, 0] ++ List.replicate (16 + 912) 0 ++
    (factoryManifest.drop 976).take 32 ++ factoryWords 16 0x339b6c87dd44d1ac360cefadaf5e20f4842e625a7787f91385b95c3bcb8d32e22106faa435a45c0b6ba2116665b9a87263258349993c44169e355c3a1ec090d ++
    List.replicate 32 0)

theorem wit_boot_torn :
    (let x : Slot := { Slot.factory with image := tornImage }
     bootPick { bootable with boot := { bootable.boot with slotA := x } } = some false) ∧
    (List.range (imgSects tornImage)).all (sectOk tornImage) = false ∧ copyPick root [] [] = none := by decide +kernel

theorem wit_boot_pick : bootPick bootable = some false := by decide +kernel

theorem wit_boot :
    (bootable.power.life = .up ∧ bootable.power.feedA = true ∧ bootClocks bootable = true ∧ bootable.clerk.bootStage = 0 ∧
      bootable.boot.watchdog = true ∧ bootable.clerk.mbOpen = false ∧ bootable.boot.resetReq = false ∧
      bootClocks State.reset = false ∧ serving.clerk.bootStage ≠ 0) ∧
    (let x : Slot := { Slot.factory with stateByte := 0xFF }
     bootPick { State.reset with boot := { slotA := x, slotB := x } } = none) ∧
    ((keepsWell State.reset.clerk.resetCause.toNat || goodBoot.wellTrained) = true ∧
      (List.range (imgSects factoryImage)).all (sectOk factoryImage) = true ∧
      copyPick root factoryTrim factoryTrim = some 0 ∧ (copyPick root factoryCerts factoryCerts).isSome = true ∧
      (copyPick root factoryHelper factoryHelper).isSome = true ∧ trimBounds bootable.boot.trim0.values = true ∧
      (bootable.mem.bridges.getD 2 { enabled := false }).enabled = true ∧ goodBoot.bridgesFailed.getD 2 false = false) ∧
    (keepsWell State.reset.clerk.resetCause.toNat || ({ goodBoot with wellTrained := false } : BootEnv).wellTrained) = false ∧
    sectOk (factoryManifest ++ List.replicate 16 1) 0 = false ∧
    trimBounds { bootable.boot.trim0.values with serial := 0 } = false := by decide +kernel

/-- A module that runs image A, with slots as given. -/
def slots (a b : BitVec 8) : State :=
  { serving with boot := { slotA := { Slot.factory with stateByte := a }, slotB := { Slot.factory with stateByte := b } } }

theorem wit_firmware :
    (let r := onOne [0, 0x40, 0, 4160]
     let s := slots 0xE7 0xFF
     fwWriteBad s r (fwImage s r ⟨factoryImage⟩) = none ∧ High r 4 ∧ bit (r.w 2) 0 = false ∧ Ready s ∧
       (!s.boot.imageB && slotConfirmed s.boot.slotA && !slotsEqual s) = true) ∧
    (let s := slots 0xE7 0xE7
     (!s.boot.imageB && slotConfirmed s.boot.slotA && !slotsEqual s) = false ∧
       (slotConfirmed s.boot.slotA && decide (imgFloor s.boot.slotA.image ≤ rollback s) && slotsEqual s) = true) ∧
    (let s := slots 0xEF 0xE7
     (slotConfirmed s.boot.slotA && decide (imgFloor s.boot.slotA.image ≤ rollback s) && slotsEqual s) = false ∧
       holdupGood s = false ∧ holdupGood { s with power := { s.power with charged := true } } = true ∧ s.boot.imageB = false ∧
       s.boot.writing = none ∧ s.boot.copying = false) ∧
    (let s := { serving with boot := { serving.boot with writing := some default } }
     s.boot.writing = some default ∧ s.boot.copying = false ∧ s.boot.norHeld = false ∧ norStop s = false ∧
       norStop { s with power := { s.power with feedA := false, feedB := false } } = true) ∧
    ({ serving with boot := { serving.boot with copying := true } } : State).boot.copying = true ∧
    (let s := waiting 1 .fwWrite { State.reset with boot := { State.reset.boot with recovery := true, writing := some default } }
     s.power.life = .up ∧ s.boot.recovery = true ∧ waitingMb (fun w => decide (w = .fwWrite)) s = some 1 ∧
       s.boot.norHeld = false ∧ norStop s = false) := by
  unfold High Ready; decide +kernel

/-- A policy without keys for every module, signed with a sample key. -/
def policyWords : List Word :=
  [0x01000000, 1] ++ List.replicate 78 0 ++ factoryWords 8 0xefe7f3861d6686bf21fd871eaedb6c3628f9ea4566b97471010aab916bc5e300 ++
  [5] ++ List.replicate 23 0 ++ factoryWords 16
    0x4dbf3fb308024aa23e0d63372ef6eb2151adac34426acb17eb84c7ff6d95a7e46852bb4f6c7cf6dbf5a8a7e2dce59a1d1ed8b457503ebfa1d106b6084ffee0c

theorem wit_policy : policyBad serving policyWords = none := by decide +kernel

/-- A write of that record, which waits for HOLDUP_GOOD. -/
def policyWrite : State :=
  waiting 2 (.policySet policyWords) { serving with
    power := { serving.power with charged := true }
    est := { serving.est with writing := some { kind := 2, phase := .waiting, retry := false, policy := policyWords } } }

theorem wit_policy_write :
    holdupGood policyWrite = true ∧ waitingMb (fun x => decide (x = .policySet policyWords)) policyWrite = some 2 ∧
    (policyWrite.est.writing.map (·.kind)) = some 2 ∧ serving.est.writing = none ∧ norStop serving = false := by decide +kernel

/-- RFC 8032 section 7.1, test 2, verifies, and not for another message. -/
theorem test_ed25519 :
    ed25519 (factoryBytes 32 0xc66f42af155cdc08c96c42ecf2c989cbc7e1b4da70ab7925a8943e8c317403d) [0x72]
      (factoryBytes 64 0xcbb1216290db0ee2a30b4ae2e7b388c1df1d013368f456e99153ee4c15a08da69dbeb232276b38f3f5016547bb2a24025645f0b820e72b8cad4f0a909a092) = true ∧
    ed25519 (factoryBytes 32 0xc66f42af155cdc08c96c42ecf2c989cbc7e1b4da70ab7925a8943e8c317403d) [0x73]
      (factoryBytes 64 0xcbb1216290db0ee2a30b4ae2e7b388c1df1d013368f456e99153ee4c15a08da69dbeb232276b38f3f5016547bb2a24025645f0b820e72b8cad4f0a909a092) = false := by decide +kernel

/-- FIPS 180-4: the digest of "abc". -/
theorem test_sha512 : sha512 [0x61, 0x62, 0x63] =
    factoryBytes 64 0x9fa44ca54fc99a2a0ee83c6423444d45bdebfea3233cba36a8c14f272a9992219ad3554be6ee9e0aa27ea9894efae612314120ae497341ccba7a6193a135afdd := by decide +kernel

theorem wit_attestation :
    serving.boot.identityBad = false ∧ ({ serving with boot := { serving.boot with identityBad := true } } : State).boot.identityBad = true ∧
    (let s := { serving with boot := { serving.boot with mlog := List.replicate 43 [], certs := List.replicate 9 0 } }
     let w : Word := 0x002A0001
     fld w 22 10 = 0 ∧ fld w 16 6 = 42 ∧ fld w 0 16 + fld w 16 6 ≤ s.boot.mlog.length ∧ 4 * fld (2 : Word) 0 13 < s.boot.certs.length) ∧
    descRead 0x40 512 2 (.words policyWords) = .ok policyWords ∧
    (holdupGood (waiting 2 .fwCommit serving) = false ∧ waitingMb (fun w => decide (w = .fwCommit)) (waiting 2 .fwCommit serving) = some 2) ∧
    holdupGood { serving with power := { serving.power with charged := true } } = true := by decide +kernel

theorem wit_diagnostics :
    (let s := { serving with clerk := { serving.clerk with dumpValid := true } }
     let r := onOne [0x0FFFFFFC, 1]
     High r 2 ∧ (r.w 2).toNat % 4 = 0 ∧ fld (r.w 3) 10 22 = 0 ∧ fld (r.w 3) 0 10 = 1 ∧
       (r.w 2).toNat + 4 * fld (r.w 3) 0 10 = 0x10000000 ∧ s.clerk.dumpValid = true ∧
       (clerkRead s (aDump + (r.w 2).toNat) (4 * fld (r.w 3) 0 10)).isNone = true) ∧
    (let e := summaryWords serving 1 0 0 0 0 0
     let s := { serving with diag := { serving.diag with summaries := [e] } }
     (validSummaries s)[fld ((onOne [0]).w 2) 0 11]? = some e ∧ fld ((onOne [0]).w 2) 11 21 = 0) ∧
    ([1, 2, 6, 7] : List Nat).all (fun g => (counterGroup (rung 0x0C04 [] (onOne [w32 g]) serving).diag g).isSome) = true ∧
    fld ((onOne [0x80000006]).w 2) 8 23 = 0 ∧ bit ((onOne [0x80000006]).w 2) 31 = true ∧
    fld ((onOne [0x7F]).w 2) 7 25 = 0 ∧ (∀ c ∈ serving.claims, c.2 ≠ oSelftest) ∧
    (let r := onOne [0x80010000, 0x40000000, 0]
     let s := { serving with boot := { serving.boot with policy := some [4] } }
     rawWrite r = true ∧ High r (2 + rawCount r) ∧ policyFlag s 2 = true ∧ Ready s) ∧
    (let r := onOne [0x00010018, 0x40000000]
     rawWrite r = false ∧ rawSpace r = 0 ∧ rawCount r ≠ 0 ∧ rawBad serving r = none ∧
       (clerkRead serving (rawAddr r) (4 * rawCount r)).isNone = true) ∧
    (let r := onOne [0x81010000, 17, 255]
     rawWrite r = true ∧ High r (2 + rawCount r) ∧ policyFlag serving 2 = false ∧ fld (r.w 2) 26 5 = 0 ∧ rawSpace r = 1 ∧
       rawCount r ≠ 0 ∧ rawBad serving r = none ∧ bit (r.w 3) 8 = false) := by unfold High Ready; decide +kernel

theorem wit_errors :
    (serving.mem.bridges.getD 2 { enabled := false }).enabled = true ∧
    (({ serving with mem := { serving.mem with bridges := [] } } : State).mem.bridges.getD 2 { enabled := false }).enabled = false ∧
    isSram 0x8000000000 = true ∧ isSram (aLocal 47 + 0x3FFFFF) = true ∧ isSram aHost = false ∧
    damagedIn serving aHost 1 = none ∧ inWell aHost = true ∧ inWell 0x8000000000 = false ∧
    (isSram 0x10000000000 = false ∧ inWell 0x10000000000 = false) ∧ serving.diag.panic = none ∧ serving.clerk.mbOpen = true ∧
    ({ serving with mem := { serving.mem with bridges := [] } } : State).mem.bridges.any (·.enabled) = false ∧
    ({ serving with diag := { serving.diag with panic := some default } } : State).diag.panic.isSome = true := by decide +kernel

/-! ### The link, resets, feeds, references, boundaries -/

/-- A committed decoder at 4 GiB. -/
def windowed : State := { serving with link := { serving.link with hdmBase := 0x100000000, hdmCommitted := true } }

theorem wit_link :
    serving.link.up = true ∧ State.reset.link.up = false ∧ configReaches serving = true ∧ serving.link.bme = true ∧
    configReaches State.reset = false ∧
    ({ serving with power := { serving.power with life := .inReset } } : State).power.life ≠ .up ∧ (pumpOf serving 7).inProg = [] ∧ serving.link.d3hot = false ∧ hostReaches serving = true ∧
    (serving.link.hdmCommitted && serving.link.hdmLock) = false ∧
    (({ serving.link with hdmCommitted := true, hdmLock := true } : Link).hdmCommitted &&
      ({ serving.link with hdmCommitted := true, hdmLock := true } : Link).hdmLock) = true ∧
    windowOff serving 0x100000000 = none ∧ windowOff windowed 0x100000000 = some 0 ∧ windowOff windowed 0x8FFFFFFFF = some 0x7FFFFFFFF ∧
    windowOff windowed 0x900000000 = none ∧ windowReads 0 = true ∧ windowReads 0x20000000 = false ∧
    windowWrites 0x40000000 = true ∧ windowWrites 0x3FFFFFFF = false ∧ windowWrites 0x7AFFFFFFF = true ∧ windowWrites 0x7B0000000 = false ∧
    windowed.link.memActive = true ∧ Sound windowed ∧
    (let hpa : BitVec 64 := 0x8AFFFFFC0
     let off := hpa.toNat - windowed.link.hdmBase.toNat
     windowed.power.life = .up ∧ windowed.link.pcieOnly = false ∧ windowed.link.hdmBase.toNat ≤ hpa.toNat ∧
       hpa.toNat < windowed.link.hdmBase.toNat + 0x800000000 ∧ 0x40000000 ≤ off ∧ off + 4 * 16 = 0x7B0000000 ∧
       damagedIn (seeAs .host windowed) (aPublished + off) (4 * 16) = none) := by unfold Sound; decide +kernel

theorem wit_resets :
    (fld (0xC1E40001 : Word) 16 16 = 0xC1E4 ∧ bit (0xC1E40001 : Word) 0 = true ∧ bit (0xC1E40000 : Word) 0 = false ∧
      fld (0xC1E50001 : Word) 16 16 ≠ 0xC1E4) ∧ serving.power.life = .up ∧
    ({ serving with boot := { serving.boot with resetReq := true } } : State).boot.resetReq = true ∧
    serving.pair.vetoes.getLsbD 6 = false ∧ ({ serving.pair with vetoes := 0x40 } : Pair).vetoes.getLsbD 6 = true ∧
    (let s := { serving with power := { serving.power with life := .unpowered, needCold := true, regOff := true } }
     s.power.life ≠ .up ∧ s.power.needCold = true ∧ s.power.feedA = true ∧ s.power.sdLatch = false) ∧
    (let s := { serving with power := { serving.power with life := .inReset, refLost := true, waitCause := 2 } }
     s.power.life = .inReset ∧ s.power.refLost = true ∧ s.power.needCold = false) := by decide +kernel

/-- A module whose hold-up sequence has come to a point, on no feed. -/
def dark (l : FeedLoss) : State :=
  { serving with power := { serving.power with feedA := false, feedB := false, loss := l } }

theorem wit_feeds :
    (feedOk serving false = true ∧ feedOk serving true = true) ∧
    (let s := { serving with power := { serving.power with feedB := false } }
     feedOk s false = true ∧ feedOk s true = false) ∧
    (feedOk (dark .lost) true = false ∧ (dark .none).power.loss = .none ∧ (dark .lost).power.loss = .lost ∧
      (dark .authDropped).power.loss = .authDropped ∧ (dark .released).power.loss = .released ∧
      (dark .released).power.life ≠ .unpowered ∧ (dark .none).power.loss ≠ .lost) ∧
    (serving.power.charged = false ∧ serving.power.feedA = true ∧ serving.power.sdLatch = false) ∧
    (refBest { serving with clk := { serving.clk with qualRefclk := false } } = none ∧ (refBest serving).isSome = true) ∧
    (let s := { serving with therm := { serving.therm with shutdown := some (4, 1840) } }
     s.therm.shutdown = some (4, 1840) ∧ s.therm.sdReleased = false ∧ holdupGood s = false ∧
       holdupGood { s with power := { s.power with charged := true } } = true) := by decide +kernel

theorem wit_references :
    serving.clk.domains.length = 18 ∧
    (let s := { serving with clk := { serving.clk with qualRefclk := false } }
     refQual s .refclk = false ∧ refArrives s .refclk = true) ∧
    refQual serving .refclk = true ∧
    (let s := { fnAt fSTAGE .running serving with clk := { serving.clk with plls := List.replicate 17 { started := true, locked := true } } }
     domWatched s 15 = true ∧ domVetoed 15 = true ∧ (s.clk.domains.getD 15 {}).declared = .none ∧ fnState s fSTAGE = .running ∧ Sound s) ∧
    domWatched serving 0 = false ∧
    (let s := { serving with clk := { serving.clk with domains := serving.clk.domains.set 15 { declared := .stopped } } }
     (s.clk.domains.getD 15 {}).declared ≠ .none) := by unfold Sound; decide +kernel

theorem wit_boundary :
    (serving.clk.plls.getD 0 {}).locked = true ∧ serving.power.life = .up ∧ serving.clerk.bootStage = 5 ∧
    (({} : State).clk.plls.getD 0 {}).locked = false ∧ serving.pipe.marks.length = 24 ∧ gateOn serving 9 = false ∧
    gateOn (gated serving) 10 = true ∧ loopClock (gated serving) = true ∧ (0 : Stroke) = (gated serving).clk.stroke ∧
    (4999 : BitVec 20).toNat < serving.clk.strokeDiv ∧ (4999 : BitVec 20).toNat < serving.clk.strokeLen ∧
    ¬ (5000 : BitVec 20).toNat < serving.clk.strokeDiv ∧ (serving.pipe.marks.getD 23 {}).last = none ∧
    (let s := { gated serving with pipe := { serving.pipe with marks := serving.pipe.marks.set 23 { last := some 10 } } }
     (s.pipe.marks.getD 23 {}).last = some 10 ∧ s.clk.base + (20 : BitVec 20).toNat ≤ 10 + 10 ∧
       10 ≤ s.clk.base + (20 : BitVec 20).toNat + 10 ∧ 10 + 10 < s.clk.base + (21 : BitVec 20).toNat) := by decide +kernel


/-! ### What WellFormed refuses -/

/-- A request with one payload word more than the request area holds. -/
def longReq : Req := { mb := 1, tag := 0, irqEn := false, length := 0, payload := List.replicate 1023 0 }

theorem test_wf_request : (Instr.nop longReq).wf = false ∧ (Instr.unknownOpcode longReq 1).wf = false := by decide +kernel
theorem test_wf_host_read : (Instr.pumpStart (onOne [0]) (.words [1, 2])).wf = false ∧
    (Instr.pumpDescriptorFetch 0 (.words (List.replicate 9 0))).wf = false ∧
    (Instr.policySet (onOne [0]) (.words (List.replicate 16385 0))).wf = false := by decide +kernel
theorem test_wf_cmis : (Instr.ropeCmis (onOne [0]) (.bytes (List.replicate 129 0))).wf = false := by decide +kernel
theorem test_wf_rope_line : (Instr.strokeFrameReceived .a [{ words := [0], crcOk := true }] 0 0).wf = false := by decide +kernel
theorem test_wf_loop_codes : LoopCodes.wf { (default : LoopCodes) with iph := [], iout := List.replicate 24 0 } = false ∧
    LoopCodes.wf { (default : LoopCodes) with iph := List.replicate 12 0, iout := [] } = false := by decide +kernel
theorem test_wf_remote : (Instr.remoteRequest 0 0 ⟨.read 0, .a, 0⟩).wf = false ∧ (Instr.remoteRequest 0 0 ⟨.read 65, .a, 0⟩).wf = false ∧
    (Instr.remoteRequest 0 0 ⟨.write (List.replicate 17 0), .a, 0⟩).wf = false ∧ (Instr.remoteResponse 0 ⟨.data [0], 0, .a, 0⟩).wf = false := by
  decide +kernel
theorem test_wf_mirror : MirrorItem.wf (.stateArea 0 0 0 [0] []) = false ∧ MirrorItem.wf (.estimator [] 0 [none]) = false ∧
    MirrorItem.wf (.ledgerStroke 0 [0] [] [] none) = false ∧ MirrorItem.wf (.ledgerTags [0] []) = false ∧
    MirrorItem.wf (.ledgerTable [{ (default : LedgerMirror) with lineN := [1] }]) = false ∧
    (Instr.mirrorReceived 0 ⟨[.ledgerTags [0] []], 0⟩).wf = false := by decide +kernel
theorem test_wf_image : (Instr.fwWrite (onOne [0]) { words := [0] }).wf = false := by decide +kernel
theorem test_wf_boot : (Instr.boot { goodBoot with bridgesFailed := [true] }).wf = false ∧
    (Instr.boot { goodBoot with bridgesFailed := [false, false, false] }).wf = true := by decide +kernel
theorem test_wf_selftest : (Instr.selftest (onOne [0]) [.passed]).wf = false := by decide +kernel
theorem test_wf_tile_command : (Instr.gemm 0 [0] 0).wf = false ∧ (Instr.halt 0 (cmdOf 13)).wf = true := by decide +kernel
theorem test_wf_conversions : (Instr.ledgerConversion 0 [0] [] false).wf = false ∧
    (Instr.sampleBoundary { (default : LoopCodes) with iph := List.replicate 12 0, iout := List.replicate 24 0 } default []).wf = false := by
  decide +kernel
theorem test_wf_beat : (Instr.beatReceived .hb [0] true).wf = false := by decide +kernel
theorem test_wf_window : (Instr.cxlMemRead 0 0).wf = false ∧ (Instr.cxlMemRead 0 17).wf = false ∧ (Instr.cxlMemWrite 0 []).wf = false ∧
    (Instr.cxlMemWrite 0 (List.replicate 65 none)).wf = false := by decide +kernel
theorem test_wf_chain_frame : (Instr.chainFrameReceived .a .lo (List.replicate 263 0)).wf = false := by decide +kernel

/-! ### Single steps, with results that the manual gives -/

/-- Whether a next state has a property. -/
def after (o : Out) (p : State → Bool) : Bool := match o with
  | .next t => p t
  | _ => false

/-- R122: NOP answers its payload, with the tag of its request and BUSY 0. -/
theorem test_nop : after (step { serving with pending := [.nop (onOne [5, 6])] }) (fun t =>
    let m := t.mbs.getD 1 {}
    decide (m.rsp = [5, 6]) && decide (m.rspTag = 7) && m.busy.isNone && m.done && decide (t.pending = [])) = true := by decide +kernel

/-- R101: STAGE_QUERY is a command of mailbox 0. -/
theorem test_wrong_mailbox : after (exec (.stageQuery (onOne [])) serving) (fun t =>
    decide ((t.mbs.getD 1 {}).status = BitVec.ofNat 8 Code.badCmd.num) && decide ((t.mbs.getD 1 {}).detail = 1)) = true := by
  decide +kernel

/-- R87: an unaligned write is dropped and counted. -/
theorem test_dropped_write : after (exec (.registerWrite .bar0 0x805 9 true) serving) (fun t =>
    decide (t.mbs = serving.mbs) && decide (t.diag.host.getD 0 0 = 1)) = true := by decide +kernel

/-- R92: a wrong KEY does not reset. -/
theorem test_warm_reset_key : after (exec (.warmReset 0x1234_0001) serving) (fun t => t.clerk.mbOpen) = true ∧
    after (exec (.warmReset 0xC1E4_0001) serving) (fun t => !t.clerk.mbOpen && decide (t.clerk.resetCause = 3)) = true := by
  decide +kernel

/-- R141: a partial write stores its enabled byte at the top of the host region's last word and no other. -/
theorem test_window_write : after (exec (.cxlMemWrite 0x8AFFFFFFC [none, none, none, some 0xAB]) windowed) (fun t =>
    decide (t.mem.cells = [(0x1FAFFFFFFF, 0xAB)])) = true := by decide +kernel

/-- R462, R465: a median of 115 °C latches the shutdown. -/
theorem test_shutdown :
    after (exec (.temperatureConversion 1 (some 1840))
      { serving with therm := { serving.therm with conv := serving.therm.conv.set 1 [some 1840, some 0, some 0] } })
      (fun t => decide (t.therm.shutdown = some (1, 1840)) && t.pair.vetoes.getLsbD 7) = true := by decide +kernel

/-- R81: accepted divisions take effect at the boundary, and the count advances. -/
theorem test_boundary : after (exec (.strokeBoundary default) { State.reset with
    clk := { State.reset.clk with plls := List.replicate 17 { started := true, locked := true }, nextDivs := some (2000, 20) } })
    (fun t => decide (t.clk.stroke = 1) && decide (t.clk.strokeDiv = 2000) && decide (t.clk.loopDiv = 20)) = true := by decide +kernel

/-- R198 to R205: binary32 rounds to nearest even, and keeps a subnormal. -/
theorem test_binary32 : ratF32 (mkRat 16777217 16777216) = 0x3F800000 ∧ ratF32 (mkRat 16777219 16777216) = 0x3F800002 ∧
    ratF32 (mkRat 1 (2 ^ 149)) = 1 := by decide +kernel

/-- IEEE 802.3: the check value of CRC-32. -/
theorem test_crc32 : crc32 [0x31, 0x32, 0x33, 0x34, 0x35, 0x36, 0x37, 0x38, 0x39] = 0xCBF43926 := by decide +kernel

/-- R399: the CRC of a frame without a payload is the CRC-16 of its three bytes, of polynomial 0x1021 from 0xFFFF. -/
theorem test_chain_crc : chainCrc [0x31, 0x32, 0x33, 0x34, 0x35, 0x36, 0x37, 0x38, 0x39] = 0x29B1 := by decide +kernel

end Sys2Proof.Tests
end

section
/-! PROOFS. The Clerk's mailboxes and registers (chapter 4): a doorbell that starts nothing, NOP, and the consistent read of the
stroke count. -/

namespace Sys2Proof.Machine

/-! ### A request in a mailbox (R94) -/

/-- A request on a mailbox leaves DONE as it is. -/
theorem mbPost_getD_done (o : Nat) (r : Req) (s : State) (n : Nat) :
    ((mbPost o r s).mbs.getD n {}).done = (s.mbs.getD n {}).done := by
  simp only [mbPost, List.getD_eq_getElem?_getD, List.getElem?_modify]
  by_cases h : r.mb.val = n
  · cases s.mbs[n]? <;> simp [h]
  · simp [h]

@[simp] theorem mbPost_mbs_length (o : Nat) (r : Req) (s : State) : (mbPost o r s).mbs.length = s.mbs.length := by
  simp [mbPost]

/-! ### Doorbells that start nothing (R97, R98, R161) -/

/-- R161: a doorbell that does not reach the module. -/
theorem mailbox_of_not_hostReaches {s : State} (h : hostReaches s = false) (c : Cmd) (r : Req)
    (body : State → State × Answer) : mailbox c r body s = .next s := by
  simp [mailbox, h]

/-- R98: while MB_OPEN is 0 a doorbell leaves what the host wrote before it. -/
theorem mailbox_of_not_mbOpen {s : State} (h : hostReaches s = true) (ho : s.clerk.mbOpen = false) (c : Cmd) (r : Req)
    (body : State → State × Answer) : mailbox c r body s = .next (mbPost c.op r s) := by
  simp [mailbox, h, ho]

/-- R97: a doorbell on a mailbox with a command in progress. -/
theorem mailbox_of_busy {s : State} {r : Req} {m : Mailbox} {b : InProgress} (h : hostReaches s = true)
    (ho : s.clerk.mbOpen = true) (hm : s.mbs[r.mb.val]? = some m) (hb : m.busy = some b) (c : Cmd)
    (body : State → State × Answer) : mailbox c r body s = .next (mbOverrun r.mb.val (mbPost c.op r s)) := by
  have hp : (mbPost c.op r s).clerk.mbOpen = true := ho
  have hbusy : ((mbPost c.op r s).mbs.getD r.mb.val {}).busy = some b := by
    rw [mbPost_getD_busy, List.getD_eq_getElem?_getD, hm]
    exact hb
  simp only [mailbox, h, hp, hbusy, Bool.not_true, Bool.false_eq_true, if_false, Option.isSome_some, if_true]

/-- R97: of the mailbox an overrun changes OVERRUN and what the host wrote, and neither the command in progress nor the response. -/
theorem mbOverrun_mbPost_same {s : State} {r : Req} {m : Mailbox} (hm : s.mbs[r.mb.val]? = some m) (o : Nat) :
    ∃ m', (mbOverrun r.mb.val (mbPost o r s)).mbs[r.mb.val]? = some m' ∧ m'.overrun = true ∧ m'.busy = m.busy ∧
      m'.done = m.done ∧ m'.rsp = m.rsp := by
  simp [mbOverrun, mbPost, hm]

/-- The other mailboxes keep everything. -/
theorem mbOverrun_mbPost_other {r : Req} {n : Nat} (hn : n ≠ r.mb.val) (o : Nat) (s : State) :
    (mbOverrun r.mb.val (mbPost o r s)).mbs[n]? = s.mbs[n]? := by
  simp [mbOverrun, mbPost, hn.symm]

/-- Settles O7: every mailbox command goes through `mailbox`, whose first three tests are those of R161, R98 and R97. -/
theorem doorbellsThatStartNothing : Obligations.DoorbellsThatStartNothing := by
  unfold Obligations.DoorbellsThatStartNothing
  constructor
  · intro i r s hi
    obtain ⟨body, hbody⟩ := exec_mailbox hi
    obtain ⟨c, hc⟩ := hbody s
    rw [hc]
    constructor
    · intro hr
      exact mailbox_of_not_hostReaches hr c r body
    · intro hr ho
      exact ⟨_, mailbox_of_not_mbOpen hr ho c r body, rfl, mbPost_mbs_length c.op r s,
        fun n => ⟨mbPost_getD_busy c.op r s n, mbPost_getD_done c.op r s n⟩⟩
  · intro i r s b m hi hr ho hm hb
    obtain ⟨body, hbody⟩ := exec_mailbox hi
    obtain ⟨c, hc⟩ := hbody s
    obtain ⟨m', hm', hover, hbusy, hdone, hrsp⟩ := mbOverrun_mbPost_same hm c.op
    rw [hc]
    exact ⟨_, m', mailbox_of_busy hr ho hm hb c body, rfl, hm', hover, hbusy.trans hb, hdone, hrsp,
      fun n hn => mbOverrun_mbPost_other hn c.op s⟩

/-! ### NOP (R122) -/

/-- Settles O10: NOP is a query that every mailbox and every LENGTH accepts, and whose answer is the payload. -/
theorem nopAnswersItsPayload : Obligations.NopAnswersItsPayload := by
  unfold Obligations.NopAnswersItsPayload
  intro r s hs hl
  rw [Asks, exec_nop, execNop]
  exact mailbox_asks hs _ r _ _ rfl rfl hl rfl rfl

/-! ### Reads and writes of BAR0 (R86, R87) -/

/-- A field of a bitwise conjunction. -/
theorem fld_and (v w : Word) (lo n : Nat) : fld (v &&& w) lo n = fld v lo n &&& fld w lo n := by
  rw [fld, fld, fld, BitVec.toNat_and, Nat.shiftRight_and_distrib, Nat.and_mod_two_pow]

/-- A read of some bytes masks the word with those bytes of a word of ones. -/
theorem readBytes_eq_and (b : BitVec 4) (w : Word) : readBytes b w = w &&& readBytes b (BitVec.allOnes 32) := by
  unfold readBytes
  rw [BitVec.allOnes_and]

theorem fld_readBytes_allOnes (b : BitVec 4) (i : Fin 4) :
    fld (readBytes b (BitVec.allOnes 32)) (8 * i.val) 8 = if b.getLsbD i.val then 2 ^ 8 - 1 else 0 := by
  revert b i
  decide

/-- R87: of a read of some bytes, each enabled byte is the word's, and every other is zero. -/
theorem fld_readBytes (b : BitVec 4) (w : Word) (i : Fin 4) :
    fld (readBytes b w) (8 * i.val) 8 = if b.getLsbD i.val then fld w (8 * i.val) 8 else 0 := by
  rw [readBytes_eq_and, fld_and, fld_readBytes_allOnes]
  split
  · rw [Nat.and_two_pow_sub_one_eq_mod, fld, Nat.mod_mod]
  · exact Nat.and_zero _

/-- A host that reaches the registers reaches configuration space, outside D3hot (R161). -/
theorem configReaches_of_hostReaches {s : State} (h : hostReaches s = true) :
    configReaches s = true ∧ s.link.d3hot = false := by
  simp only [hostReaches, Bool.and_eq_true, Bool.not_eq_true'] at h
  obtain ⟨⟨hup, hd3⟩, hlife⟩ := h
  exact ⟨by simp only [configReaches, hup, hlife, Bool.and_self], hd3⟩

/-- R87: a write of a whole aligned word of BAR0 reaches its register. -/
theorem exec_registerWrite_bar0 {s : State} (h : hostReaches s = true) {off : BitVec 32} (ha : off.toNat % 4 = 0) (v : Word) :
    exec (.registerWrite .bar0 off v true) s = registerWrite .bar0 off.toNat v s := by
  obtain ⟨hc, hd⟩ := configReaches_of_hostReaches h
  rw [exec_registerWrite, execRegisterWrite]
  simp [hc, hd, ha]

/-! ### The stroke count (R71, R90) -/

theorem exec_strokeLoRead_of_hostReaches {s : State} (h : hostReaches s = true) :
    exec .strokeLoRead s = .next { s with clerk := { s.clerk with
      readData := [strokeLo s], strokeLatch := some (strokeHi s) } } := by
  rw [exec_strokeLoRead, execStrokeLoRead, h]
  rfl

theorem exec_strokeHiRead_of_hostReaches {s : State} (h : hostReaches s = true) :
    exec .strokeHiRead s = .next { s with clerk := { s.clerk with
      readData := [s.clerk.strokeLatch.getD (strokeHi s)], strokeLatch := none } } := by
  rw [exec_strokeHiRead, execStrokeHiRead, h]
  rfl

/-- A write of STROKE_LO or STROKE_HI changes nothing: both are RO. -/
theorem registerWrite_stroke {off : Nat} (h : off = 0x104 ∨ off = 0x108) (v : Word) (s : State) :
    registerWrite .bar0 off v s = .next s := by
  obtain rfl | rfl := h <;> simp [registerWrite, bar0Write]

/-- Settles O18: STROKE_LO latches the high word that STROKE_HI then returns. -/
theorem strokeReadsAreConsistent : Obligations.StrokeReadsAreConsistent := by
  unfold Obligations.StrokeReadsAreConsistent
  intro s h
  refine ⟨exec_strokeLoRead_of_hostReaches h, ?latched, ?live, ?both, ?bytes, ?readOnly⟩
  case latched =>
    intro v hv
    rw [exec_strokeHiRead_of_hostReaches h, hv]
    rfl
  case live =>
    intro hv
    rw [exec_strokeHiRead_of_hostReaches h, hv]
    rfl
  case both =>
    exact ⟨_, _, exec_strokeLoRead_of_hostReaches h, exec_strokeHiRead_of_hostReaches h, rfl, rfl⟩
  case bytes =>
    intro b i
    exact fld_readBytes b (bar0Word s 0x104) i
  case readOnly =>
    intro v
    rw [exec_registerWrite_bar0 h rfl, exec_registerWrite_bar0 h rfl]
    exact ⟨registerWrite_stroke (.inl rfl) v s, registerWrite_stroke (.inr rfl) v s⟩

end Sys2Proof.Machine
end

section
/-! PROOFS. The block as a whole: a step, an idle step, and what reset leaves (chapters 3 and 4). -/

namespace Sys2Proof.Machine

/-- Settles O1: `step` takes the command at the front of the queue. -/
theorem stepRunsTheFrontCommand : Obligations.StepRunsTheFrontCommand := by
  unfold Obligations.StepRunsTheFrontCommand
  intro c rest s h
  rw [step, h]

theorem step_of_pending_nil {s : State} (h : s.pending = []) : step s = .next (idleTick s) := by
  rw [step, h]

/-- Settles O2: with an empty queue a step is an `idleTick`, whose one test is that of a running stroke timebase. -/
theorem emptyQueueStepIsATick : Obligations.EmptyQueueStepIsATick := by
  unfold Obligations.EmptyQueueStepIsATick
  intro s h
  rw [step_of_pending_nil h, idleTick]
  constructor
  · intro hup hlock hsrc
    rw [if_pos ⟨hup, hlock, hsrc⟩]
  · intro hno
    rw [if_neg]
    rintro ⟨hup, hlock, hsrc⟩
    obtain hlife | hpll | hnone := hno
    · exact hlife hup
    · exact absurd (hpll.symm.trans hlock) (by decide)
    · rw [hnone] at hsrc
      exact absurd hsrc (by decide)

/-- Settles O5: every register file has its size and both memories are empty. -/
theorem resetIsSound : Obligations.ResetIsSound := by
  unfold Obligations.ResetIsSound
  exact ⟨rfl, rfl, rfl, rfl, rfl, rfl⟩

/-- Settles O6: the defaults of `State` are the values that the manual gives. -/
theorem resetState : Obligations.ResetState := by
  unfold Obligations.ResetState
  refine ⟨by decide, rfl, rfl, rfl, rfl, rfl, rfl, rfl, rfl, ?mailboxes, rfl, rfl, rfl, rfl, rfl, rfl⟩
  case mailboxes =>
    have h : State.reset.mbs = List.replicate 4 {} := rfl
    intro m hm
    rw [h] at hm
    rw [List.eq_of_mem_replicate hm]
    exact ⟨rfl, rfl, rfl⟩

/-! ### The header checks (R95, R101, R104, R582) -/

/-- Settles O8: every command declares its mailboxes and its LENGTH to the header checks, which come before its body. -/
theorem mailboxAndLengthAreChecked : Obligations.MailboxAndLengthAreChecked := by
  unfold Obligations.MailboxAndLengthAreChecked
  intro i r n s hi hs
  constructor
  · intro hn
    obtain ⟨body, hbody⟩ := exec_high hi hn
    obtain ⟨c, hc, hk, hm, hl⟩ := hbody s
    rw [Refuses, Refuses, hc]
    constructor
    · intro h0
      exact refuses_header hs c r body .badCmd 1 (bad_mb hs c r hk (by simp [hm, mbHigh, h0]))
    · intro h0 hlen
      exact refuses_header hs c r body .badLen 0 (bad_len hs c r hk (by simp [hm, mbHigh, h0]) (by simp [hl, hlen]))
  · intro hn
    obtain ⟨body, hbody⟩ := exec_zero hi hn
    obtain ⟨c, hc, hk, hm, hl⟩ := hbody s
    rw [Refuses, Refuses, hc]
    constructor
    · intro h0
      exact refuses_header hs c r body .badCmd 1 (bad_mb hs c r hk (by simp [hm, mbZero, h0]))
    · intro h0 hlen
      exact refuses_header hs c r body .badLen 0 (bad_len hs c r hk (by simp [hm, mbZero, h0]) (by simp [hl, hlen]))

/-- A command of no group fails the first header check. -/
theorem bad_opcode {s : State} (h : Ready s) (c : Cmd) (r : Req) (hk : c.known = false) :
    headerBad (mbPost c.op r s) c r = some (errR .badCmd 0) := by
  obtain ⟨-, -, hrec, -, -⟩ := h
  simp [headerBad, hrec, hk]

/-- Settles O9: the opcode is the first header check outside recovery. -/
theorem unknownOpcodeIsRefused : Obligations.UnknownOpcodeIsRefused := by
  unfold Obligations.UnknownOpcodeIsRefused
  intro r opcode s hs
  rw [Refuses, exec_unknownOpcode, execUnknownOpcode]
  exact refuses_header hs _ r _ .badCmd 0 (bad_opcode hs _ r rfl)

end Sys2Proof.Machine
end

section
/-! PROOFS. What every command keeps: the queue of waiting commands, and the invariant `Sound`. One lemma for each function of the
model that answers a state, in the order of the model; each follows the function's own cases. -/

namespace Sys2Proof.Machine

/-- From `s` to `t` the queue of waiting commands stays as it was, and soundness is kept. -/
def Keeps (s t : State) : Prop := t.pending = s.pending ∧ (Sound s → Sound t)

/-- A meaning that completes, and keeps what every command keeps. -/
def Completes (s : State) (o : Out) : Prop := ∃ t, o = .next t ∧ Keeps s t

theorem keeps_refl (s : State) : Keeps s s := ⟨rfl, id⟩

/-- The count of strokes, the tick, and the divisions that are in force or accepted (R69, R81). -/
def timeOf (s : State) : Stroke × Nat × Option (Nat × Nat) × Nat × Nat :=
  (s.clk.stroke, s.clk.tick, s.clk.nextDivs, s.clk.strokeDiv, s.clk.loopDiv)

/-- What the parts of a stroke boundary keep: what every command keeps, and the time in strokes. -/
def Steady (s t : State) : Prop := Keeps s t ∧ timeOf t = timeOf s

theorem steady_refl (s : State) : Steady s s := ⟨keeps_refl s, rfl⟩

/-- A property of states that does not see what most functions of the model write: memory as far as it stays canonical, the queues and
counters of events, mailboxes, the estimator, the pipeline, the ledger. It sees the tiles, the functions, the installed lists. -/
structure Unseen (P : State → Prop) : Prop where
  mem : ∀ {s : State} {v : Mem}, (MemWf s → cellsWf v.cells = true ∧ cellsWf v.host = true) → P s → P { s with mem := v }
  mbs : ∀ {s : State} {v : List Mailbox}, v.length = s.mbs.length → P s → P { s with mbs := v }
  lists : ∀ {s : State} {v : Lists}, v.inst = s.lists.inst → P s → P { s with lists := v }
  clerk : ∀ {s : State} {v : Clerk}, P s → P { s with clerk := v }
  evt : ∀ {s : State} {v : Events}, P s → P { s with evt := v }
  msix : ∀ {s : State} {v : Msix}, P s → P { s with msix := v }
  diag : ∀ {s : State} {v : Diag}, P s → P { s with diag := v }
  pipe : ∀ {s : State} {v : Pipe}, P s → P { s with pipe := v }
  rope : ∀ {s : State} {v : Rope}, P s → P { s with rope := v }
  stage : ∀ {s : State} {v : Stage}, P s → P { s with stage := v }
  est : ∀ {s : State} {v : Est}, P s → P { s with est := v }
  ledger : ∀ {s : State} {v : Ledger}, P s → P { s with ledger := v }
  boot : ∀ {s : State} {v : Boot}, P s → P { s with boot := v }

section
variable {P : State → Prop}

theorem holds_ite {p : Prop} [Decidable p] {a b : State} (ha : P a) (hb : P b) : P (if p then a else b) := by
  split
  · exact ha
  · exact hb

theorem holds_foldl {α : Type} {f : State → α → State} {l : List α} {s : State} (h : P s) (hf : ∀ t x, P t → P (f t x)) :
    P (l.foldl f s) := by
  induction l generalizing s with
  | nil => exact h
  | cons x l ih => exact ih (hf s x h)

end

section
variable {P : State → Prop} {s₀ s t : State}

theorem keeps_of (h : Keeps s₀ s) (hp : t.pending = s.pending) (hs : Sound s → Sound t) : Keeps s₀ t :=
  ⟨hp.trans h.1, fun h0 => hs (h.2 h0)⟩

/-- A change of parts that soundness does not speak of. -/
theorem keeps_frame (h : Keeps s₀ s) (hq : t.pending = s.pending) (hm : t.mem = s.mem) (hb : t.mbs = s.mbs) (hf : t.funcs = s.funcs)
    (hp : t.pumps = s.pumps) (ht : t.tiles = s.tiles) : Keeps s₀ t := by
  refine keeps_of h hq fun hs => ?_
  rw [Sound, hm, hb, hf, hp, ht]
  exact hs

theorem keeps_link {l : Link} (h : Keeps s₀ s) : Keeps s₀ { s with link := l } := h

theorem completes_next (h : Keeps s₀ t) : Completes s₀ (.next t) := ⟨t, rfl, h⟩

/-- The state of a pair that a function answers. -/
theorem keeps_fst {α : Type} {p : State × α} {b : α} (e : p = (t, b)) (h : Keeps s₀ p.1) : Keeps s₀ t := by
  rw [e] at h
  exact h

theorem keeps_ite {p : Prop} [Decidable p] {a b : State} (ha : Keeps s₀ a) (hb : Keeps s₀ b) : Keeps s₀ (if p then a else b) := by
  split
  · exact ha
  · exact hb

theorem completes_ite {p : Prop} [Decidable p] {a b : Out} (ha : Completes s₀ a) (hb : Completes s₀ b) :
    Completes s₀ (if p then a else b) := by
  split
  · exact ha
  · exact hb

theorem keeps_foldl {α : Type} {f : State → α → State} {l : List α} (h : Keeps s₀ s) (hf : ∀ t x, Keeps s₀ t → Keeps s₀ (f t x)) :
    Keeps s₀ (l.foldl f s) := by
  induction l generalizing s with
  | nil => exact h
  | cons x l ih => exact ih (hf s x h)

theorem keeps_foldl_fst {α β : Type} {f : State × β → α → State × β} {l : List α} {p : State × β} (h : Keeps s₀ p.1)
    (hf : ∀ p x, Keeps s₀ p.1 → Keeps s₀ (f p x).1) : Keeps s₀ (l.foldl f p).1 := by
  induction l generalizing p with
  | nil => exact h
  | cons x l ih => exact ih (hf p x h)

theorem keeps_foldl_snd {α β : Type} {f : β × State → α → β × State} {l : List α} {p : β × State} (h : Keeps s₀ p.2)
    (hf : ∀ p x, Keeps s₀ p.2 → Keeps s₀ (f p x).2) : Keeps s₀ (l.foldl f p).2 := by
  induction l generalizing p with
  | nil => exact h
  | cons x l ih => exact ih (hf p x h)

theorem keeps_guardE {e : Option Answer} {go : State → State × Answer} (h : Keeps s₀ s)
    (hgo : ∀ t, Keeps s₀ t → Keeps s₀ (go t).1) : Keeps s₀ (guardE e s go).1 := by
  unfold guardE
  split
  · exact h
  · exact hgo s h

theorem keeps_asks {q : State → Answer} (h : Keeps s₀ s) : Keeps s₀ (asks q s).1 := h

/-! ### Memory -/

theorem sound_of_memWf (h : MemWf s → MemWf t) (hm : t.mbs = s.mbs) (hf : t.funcs = s.funcs) (hp : t.pumps = s.pumps)
    (ht : t.tiles = s.tiles) (hs : Sound s) : Sound t := by
  obtain ⟨hc, hh, hs⟩ := hs
  obtain ⟨hc', hh'⟩ := h ⟨hc, hh⟩
  refine ⟨hc', hh', ?_⟩
  rw [hm, hf, hp, ht]
  exact hs

theorem unseen_keeps : Unseen (Keeps s₀) where
  mem hv h := keeps_of h rfl (sound_of_memWf hv rfl rfl rfl rfl)
  mbs hv h := keeps_of h rfl fun hs => by simpa [Sound, hv] using hs
  lists _ h := h
  clerk h := h
  evt h := h
  msix h := h
  diag h := h
  pipe h := h
  rope h := h
  stage h := h
  est h := h
  ledger h := h
  boot h := h

theorem steady_of (h : Steady s₀ s) (hp : t.pending = s.pending) (hs : Sound s → Sound t) (ht : timeOf t = timeOf s := by rfl) :
    Steady s₀ t :=
  ⟨keeps_of h.1 hp hs, ht.trans h.2⟩

theorem steady_frame (h : Steady s₀ s) (hq : t.pending = s.pending) (hm : t.mem = s.mem) (hb : t.mbs = s.mbs)
    (hf : t.funcs = s.funcs) (hp : t.pumps = s.pumps) (ht : t.tiles = s.tiles) (hc : timeOf t = timeOf s := by rfl) : Steady s₀ t :=
  ⟨keeps_frame h.1 hq hm hb hf hp ht, hc.trans h.2⟩

/-- What a part of a stroke boundary keeps is kept after what kept as much. -/
theorem keeps_of_steady (h : Keeps s₀ s) (hs : Steady s t) : Keeps s₀ t := keeps_of h hs.1.1 hs.1.2

theorem steady_ite {p : Prop} [Decidable p] {a b : State} (ha : Steady s₀ a) (hb : Steady s₀ b) :
    Steady s₀ (if p then a else b) :=
  holds_ite (P := Steady s₀) ha hb

theorem steady_foldl {α : Type} {f : State → α → State} {l : List α} (h : Steady s₀ s)
    (hf : ∀ t x, Steady s₀ t → Steady s₀ (f t x)) : Steady s₀ (l.foldl f s) :=
  holds_foldl (P := Steady s₀) h hf

theorem unseen_steady : Unseen (Steady s₀) where
  mem hv h := steady_of h rfl (sound_of_memWf hv rfl rfl rfl rfl)
  mbs hv h := steady_of h rfl fun hs => by simpa [Sound, hv] using hs
  lists _ h := h
  clerk h := h
  evt h := h
  msix h := h
  diag h := h
  pipe h := h
  rope h := h
  stage h := h
  est h := h
  ledger h := h
  boot h := h

theorem unseen_memWrite (hP : Unseen P) {a : Nat} {bs : List Byte} (h : P s) : P (memWrite a bs s) :=
  hP.mem (fun hm => memWf_memWrite hm a bs) h

theorem keeps_memWrite {a : Nat} {bs : List Byte} (h : Keeps s₀ s) : Keeps s₀ (memWrite a bs s) :=
  unseen_memWrite unseen_keeps h

theorem unseen_hostWrite (hP : Unseen P) {a : Nat} {bs : List Byte} (h : P s) : P (hostWrite a bs s) :=
  hP.mem (fun hm => memWf_hostWrite hm a bs) h

theorem keeps_hostWrite {a : Nat} {bs : List Byte} (h : Keeps s₀ s) : Keeps s₀ (hostWrite a bs s) :=
  unseen_hostWrite unseen_keeps h

theorem unseen_memDamage (hP : Unseen P) {a : Nat} (h : P s) : P (memDamage a s) := hP.mem id h

theorem unseen_writeLand (hP : Unseen P) {w : PendWrite} (h : P s) : P (writeLand w s) := by
  unfold writeLand
  exact holds_ite (unseen_memDamage hP h) (unseen_memWrite hP h)

theorem unseen_seeAs (hP : Unseen P) {r : Seer} (h : P s) : P (seeAs r s) := by
  unfold seeAs
  exact holds_foldl h fun _ _ ht => unseen_writeLand hP ht

theorem keeps_seeAs {r : Seer} (h : Keeps s₀ s) : Keeps s₀ (seeAs r s) :=
  unseen_seeAs unseen_keeps h

/-- What `f` keeps, it keeps where it reads memory as a reader sees it. -/
theorem steady_inView {r : Seer} {f : State → State} (h : Steady s₀ s) (hf : ∀ t, Steady s₀ t → Steady s₀ (f t)) :
    Steady s₀ (inView r f s) := by
  obtain ⟨⟨hp, hs⟩, ht⟩ := hf _ (unseen_seeAs unseen_steady (r := r) h)
  refine ⟨⟨hp, fun h0 => ?_⟩, ht⟩
  obtain ⟨-, hhost, hlen⟩ := hs h0
  obtain ⟨hcells, -⟩ := h.1.2 h0
  exact ⟨hcells, hhost, hlen⟩

/-! ### The mailbox protocol -/

theorem keeps_mbPost {op : Nat} {r : Req} (h : Keeps s₀ s) : Keeps s₀ (mbPost op r s) :=
  keeps_of h rfl fun hs => by simpa [Sound] using hs

theorem unseen_evtWrite (hP : Unseen P) {r : Line} (h : P s) : P (evtWrite r s) := by
  unfold evtWrite
  exact hP.evt (unseen_hostWrite hP h)

theorem keeps_evtWrite {r : Line} (h : Keeps s₀ s) : Keeps s₀ (evtWrite r s) :=
  unseen_evtWrite unseen_keeps h

theorem keeps_evtDrainQueue {l : List Line} (h : Keeps s₀ s) : Keeps s₀ (evtDrainQueue l s) := by
  induction l generalizing s with
  | nil => exact h
  | cons r l ih =>
    unfold evtDrainQueue
    exact keeps_ite (ih (keeps_evtWrite h)) h

theorem unseen_norOp (hP : Unseen P) {erase : Bool} {off n : Nat} {go : State → State} (h : P s)
    (hgo : ∀ t, P t → P (go t)) : P (norOp erase off n go s) := by
  unfold norOp
  exact holds_ite (hP.diag h) (hgo _ (hP.diag h))

theorem keeps_norOp {erase : Bool} {off n : Nat} {go : State → State} (h : Keeps s₀ s)
    (hgo : ∀ t, Keeps s₀ t → Keeps s₀ (go t)) : Keeps s₀ (norOp erase off n go s) :=
  unseen_norOp unseen_keeps h hgo

theorem keeps_fcBody {r : Req} {body : Nat → State → State × Answer} (h : Keeps s₀ s)
    (hb : ∀ f t, Keeps s₀ t → Keeps s₀ (body f t).1) : Keeps s₀ (fcBody r body s).1 := by
  unfold fcBody
  split
  · exact hb _ s h
  · exact h

/-! ### The operations that every part of the model shares -/

theorem steady_takeFree (h : Steady s₀ s) : Steady s₀ (takeFree s).1 := by
  unfold takeFree
  exact h

theorem keeps_takeFree (h : Keeps s₀ s) : Keeps s₀ (takeFree s).1 :=
  keeps_of_steady h (steady_takeFree (steady_refl s))

theorem keeps_idleTick (h : Keeps s₀ s) : Keeps s₀ (idleTick s) := by
  unfold idleTick
  exact keeps_ite h h

theorem steady_memWriteWords {a ws} (h : Steady s₀ s) : Steady s₀ (memWriteWords a ws s) := by
  unfold memWriteWords
  exact unseen_memWrite unseen_steady h

theorem keeps_memWriteWords {a ws} (h : Keeps s₀ s) : Keeps s₀ (memWriteWords a ws s) :=
  keeps_of_steady h (steady_memWriteWords (steady_refl s))

theorem keeps_openWrite {a bs} (h : Keeps s₀ s) : Keeps s₀ (openWrite a bs s) := by
  unfold openWrite
  extract_lets s1 x
  have h1 : Keeps s₀ s1 := keeps_memWrite h
  exact keeps_ite h1 h1

theorem unseen_pendWrite (hP : Unseen P) {seen a bs} (h : P s) : P (pendWrite seen a bs s) := by
  unfold pendWrite
  extract_lets w x
  exact hP.mem id h

theorem keeps_pendWrite {seen a bs} (h : Keeps s₀ s) : Keeps s₀ (pendWrite seen a bs s) :=
  unseen_pendWrite unseen_keeps h

theorem keeps_pendWords {seen a ws} (h : Keeps s₀ s) : Keeps s₀ (pendWords seen a ws s) := by
  unfold pendWords
  exact keeps_pendWrite h

theorem unseen_seenJoin (hP : Unseen P) {a b} (h : P s) : P (seenJoin a b s) := by
  unfold seenJoin
  extract_lets go x
  exact hP.mem id h

theorem keeps_seenJoin {a b} (h : Keeps s₀ s) : Keeps s₀ (seenJoin a b s) :=
  unseen_seenJoin unseen_keeps h

theorem unseen_seenFrom (hP : Unseen P) {n b} (h : P s) : P (seenFrom n b s) := by
  unfold seenFrom
  exact hP.mem id h

theorem steady_writesLand (h : Steady s₀ s) : Steady s₀ (writesLand s) := by
  unfold writesLand
  extract_lets s1 x
  have h1 : Steady s₀ s1 := steady_foldl h fun _ _ ht => unseen_writeLand unseen_steady ht
  exact h1

theorem keeps_writesLand (h : Keeps s₀ s) : Keeps s₀ (writesLand s) :=
  keeps_of_steady h (steady_writesLand (steady_refl s))

theorem unseen_vecSend (hP : Unseen P) {v} (h : P s) : P (vecSend v s) := by
  unfold vecSend
  exact hP.msix h

theorem keeps_vecSend {v} (h : Keeps s₀ s) : Keeps s₀ (vecSend v s) :=
  unseen_vecSend unseen_keeps h

theorem unseen_msixDue (hP : Unseen P) {v} (h : P s) : P (msixDue v s) := by
  unfold msixDue
  exact holds_ite h (holds_ite (hP.msix h) (unseen_vecSend hP h))

theorem keeps_msixDue {v} (h : Keeps s₀ s) : Keeps s₀ (msixDue v s) :=
  unseen_msixDue unseen_keeps h

theorem keeps_msixFlush {v} (h : Keeps s₀ s) : Keeps s₀ (msixFlush v s) := by
  unfold msixFlush
  exact keeps_ite (keeps_vecSend h) h

theorem keeps_msixFlushAll (h : Keeps s₀ s) : Keeps s₀ (msixFlushAll s) := by
  unfold msixFlushAll
  exact keeps_foldl h fun _ _ ht => keeps_msixFlush ht

theorem unseen_evtDrop (hP : Unseen P) (h : P s) : P (evtDrop s) := by
  unfold evtDrop
  have h1 := hP.diag (v := { s.diag with host := bump s.diag.host 7 1 }) h
  exact hP.evt h1

theorem unseen_evtCreate (hP : Unseen P) {r} (h : P s) : P (evtCreate r s) := by
  unfold evtCreate
  exact hP.evt h

theorem keeps_evtCreate {r} (h : Keeps s₀ s) : Keeps s₀ (evtCreate r s) :=
  unseen_evtCreate unseen_keeps h

theorem unseen_evtPlace (hP : Unseen P) {r} (h : P s) : P (evtPlace r s) := by
  unfold evtPlace
  exact holds_ite (holds_ite (unseen_evtWrite hP h) (unseen_evtDrop hP h)) (holds_ite (hP.evt h) (unseen_evtDrop hP h))

theorem unseen_emit (hP : Unseen P) {sev src code data} (h : P s) : P (emit sev src code data s) := by
  unfold emit
  extract_lets r s1
  have h1 : P s1 := unseen_evtCreate hP h
  exact holds_ite h1 (unseen_evtPlace hP h1)

theorem keeps_emit {sev src code data} (h : Keeps s₀ s) : Keeps s₀ (emit sev src code data s) :=
  unseen_emit unseen_keeps h

theorem keeps_evtDrain (h : Keeps s₀ s) : Keeps s₀ (evtDrain s) := by
  unfold evtDrain
  extract_lets s1 r x
  have h1 : Keeps s₀ s1 := keeps_evtDrainQueue h
  exact keeps_ite (keeps_evtWrite (keeps_evtCreate h1)) h1

theorem steady_fnSet {f new cause} (h : Steady s₀ s) : Steady s₀ (fnSet f new cause s) := by
  unfold fnSet
  split
  · exact h
  · extract_lets r flt r' s1 s2
    have h1 : Steady s₀ s1 := steady_of h rfl fun hs => by simpa [Sound, s1] using hs
    have h2 : Steady s₀ s2 := unseen_emit unseen_steady h1
    exact steady_ite h (steady_ite (unseen_msixDue unseen_steady h2) h2)

theorem keeps_fnSet {f new cause} (h : Keeps s₀ s) : Keeps s₀ (fnSet f new cause s) :=
  keeps_of_steady h (steady_fnSet (steady_refl s))

theorem steady_fnFault {f cause} (h : Steady s₀ s) : Steady s₀ (fnFault f cause s) := by
  unfold fnFault
  exact steady_fnSet h

theorem keeps_fnFault {f cause} (h : Keeps s₀ s) : Keeps s₀ (fnFault f cause s) :=
  keeps_of_steady h (steady_fnFault (steady_refl s))

theorem steady_claimAll {owner rs} (h : Steady s₀ s) : Steady s₀ (claimAll owner rs s) := by
  unfold claimAll
  exact h

theorem keeps_claimAll {owner rs} (h : Keeps s₀ s) : Keeps s₀ (claimAll owner rs s) :=
  keeps_of_steady h (steady_claimAll (steady_refl s))

theorem steady_claimRelease {owner} (h : Steady s₀ s) : Steady s₀ (claimRelease owner s) := by
  unfold claimRelease
  exact h

theorem keeps_claimRelease {owner} (h : Keeps s₀ s) : Keeps s₀ (claimRelease owner s) :=
  keeps_of_steady h (steady_claimRelease (steady_refl s))

theorem steady_dropReq (h : Steady s₀ s) : Steady s₀ (dropReq s) := by
  unfold dropReq
  exact steady_ite (unseen_msixDue unseen_steady h) h

theorem keeps_dropReq (h : Keeps s₀ s) : Keeps s₀ (dropReq s) :=
  keeps_of_steady h (steady_dropReq (steady_refl s))

theorem steady_vetoLatch {cause} (h : Steady s₀ s) : Steady s₀ (vetoLatch cause s) := by
  unfold vetoLatch
  refine steady_ite ?_ ?_
  · exact h
  · extract_lets x s1
    have h1 : Steady s₀ s1 := h
    exact steady_dropReq (unseen_emit unseen_steady h1)

theorem keeps_vetoLatch {cause} (h : Keeps s₀ s) : Keeps s₀ (vetoLatch cause s) :=
  keeps_of_steady h (steady_vetoLatch (steady_refl s))

theorem steady_pairLeave {new num} (h : Steady s₀ s) : Steady s₀ (pairLeave new num s) := by
  unfold pairLeave
  refine steady_ite ?_ ?_
  · exact h
  · extract_lets was x s1
    have h1 : Steady s₀ s1 := h
    exact steady_ite (unseen_msixDue unseen_steady (unseen_emit unseen_steady h1)) h1

theorem steady_vetoRelease {cause} (h : Steady s₀ s) : Steady s₀ (vetoRelease cause s) := by
  unfold vetoRelease
  refine steady_ite ?_ ?_
  · extract_lets v x s1 s2
    have h1 : Steady s₀ s1 := h
    have h2 : Steady s₀ s2 := unseen_emit unseen_steady h1
    exact steady_ite (steady_pairLeave h2) h2
  · exact h

theorem keeps_vetoRelease {cause} (h : Keeps s₀ s) : Keeps s₀ (vetoRelease cause s) :=
  keeps_of_steady h (steady_vetoRelease (steady_refl s))

theorem keeps_hostLossDeclare (h : Keeps s₀ s) : Keeps s₀ (hostLossDeclare s) := by
  unfold hostLossDeclare
  refine keeps_ite ?_ ?_
  · exact h
  · extract_lets x s1
    have h1 : Keeps s₀ s1 := h
    exact keeps_emit h1

theorem keeps_hostLossEnd (h : Keeps s₀ s) : Keeps s₀ (hostLossEnd s) := by
  unfold hostLossEnd
  refine keeps_ite ?_ ?_
  · extract_lets x s1
    have h1 : Keeps s₀ s1 := h
    exact keeps_emit h1
  · exact h

theorem unseen_complete (hP : Unseen P) {n c detail rsp} (h : P s) : P (complete n c detail rsp s) := by
  unfold complete
  extract_lets m k x x1
  split
  · exact h
  · extract_lets m' s1
    have h1 : P s1 := 
      hP.diag (v := s1.diag) (hP.clerk (v := s1.clerk) (hP.mbs (v := s1.mbs) (by simp [s1]) h))
    exact holds_ite (unseen_msixDue hP h1) h1

theorem keeps_complete {n c detail rsp} (h : Keeps s₀ s) : Keeps s₀ (complete n c detail rsp s) :=
  unseen_complete unseen_keeps h

theorem unseen_answer (hP : Unseen P) {w c detail rsp} (h : P s) : P (answer w c detail rsp s) := by
  unfold answer
  split
  · exact unseen_complete hP h
  · exact h

theorem keeps_answer {w c detail rsp} (h : Keeps s₀ s) : Keeps s₀ (answer w c detail rsp s) :=
  unseen_answer unseen_keeps h

theorem keeps_answerAll {w c detail rsp} (h : Keeps s₀ s) : Keeps s₀ (answerAll w c detail rsp s) := by
  unfold answerAll
  refine keeps_foldl h fun t x ht => ?_
  split
  · exact keeps_ite (keeps_complete ht) ht
  · exact ht

theorem keeps_mbStart {op acts r} (h : Keeps s₀ s) : Keeps s₀ (mbStart op acts r s) := by
  unfold mbStart
  extract_lets s1 e x
  have h1 : Keeps s₀ s1 := keeps_hostLossEnd h
  exact keeps_of h1 rfl fun hs => by simpa [Sound] using hs

theorem keeps_mbWait {n w} (h : Keeps s₀ s) : Keeps s₀ (mbWait n w s) := by
  unfold mbWait
  exact keeps_of h rfl fun hs => by simpa [Sound] using hs

theorem keeps_mbAnswer {n a} (h : Keeps s₀ s) : Keeps s₀ (mbAnswer n a s) := by
  unfold mbAnswer
  split
  · exact keeps_complete h
  · exact keeps_mbWait h

theorem keeps_mbOverrun {n} (h : Keeps s₀ s) : Keeps s₀ (mbOverrun n s) := by
  unfold mbOverrun
  exact keeps_of h rfl fun hs => by simpa [Sound] using hs

theorem completes_mailbox {c : Cmd} {r : Req} {body : State → State × Answer} (h : Keeps s₀ s)
    (hb : ∀ t, Keeps s₀ t → Keeps s₀ (body t).1) : Completes s₀ (mailbox c r body s) := by
  unfold mailbox
  extract_lets s1 p
  have h1 : Keeps s₀ s1 := keeps_mbPost h
  refine completes_ite (completes_next h) (completes_ite (completes_next h1) (completes_ite (completes_next
    (keeps_mbOverrun h1)) ?_))
  split
  · exact completes_next (keeps_mbAnswer (keeps_mbStart h1))
  · exact completes_next (keeps_mbAnswer (hb _ (keeps_mbStart h1)))

/-! ### SHA-512 (FIPS 180-4), Ed25519, the signer block and the measurement log -/

theorem steady_measPut {e} (h : Steady s₀ s) : Steady s₀ (measPut e s) := by
  unfold measPut
  exact h

theorem steady_measure {type id info digest} (h : Steady s₀ s) : Steady s₀ (measure type id info digest s) := by
  unfold measure
  extract_lets s1
  have h1 : Steady s₀ s1 := steady_ite (steady_measPut h) h
  exact steady_measPut h1

/-! ### Roles, function IDs and the predicates over them that several chapters share -/

theorem keeps_measure {type id info digest} (h : Keeps s₀ s) : Keeps s₀ (measure type id info digest s) :=
  keeps_of_steady h (steady_measure (steady_refl s))

theorem steady_measureBlur (h : Steady s₀ s) : Steady s₀ (measureBlur s) := by
  unfold measureBlur
  exact h

theorem keeps_measureBlur (h : Keeps s₀ s) : Keeps s₀ (measureBlur s) :=
  keeps_of_steady h (steady_measureBlur (steady_refl s))

theorem steady_refSwitch {new} (h : Steady s₀ s) : Steady s₀ (refSwitch new s) := by
  unfold refSwitch
  refine steady_ite ?_ ?_
  · exact h
  · extract_lets old x s1 x1 s2
    have h1 : Steady s₀ s1 := steady_measureBlur h
    have h2 : Steady s₀ s2 := h1
    exact unseen_emit unseen_steady h2

theorem steady_refSelect (h : Steady s₀ s) : Steady s₀ (refSelect s) := by
  unfold refSelect
  split
  · exact steady_refSwitch h
  · exact h

theorem keeps_refSelect (h : Keeps s₀ s) : Keeps s₀ (refSelect s) :=
  keeps_of_steady h (steady_refSelect (steady_refl s))

theorem steady_ropeMod {f} (h : Steady s₀ s) : Steady s₀ (ropeMod f s) := by
  unfold ropeMod
  exact h

theorem keeps_ropeMod {f} (h : Keeps s₀ s) : Keeps s₀ (ropeMod f s) :=
  keeps_of_steady h (steady_ropeMod (steady_refl s))

theorem steady_portMod {p f} (h : Steady s₀ s) : Steady s₀ (portMod p f s) := by
  unfold portMod
  exact steady_ropeMod h

theorem keeps_portMod {p f} (h : Keeps s₀ s) : Keeps s₀ (portMod p f s) :=
  keeps_of_steady h (steady_portMod (steady_refl s))

theorem keeps_crcFail {p n} (h : Keeps s₀ s) : Keeps s₀ (crcFail p n s) := by
  unfold crcFail
  exact keeps_ite h (keeps_portMod h)

theorem keeps_ratiosAnswer {was} (h : Keeps s₀ s) : Keeps s₀ (ratiosAnswer was s) := by
  unfold ratiosAnswer
  exact keeps_ite (keeps_answerAll h) h

/-! ### The device address map, who may reach what, and memory error records -/

theorem unseen_uncorrectable (hP : Unseen P) {func tile reader addr} (h : P s) : P (uncorrectable func tile reader addr s) := by
  unfold uncorrectable
  extract_lets r x s1
  have h1 : P s1 := hP.diag h
  exact unseen_emit hP h1

theorem keeps_uncorrectable {func tile reader addr} (h : Keeps s₀ s) : Keeps s₀ (uncorrectable func tile reader addr s) :=
  unseen_uncorrectable unseen_keeps h

theorem unseen_blocked (hP : Unseen P) {func tile reader addr} (h : P s) : P (blocked func tile reader addr s) := by
  unfold blocked
  extract_lets x s1
  have h1 : P s1 := hP.diag h
  exact unseen_emit hP h1

theorem keeps_blocked {func tile reader addr} (h : Keeps s₀ s) : Keeps s₀ (blocked func tile reader addr s) :=
  unseen_blocked unseen_keeps h

theorem unseen_remoteFailed (hP : Unseen P) {func tile reader addr member} (h : P s) : P
  (remoteFailed func tile reader addr member s) := by
  unfold remoteFailed
  extract_lets x s1
  have h1 : P s1 := hP.diag h
  exact unseen_emit hP h1

theorem keeps_remoteFailed {func tile reader addr member} (h : Keeps s₀ s) : Keeps s₀
  (remoteFailed func tile reader addr member s) :=
  unseen_remoteFailed unseen_keeps h

theorem keeps_correctable {addr} (h : Keeps s₀ s) : Keeps s₀ (correctable addr s) := by
  unfold correctable
  extract_lets r n due x x1 s1
  have h1 : Keeps s₀ s1 := h
  exact keeps_ite (keeps_emit h1) h1

theorem unseen_markDamaged (hP : Unseen P) {addr} (h : P s) : P (markDamaged addr s) := by
  unfold markDamaged
  extract_lets s1 x
  have h1 : P s1 := unseen_memDamage hP h
  exact holds_ite h1 (hP.mem id h1)

theorem keeps_markDamaged {addr} (h : Keeps s₀ s) : Keeps s₀ (markDamaged addr s) :=
  unseen_markDamaged unseen_keeps h

theorem unseen_perfAdd (hP : Unseen P) {i n} (h : P s) : P (perfAdd i n s) := by
  unfold perfAdd
  exact hP.diag h

theorem keeps_perfAdd {i n} (h : Keeps s₀ s) : Keeps s₀ (perfAdd i n s) :=
  unseen_perfAdd unseen_keeps h

theorem unseen_seenBytes (hP : Unseen P) {who a bs} (h : P s) : P (seenBytes who a bs s) := by
  unfold seenBytes
  exact unseen_pendWrite hP h

theorem keeps_seenBytes {who a bs} (h : Keeps s₀ s) : Keeps s₀ (seenBytes who a bs s) :=
  unseen_seenBytes unseen_keeps h

theorem unseen_seenWords (hP : Unseen P) {who a ws} (h : P s) : P (seenWords who a ws s) := by
  unfold seenWords
  exact unseen_seenBytes hP h

theorem keeps_seenWords {who a ws} (h : Keeps s₀ s) : Keeps s₀ (seenWords who a ws s) :=
  unseen_seenWords unseen_keeps h

theorem unseen_devWrite (hP : Unseen P) {who a bs} (h : P s) : P (devWrite who a bs s) := by
  unfold devWrite
  extract_lets s1
  have h1 : P s1 := unseen_seenBytes hP h
  exact holds_ite (unseen_perfAdd hP h1) h1

theorem keeps_devWrite {who a bs} (h : Keeps s₀ s) : Keeps s₀ (devWrite who a bs s) :=
  unseen_devWrite unseen_keeps h

theorem unseen_readCount (hP : Unseen P) {a n} (h : P s) : P (readCount a n s) := by
  unfold readCount
  exact holds_ite (unseen_perfAdd hP h) h

theorem keeps_readCount {a n} (h : Keeps s₀ s) : Keeps s₀ (readCount a n s) :=
  unseen_readCount unseen_keeps h

/-! ### Installed lists and their runs -/

theorem steady_instSet {id f} (h : Steady s₀ s) : Steady s₀ (instSet id f s) := by
  unfold instSet
  exact h

theorem keeps_instSet {id f} (h : Keeps s₀ s) : Keeps s₀ (instSet id f s) :=
  keeps_of_steady h (steady_instSet (steady_refl s))

theorem keeps_statusNew {id base} (h : Keeps s₀ s) : Keeps s₀ (statusNew id base s) := by
  unfold statusNew
  exact keeps_seenWords h

theorem keeps_listInstall {l} (h : Keeps s₀ s) : Keeps s₀ (listInstall l s) := by
  unfold listInstall
  extract_lets x s1 s2
  have h1 : Keeps s₀ s1 := h
  have h2 : Keeps s₀ s2 := keeps_claimAll h1
  exact keeps_foldl h2 fun _ _ ht => keeps_statusNew ht

theorem steady_listDrop {id} (h : Steady s₀ s) : Steady s₀ (listDrop id s) := by
  unfold listDrop
  split
  · exact h
  · extract_lets ends rest held x
    exact h

theorem keeps_listDrop {id} (h : Keeps s₀ s) : Keeps s₀ (listDrop id s) :=
  keeps_of_steady h (steady_listDrop (steady_refl s))

theorem steady_statusFallback {commit cause unb base} (h : Steady s₀ s) : Steady s₀ (statusFallback commit cause unb base s) := by
  unfold statusFallback
  extract_lets w w4
  exact steady_memWriteWords h

theorem steady_statusAbort {cause base} (h : Steady s₀ s) : Steady s₀ (statusAbort cause base s) := by
  unfold statusAbort
  exact steady_memWriteWords h

theorem unseen_listRecord (hP : Unseen P) {sev code fid id seg act more} (h : P s) : P
  (listRecord sev code fid id seg act more s) := by
  unfold listRecord
  exact unseen_emit hP h

theorem unseen_computeAdd (hP : Unseen P) {i} (h : P s) : P (computeAdd i s) := by
  unfold computeAdd
  exact hP.diag h

theorem unseen_energyCharge (hP : Unseen P) {l r aborted} (h : P s) : P (energyCharge l r aborted s) := by
  unfold energyCharge
  extract_lets uj held x arm s1
  have h1 : P s1 := hP.ledger h
  exact holds_ite (hP.ledger h) (holds_ite (unseen_emit hP h1) h1)

theorem steady_runClear {id cause} (h : Steady s₀ s) : Steady s₀ (runClear id cause s) := by
  unfold runClear
  extract_lets clear x
  exact steady_of h rfl fun hs => by simpa [Sound] using hs

theorem unseen_cleanCopy (hP : Unseen P) {v fid src dst ws} (h : P s) : P (cleanCopy v fid src dst ws s) := by
  unfold cleanCopy
  refine holds_ite ?_ ?_
  · exact unseen_seenWords hP h
  · refine holds_foldl h fun t x ht => ?_
    split
    · exact unseen_seenWords hP ht
    · exact holds_ite (unseen_uncorrectable hP ht) ht

theorem unseen_fallbackArea (hP : Unseen P) {l due seg cause x} (h : P s) : P (fallbackArea l due seg cause x s) := by
  unfold fallbackArea
  extract_lets bs b0 s1 takes x1 n unb s2 x2 s3
  have h1 : P s1 := unseen_seeAs hP h
  have h2 : P s2 := by
    unfold s2
    refine holds_foldl h fun t x ht => ?_
    extract_lets cur
    exact unseen_cleanCopy hP ht
  have h3 : P s3 := hP.lists rfl h2
  exact holds_ite (hP.lists rfl h) (holds_ite (unseen_listRecord hP h3) h3)

theorem steady_abortRecord {l seg tile cause used} (h : Steady s₀ s) : Steady s₀ (abortRecord l seg tile cause used s) := by
  unfold abortRecord
  extract_lets due n
  exact steady_ite (unseen_listRecord unseen_steady (steady_instSet h)) (steady_instSet h)

theorem steady_onceGone {l seg cause} (h : Steady s₀ s) : Steady s₀ (onceGone l seg cause s) := by
  unfold onceGone
  refine steady_ite ?_ ?_
  · extract_lets s1
    have h1 : Steady s₀ s1 := unseen_listRecord unseen_steady (steady_listDrop h)
    exact steady_ite (unseen_answer unseen_steady h1) h1
  · exact h

theorem steady_removalDue {id} (h : Steady s₀ s) : Steady s₀ (removalDue id s) := by
  unfold removalDue
  split
  · exact steady_ite (unseen_answer unseen_steady (steady_listDrop h)) h
  · exact h

theorem steady_queueFaulted {stop : State → State} {fid cause : Nat} (h : Steady s₀ s)
    (hstop : ∀ t, Steady s₀ t → Steady s₀ (stop t)) : Steady s₀ (queueFaulted stop fid cause s) := by
  unfold queueFaulted
  exact steady_ite h (unseen_answer unseen_steady (hstop _ (steady_fnFault h)))

theorem steady_runStop {id} (h : Steady s₀ s) : Steady s₀ (runStop id s) := by
  unfold runStop
  split
  · extract_lets f p
    exact steady_ite (steady_removalDue (steady_runClear (steady_instSet h))) h
  · exact h

theorem steady_queueStopRuns {fid} (h : Steady s₀ s) : Steady s₀ (queueStopRuns fid s) := by
  unfold queueStopRuns
  exact steady_foldl h fun _ _ ht => steady_runStop ht

theorem steady_queueFault {fid cause} (h : Steady s₀ s) : Steady s₀ (queueFault fid cause s) := by
  unfold queueFault
  refine steady_queueFaulted h fun t ht => ?_
  exact steady_queueStopRuns ht

theorem keeps_queueFault {fid cause} (h : Keeps s₀ s) : Keeps s₀ (queueFault fid cause s) :=
  keeps_of_steady h (steady_queueFault (steady_refl s))

theorem steady_runAbort {id seg tile cause used bseg} (h : Steady s₀ s) : Steady s₀ (runAbort id seg tile cause used bseg s) := by
  unfold runAbort
  split
  · exact h
  · split
    · exact h
    · extract_lets due fl pk stop s1 r' s2 s3 s4 full s5 s6 s7
      have h1 : Steady s₀ s1 := steady_of h rfl fun hs => by simpa [Sound, s1] using hs
      have h2 : Steady s₀ s2 := steady_runClear h1
      have h3 : Steady s₀ s3 := steady_instSet h2
      have h4 : Steady s₀ s4 := unseen_computeAdd unseen_steady h3
      have h5 : Steady s₀ s5 := steady_foldl h4 fun _ _ ht => unseen_fallbackArea unseen_steady ht
      have h6 : Steady s₀ s6 := steady_abortRecord h5
      have h7 : Steady s₀ s7 := steady_removalDue (steady_onceGone (unseen_energyCharge unseen_steady h6))
      exact steady_ite (steady_queueFault h7) h7

theorem steady_runCommit {id} (h : Steady s₀ s) : Steady s₀ (runCommit id s) := by
  unfold runCommit
  split
  · exact h
  · split
    · exact h
    · extract_lets s1 s2 s3 s4
      have h1 : Steady s₀ s1 := steady_runClear h
      have h2 : Steady s₀ s2 := unseen_seeAs unseen_steady h1
      have h3 : Steady s₀ s3 := steady_foldl h1 fun _ _ ht => unseen_seenWords unseen_steady ht
      have h4 : Steady s₀ s4 := steady_instSet h3
      exact steady_removalDue (steady_onceGone (unseen_energyCharge unseen_steady h4))

theorem steady_streakAbort {fid cause} (h : Steady s₀ s) : Steady s₀ (streakAbort fid cause s) := by
  unfold streakAbort
  extract_lets i k put s1 s2 s3
  have hput : ∀ {a0 t}, Steady s₀ t → Steady s₀ (put a0 t) := by
    intro a0 t ht
    exact ht
  have h1 : Steady s₀ s1 := hput h
  have h2 : Steady s₀ s2 := hput h
  have h3 : Steady s₀ s3 := hput h
  exact steady_ite h (steady_ite (steady_ite (steady_queueFault h1) h1) (steady_ite (steady_ite (steady_queueFault h2) h2) (steady_ite
    (steady_ite (steady_queueFault h3) h3) h)))

theorem steady_streakBoundary (h : Steady s₀ s) : Steady s₀ (streakBoundary s) := by
  unfold streakBoundary
  exact h

theorem steady_segAbort {id seg tile cause used bseg} (h : Steady s₀ s) : Steady s₀ (segAbort id seg tile cause used bseg s) := by
  unfold segAbort
  split
  · exact h
  · exact steady_streakAbort (steady_runAbort h)

theorem steady_flipsBoundary {k} (h : Steady s₀ s) : Steady s₀ (flipsBoundary k s) := by
  unfold flipsBoundary
  extract_lets due x s1
  have h1 : Steady s₀ s1 := h
  exact steady_foldl h1 fun _ _ ht => steady_foldl ht fun _ _ ht => steady_ite (steady_statusFallback ht) (steady_statusAbort ht)

theorem steady_shedMark {id} (h : Steady s₀ s) : Steady s₀ (shedMark id s) := by
  unfold shedMark
  exact h

theorem steady_shedRun {l} (h : Steady s₀ s) : Steady s₀ (shedRun l s) := by
  unfold shedRun
  split
  · extract_lets p
    have hp : Steady s₀ p.1 := steady_takeFree h
    exact steady_segAbort hp
  · exact h

theorem steady_shedOne {l p} (h : Steady s₀ s) : Steady s₀ (shedOne l p s) := by
  unfold shedOne
  extract_lets done suspend s1
  have hdone : ∀ {a0 t}, Steady s₀ t → Steady s₀ (done a0 t) := by
    intro a0 t ht
    exact unseen_listRecord unseen_steady (unseen_computeAdd unseen_steady (steady_shedMark ht))
  have hsuspend : ∀ {t}, Steady s₀ t → Steady s₀ (suspend t) := by
    intro t ht
    unfold suspend
    extract_lets s2
    have h2 : Steady s₀ s2 := steady_instSet (steady_shedRun ht)
    exact hdone h2
  have h1 : Steady s₀ s1 := steady_instSet (steady_instSet (steady_shedRun h))
  refine steady_ite ?_ ?_
  · exact unseen_listRecord unseen_steady (unseen_computeAdd unseen_steady (steady_shedRun h))
  · refine steady_ite ?_ ?_
    · split
      · exact hdone (steady_instSet (steady_shedRun h))
      · exact hsuspend h
    · exact steady_ite (steady_ite (hdone h1) (hsuspend h)) (hsuspend h)

theorem steady_shedAll {n : Nat} (h : Steady s₀ s) : Steady s₀ (shedAll n s) := by
  induction n generalizing s with
  | zero => exact h
  | succ n ih =>
    unfold shedAll
    split
    · exact h
    · exact ih (steady_shedOne h)

theorem steady_fallbackEnds {n id : Nat} (h : Steady s₀ s) : Steady s₀ (fallbackEnds n id s) := by
  induction n generalizing id s with
  | zero => exact h
  | succ n ih =>
    unfold fallbackEnds
    split
    · exact h
    · extract_lets next s1 x s2
      have h1 : Steady s₀ s1 := steady_instSet (steady_shedRun h)
      have h2 : Steady s₀ s2 := h1
      exact steady_ite (ih h2) h2

theorem steady_restoreOne {id} (h : Steady s₀ s) : Steady s₀ (restoreOne id s) := by
  unfold restoreOne
  split
  · exact h
  · refine steady_ite ?_ ?_
    · exact h
    · extract_lets ends s1 s2 x s3
      have h1 : Steady s₀ s1 := steady_instSet (steady_ite (steady_instSet h) h)
      have h2 : Steady s₀ s2 := steady_instSet (steady_ite (steady_fallbackEnds h) h)
      have h3 : Steady s₀ s3 := h2
      exact steady_ite (unseen_listRecord unseen_steady (unseen_computeAdd unseen_steady h3)) h

theorem steady_restoreAll (h : Steady s₀ s) : Steady s₀ (restoreAll s) := by
  unfold restoreAll
  exact steady_foldl h fun _ _ ht => steady_restoreOne ht

theorem steady_restoreBoundary (h : Steady s₀ s) : Steady s₀ (restoreBoundary s) := by
  unfold restoreBoundary
  exact steady_ite (steady_restoreAll h) h

theorem steady_runsBegin {k} (h : Steady s₀ s) : Steady s₀ (runsBegin k s) := by
  unfold runsBegin
  extract_lets go x
  exact h

theorem keeps_submitImage {n img} (h : Keeps s₀ s) : Keeps s₀ (submitImage n img s).1 := by
  unfold submitImage
  extract_lets v x l sh first
  split
  · exact h
  · split
    · exact keeps_emit h
    · split
      · exact h
      · split
        · exact h
        · exact keeps_listInstall h

theorem keeps_some_clerkRead {a n : Nat} (e : clerkRead s a n = some t) (h : Keeps s₀ s) : Keeps s₀ t := by
  obtain ⟨d, -, rfl⟩ := Option.map_eq_some_iff.1 e
  exact keeps_uncorrectable h

theorem keeps_listSubmitBody {r desc} (h : Keeps s₀ s) : Keeps s₀ (listSubmitBody r desc s).1 := by
  unfold listSubmitBody
  extract_lets n a
  refine keeps_guardE h fun s1 h1 => ?_
  split
  · split
    · exact h1
    · split
      · exact h1
      · split
        · exact h1
        · split
          next s2 e2 =>
            have h2 : Keeps s₀ s2 := keeps_some_clerkRead e2 h1
            exact h2
          · exact keeps_submitImage h1
  · split
    · exact h1
    · exact keeps_submitImage h1

theorem completes_execListSubmit {r desc} (h : Keeps s₀ s) : Completes s₀ (execListSubmit r desc s) := by
  unfold execListSubmit
  refine completes_mailbox h fun s1 h1 => ?_
  exact keeps_listSubmitBody h1

theorem keeps_listRemoveBody {r} (h : Keeps s₀ s) : Keeps s₀ (listRemoveBody r s).1 := by
  unfold listRemoveBody
  refine keeps_guardE h fun s1 h1 => ?_
  extract_lets id
  split
  · exact h1
  · split
    · exact keeps_instSet h1
    · exact keeps_listDrop h1

theorem completes_execListRemove {r} (h : Keeps s₀ s) : Completes s₀ (execListRemove r s) := by
  unfold execListRemove
  refine completes_mailbox h fun s1 h1 => ?_
  exact keeps_listRemoveBody h1

theorem keeps_listQueryBody {r} (h : Keeps s₀ s) : Keeps s₀ (listQueryBody r s).1 := by
  unfold listQueryBody
  extract_lets id
  split
  · exact h
  · split
    · exact h
    · exact keeps_instSet h

theorem completes_execListQuery {r} (h : Keeps s₀ s) : Completes s₀ (execListQuery r s) := by
  unfold execListQuery
  refine completes_mailbox h fun s1 h1 => ?_
  exact keeps_listQueryBody h1

theorem completes_execSchedQuery {r} (h : Keeps s₀ s) : Completes s₀ (execSchedQuery r s) := by
  unfold execSchedQuery
  refine completes_mailbox h fun s1 h1 => ?_
  exact keeps_asks h1

theorem keeps_queueStart {fid} (h : Keeps s₀ s) : Keeps s₀ (queueStart fid s) := by
  unfold queueStart
  extract_lets go x
  exact h

theorem keeps_queueOff {fid} (h : Keeps s₀ s) : Keeps s₀ (queueOff fid s) := by
  unfold queueOff
  exact keeps_foldl h fun _ _ ht => keeps_listDrop ht

/-! ### The model pool, packages and buckets -/

theorem keeps_sectFill {pkg c x} (h : Keeps s₀ s) : Keeps s₀ (sectFill pkg c x s) := by
  unfold sectFill
  extract_lets data bs at_
  exact keeps_foldl h fun _ _ ht => keeps_seenBytes ht

theorem keeps_installAll {ls} (h : Keeps s₀ s) : Keeps s₀ (installAll s ls).1 := by
  unfold installAll
  refine keeps_foldl_fst h fun t x ht => ?_
  extract_lets x1 l
  exact keeps_listInstall ht

theorem keeps_authRecord {op a} (h : Keeps s₀ s) : Keeps s₀ (authRecord op a s) := by
  unfold authRecord
  exact keeps_ite (keeps_emit h) h

theorem keeps_pkgInstall {p xs} (h : Keeps s₀ s) : Keeps s₀ (pkgInstall p xs s).1 := by
  unfold pkgInstall
  extract_lets s1 r s2 x s3
  have h1 : Keeps s₀ s1 := keeps_foldl h fun _ _ ht => keeps_sectFill ht
  have hr : Keeps s₀ r.1 := keeps_installAll h1
  have h2 : Keeps s₀ s2 := hr
  have h3 : Keeps s₀ s3 := h2
  exact keeps_measure h3

theorem keeps_pkgLoad {p xs} (h : Keeps s₀ s) : Keeps s₀ (pkgLoad p xs s).1 := by
  unfold pkgLoad
  extract_lets sh r
  have hr : Keeps s₀ r.1 := keeps_pkgInstall h
  split
  · exact h
  · exact hr

theorem keeps_loadBuiltin {id variant} (h : Keeps s₀ s) : Keeps s₀ (loadBuiltin id variant s).1 := by
  unfold loadBuiltin
  extract_lets p
  split
  · exact keeps_emit h
  · refine keeps_guardE h fun s1 h1 => ?_
    exact keeps_pkgLoad h1

theorem keeps_loadUser {ws n} (h : Keeps s₀ s) : Keeps s₀ (loadUser ws n s).1 := by
  unfold loadUser
  extract_lets imgs p f xs
  have hf : Keeps s₀ f.1 := keeps_takeFree h
  split
  · exact h
  · split
    · exact keeps_emit h
    · split
      · exact h
      · split
        · exact hf
        · extract_lets all
          split
          · exact keeps_authRecord hf
          · exact keeps_pkgLoad hf

theorem completes_execModelLoad {r desc} (h : Keeps s₀ s) : Completes s₀ (execModelLoad r desc s) := by
  unfold execModelLoad
  refine completes_mailbox h fun s1 h1 => ?_
  refine keeps_guardE h1 fun s2 h2 => ?_
  extract_lets n a
  split
  · exact keeps_loadBuiltin h2
  · split
    next s3 e3 =>
      have h3 : Keeps s₀ s3 := keeps_some_clerkRead e3 h2
      exact h3
    · exact keeps_loadUser h2
  · split
    · exact h2
    · exact keeps_loadUser h2

theorem steady_areaClear {base} (h : Steady s₀ s) : Steady s₀ (areaClear base s) := by
  unfold areaClear
  exact unseen_seenWords unseen_steady h

theorem steady_forecastClear (h : Steady s₀ s) : Steady s₀ (forecastClear s) := by
  unfold forecastClear
  exact steady_foldl h fun _ _ ht => steady_areaClear ht

theorem steady_unloadDone {id} (h : Steady s₀ s) : Steady s₀ (unloadDone id s) := by
  unfold unloadDone
  split
  · exact h
  · refine steady_ite ?_ ?_
    · exact h
    · extract_lets x s1 s2
      have h1 : Steady s₀ s1 := h
      have h2 : Steady s₀ s2 := steady_ite (steady_forecastClear h1) h1
      exact steady_measure h2

theorem keeps_unloadDone {id} (h : Keeps s₀ s) : Keeps s₀ (unloadDone id s) :=
  keeps_of_steady h (steady_unloadDone (steady_refl s))

theorem keeps_unloadList {id} (h : Keeps s₀ s) : Keeps s₀ (unloadList s id) := by
  unfold unloadList
  split
  · exact h
  · exact keeps_ite (keeps_instSet h) (keeps_listDrop h)

theorem steady_unloadsDue (h : Steady s₀ s) : Steady s₀ (unloadsDue s) := by
  unfold unloadsDue
  exact steady_foldl h fun _ _ ht => steady_ite (unseen_answer unseen_steady (steady_unloadDone ht)) ht

theorem keeps_modelUnloadBody {r} (h : Keeps s₀ s) : Keeps s₀ (modelUnloadBody r s).1 := by
  unfold modelUnloadBody
  refine keeps_guardE h fun s1 h1 => ?_
  extract_lets id
  split
  · exact h1
  · extract_lets s2
    have h2 : Keeps s₀ s2 := by
      unfold s2
      refine keeps_foldl h1 fun t x ht => ?_
      exact keeps_unloadList ht
    split
    · exact h2
    · exact keeps_unloadDone h2

theorem completes_execModelUnload {r} (h : Keeps s₀ s) : Completes s₀ (execModelUnload r s) := by
  unfold execModelUnload
  refine completes_mailbox h fun s1 h1 => ?_
  exact keeps_modelUnloadBody h1

theorem completes_execModelQuery {r} (h : Keeps s₀ s) : Completes s₀ (execModelQuery r s) := by
  unfold execModelQuery
  refine completes_mailbox h fun s1 h1 => ?_
  exact keeps_asks h1

theorem steady_bucketSet {st f} (h : Steady s₀ s) : Steady s₀ (bucketSet st f s) := by
  unfold bucketSet
  exact h

theorem keeps_bucketSet {st f} (h : Keeps s₀ s) : Keeps s₀ (bucketSet st f s) :=
  keeps_of_steady h (steady_bucketSet (steady_refl s))

theorem keeps_bucketFill {b} (h : Keeps s₀ s) : Keeps s₀ (bucketFill b s) := by
  unfold bucketFill
  extract_lets s1
  have h1 : Keeps s₀ s1 := keeps_seenBytes h
  exact keeps_seenWords h1

theorem steady_bucketPut {st sample last} (h : Steady s₀ s) : Steady s₀ (bucketPut st sample last s) := by
  unfold bucketPut
  split
  · exact h
  · extract_lets a b'
    exact steady_memWriteWords (steady_bucketSet (unseen_memWrite unseen_steady h))

theorem steady_bucketStroke {st k v} (h : Steady s₀ s) : Steady s₀ (bucketStroke st k v s) := by
  unfold bucketStroke
  split
  · exact h
  · extract_lets b' s1
    have h1 : Steady s₀ s1 := steady_bucketSet h
    exact steady_ite h1 (steady_bucketPut h1)

theorem keeps_bucketNew {st l d} (h : Keeps s₀ s) : Keeps s₀ (bucketNew st l d s).1 := by
  unfold bucketNew
  extract_lets n f fs x s1 x1
  have hf : Keeps s₀ f.1 := keeps_takeFree h
  have h1 : Keeps s₀ s1 := hf
  split
  · exact h
  · extract_lets b
    exact keeps_bucketFill h1

theorem completes_execBucketSet {r} (h : Keeps s₀ s) : Completes s₀ (execBucketSet r s) := by
  unfold execBucketSet
  refine completes_mailbox h fun s1 h1 => ?_
  refine keeps_guardE h1 fun s2 h2 => ?_
  extract_lets st x
  split
  · exact h2
  · exact keeps_bucketNew h2

theorem completes_execBucketQuery {r} (h : Keeps s₀ s) : Completes s₀ (execBucketQuery r s) := by
  unfold execBucketQuery
  refine completes_mailbox h fun s1 h1 => ?_
  extract_lets st
  split
  · exact h1
  · split
    · split
      next s2 e2 =>
        have h2 : Keeps s₀ s2 := keeps_some_clerkRead e2 h1
        exact h2
      · exact h1
    · exact h1

theorem steady_youngList {stand id} (h : Steady s₀ s) : Steady s₀ (youngList stand id s) := by
  unfold youngList
  split
  · exact h
  · refine steady_ite ?_ ?_
    · exact h
    · refine steady_ite ?_ ?_
      · refine steady_ite ?_ ?_
        · exact steady_instSet h
        · extract_lets s1
          have h1 : Steady s₀ s1 := steady_instSet (steady_instSet (steady_shedRun h))
          exact unseen_listRecord unseen_steady (unseen_computeAdd unseen_steady (steady_shedMark h1))
      · exact steady_instSet h

theorem steady_pkgMod {id f} (h : Steady s₀ s) : Steady s₀ (pkgMod id f s) := by
  unfold pkgMod
  exact h

theorem steady_youngBoundary {k} (h : Steady s₀ s) : Steady s₀ (youngBoundary k s) := by
  unfold youngBoundary
  refine steady_foldl h fun t x ht => ?_
  extract_lets y n z s1 s2 s3
  have h1 : Steady s₀ s1 := steady_pkgMod ht
  have h2 : Steady s₀ s2 := steady_ite h1 (unseen_emit unseen_steady h1)
  have h3 : Steady s₀ s3 := steady_foldl h2 fun _ _ ht => steady_youngList ht
  exact steady_ite h2 (steady_ite h3 (steady_restoreAll h3))

/-! ### The storage converter -/

theorem steady_publish {commit base size ws} (h : Steady s₀ s) : Steady s₀ (publish commit base size ws s) := by
  unfold publish
  exact steady_memWriteWords (steady_memWriteWords h)

theorem steady_publishLater {commit base size ws} (h : Steady s₀ s) : Steady s₀ (publishLater commit base size ws s) := by
  unfold publishLater
  exact unseen_seenWords unseen_steady (unseen_seenWords unseen_steady h)

theorem steady_stMod {f} (h : Steady s₀ s) : Steady s₀ (stMod f s) := by
  unfold stMod
  exact h

theorem keeps_stMod {f} (h : Keeps s₀ s) : Keeps s₀ (stMod f s) :=
  keeps_of_steady h (steady_stMod (steady_refl s))

theorem steady_stRecord {sev code detail} (h : Steady s₀ s) : Steady s₀ (stRecord sev code detail s) := by
  unfold stRecord
  exact unseen_emit unseen_steady h

theorem keeps_stRecord {sev code detail} (h : Keeps s₀ s) : Keeps s₀ (stRecord sev code detail s) :=
  keeps_of_steady h (steady_stRecord (steady_refl s))

theorem steady_stageFault {cause} (h : Steady s₀ s) : Steady s₀ (stageFault cause s) := by
  unfold stageFault
  refine steady_ite ?_ ?_
  · extract_lets s1
    have h1 : Steady s₀ s1 := steady_fnFault (steady_stMod h)
    exact unseen_answer unseen_steady (unseen_answer unseen_steady h1)
  · exact h

theorem keeps_stageFault {cause} (h : Keeps s₀ s) : Keeps s₀ (stageFault cause s) :=
  keeps_of_steady h (steady_stageFault (steady_refl s))

theorem steady_stageStopped (h : Steady s₀ s) : Steady s₀ (stageStopped s) := by
  unfold stageStopped
  refine steady_ite ?_ ?_
  · extract_lets s1
    have h1 : Steady s₀ s1 := steady_fnSet (steady_claimRelease (steady_stMod h))
    exact unseen_answer unseen_steady (unseen_answer unseen_steady h1)
  · exact h

theorem keeps_stageStopped (h : Keeps s₀ s) : Keeps s₀ (stageStopped s) :=
  keeps_of_steady h (steady_stageStopped (steady_refl s))

theorem steady_softBegin {attempt} (h : Steady s₀ s) : Steady s₀ (softBegin attempt s) := by
  unfold softBegin
  extract_lets d
  exact steady_stMod h

theorem keeps_softBegin {attempt} (h : Keeps s₀ s) : Keeps s₀ (softBegin attempt s) :=
  keeps_of_steady h (steady_softBegin (steady_refl s))

theorem steady_softStart (h : Steady s₀ s) : Steady s₀ (softStart s) := by
  unfold softStart
  exact steady_stMod (steady_softBegin h)

theorem keeps_softStart (h : Keeps s₀ s) : Keeps s₀ (softStart s) :=
  keeps_of_steady h (steady_softStart (steady_refl s))

theorem steady_stageStart (h : Steady s₀ s) : Steady s₀ (stageStart s) := by
  unfold stageStart
  extract_lets s1
  have h1 : Steady s₀ s1 := steady_claimAll h
  exact steady_stMod (steady_softStart (steady_fnSet h1))

theorem keeps_stageStart (h : Keeps s₀ s) : Keeps s₀ (stageStart s) :=
  keeps_of_steady h (steady_stageStart (steady_refl s))

theorem keeps_loopOpening (h : Keeps s₀ s) : Keeps s₀ (loopOpening s) := by
  unfold loopOpening
  split
  · exact keeps_stMod h
  · exact keeps_stMod h
  · extract_lets tUs a
    exact keeps_stMod h
  · exact h

theorem keeps_stageStopCmd (h : Keeps s₀ s) : Keeps s₀ (stageStopCmd s).1 := by
  unfold stageStopCmd
  split
  · exact keeps_stMod (keeps_loopOpening h)
  · exact keeps_stageStopped h

theorem keeps_stageClear (h : Keeps s₀ s) : Keeps s₀ (stageClear s) := by
  unfold stageClear
  extract_lets s1
  have h1 : Keeps s₀ s1 := keeps_stMod h
  exact keeps_vetoRelease (keeps_vetoRelease (keeps_fnSet (keeps_claimRelease h1)))

theorem completes_execStageConfig {r} (h : Keeps s₀ s) : Completes s₀ (execStageConfig r s) := by
  unfold execStageConfig
  refine completes_mailbox h fun s1 h1 => ?_
  refine keeps_guardE h1 fun s2 h2 => ?_
  exact keeps_stMod h2

theorem completes_execLoopCoef {r} (h : Keeps s₀ s) : Completes s₀ (execLoopCoef r s) := by
  unfold execLoopCoef
  refine completes_mailbox h fun s1 h1 => ?_
  refine keeps_guardE h1 fun s2 h2 => ?_
  exact keeps_stMod h2

theorem completes_execLoopOpen {r} (h : Keeps s₀ s) : Completes s₀ (execLoopOpen r s) := by
  unfold execLoopOpen
  refine completes_mailbox h fun s1 h1 => ?_
  refine keeps_guardE h1 fun s2 h2 => ?_
  extract_lets s3
  have h3 : Keeps s₀ s3 := keeps_loopOpening h2
  split
  · exact h3
  · exact h3

theorem completes_execLoopOpenParked (h : Keeps s₀ s) : Completes s₀ (execLoopOpenParked s) := by
  unfold execLoopOpenParked
  refine completes_ite ?_ ?_
  · extract_lets stop s1
    have h1 : Keeps s₀ s1 := keeps_answer (keeps_stMod h)
    exact completes_next (keeps_ite (keeps_stageStopped h1) h1)
  · exact completes_next h

theorem completes_execLoopClose {r} (h : Keeps s₀ s) : Completes s₀ (execLoopClose r s) := by
  unfold execLoopClose
  refine completes_mailbox h fun s1 h1 => ?_
  refine keeps_guardE h1 fun s2 h2 => ?_
  exact keeps_softStart h2

theorem completes_execStageMode {r} (h : Keeps s₀ s) : Completes s₀ (execStageMode r s) := by
  unfold execStageMode
  refine completes_mailbox h fun s1 h1 => ?_
  refine keeps_guardE h1 fun s2 h2 => ?_
  exact keeps_stMod h2

theorem completes_execStageQuery {r} (h : Keeps s₀ s) : Completes s₀ (execStageQuery r s) := by
  unfold execStageQuery
  refine completes_mailbox h fun s1 h1 => ?_
  exact keeps_asks h1

theorem keeps_traceSet {d t} (h : Keeps s₀ s) : Keeps s₀ (traceSet d t s) := by
  unfold traceSet
  exact h

theorem completes_execTraceArm {r} (h : Keeps s₀ s) : Completes s₀ (execTraceArm r s) := by
  unfold execTraceArm
  refine completes_mailbox h fun s1 h1 => ?_
  refine keeps_guardE h1 fun s2 h2 => ?_
  extract_lets w d need t
  exact keeps_claimAll (keeps_traceSet h2)

theorem completes_execTraceDisarm {r} (h : Keeps s₀ s) : Completes s₀ (execTraceDisarm r s) := by
  unfold execTraceDisarm
  refine completes_mailbox h fun s1 h1 => ?_
  refine keeps_guardE h1 fun s2 h2 => ?_
  extract_lets d x
  split
  · exact keeps_claimRelease (keeps_traceSet h2)
  · exact h2

theorem completes_execTraceQuery {r} (h : Keeps s₀ s) : Completes s₀ (execTraceQuery r s) := by
  unfold execTraceQuery
  refine completes_mailbox h fun s1 h1 => ?_
  exact keeps_asks h1

theorem completes_execTraceTrigger {die} (h : Keeps s₀ s) : Completes s₀ (execTraceTrigger die s) := by
  unfold execTraceTrigger
  extract_lets t
  exact completes_ite (completes_next (keeps_traceSet h)) (completes_next h)

theorem keeps_traceSample {d point} (h : Keeps s₀ s) : Keeps s₀ (traceSample d point s) := by
  unfold traceSample
  extract_lets t t1 t2
  exact keeps_ite h (keeps_ite (keeps_traceSet h) (keeps_traceSet h))

theorem keeps_traceBuffers {t base} (h : Keeps s₀ s) : Keeps s₀ (traceBuffers t base s) := by
  unfold traceBuffers
  exact keeps_foldl h fun _ _ ht => keeps_seenWords ht

theorem completes_execTraceCopied {die} (h : Keeps s₀ s) : Completes s₀ (execTraceCopied die s) := by
  unfold execTraceCopied
  extract_lets d t n s1 s2 s3
  have h1 : Keeps s₀ s1 := keeps_traceBuffers h
  have h2 : Keeps s₀ s2 := keeps_seenWords h1
  have h3 : Keeps s₀ s3 := keeps_claimRelease (keeps_traceSet h2)
  exact completes_ite (completes_next (keeps_stRecord h3)) (completes_next h)

theorem steady_senseCheck (h : Steady s₀ s) : Steady s₀ (senseCheck s) := by
  unfold senseCheck
  refine steady_ite ?_ ?_
  · extract_lets n s1
    have h1 : Steady s₀ s1 := steady_stMod h
    exact steady_ite (steady_stageFault (steady_vetoLatch (steady_stMod h1))) h1
  · exact steady_stMod h

theorem steady_stageBoundary {k} (h : Steady s₀ s) : Steady s₀ (stageBoundary k s) := by
  unfold stageBoundary
  extract_lets s1 s2 l s3
  have h1 : Steady s₀ s1 := steady_stMod h
  have h2 : Steady s₀ s2 := steady_senseCheck h1
  have h3 : Steady s₀ s3 := steady_stMod h2
  exact steady_publish h3

/-! ### The loop engines sample by sample, and the converter's protection events -/

theorem keeps_takeUpProfile (h : Keeps s₀ s) : Keeps s₀ (takeUpProfile s) := by
  unfold takeUpProfile
  refine keeps_ite ?_ ?_
  · extract_lets keep p
    exact keeps_stMod h
  · exact h

theorem keeps_refFound (h : Keeps s₀ s) : Keeps s₀ (refFound s) := by
  unfold refFound
  split
  · exact keeps_stMod h
  · exact h

theorem keeps_refEnter (h : Keeps s₀ s) : Keeps s₀ (refEnter s) := by
  unfold refEnter
  split
  · exact keeps_stMod h
  · exact keeps_stMod h
  · exact keeps_stMod h

theorem completes_execRefStarved (h : Keeps s₀ s) : Completes s₀ (execRefStarved s) := by
  unfold execRefStarved
  exact completes_ite (completes_next (keeps_stRecord (keeps_stMod h))) (completes_next h)

theorem keeps_stackEngine {m} (h : Keeps s₀ s) : Keeps s₀ (stackEngine m s) := by
  unfold stackEngine
  exact keeps_stMod h

theorem keeps_busEngine {m} (h : Keeps s₀ s) : Keeps s₀ (busEngine m s) := by
  unfold busEngine
  exact keeps_stMod h

theorem keeps_phaseEngines {m} (h : Keeps s₀ s) : Keeps s₀ (phaseEngines m s) := by
  unfold phaseEngines
  exact keeps_stMod h

theorem keeps_softDuty {m} (h : Keeps s₀ s) : Keeps s₀ (softDuty m s) := by
  unfold softDuty
  exact keeps_stMod h

theorem keeps_sampleBegin {m} (h : Keeps s₀ s) : Keeps s₀ (sampleBegin m s) := by
  unfold sampleBegin
  extract_lets s1 x s2 x1 s3
  have h1 : Keeps s₀ s1 := keeps_refFound (keeps_takeUpProfile h)
  have h2 : Keeps s₀ s2 := h1
  have h3 : Keeps s₀ s3 := h2
  exact keeps_stMod h3

theorem keeps_loopMismatch {check} (h : Keeps s₀ s) : Keeps s₀ (loopMismatch check s) := by
  unfold loopMismatch
  exact keeps_ite (keeps_stageFault (keeps_vetoLatch h)) h

theorem keeps_foldBack {m} (h : Keeps s₀ s) : Keeps s₀ (foldBack m s) := by
  unfold foldBack
  extract_lets old a lim half s1 p
  have h1 : Keeps s₀ s1 := keeps_stMod h
  refine keeps_ite ?_ ?_
  · exact keeps_ite (keeps_stRecord (keeps_stMod h1)) h1
  · split
    · exact keeps_stRecord (keeps_stMod h1)
    · exact h1

theorem keeps_softAbort (h : Keeps s₀ s) : Keeps s₀ (softAbort s) := by
  unfold softAbort
  extract_lets n s1
  have h1 : Keeps s₀ s1 := keeps_stRecord h
  exact keeps_ite (keeps_stageFault h1) (keeps_stMod h1)

theorem keeps_fastLimit {m} (h : Keeps s₀ s) : Keeps s₀ (fastLimit m s) := by
  unfold fastLimit
  extract_lets hit n s1 n1 s2
  have h1 : Keeps s₀ s1 := keeps_stMod h
  have h2 : Keeps s₀ s2 := keeps_stMod h
  split
  · exact keeps_ite (keeps_softAbort h1) h1
  · exact keeps_ite (keeps_stageFault h2) h2
  · exact keeps_ite (keeps_stageFault h2) h2
  · exact h

theorem keeps_abortRecorded {m was} (h : Keeps s₀ s) : Keeps s₀ (abortRecorded m was s) := by
  unfold abortRecorded
  exact keeps_ite (keeps_stRecord h) h

theorem keeps_uvWatch (h : Keeps s₀ s) : Keeps s₀ (uvWatch s) := by
  unfold uvWatch
  exact keeps_stMod h

theorem keeps_toVoltage (h : Keeps s₀ s) : Keeps s₀ (toVoltage s) := by
  unfold toVoltage
  exact keeps_stRecord (keeps_stMod h)

theorem keeps_toCurrent (h : Keeps s₀ s) : Keeps s₀ (toCurrent s) := by
  unfold toCurrent
  exact keeps_stRecord (keeps_stMod h)

theorem keeps_modeStep (h : Keeps s₀ s) : Keeps s₀ (modeStep s) := by
  unfold modeStep
  extract_lets s1 x n s2
  have h1 : Keeps s₀ s1 := keeps_stMod h
  have h2 : Keeps s₀ s2 := keeps_stMod h1
  exact keeps_ite (keeps_ite (keeps_toCurrent h1) h1) (keeps_ite (keeps_stMod h1) (keeps_ite (keeps_toVoltage h1) (keeps_ite
    (keeps_ite (keeps_toVoltage h2) h2) (keeps_stMod h1))))

theorem keeps_enginesStep {m} (h : Keeps s₀ s) : Keeps s₀ (enginesStep m s) := by
  unfold enginesStep
  extract_lets x
  exact keeps_ite (keeps_softDuty h) (keeps_ite (keeps_phaseEngines (keeps_ite (keeps_busEngine h) (keeps_stackEngine
    (keeps_ite (keeps_refEnter h) h)))) (keeps_stMod h))

theorem keeps_chargeStep (h : Keeps s₀ s) : Keeps s₀ (chargeStep s) := by
  unfold chargeStep
  extract_lets x i q
  exact keeps_stMod h

theorem keeps_sumsStep {d m} (h : Keeps s₀ s) : Keeps s₀ (sumsStep d m s) := by
  unfold sumsStep
  exact keeps_stMod h

theorem completes_execSampleBoundary {codes check tripped} (h : Keeps s₀ s) : Completes s₀
  (execSampleBoundary codes check tripped s) := by
  unfold execSampleBoundary
  refine completes_ite ?_ ?_
  · exact completes_next h
  · extract_lets m d s1 s2 s3
    have h1 : Keeps s₀ s1 := keeps_sampleBegin h
    have h2 : Keeps s₀ s2 := keeps_enginesStep (keeps_modeStep (keeps_uvWatch (keeps_fastLimit (keeps_foldBack
      (keeps_abortRecorded (keeps_loopMismatch h1))))))
    have h3 : Keeps s₀ s3 := keeps_traceSample (keeps_traceSample h2)
    exact completes_next (keeps_sumsStep (keeps_chargeStep h3))

theorem completes_execSoftStartRampEnd (h : Keeps s₀ s) : Completes s₀ (execSoftStartRampEnd s) := by
  unfold execSoftStartRampEnd
  exact completes_ite (completes_next (keeps_stMod h)) (completes_next h)

theorem completes_execSoftStartLoopClose (h : Keeps s₀ s) : Completes s₀ (execSoftStartLoopClose s) := by
  unfold execSoftStartLoopClose
  exact completes_ite (completes_next (keeps_stMod h)) (completes_next h)

theorem completes_execSoftStartRetry (h : Keeps s₀ s) : Completes s₀ (execSoftStartRetry s) := by
  unfold execSoftStartRetry
  exact completes_ite (completes_next (keeps_softBegin h)) (completes_next h)

theorem completes_execVoltageModeExit (h : Keeps s₀ s) : Completes s₀ (execVoltageModeExit s) := by
  unfold execVoltageModeExit
  exact completes_ite (completes_next (keeps_toCurrent h)) (completes_next h)

theorem completes_execFastLimitTrip {trip} (h : Keeps s₀ s) : Completes s₀ (execFastLimitTrip trip s) := by
  unfold execFastLimitTrip
  exact completes_ite (completes_next h) (completes_next (keeps_stMod h))

theorem completes_execOvLatch (h : Keeps s₀ s) : Completes s₀ (execOvLatch s) := by
  unfold execOvLatch
  exact completes_ite (completes_next (keeps_stMod (keeps_stageFault h))) (completes_next h)

theorem completes_execUvTrip (h : Keeps s₀ s) : Completes s₀ (execUvTrip s) := by
  unfold execUvTrip
  exact completes_ite (completes_next (keeps_stageFault h)) (completes_next h)

theorem completes_execFaultInAsserted {pin} (h : Keeps s₀ s) : Completes s₀ (execFaultInAsserted pin s) := by
  unfold execFaultInAsserted
  extract_lets s1 a s2
  have h1 : Keeps s₀ s1 := keeps_stMod h
  have h2 : Keeps s₀ s2 := keeps_stRecord h1
  exact completes_ite (completes_ite (completes_next (keeps_stageStopped h2)) (completes_ite (completes_next
    (keeps_stageFault h2)) (completes_next h2))) (completes_next h1)

theorem completes_execFaultInDeasserted {pin} (h : Keeps s₀ s) : Completes s₀ (execFaultInDeasserted pin s) := by
  unfold execFaultInDeasserted
  exact completes_next (keeps_stMod h)

theorem steady_stageGrantLost (h : Steady s₀ s) : Steady s₀ (stageGrantLost s) := by
  unfold stageGrantLost
  extract_lets l s1
  have h1 : Steady s₀ s1 := steady_stMod h
  exact steady_ite (steady_stageStopped (steady_stRecord h1)) h1

/-! ### The smoothing pipeline -/

theorem keeps_stageGrantLost (h : Keeps s₀ s) : Keeps s₀ (stageGrantLost s) :=
  keeps_of_steady h (steady_stageGrantLost (steady_refl s))

theorem keeps_areaAnswer {base size f} (h : Keeps s₀ s) : Keeps s₀ (areaAnswer base size f s).1 := by
  unfold areaAnswer
  split
  · exact keeps_uncorrectable h
  · exact h

theorem unseen_stageArea (hP : Unseen P) {l i ws} (h : P s) : P (stageArea l i ws s) := by
  unfold stageArea
  extract_lets x
  exact holds_foldl h fun _ _ ht => unseen_seenWords hP ht

theorem steady_markDrop {n} (h : Steady s₀ s) : Steady s₀ (markDrop n s) := by
  unfold markDrop
  exact h

theorem keeps_markDrop {n} (h : Keeps s₀ s) : Keeps s₀ (markDrop n s) :=
  keeps_of_steady h (steady_markDrop (steady_refl s))

theorem steady_edgeEnter {e} (h : Steady s₀ s) : Steady s₀ (edgeEnter e s) := by
  unfold edgeEnter
  exact steady_ite h (steady_markDrop h)

theorem keeps_edgeEnter {e} (h : Keeps s₀ s) : Keeps s₀ (edgeEnter e s) :=
  keeps_of_steady h (steady_edgeEnter (steady_refl s))

theorem keeps_edgeAccept {e} (h : Keeps s₀ s) : Keeps s₀ (edgeAccept e s) := by
  unfold edgeAccept
  extract_lets x s1 x1
  have h1 : Keeps s₀ s1 := h
  exact keeps_ite (keeps_ite (keeps_edgeEnter h1) h1) h1

theorem completes_execMarkEdge {n rising stroke tick} (h : Keeps s₀ s) : Completes s₀ (execMarkEdge n rising stroke tick s) := by
  unfold execMarkEdge
  refine completes_ite ?_ ?_
  · exact completes_next h
  · extract_lets m at_ close e m' x
    exact completes_ite (completes_next (keeps_markDrop h)) (completes_next (keeps_edgeAccept h))

theorem steady_pipeRecord {sev code word} (h : Steady s₀ s) : Steady s₀ (pipeRecord sev code word s) := by
  unfold pipeRecord
  exact unseen_emit unseen_steady h

theorem keeps_pipeRecord {sev code word} (h : Keeps s₀ s) : Keeps s₀ (pipeRecord sev code word s) :=
  keeps_of_steady h (steady_pipeRecord (steady_refl s))

theorem steady_targetsBoundary {k} (h : Steady s₀ s) : Steady s₀ (targetsBoundary k s) := by
  unfold targetsBoundary
  extract_lets x shelf x1 s1 x2 s2 x3 s3 x4
  have h1 : Steady s₀ s1 := h
  have h2 : Steady s₀ s2 := h1
  have h3 : Steady s₀ s3 := by
    unfold s3
    split
    · refine steady_ite ?_ ?_
      · exact h1
      · extract_lets rope s4
        have h4 : Steady s₀ s4 := steady_ite h2 h2
        exact steady_pipeRecord h4
    · exact h1
  split
  · exact steady_ite h3 h3
  · exact h3

theorem completes_execTargetSet {r} (h : Keeps s₀ s) : Completes s₀ (execTargetSet r s) := by
  unfold execTargetSet
  refine completes_mailbox h fun s1 h1 => ?_
  refine keeps_guardE h1 fun s2 h2 => ?_
  extract_lets k p x s3 x1 s4
  have h3 : Keeps s₀ s3 := h2
  have h4 : Keeps s₀ s4 := keeps_ite h3 h3
  exact h4

theorem completes_execCapSet {r} (h : Keeps s₀ s) : Completes s₀ (execCapSet r s) := by
  unfold execCapSet
  refine completes_mailbox h fun s1 h1 => ?_
  refine keeps_guardE h1 fun s2 h2 => ?_
  extract_lets k c x
  exact h2

theorem completes_execPipeConfig {r} (h : Keeps s₀ s) : Completes s₀ (execPipeConfig r s) := by
  unfold execPipeConfig
  refine completes_mailbox h fun s1 h1 => ?_
  refine keeps_guardE h1 fun s2 h2 => ?_
  exact h2

theorem completes_execPipeQuery {r} (h : Keeps s₀ s) : Completes s₀ (execPipeQuery r s) := by
  unfold execPipeQuery
  refine completes_mailbox h fun s1 h1 => ?_
  exact keeps_areaAnswer h1

theorem steady_announce {k} (h : Steady s₀ s) : Steady s₀ (announce k s) := by
  unfold announce
  extract_lets step x
  exact h

theorem steady_blockBoundary {k : Nat} (h : Steady s₀ s) : Steady s₀ (blockBoundary k s) := by
  unfold blockBoundary
  extract_lets ws s1 s2 late x
  have h1 : Steady s₀ s1 := steady_foldl h fun _ _ ht => steady_publish ht
  have h2 : Steady s₀ s2 := steady_announce h1
  exact steady_foldl (unseen_steady.pipe h2) fun _ _ ht => steady_edgeEnter ht

theorem steady_streamBoundary {k : Nat} (h : Steady s₀ s) : Steady s₀ (streamBoundary k s) := by
  unfold streamBoundary
  extract_lets w data put s1 s2 s3 x
  have h1 : Steady s₀ s1 := steady_foldl h fun _ _ ht => steady_bucketStroke ht
  have h2 : Steady s₀ s2 := steady_foldl h1 fun _ _ ht => steady_bucketStroke ht
  have h3 : Steady s₀ s3 := steady_foldl h2 fun _ _ ht => steady_foldl ht fun _ _ ht => steady_bucketPut ht
  clear_value x s3
  exact h3

theorem keeps_epochChange (h : Keeps s₀ s) : Keeps s₀ (epochChange s) := by
  unfold epochChange
  refine keeps_foldl h fun t x ht => ?_
  extract_lets b'
  exact keeps_pipeRecord (keeps_seenWords (keeps_bucketSet ht))

theorem unseen_dispatchRun (hP : Unseen P) {l k} (h : P s) : P (dispatchRun l k s) := by
  unfold dispatchRun
  extract_lets w c load est estOk live eD eC q pts plan v first sr slew base steps pr cur ss sj p0 x0 grid own dev up dn m unb
    clipP tEmpty flags status record s1 s2 x s3 due x1 s4 s5 x2
  have h1 : P s1 := unseen_stageArea hP h
  have h2 : P s2 := unseen_stageArea hP h1
  have h3 : P s3 := hP.pipe h2
  have h4 : P s4 := holds_ite (unseen_emit hP (hP.pipe h3)) h3
  have h5 : P s5 := holds_ite (unseen_emit hP h4) h4
  exact hP.pipe h5

theorem unseen_forecastRun (hP : Unseen P) {l k} (h : P s) : P (forecastRun l k s) := by
  unfold forecastRun
  extract_lets st bs fc
  exact unseen_stageArea hP (unseen_stageArea hP (unseen_stageArea hP h))

theorem unseen_persistRun (hP : Unseen P) {l} (h : P s) : P (persistRun l s) := by
  unfold persistRun
  extract_lets fc
  exact unseen_stageArea hP (unseen_stageArea hP (unseen_stageArea hP h))

theorem steady_shortRecord {what t} (h : Steady s₀ s) : Steady s₀ (shortRecord what t s) := by
  unfold shortRecord
  exact unseen_emit unseen_steady h

theorem steady_shortfallBoundary {k} (h : Steady s₀ s) : Steady s₀ (shortfallBoundary k s) := by
  unfold shortfallBoundary
  extract_lets w st t n x s1 x1 due n1 s2 x2
  have h1 : Steady s₀ s1 := h
  have h2 : Steady s₀ s2 := h
  exact steady_ite (steady_ite (steady_ite (steady_shortRecord h1) h1) (steady_ite (steady_shortRecord h1) h1)) (steady_ite
    (steady_shortRecord h2) h2)

/-! ### The system commands of chapter 4, BAR0 and its registers -/

theorem completes_execNop {r} (h : Keeps s₀ s) : Completes s₀ (execNop r s) := by
  unfold execNop
  refine completes_mailbox h fun s1 h1 => ?_
  exact keeps_asks h1

theorem keeps_ringSet {base log2} (h : Keeps s₀ s) : Keeps s₀ (ringSet base log2 s) := by
  unfold ringSet
  exact keeps_evtDrain h

theorem completes_execEventRingSet {r} (h : Keeps s₀ s) : Completes s₀ (execEventRingSet r s) := by
  unfold execEventRingSet
  refine completes_mailbox h fun s1 h1 => ?_
  refine keeps_guardE h1 fun s2 h2 => ?_
  exact keeps_ringSet h2

theorem completes_execFuncQuery {r} (h : Keeps s₀ s) : Completes s₀ (execFuncQuery r s) := by
  unfold execFuncQuery
  refine completes_mailbox h fun s1 h1 => ?_
  exact keeps_asks h1

theorem completes_execClaimQuery {r} (h : Keeps s₀ s) : Completes s₀ (execClaimQuery r s) := by
  unfold execClaimQuery
  refine completes_mailbox h fun s1 h1 => ?_
  exact keeps_asks h1

theorem completes_execUnknownOpcode {r opcode} (h : Keeps s₀ s) : Completes s₀ (execUnknownOpcode r opcode s) := by
  unfold execUnknownOpcode
  refine completes_mailbox h fun s1 h1 => ?_
  exact keeps_asks h1

theorem completes_execStrokeLoRead (h : Keeps s₀ s) : Completes s₀ (execStrokeLoRead s) := by
  unfold execStrokeLoRead
  exact completes_ite (completes_next h) (completes_next h)

theorem completes_execStrokeHiRead (h : Keeps s₀ s) : Completes s₀ (execStrokeHiRead s) := by
  unfold execStrokeHiRead
  exact completes_ite (completes_next h) (completes_next h)

theorem keeps_consWrite {v} (h : Keeps s₀ s) : Keeps s₀ (consWrite v s) := by
  unfold consWrite
  extract_lets bad x
  exact keeps_evtDrain h

theorem completes_execEvtConsWrite {v} (h : Keeps s₀ s) : Completes s₀ (execEvtConsWrite v s) := by
  unfold execEvtConsWrite
  exact completes_ite (completes_next h) (completes_next (keeps_consWrite h))

theorem keeps_mbRegWrite {n off : Nat} {v : Word} (h : Keeps s₀ s) : Keeps s₀ (mbRegWrite n off v s) := by
  unfold mbRegWrite
  extract_lets m put
  have hput : ∀ m, Keeps s₀ (put m) := fun m => keeps_of h rfl fun hs => by simpa [Sound, put] using hs
  exact keeps_ite (hput _) (keeps_ite (hput _) (keeps_ite (keeps_ite (keeps_mbOverrun h) h) (keeps_ite (hput _)
    (keeps_ite (hput _) h))))

theorem keeps_msixTableWrite {i v} (h : Keeps s₀ s) : Keeps s₀ (msixTableWrite i v s) := by
  unfold msixTableWrite
  extract_lets v1 x
  exact keeps_msixFlush h

theorem keeps_bar0Write {off v} (h : Keeps s₀ s) : Keeps s₀ (bar0Write off v s) := by
  unfold bar0Write
  exact keeps_ite (keeps_consWrite h) (keeps_ite h (keeps_ite (keeps_mbRegWrite h) (keeps_ite (keeps_of h rfl
    fun hs => by simpa [Sound] using hs) (keeps_ite (keeps_msixTableWrite h) h))))

theorem completes_execMsixUnmask {v} (h : Keeps s₀ s) : Completes s₀ (execMsixUnmask v s) := by
  unfold execMsixUnmask
  refine completes_ite ?_ ?_
  · exact completes_next h
  · split
    · exact completes_next (keeps_msixTableWrite h)
    · exact completes_next (keeps_msixFlushAll h)

/-! ### Policies -/

theorem unseen_btMod (hP : Unseen P) {f} (h : P s) : P (btMod f s) := by
  unfold btMod
  exact hP.boot h

theorem keeps_btMod {f} (h : Keeps s₀ s) : Keeps s₀ (btMod f s) :=
  unseen_btMod unseen_keeps h

theorem keeps_fwRecord {sev code w} (h : Keeps s₀ s) : Keeps s₀ (fwRecord sev code w s) := by
  unfold fwRecord
  exact keeps_emit h

theorem keeps_failCode (h : Keeps s₀ s) : Keeps s₀ (failCode s).1 := by
  unfold failCode
  split
  next s1 _ e1 =>
    have h1 : Keeps s₀ s1 := keeps_fst e1 (keeps_takeFree h)
    exact h1

theorem keeps_policyGo {slot p} (h : Keeps s₀ s) : Keeps s₀ (policyGo slot p s) := by
  unfold policyGo
  extract_lets s1
  have h1 : Keeps s₀ s1 := keeps_btMod h
  exact keeps_fwRecord (keeps_measure h1)

/-! ### The cell estimator -/

theorem unseen_estMod (hP : Unseen P) {f} (h : P s) : P (estMod f s) := by
  unfold estMod
  exact hP.est h

theorem keeps_estMod {f} (h : Keeps s₀ s) : Keeps s₀ (estMod f s) :=
  unseen_estMod unseen_keeps h

theorem unseen_estRecord (hP : Unseen P) {sev code more} (h : P s) : P (estRecord sev code more s) := by
  unfold estRecord
  exact unseen_emit hP h

theorem keeps_estRecord {sev code more} (h : Keeps s₀ s) : Keeps s₀ (estRecord sev code more s) :=
  unseen_estRecord unseen_keeps h

theorem unseen_cellPut (hP : Unseen P) {i f} (h : P s) : P (cellPut i f s) := by
  unfold cellPut
  exact unseen_estMod hP h

theorem keeps_cellPut {i f} (h : Keeps s₀ s) : Keeps s₀ (cellPut i f s) :=
  unseen_cellPut unseen_keeps h

theorem unseen_anchorTake (hP : Unseen P) {x i} (h : P s) : P (anchorTake x s i) := by
  unfold anchorTake
  refine holds_ite ?_ ?_
  · extract_lets c v n u s1 la
    have h1 : P s1 := unseen_cellPut hP h
    exact unseen_estMod hP h1
  · exact h

theorem unseen_strPut (hP : Unseen P) {n f} (h : P s) : P (strPut n f s) := by
  unfold strPut
  exact unseen_estMod hP h

theorem unseen_norMod (hP : Unseen P) {kind f} (h : P s) : P (norMod kind f s) := by
  unfold norMod
  exact holds_ite (unseen_btMod hP h) (unseen_estMod hP h)

theorem keeps_norMod {kind f} (h : Keeps s₀ s) : Keeps s₀ (norMod kind f s) :=
  unseen_norMod unseen_keeps h

theorem unseen_norErase (hP : Unseen P) {kind policy} (h : P s) : P (norErase kind policy s) := by
  unfold norErase
  refine unseen_estMod hP ?_
  refine unseen_norOp hP h fun t ht => ?_
  exact unseen_norMod hP ht

theorem keeps_norErase {kind policy} (h : Keeps s₀ s) : Keeps s₀ (norErase kind policy s) :=
  unseen_norErase unseen_keeps h

theorem unseen_norNext (hP : Unseen P) (h : P s) : P (norNext s) := by
  unfold norNext
  refine holds_ite ?_ ?_
  · exact h
  · refine holds_ite ?_ ?_
    · exact unseen_norErase hP (unseen_estMod hP h)
    · refine holds_ite ?_ ?_
      · exact unseen_norErase hP (unseen_estMod hP h)
      · split
        · exact unseen_norErase hP h
        · exact h

theorem keeps_norNext (h : Keeps s₀ s) : Keeps s₀ (norNext s) :=
  unseen_norNext unseen_keeps h

theorem keeps_norAdvance {kind} (h : Keeps s₀ s) : Keeps s₀ (norAdvance kind s) := by
  unfold norAdvance
  extract_lets k
  refine keeps_ite ?_ ?_
  · exact h
  · refine keeps_norOp h fun t ht => ?_
    exact keeps_norMod ht

theorem unseen_capacityDue (hP : Unseen P) (h : P s) : P (capacityDue s) := by
  unfold capacityDue
  exact unseen_norNext hP (unseen_estMod hP h)

theorem keeps_lifeDue (h : Keeps s₀ s) : Keeps s₀ (lifeDue s) := by
  unfold lifeDue
  exact keeps_norNext (keeps_estMod h)

theorem unseen_disqualify (hP : Unseen P) {n reason} (h : P s) : P (disqualify n reason s) := by
  unfold disqualify
  exact holds_ite (unseen_estRecord hP (unseen_estMod hP (unseen_strPut hP h))) h

theorem keeps_disqualify {n reason} (h : Keeps s₀ s) : Keeps s₀ (disqualify n reason s) :=
  unseen_disqualify unseen_keeps h

theorem steady_disqualifyAll {reason} (h : Steady s₀ s) : Steady s₀ (disqualifyAll reason s) := by
  unfold disqualifyAll
  exact steady_foldl h fun _ _ ht => unseen_disqualify unseen_steady ht

theorem keeps_disqualifyAll {reason} (h : Keeps s₀ s) : Keeps s₀ (disqualifyAll reason s) :=
  keeps_of_steady h (steady_disqualifyAll (steady_refl s))

theorem unseen_cycleClose (hP : Unseen P) {n x k} (h : P s) : P (cycleClose n x k s) := by
  unfold cycleClose
  split
  · exact h
  · extract_lets dt mean dq go s1
    have hgo : ∀ {t a1}, P t → P (go t a1) := by
      intro t a1 ht
      unfold go
      extract_lets r s2
      have h2 : P s2 := unseen_cellPut hP ht
      exact holds_ite h2 (unseen_estMod hP h2)
    have h1 : P s1 := by
      unfold s1
      refine holds_foldl h fun t x ht => ?_
      exact hgo ht
    exact holds_ite (unseen_disqualify hP h) (unseen_capacityDue hP (unseen_estRecord hP (unseen_strPut hP h1)))

theorem unseen_cycleOpen (hP : Unseen P) {n x k} (h : P s) : P (cycleOpen n x k s) := by
  unfold cycleOpen
  extract_lets y
  exact unseen_strPut hP h

theorem unseen_taperSet (hP : Unseen P) {x : StrCfg} {charge : Bool} (h : P s) : P (taperSet x charge s) := by
  unfold taperSet
  cases (strCells x).filterMap fun i => (cellAt s i).volt with
  | nil => exact h
  | cons v vs =>
    refine holds_foldl h fun t x ht => ?_
    split
    · exact holds_ite (unseen_cellPut hP ht) ht
    · exact ht

theorem unseen_taperStep (hP : Unseen P) {x strokes p} (h : P s) : P (taperStep x strokes s p) := by
  unfold taperStep
  extract_lets g m hit d need t nc nd s1 s2
  have h1 : P s1 := unseen_strPut hP h
  have h2 : P s2 := unseen_estRecord hP (unseen_taperSet hP h1)
  exact holds_ite (unseen_cycleOpen hP (unseen_estRecord hP (unseen_taperSet hP h1))) (holds_ite (holds_ite (unseen_cycleClose hP h2) h2) h1)

theorem unseen_cutStep (hP : Unseen P) {x p} (h : P s) : P (cutStep x s p) := by
  unfold cutStep
  extract_lets t c fresh pick t' s1 say
  have h1 : P s1 := unseen_strPut hP h
  have hsay : ∀ {a0 a1 a2 t}, P t → P (say a0 a1 a2 t) := by
    intro a0 a1 a2 t ht
    exact holds_ite (unseen_estRecord hP ht) ht
  exact hsay (hsay (hsay (hsay h1)))

theorem unseen_cycleWatch (hP : Unseen P) {x p} (h : P s) : P (cycleWatch x s p) := by
  unfold cycleWatch
  extract_lets ch fresh warm gone s1 s2
  have h1 : P s1 := holds_ite (unseen_disqualify hP h) h
  have h2 : P s2 := holds_ite (unseen_disqualify hP h1) h1
  split
  · exact holds_ite (unseen_disqualify hP h2) h2
  · exact h2

theorem unseen_socStep (hP : Unseen P) {x} (h : P s) : P (socStep x s) := by
  unfold socStep
  extract_lets s1 d c q v
  have h1 : P s1 := by
    unfold s1
    refine holds_foldl h fun t x ht => ?_
    extract_lets c1
    exact unseen_strPut hP ht
  exact unseen_estMod hP h1

theorem unseen_unanchorStep (hP : Unseen P) (h : P s) : P (unanchorStep s) := by
  unfold unanchorStep
  extract_lets u now_ was s1
  have h1 : P s1 := unseen_estMod hP h
  exact holds_ite (unseen_estRecord hP h1) h1

theorem unseen_holdEnd (hP : Unseen P) {taken} (h : P s) : P (holdEnd taken s) := by
  unfold holdEnd
  exact holds_ite (unseen_estRecord hP (unseen_estMod hP h)) h

theorem keeps_holdEnd {taken} (h : Keeps s₀ s) : Keeps s₀ (holdEnd taken s) :=
  unseen_holdEnd unseen_keeps h

theorem unseen_holdStep (hP : Unseen P) {req k} (h : P s) : P (holdStep req k s) := by
  unfold holdStep
  exact holds_ite (holds_ite (unseen_holdEnd hP h) h) (holds_ite (unseen_estMod hP h) h)

theorem unseen_runTaken (hP : Unseen P) {w x} (h : P s) : P (runTaken w x s) := by
  unfold runTaken
  exact unseen_estMod hP h

theorem unseen_estMirrored (hP : Unseen P) {w x} (h : P s) : P (estMirrored w x s) := by
  unfold estMirrored
  extract_lets s1 s2
  have h1 : P s1 := unseen_estMod hP (unseen_runTaken hP h)
  have h2 : P s2 := holds_foldl h1 fun _ _ ht => unseen_cellPut hP ht
  refine unseen_unanchorStep hP ?_
  refine unseen_socStep hP ?_
  refine holds_foldl h2 fun t x ht => ?_
  exact unseen_cutStep hP ht

theorem unseen_estCompute (hP : Unseen P) {w x} (h : P s) : P (estCompute w x s) := by
  unfold estCompute
  extract_lets n last rest s1 s2 s3 s4 s5 s6 s7 s8 s9
  have h1 : P s1 := unseen_estMod hP (unseen_runTaken hP h)
  have h2 : P s2 := holds_foldl h1 fun _ _ ht => unseen_cellPut hP ht
  have h3 : P s3 := holds_foldl h2 fun _ _ ht => unseen_cellPut hP ht
  have h4 : P s4 := by
    unfold s4
    refine holds_foldl h3 fun t x ht => ?_
    exact unseen_cycleWatch hP ht
  have h5 : P s5 := by
    unfold s5
    refine holds_foldl h4 fun t x ht => ?_
    exact unseen_anchorTake hP ht
  have h6 : P s6 := holds_foldl h5 fun _ _ ht => holds_ite (unseen_cycleClose hP ht) ht
  have h7 : P s7 := by
    unfold s7
    refine holds_foldl h6 fun t x ht => ?_
    exact unseen_taperStep hP ht
  have h8 : P s8 := holds_foldl h7 fun _ _ ht => unseen_cellPut hP ht
  have h9 : P s9 := by
    unfold s9
    refine holds_foldl h8 fun t x ht => ?_
    exact unseen_cutStep hP ht
  exact unseen_holdStep hP (unseen_unanchorStep hP (unseen_socStep hP h9))

theorem unseen_estimateRun (hP : Unseen P) {l k} (h : P s) : P (estimateRun l k s) := by
  unfold estimateRun
  extract_lets w run mirror x s1 n
  have h1 : P s1 := holds_ite h (holds_ite (unseen_estMirrored hP h) (unseen_estCompute hP h))
  exact unseen_estMod hP (unseen_stageArea hP h1)

theorem steady_lifePut {w v} (h : Steady s₀ s) : Steady s₀ (lifePut w v s) := by
  unfold lifePut
  exact unseen_estMod unseen_steady h

theorem keeps_lifePut {w v} (h : Keeps s₀ s) : Keeps s₀ (lifePut w v s) :=
  keeps_of_steady h (steady_lifePut (steady_refl s))

theorem steady_lifeExtreme {w high v ref} (h : Steady s₀ s) : Steady s₀ (lifeExtreme w high v ref s) := by
  unfold lifeExtreme
  extract_lets old o
  exact steady_ite (steady_lifePut (steady_lifePut h)) h

theorem steady_lifeSweep {b} (h : Steady s₀ s) : Steady s₀ (lifeSweep b s) := by
  unfold lifeSweep
  refine steady_ite ?_ ?_
  · exact h
  · extract_lets ch
    refine steady_foldl h fun t x ht => ?_
    split
    · exact ht
    · extract_lets s1
      have h1 : Steady s₀ s1 := by
        unfold s1
        refine steady_foldl ht fun t x ht => ?_
        extract_lets i v
        exact steady_ite (steady_lifeExtreme (steady_lifeExtreme ht)) ht
      exact steady_foldl h1 fun _ _ ht => steady_lifeExtreme (steady_lifeExtreme ht)

theorem steady_lifeCurrent (h : Steady s₀ s) : Steady s₀ (lifeCurrent s) := by
  unfold lifeCurrent
  extract_lets i s1
  have h1 : Steady s₀ s1 := steady_ite (steady_lifePut (steady_lifePut h)) h
  exact steady_ite (steady_lifePut (steady_lifePut h1)) h1

theorem completes_execLifetimeHistogramTick (h : Keeps s₀ s) : Completes s₀ (execLifetimeHistogramTick s) := by
  unfold execLifetimeHistogramTick
  refine completes_ite ?_ ?_
  · exact completes_next h
  · extract_lets soc tb t q c i inc
    have hinc : ∀ {a0 t}, Keeps s₀ t → Keeps s₀ (inc a0 t) := by
      intro a0 t ht
      exact keeps_lifePut ht
    exact completes_next (keeps_estMod (hinc (hinc h)))

theorem completes_execLifetimeSaveTimer (h : Keeps s₀ s) : Completes s₀ (execLifetimeSaveTimer s) := by
  unfold execLifetimeSaveTimer
  exact completes_ite (completes_next (keeps_lifeDue h)) (completes_next h)

theorem completes_execNorEraseComplete (h : Keeps s₀ s) : Completes s₀ (execNorEraseComplete s) := by
  unfold execNorEraseComplete
  split
  · exact completes_ite (completes_next (keeps_estMod h)) (completes_next h)
  · exact completes_next h

theorem keeps_estStopDone (h : Keeps s₀ s) : Keeps s₀ (estStopDone s) := by
  unfold estStopDone
  exact keeps_ite (keeps_answer (keeps_fnSet (keeps_disqualifyAll h))) h

theorem keeps_norGone (h : Keeps s₀ s) : Keeps s₀ (norGone s) := by
  unfold norGone
  exact keeps_estStopDone (keeps_norNext h)

theorem keeps_norStore {w r} (h : Keeps s₀ s) : Keeps s₀ (norStore w r s) := by
  unfold norStore
  refine keeps_norAdvance ?_
  refine keeps_norOp h fun t ht => ?_
  exact keeps_norMod ht

theorem keeps_policyCommit {w} (h : Keeps s₀ s) : Keeps s₀ (policyCommit w s) := by
  unfold policyCommit
  split
  · exact keeps_answer h
  · extract_lets slot
    exact keeps_answer (keeps_policyGo (keeps_norStore h))

theorem keeps_norCommitted {w} (h : Keeps s₀ s) : Keeps s₀ (norCommitted w s) := by
  unfold norCommitted
  extract_lets s1 s2
  have h1 : Keeps s₀ s1 := keeps_estMod h
  have h2 : Keeps s₀ s2 := keeps_norStore h1
  exact keeps_norGone (keeps_ite (keeps_policyCommit h1) (keeps_ite h2 (keeps_answer (keeps_estMod h2))))

theorem keeps_norFailed {w} (h : Keeps s₀ s) : Keeps s₀ (norFailed w s) := by
  unfold norFailed
  extract_lets s1 p s2
  have h1 : Keeps s₀ s1 := keeps_estMod h
  have hp : Keeps s₀ p.1 := keeps_failCode h1
  have h2 : Keeps s₀ s2 := keeps_estRecord h1
  exact keeps_norGone (keeps_ite (keeps_answer hp) (keeps_ite (keeps_answer h2) h2))

theorem completes_execNorWriteResume {readBackOk} (h : Keeps s₀ s) : Completes s₀ (execNorWriteResume readBackOk s) := by
  unfold execNorWriteResume
  split
  · exact completes_next h
  · refine completes_ite ?_ ?_
    · exact completes_next h
    · refine completes_ite ?_ ?_
      · exact completes_next (keeps_norCommitted h)
      · extract_lets s1
        have h1 : Keeps s₀ s1 := by
          unfold s1
          refine keeps_norOp h fun t ht => ?_
          exact ht
        exact completes_ite (completes_next (keeps_estMod h1)) (completes_next (keeps_norFailed h1))

theorem steady_estBoundary {k} (h : Steady s₀ s) : Steady s₀ (estBoundary k s) := by
  unfold estBoundary
  extract_lets run m ws
  exact steady_ite h (steady_publish (steady_ite (steady_lifeCurrent h) h))

theorem completes_execAnchorTimeout (h : Keeps s₀ s) : Completes s₀ (execAnchorTimeout s) := by
  unfold execAnchorTimeout
  exact completes_ite (completes_next (keeps_holdEnd h)) (completes_next h)

theorem completes_execEstCommitTimeout (h : Keeps s₀ s) : Completes s₀ (execEstCommitTimeout s) := by
  unfold execEstCommitTimeout
  exact completes_ite (completes_next (keeps_answer (keeps_answer (keeps_fnFault (keeps_disqualifyAll (keeps_holdEnd h))))))
    (completes_next h)

theorem keeps_estStart (h : Keeps s₀ s) : Keeps s₀ (estStart s) := by
  unfold estStart
  extract_lets s1 s2 cells s3
  have h1 : Keeps s₀ s1 := keeps_ite (keeps_estRecord h) h
  have h2 : Keeps s₀ s2 := keeps_ite (keeps_estRecord h1) h1
  have h3 : Keeps s₀ s3 := keeps_estMod h2
  exact keeps_norNext (keeps_fnSet (keeps_stMod h3))

theorem keeps_estStopCmd (h : Keeps s₀ s) : Keeps s₀ (estStopCmd s).1 := by
  unfold estStopCmd
  exact keeps_lifeDue (keeps_holdEnd h)

theorem steady_estRoleChange (h : Steady s₀ s) : Steady s₀ (estRoleChange s) := by
  unfold estRoleChange
  exact steady_ite (steady_disqualifyAll h) h

theorem keeps_estRoleChange (h : Keeps s₀ s) : Keeps s₀ (estRoleChange s) :=
  keeps_of_steady h (steady_estRoleChange (steady_refl s))

theorem keeps_estSerial {b pos} (h : Keeps s₀ s) : Keeps s₀ (estSerial b pos s) := by
  unfold estSerial
  refine keeps_ite ?_ ?_
  · exact h
  · extract_lets is s1
    have h1 : Keeps s₀ s1 := keeps_foldl h fun _ _ ht => keeps_ite (keeps_cellPut ht) ht
    exact keeps_foldl h1 fun _ _ ht => keeps_ite (keeps_disqualify ht) ht

theorem completes_execEstConfig {r} (h : Keeps s₀ s) : Completes s₀ (execEstConfig r s) := by
  unfold execEstConfig
  refine completes_mailbox h fun s1 h1 => ?_
  refine keeps_guardE h1 fun s2 h2 => ?_
  extract_lets str
  exact keeps_estMod h2

theorem completes_execEstModel {r} (h : Keeps s₀ s) : Completes s₀ (execEstModel r s) := by
  unfold execEstModel
  refine completes_mailbox h fun s1 h1 => ?_
  refine keeps_guardE h1 fun s2 h2 => ?_
  exact keeps_estMod h2

theorem completes_execEstQuery {r} (h : Keeps s₀ s) : Completes s₀ (execEstQuery r s) := by
  unfold execEstQuery
  refine completes_mailbox h fun s1 h1 => ?_
  exact keeps_areaAnswer h1

theorem completes_execEstRead {r} (h : Keeps s₀ s) : Completes s₀ (execEstRead r s) := by
  unfold execEstRead
  refine completes_mailbox h fun s1 h1 => ?_
  exact keeps_asks h1

theorem completes_execEstAnchor {r} (h : Keeps s₀ s) : Completes s₀ (execEstAnchor r s) := by
  unfold execEstAnchor
  refine completes_mailbox h fun s1 h1 => ?_
  refine keeps_guardE h1 fun s2 h2 => ?_
  exact keeps_estMod h2

theorem completes_execEstLifeRead {r} (h : Keeps s₀ s) : Completes s₀ (execEstLifeRead r s) := by
  unfold execEstLifeRead
  refine completes_mailbox h fun s1 h1 => ?_
  exact keeps_asks h1

theorem completes_execEstSave {r} (h : Keeps s₀ s) : Completes s₀ (execEstSave r s) := by
  unfold execEstSave
  refine completes_mailbox h fun s1 h1 => ?_
  refine keeps_guardE h1 fun s2 h2 => ?_
  exact keeps_lifeDue h2

/-! ### The stack chains -/

theorem steady_chMod {b f} (h : Steady s₀ s) : Steady s₀ (chMod b f s) := by
  unfold chMod
  exact steady_ite h h

theorem keeps_chMod {b f} (h : Keeps s₀ s) : Keeps s₀ (chMod b f s) :=
  keeps_of_steady h (steady_chMod (steady_refl s))

theorem steady_chRecord {b sev code detail} (h : Steady s₀ s) : Steady s₀ (chRecord b sev code detail s) := by
  unfold chRecord
  exact unseen_emit unseen_steady h

theorem keeps_chRecord {b sev code detail} (h : Keeps s₀ s) : Keeps s₀ (chRecord b sev code detail s) :=
  keeps_of_steady h (steady_chRecord (steady_refl s))

theorem steady_chSend {b e cmd addr payload} (h : Steady s₀ s) : Steady s₀ (chSend b e cmd addr payload s) := by
  unfold chSend
  extract_lets f
  exact steady_chMod h

theorem keeps_chSend {b e cmd addr payload} (h : Keeps s₀ s) : Keeps s₀ (chSend b e cmd addr payload s) :=
  keeps_of_steady h (steady_chSend (steady_refl s))

theorem keeps_chPhase {b p} (h : Keeps s₀ s) : Keeps s₀ (chPhase b p s) := by
  unfold chPhase
  exact keeps_chMod h

theorem keeps_readIdSend {b pos e second} (h : Keeps s₀ s) : Keeps s₀ (readIdSend b pos e second s) := by
  unfold readIdSend
  exact keeps_chPhase (keeps_chSend h)

theorem keeps_configSend {b e} (h : Keeps s₀ s) : Keeps s₀ (configSend b e s) := by
  unfold configSend
  extract_lets g
  exact keeps_chSend h

theorem keeps_bringUp {b} (h : Keeps s₀ s) : Keeps s₀ (bringUp b s) := by
  unfold bringUp
  extract_lets s1 s2
  have h1 : Keeps s₀ s1 := keeps_chMod h
  have h2 : Keeps s₀ s2 := keeps_chSend (keeps_chSend h1)
  exact keeps_chPhase (keeps_chSend h2)

theorem keeps_configStep {b} (h : Keeps s₀ s) : Keeps s₀ (configStep b s) := by
  unfold configStep
  exact keeps_chPhase (keeps_configSend h)

theorem keeps_bringUpDone {b} (h : Keeps s₀ s) : Keeps s₀ (bringUpDone b s) := by
  unfold bringUpDone
  extract_lets n s1
  have h1 : Keeps s₀ s1 := keeps_chMod h
  exact keeps_ite h1 (keeps_ite (keeps_answer (keeps_fnSet (keeps_chMod h1))) (keeps_answer (keeps_chMod h1)))

theorem keeps_readIdDown {b pos} (h : Keeps s₀ s) : Keeps s₀ (readIdDown b pos s) := by
  unfold readIdDown
  exact keeps_ite (keeps_readIdSend h) (keeps_bringUpDone h)

theorem keeps_readIdOk {b pos e serial} (h : Keeps s₀ s) : Keeps s₀ (readIdOk b pos e serial s) := by
  unfold readIdOk
  extract_lets old s1 s2
  have h1 : Keeps s₀ s1 := keeps_chMod h
  have h2 : Keeps s₀ s2 := keeps_ite (keeps_estSerial (keeps_chRecord h1)) h1
  split
  · exact keeps_ite (keeps_readIdSend h2) (keeps_bringUpDone h2)
  · exact keeps_readIdDown h2

theorem keeps_readIdFail {b pos e second} (h : Keeps s₀ s) : Keeps s₀ (readIdFail b pos e second s) := by
  unfold readIdFail
  refine keeps_ite ?_ ?_
  · exact keeps_readIdSend h
  · split
    · exact keeps_readIdDown (keeps_chMod h)
    · exact keeps_readIdDown h

theorem keeps_balSend {b e m} (h : Keeps s₀ s) : Keeps s₀ (balSend b e m s) := by
  unfold balSend
  exact keeps_chSend h

theorem keeps_balStep {b} (h : Keeps s₀ s) : Keeps s₀ (balStep b s) := by
  unfold balStep
  extract_lets m s1
  have h1 : Keeps s₀ s1 := keeps_chMod h
  exact keeps_chPhase (keeps_balSend h1)

theorem keeps_sweepDone {b} (h : Keeps s₀ s) : Keeps s₀ (sweepDone b s) := by
  unfold sweepDone
  exact keeps_chMod h

theorem keeps_readSend {b pos e second} (h : Keeps s₀ s) : Keeps s₀ (readSend b pos e second s) := by
  unfold readSend
  exact keeps_chPhase (keeps_chSend h)

theorem keeps_readDown {b pos} (h : Keeps s₀ s) : Keeps s₀ (readDown b pos s) := by
  unfold readDown
  extract_lets c
  split
  · exact keeps_readSend h
  · exact keeps_balStep (keeps_chMod h)

theorem keeps_readUp {b pos} (h : Keeps s₀ s) : Keeps s₀ (readUp b pos s) := by
  unfold readUp
  extract_lets c g
  split
  · exact keeps_readSend h
  · exact keeps_ite (keeps_balStep (keeps_chMod h)) (keeps_readDown h)

theorem keeps_readBegin {b} (h : Keeps s₀ s) : Keeps s₀ (readBegin b s) := by
  unfold readBegin
  extract_lets c g
  exact keeps_readUp (keeps_chMod h)

theorem keeps_readOk {b pos e d} (h : Keeps s₀ s) : Keeps s₀ (readOk b pos e d s) := by
  unfold readOk
  extract_lets s1
  have h1 : Keeps s₀ s1 := keeps_chMod h
  split
  · exact keeps_readUp h1
  · exact keeps_readDown h1

theorem keeps_loFailed {b pos} (h : Keeps s₀ s) : Keeps s₀ (loFailed b pos s) := by
  unfold loFailed
  extract_lets c
  exact keeps_readDown (keeps_chMod h)

theorem keeps_hiFailed {b pos} (h : Keeps s₀ s) : Keeps s₀ (hiFailed b pos s) := by
  unfold hiFailed
  extract_lets c
  exact keeps_ite (keeps_readUp (keeps_chMod h)) (keeps_readDown h)

theorem keeps_readFail {b pos e second} (h : Keeps s₀ s) : Keeps s₀ (readFail b pos e second s) := by
  unfold readFail
  extract_lets s1
  have h1 : Keeps s₀ s1 := keeps_chMod h
  refine keeps_ite ?_ ?_
  · exact keeps_readSend h1
  · split
    · exact keeps_loFailed h1
    · exact keeps_hiFailed h1

theorem keeps_chStopped {b} (h : Keeps s₀ s) : Keeps s₀ (chStopped b s) := by
  unfold chStopped
  exact keeps_answer (keeps_fnSet (keeps_chPhase h))

theorem keeps_balArrived {b} (h : Keeps s₀ s) : Keeps s₀ (balArrived b s) := by
  unfold balArrived
  extract_lets s1
  have h1 : Keeps s₀ s1 := by
    unfold s1
    split
    · exact keeps_chRecord h
    · exact h
  exact keeps_sweepDone (keeps_chMod h1)

theorem keeps_chMaster {b e f} (h : Keeps s₀ s) : Keeps s₀ (chMaster b e f s) := by
  unfold chMaster
  split
  · exact keeps_ite (keeps_configStep (keeps_chMod h)) h
  · exact keeps_ite (keeps_readIdSend h) h
  · exact keeps_ite (keeps_readIdOk h) h
  · exact keeps_ite (keeps_ite (keeps_readOk h) (keeps_readFail h)) h
  · exact keeps_ite (keeps_balArrived h) h
  · exact keeps_ite (keeps_chStopped h) h
  · exact h

theorem keeps_chDiscard {b e} (h : Keeps s₀ s) : Keeps s₀ (chDiscard b e s) := by
  unfold chDiscard
  extract_lets s1
  have h1 : Keeps s₀ s1 := keeps_chMod h
  refine keeps_ite ?_ ?_
  · exact h1
  · split
    · exact keeps_ite (keeps_readIdFail h1) h1
    · exact keeps_ite (keeps_readFail h1) h1
    · exact h1

theorem keeps_chListen {b e f} (h : Keeps s₀ s) : Keeps s₀ (chListen b e f s) := by
  unfold chListen
  extract_lets c open_
  exact keeps_ite (keeps_chMod h) (keeps_ite (keeps_chMod h) (keeps_ite (keeps_chMod h) (keeps_ite (keeps_chMod h) (keeps_ite
    (keeps_ite (keeps_chMod h) (keeps_sweepDone (keeps_chMod h))) h))))

theorem completes_execChainFrameReceived {c e bytes} (h : Keeps s₀ s) : Completes s₀ (execChainFrameReceived c e bytes s) := by
  unfold execChainFrameReceived
  extract_lets b
  refine completes_ite ?_ ?_
  · exact completes_next h
  · split
    · exact completes_next (keeps_chDiscard h)
    · exact completes_ite (completes_next (keeps_chMaster h)) (completes_next (keeps_chListen h))

theorem completes_execChainSettleWaitEnd {c} (h : Keeps s₀ s) : Completes s₀ (execChainSettleWaitEnd c s) := by
  unfold execChainSettleWaitEnd
  extract_lets b
  exact completes_ite (completes_next (keeps_readBegin h)) (completes_next h)

theorem completes_execReadCellsTimeout {c} (h : Keeps s₀ s) : Completes s₀ (execReadCellsTimeout c s) := by
  unfold execReadCellsTimeout
  extract_lets b
  refine completes_ite ?_ ?_
  · exact completes_next h
  · split
    · exact completes_next (keeps_readFail h)
    · exact completes_next (keeps_readIdFail h)
    · exact completes_next h

theorem completes_execBalSetHiTimeout {c} (h : Keeps s₀ s) : Completes s₀ (execBalSetHiTimeout c s) := by
  unfold execBalSetHiTimeout
  extract_lets b
  refine completes_ite ?_ ?_
  · exact completes_next h
  · split
    · exact completes_next (keeps_sweepDone (keeps_balSend h))
    · exact completes_next (keeps_chStopped (keeps_balSend h))
    · exact completes_next h

theorem completes_execEnumHiTimeout {c} (h : Keeps s₀ s) : Completes s₀ (execEnumHiTimeout c s) := by
  unfold execEnumHiTimeout
  extract_lets b
  refine completes_ite ?_ ?_
  · exact completes_next h
  · split
    · exact completes_next (keeps_configStep (keeps_chSend h))
    · exact completes_next (keeps_readIdSend (keeps_configSend h))
    · exact completes_next h

theorem completes_execBalanceHoldExpired {c} (h : Keeps s₀ s) : Completes s₀ (execBalanceHoldExpired c s) := by
  unfold execBalanceHoldExpired
  extract_lets b
  exact completes_ite (completes_next h) (completes_next (keeps_chRecord (keeps_chMod h)))

theorem keeps_chainStart {b} (h : Keeps s₀ s) : Keeps s₀ (chainStart b s).1 := by
  unfold chainStart
  extract_lets s1
  have h1 : Keeps s₀ s1 := keeps_chMod h
  split
  · exact keeps_bringUp h1
  · exact keeps_fnSet (keeps_chMod h1)

theorem keeps_chainStopCmd {b} (h : Keeps s₀ s) : Keeps s₀ (chainStopCmd b s).1 := by
  unfold chainStopCmd
  split
  · exact keeps_chPhase (keeps_balSend h)
  · exact keeps_fnSet (keeps_chPhase h)

theorem keeps_chainGrantLost {b} (h : Keeps s₀ s) : Keeps s₀ (chainGrantLost b s) := by
  unfold chainGrantLost
  extract_lets f stop s1
  have h1 : Keeps s₀ s1 := keeps_chMod h
  exact keeps_ite (keeps_answer (keeps_fnSet (keeps_chMod h1))) (keeps_ite (keeps_chStopped h1) h1)

theorem keeps_chainGrantRise {b} (h : Keeps s₀ s) : Keeps s₀ (chainGrantRise b s) := by
  unfold chainGrantRise
  exact keeps_ite (keeps_bringUp h) h

theorem steady_chainFault {b cause} (h : Steady s₀ s) : Steady s₀ (chainFault b cause s) := by
  unfold chainFault
  extract_lets f
  exact steady_ite (unseen_answer unseen_steady (unseen_answer unseen_steady (steady_fnFault (steady_chMod h)))) h

theorem keeps_chainFault {b cause} (h : Keeps s₀ s) : Keeps s₀ (chainFault b cause s) :=
  keeps_of_steady h (steady_chainFault (steady_refl s))

theorem steady_limitRecords {b x m} (h : Steady s₀ s) : Steady s₀ (limitRecords b x s m) := by
  unfold limitRecords
  extract_lets s1
  have h1 : Steady s₀ s1 := by
    unfold s1
    split
    · exact steady_ite (steady_chRecord (steady_chMod h)) h
    · exact h
  split
  · exact steady_ite (steady_chRecord (steady_chMod h1)) h1
  · exact h1

theorem steady_gapRecords {b x} (h : Steady s₀ s) : Steady s₀ (gapRecords b x s) := by
  unfold gapRecords
  extract_lets s1 one
  have h1 : Steady s₀ s1 := by
    unfold s1
    split
    · exact steady_ite (steady_chRecord h) h
    · exact h
  have hone : ∀ {t a1}, Steady s₀ t → Steady s₀ (one t a1) := by
    intro t a1 ht
    unfold one
    extract_lets gone was
    exact steady_ite (steady_chRecord ht) (steady_ite (steady_chRecord ht) ht)
  refine steady_ite ?_ ?_
  · exact h1
  · refine steady_chMod ?_
    refine steady_foldl h1 fun t x ht => ?_
    exact hone ht

theorem steady_sweepPublish {b k x} (h : Steady s₀ s) : Steady s₀ (sweepPublish b k x s) := by
  unfold sweepPublish
  extract_lets s1 s2 s3 loss s4 s5
  have h1 : Steady s₀ s1 := steady_bucketPut h
  have h2 : Steady s₀ s2 := steady_publish h1
  have h3 : Steady s₀ s3 := by
    unfold s3
    refine steady_foldl (steady_gapRecords h2) fun t x ht => ?_
    exact steady_limitRecords ht
  have h4 : Steady s₀ s4 := steady_chMod h3
  have h5 : Steady s₀ s5 := steady_lifeSweep h4
  exact steady_ite (steady_chainFault h5) h5

theorem steady_sweepResults {b k} (h : Steady s₀ s) : Steady s₀ (sweepResults b k s) := by
  unfold sweepResults
  split
  · exact steady_ite (steady_sweepPublish h) h
  · exact h

theorem steady_sweepStart {b k} (h : Steady s₀ s) : Steady s₀ (sweepStart b k s) := by
  unfold sweepStart
  extract_lets id s1 p
  have h1 : Steady s₀ s1 := steady_chMod h
  exact steady_chSend (steady_chSend h1)

theorem steady_sweepLate {b} (h : Steady s₀ s) : Steady s₀ (sweepLate b s) := by
  unfold sweepLate
  extract_lets s1 c due
  have h1 : Steady s₀ s1 := steady_chMod h
  exact steady_ite (steady_chRecord (steady_chMod h1)) h1

theorem steady_chainBoundary {b k} (h : Steady s₀ s) : Steady s₀ (chainBoundary b k s) := by
  unfold chainBoundary
  extract_lets s1 c
  have h1 : Steady s₀ s1 := steady_sweepResults h
  exact steady_ite (steady_ite (steady_sweepStart h1) (steady_sweepLate h1)) h1

theorem completes_execChainConfig {r} (h : Keeps s₀ s) : Completes s₀ (execChainConfig r s) := by
  unfold execChainConfig
  refine completes_mailbox h fun s1 h1 => ?_
  refine keeps_guardE h1 fun s2 h2 => ?_
  exact keeps_chMod h2

theorem completes_execChainBal {r} (h : Keeps s₀ s) : Completes s₀ (execChainBal r s) := by
  unfold execChainBal
  refine completes_mailbox h fun s1 h1 => ?_
  refine keeps_guardE h1 fun s2 h2 => ?_
  exact keeps_chMod h2

theorem completes_execChainQuery {r} (h : Keeps s₀ s) : Completes s₀ (execChainQuery r s) := by
  unfold execChainQuery
  refine completes_mailbox h fun s1 h1 => ?_
  exact keeps_asks h1

theorem completes_execChainRead {r} (h : Keeps s₀ s) : Completes s₀ (execChainRead r s) := by
  unfold execChainRead
  refine completes_mailbox h fun s1 h1 => ?_
  exact keeps_asks h1

theorem completes_execChainId {r} (h : Keeps s₀ s) : Completes s₀ (execChainId r s) := by
  unfold execChainId
  refine completes_mailbox h fun s1 h1 => ?_
  exact keeps_asks h1

/-! ### The ledger -/

theorem steady_ldMod {f} (h : Steady s₀ s) : Steady s₀ (ldMod f s) := by
  unfold ldMod
  exact h

theorem keeps_ldMod {f} (h : Keeps s₀ s) : Keeps s₀ (ldMod f s) :=
  keeps_of_steady h (steady_ldMod (steady_refl s))

theorem completes_execLedgerConversion {vbus iout overRange vbusOver} (h : Keeps s₀ s) : Completes s₀
  (execLedgerConversion vbus iout overRange vbusOver s) := by
  unfold execLedgerConversion
  refine completes_ite ?_ ?_
  · exact completes_next h
  · extract_lets w full sums oc oc1 s1 x
    have h1 : Keeps s₀ s1 := keeps_ldMod h
    exact completes_next h1

theorem steady_strokeAdd {jobs sums ssc} (h : Steady s₀ s) : Steady s₀ (strokeAdd jobs sums ssc s) := by
  unfold strokeAdd
  extract_lets spread ppm
  refine steady_foldl h fun t x ht => ?_
  extract_lets x1 j
  exact steady_ldMod ht

theorem keeps_ledgerOn (h : Keeps s₀ s) : Keeps s₀ (ledgerOn s) := by
  unfold ledgerOn
  exact keeps_ldMod h

theorem keeps_ledgerOff (h : Keeps s₀ s) : Keeps s₀ (ledgerOff s) := by
  unfold ledgerOff
  exact keeps_ldMod h

theorem keeps_ledgerClear (h : Keeps s₀ s) : Keeps s₀ (ledgerClear s) := by
  unfold ledgerClear
  exact keeps_ldMod h

theorem steady_ledgerFault {cause} (h : Steady s₀ s) : Steady s₀ (ledgerFault cause s) := by
  unfold ledgerFault
  exact steady_ite (unseen_answer unseen_steady (steady_fnFault h)) h

theorem steady_ledgerDamage {bad} (h : Steady s₀ s) : Steady s₀ (ledgerDamage bad s) := by
  unfold ledgerDamage
  refine steady_ite ?_ ?_
  · exact h
  · extract_lets s1
    have h1 : Steady s₀ s1 := steady_foldl h fun _ _ ht => unseen_uncorrectable unseen_steady ht
    exact steady_ledgerFault (steady_ldMod h1)

theorem steady_overRecord {k n job} (h : Steady s₀ s) : Steady s₀ (overRecord k n job s) := by
  unfold overRecord
  extract_lets due ovr
  exact steady_ite (unseen_emit unseen_steady (steady_ldMod h)) h

theorem steady_tagsApply {k} (h : Steady s₀ s) : Steady s₀ (tagsApply k s) := by
  unfold tagsApply
  extract_lets due
  exact steady_ldMod h

theorem steady_ledgerStrokeAdd {k sums spread} (h : Steady s₀ s) : Steady s₀ (ledgerStrokeAdd k sums spread s) := by
  unfold ledgerStrokeAdd
  refine steady_ite ?_ ?_
  · exact steady_ldMod h
  · extract_lets jobs
    exact steady_ldMod (steady_strokeAdd h)

theorem steady_ledgerTakeover {lag} (h : Steady s₀ s) : Steady s₀ (ledgerTakeover lag s) := by
  unfold ledgerTakeover
  refine steady_ite ?_ ?_
  · exact h
  · extract_lets hs gap s1 s2
    have h1 : Steady s₀ s1 := by
      unfold s1
      refine steady_foldl h fun t x ht => ?_
      extract_lets jobs
      exact steady_ldMod (steady_strokeAdd ht)
    have h2 : Steady s₀ s2 := steady_tagsApply (steady_ldMod h1)
    exact steady_ite (unseen_emit unseen_steady h2) h2

theorem steady_ledgerStroke {k} (h : Steady s₀ s) : Steady s₀ (ledgerStroke k s) := by
  unfold ledgerStroke
  extract_lets sums spread run tags s1 s2
  have h1 : Steady s₀ s1 := steady_ledgerStrokeAdd h
  have h2 : Steady s₀ s2 := steady_publish h1
  exact steady_ite (steady_ldMod h) (steady_ite h (steady_foldl h2 fun _ _ ht => steady_ite (steady_overRecord ht) ht))

theorem steady_ledgerBoundary {k : Stroke} {handed : Bool} {bad : List (Word × Nat)} (h : Steady s₀ s) :
    Steady s₀ (ledgerBoundary k handed bad s) := by
  unfold ledgerBoundary
  extract_lets s1 s2 s3 s4 s5 x
  have h1 : Steady s₀ s1 := steady_ledgerDamage (steady_ite h (steady_ledgerFault h))
  have h2 : Steady s₀ s2 := steady_ledgerStroke h1
  have h3 : Steady s₀ s3 := steady_ite h2 (steady_tagsApply h2)
  have h4 : Steady s₀ s4 := by
    unfold s4
    split
    · exact unseen_answer unseen_steady (steady_fnSet h3)
    · exact h3
  have h5 : Steady s₀ s5 := steady_ldMod h4
  clear_value s5
  exact steady_frame h5 rfl rfl rfl rfl rfl rfl

theorem keeps_tagTake {e} (h : Keeps s₀ s) : Keeps s₀ (tagTake e s) := by
  unfold tagTake
  extract_lets new k
  exact keeps_ldMod h

theorem keeps_tagAll {es bad} (h : Keeps s₀ s) : Keeps s₀ (tagAll es bad s).1 := by
  unfold tagAll
  refine keeps_guardE h fun s1 h1 => ?_
  extract_lets last
  exact keeps_foldl h1 fun _ _ ht => keeps_tagTake ht

theorem completes_execLedgerTag {r desc} (h : Keeps s₀ s) : Completes s₀ (execLedgerTag r desc s) := by
  unfold execLedgerTag
  refine completes_mailbox h fun s1 h1 => ?_
  refine keeps_guardE h1 fun s2 h2 => ?_
  split
  · split
    · exact h2
    · extract_lets es
      exact keeps_tagAll h2
  · extract_lets e
    exact keeps_tagAll h2

theorem completes_execLedgerRead {r} (h : Keeps s₀ s) : Completes s₀ (execLedgerRead r s) := by
  unfold execLedgerRead
  refine completes_mailbox h fun s1 h1 => ?_
  exact keeps_asks h1

theorem steady_jobClose {job} (h : Steady s₀ s) : Steady s₀ (jobClose job s) := by
  unfold jobClose
  extract_lets s1
  have h1 : Steady s₀ s1 := steady_ldMod h
  exact steady_ite (steady_ldMod h1) (steady_ldMod h1)

theorem keeps_jobClose {job} (h : Keeps s₀ s) : Keeps s₀ (jobClose job s) :=
  keeps_of_steady h (steady_jobClose (steady_refl s))

theorem completes_execLedgerClose {r} (h : Keeps s₀ s) : Completes s₀ (execLedgerClose r s) := by
  unfold execLedgerClose
  refine completes_mailbox h fun s1 h1 => ?_
  refine keeps_guardE h1 fun s2 h2 => ?_
  extract_lets ws s3 x
  have h3 : Keeps s₀ s3 := keeps_jobClose h2
  exact h3

theorem completes_execLedgerQuery {r} (h : Keeps s₀ s) : Completes s₀ (execLedgerQuery r s) := by
  unfold execLedgerQuery
  refine completes_mailbox h fun s1 h1 => ?_
  exact keeps_asks h1

theorem completes_execJobEnergyQuery {r} (h : Keeps s₀ s) : Completes s₀ (execJobEnergyQuery r s) := by
  unfold execJobEnergyQuery
  refine completes_mailbox h fun s1 h1 => ?_
  split
  · exact h1
  · split
    · exact h1
    · extract_lets s2 s3
      have h2 : Keeps s₀ s2 := keeps_ite (keeps_ldMod h1) h1
      have h3 : Keeps s₀ s3 := keeps_ite (keeps_ldMod h2) h2
      exact h3

/-! ### Operands of tile commands -/

theorem steady_opWrite {l t a bs} (h : Steady s₀ s) : Steady s₀ (opWrite l t a bs s) := by
  unfold opWrite
  extract_lets s1
  have h1 : Steady s₀ s1 := steady_foldl h fun _ _ ht => steady_ite (unseen_devWrite unseen_steady ht) ht
  exact steady_ite (steady_of h1 rfl fun hs => by simpa [Sound] using hs) h1

theorem steady_opWrites {l t ws} (h : Steady s₀ s) : Steady s₀ (opWrites l t ws s) := by
  unfold opWrites
  exact steady_foldl h fun _ _ ht => steady_opWrite ht

/-! ### Segments and commands on the tiles -/

theorem keeps_opWrites {l t ws} (h : Keeps s₀ s) : Keeps s₀ (opWrites l t ws s) :=
  keeps_of_steady h (steady_opWrites (steady_refl s))

theorem steady_tileMod {t f} (h : Steady s₀ s) : Steady s₀ (tileMod t f s) := by
  unfold tileMod
  exact steady_of h rfl fun hs => by simpa [Sound] using hs

theorem keeps_tileMod {t f} (h : Keeps s₀ s) : Keeps s₀ (tileMod t f s) :=
  keeps_of_steady h (steady_tileMod (steady_refl s))

theorem keeps_segStart {l i t} (h : Keeps s₀ s) : Keeps s₀ (segStart l i t s) := by
  unfold segStart
  extract_lets g
  exact keeps_tileMod h

theorem completes_execSegmentStart {t listId seg} (h : Keeps s₀ s) : Completes s₀ (execSegmentStart t listId seg s) := by
  unfold execSegmentStart
  split
  · exact completes_next h
  · exact completes_ite (completes_next (keeps_segStart h)) (completes_next h)

theorem steady_tileStop {t cause used} (h : Steady s₀ s) : Steady s₀ (tileStop t cause used s) := by
  unfold tileStop
  split
  · exact h
  · exact steady_ite (steady_tileMod h) (steady_segAbort h)

theorem keeps_tileStop {t cause used} (h : Keeps s₀ s) : Keeps s₀ (tileStop t cause used s) :=
  keeps_of_steady h (steady_tileStop (steady_refl s))

theorem steady_usedFree {t} (h : Steady s₀ s) : Steady s₀ (usedFree t s).1 := by
  unfold usedFree
  split
  · extract_lets p
    have hp : Steady s₀ p.1 := steady_takeFree h
    exact hp
  · exact h

theorem keeps_usedFree {t} (h : Keeps s₀ s) : Keeps s₀ (usedFree t s).1 :=
  keeps_of_steady h (steady_usedFree (steady_refl s))

theorem keeps_tileMemory {t addr loadStore} (h : Keeps s₀ s) : Keeps s₀ (tileMemory t addr loadStore s) := by
  unfold tileMemory
  extract_lets s1 p
  have h1 : Keeps s₀ s1 := keeps_uncorrectable h
  have hp : Keeps s₀ p.1 := keeps_usedFree h1
  exact keeps_tileStop hp

theorem keeps_tileAccess {t addr loadStore} (h : Keeps s₀ s) : Keeps s₀ (tileAccess t addr loadStore s) := by
  unfold tileAccess
  extract_lets s1 p
  have h1 : Keeps s₀ s1 := keeps_blocked h
  have hp : Keeps s₀ p.1 := keeps_usedFree h1
  exact keeps_tileStop hp

theorem keeps_carryOn {l g t f} (h : Keeps s₀ s) : Keeps s₀ (carryOn l g t f s) := by
  unfold carryOn
  split
  · exact h
  · exact h

theorem steady_cutWrites {l t ws} (h : Steady s₀ s) : Steady s₀ (cutWrites l t ws s) := by
  unfold cutWrites
  extract_lets p ls
  have hp : Steady s₀ p.1 := steady_takeFree h
  exact steady_opWrites hp

theorem keeps_cutWrites {l t ws} (h : Keeps s₀ s) : Keeps s₀ (cutWrites l t ws s) :=
  keeps_of_steady h (steady_cutWrites (steady_refl s))

theorem steady_cutEff {l t f} (h : Steady s₀ s) : Steady s₀ (cutEff l t f s) := by
  unfold cutEff
  exact steady_cutWrites h

theorem keeps_cutEff {l t f} (h : Keeps s₀ s) : Keeps s₀ (cutEff l t f s) :=
  keeps_of_steady h (steady_cutEff (steady_refl s))

theorem keeps_cmdPass {t n} (h : Keeps s₀ s) : Keeps s₀ (cmdPass t n s) := by
  unfold cmdPass
  exact keeps_tileMod (keeps_perfAdd h)

theorem keeps_actAdd {t n} (h : Keeps s₀ s) : Keeps s₀ (actAdd t n s) := by
  unfold actAdd
  exact keeps_tileMod h

theorem keeps_cmdRun {l g t n e} (h : Keeps s₀ s) : Keeps s₀ (cmdRun l g t n e s) := by
  unfold cmdRun
  extract_lets s1 f s2 s3
  have h1 : Keeps s₀ s1 := keeps_seeAs h
  have h2 : Keeps s₀ s2 := keeps_perfAdd h
  have h3 : Keeps s₀ s3 := keeps_carryOn (keeps_opWrites h2)
  exact keeps_ite (keeps_tileStop (keeps_cutEff (keeps_perfAdd h2))) (keeps_cmdPass (keeps_actAdd (keeps_tileMod h3)))

theorem completes_tileCmd {opc t e wait} (h : Keeps s₀ s) : Completes s₀ (tileCmd opc t e wait s) := by
  unfold tileCmd
  split
  · exact completes_next h
  · refine completes_ite ?_ ?_
    · exact completes_next h
    · split
      · exact completes_next (keeps_tileMemory h)
      · exact completes_next (keeps_cmdRun h)

theorem completes_execLoad {t e wait} (h : Keeps s₀ s) : Completes s₀ (execLoad t e wait s) := by
  unfold execLoad
  exact completes_tileCmd h

theorem completes_execStore {t e wait} (h : Keeps s₀ s) : Completes s₀ (execStore t e wait s) := by
  unfold execStore
  exact completes_tileCmd h

theorem completes_execGemm {t e wait} (h : Keeps s₀ s) : Completes s₀ (execGemm t e wait s) := by
  unfold execGemm
  exact completes_tileCmd h

theorem completes_execScan {t e wait} (h : Keeps s₀ s) : Completes s₀ (execScan t e wait s) := by
  unfold execScan
  exact completes_ite (completes_next h) (completes_tileCmd h)

theorem completes_execVec {t e wait} (h : Keeps s₀ s) : Completes s₀ (execVec t e wait s) := by
  unfold execVec
  exact completes_tileCmd h

theorem completes_execReduce {t e wait} (h : Keeps s₀ s) : Completes s₀ (execReduce t e wait s) := by
  unfold execReduce
  exact completes_tileCmd h

theorem completes_execBracket {t e wait} (h : Keeps s₀ s) : Completes s₀ (execBracket t e wait s) := by
  unfold execBracket
  exact completes_tileCmd h

theorem completes_execLedger {t e wait} (h : Keeps s₀ s) : Completes s₀ (execLedger t e wait s) := by
  unfold execLedger
  exact completes_tileCmd h

theorem unseen_flagSet (hP : Unseen P) {f vec} (h : P s) : P (flagSet f vec s) := by
  unfold flagSet
  extract_lets x s1 x1 s2 x2
  have h1 : P s1 := hP.lists rfl h
  have h2 : P s2 := holds_ite (hP.stage h1) h1
  split
  · exact holds_ite h2 (unseen_msixDue hP (hP.lists rfl h2))
  · exact h2

theorem steady_signalPass {l g t e} (h : Steady s₀ s) : Steady s₀ (signalPass l g t e s) := by
  unfold signalPass
  extract_lets p x s1 w s2
  have h1 : Steady s₀ s1 := unseen_seenJoin unseen_steady h
  have h2 : Steady s₀ s2 := steady_ite (unseen_flagSet unseen_steady (unseen_seenJoin unseen_steady h1)) h1
  exact steady_tileMod h2

theorem keeps_signalPass {l g t e} (h : Keeps s₀ s) : Keeps s₀ (signalPass l g t e s) :=
  keeps_of_steady h (steady_signalPass (steady_refl s))

theorem steady_syncPass {l g t e} (h : Steady s₀ s) : Steady s₀ (syncPass l g t e s) := by
  unfold syncPass
  extract_lets w x
  exact steady_ite (steady_tileMod (unseen_seenJoin unseen_steady h)) (steady_tileMod h)

theorem keeps_syncPass {l g t e} (h : Keeps s₀ s) : Keeps s₀ (syncPass l g t e s) :=
  keeps_of_steady h (steady_syncPass (steady_refl s))

theorem keeps_pointCost {t n e} (h : Keeps s₀ s) : Keeps s₀ (pointCost t n e s) := by
  unfold pointCost
  exact keeps_tileMod (keeps_perfAdd h)

theorem completes_pointCmd {opc t : Nat} {e : Line} {pass : Inst → TileSeg → State → State} (h : Keeps s₀ s)
    (hp : ∀ l g t, Keeps s₀ t → Keeps s₀ (pass l g t)) : Completes s₀ (pointCmd opc t e s pass) := by
  unfold pointCmd
  split
  · exact completes_next h
  · exact completes_ite (completes_next h) (completes_ite (completes_next (keeps_tileStop h))
      (completes_ite (completes_next (keeps_tileMod (keeps_pointCost h))) (completes_next (hp _ _ _ (keeps_pointCost h)))))

theorem completes_execSync {t e} (h : Keeps s₀ s) : Completes s₀ (execSync t e s) := by
  unfold execSync
  refine completes_pointCmd h fun l g t ht => ?_
  exact keeps_syncPass ht

theorem completes_execSignal {t e} (h : Keeps s₀ s) : Completes s₀ (execSignal t e s) := by
  unfold execSignal
  refine completes_pointCmd h fun l g t ht => ?_
  exact keeps_signalPass ht

theorem keeps_syncSees {l g t a3} (h : Keeps s₀ s) : Keeps s₀ (syncSees l g t a3 s) := by
  unfold syncSees
  split
  · exact keeps_seenJoin h
  · exact keeps_seenJoin h
  · exact h

theorem completes_execSyncRelease {t wait} (h : Keeps s₀ s) : Completes s₀ (execSyncRelease t wait s) := by
  unfold execSyncRelease
  split
  · split
    · exact completes_next h
    · exact completes_ite (completes_next h) (completes_ite (completes_next (keeps_tileStop h)) (completes_next (keeps_cmdPass
        (keeps_tileMod (keeps_syncSees h)))))
  · exact completes_next h

theorem steady_remoteFail {t cause cmd} (h : Steady s₀ s) : Steady s₀ (remoteFail t cause cmd s) := by
  unfold remoteFail
  extract_lets s1 p
  have h1 : Steady s₀ s1 := unseen_remoteFailed unseen_steady h
  have hp : Steady s₀ p.1 := steady_usedFree h1
  exact steady_tileStop hp

theorem keeps_remoteFail {t cause cmd} (h : Keeps s₀ s) : Keeps s₀ (remoteFail t cause cmd s) :=
  keeps_of_steady h (steady_remoteFail (steady_refl s))

theorem completes_remoteCmd {opc t e} (h : Keeps s₀ s) : Completes s₀ (remoteCmd opc t e s) := by
  unfold remoteCmd
  split
  · exact completes_next h
  · refine completes_ite ?_ ?_
    · exact completes_next h
    · extract_lets n s1 data s2 s3 ask x s4
      have h1 : Keeps s₀ s1 := keeps_seeAs h
      have h2 : Keeps s₀ s2 := keeps_actAdd (keeps_perfAdd h)
      have h3 : Keeps s₀ s3 := keeps_ite (keeps_tileMod h2) h2
      have h4 : Keeps s₀ s4 := keeps_ite h3 h3
      split
      · exact completes_next (keeps_tileMemory h)
      · exact completes_ite (completes_next (keeps_tileStop h)) (completes_ite (completes_next (keeps_remoteFail h))
          (completes_ite (completes_next (keeps_cmdPass h3)) (completes_next (keeps_tileMod (keeps_perfAdd h4)))))

theorem completes_execRopeGet {t e} (h : Keeps s₀ s) : Completes s₀ (execRopeGet t e s) := by
  unfold execRopeGet
  exact completes_remoteCmd h

theorem completes_execRopePut {t e} (h : Keeps s₀ s) : Completes s₀ (execRopePut t e s) := by
  unfold execRopePut
  exact completes_remoteCmd h

theorem keeps_remoteEnd {l g t wait ws} (h : Keeps s₀ s) : Keeps s₀ (remoteEnd l g t wait ws s) := by
  unfold remoteEnd
  exact keeps_ite (keeps_tileStop (keeps_cutWrites h)) (keeps_cmdPass (keeps_tileMod (keeps_opWrites h)))

theorem completes_execRemoteResponse {t a} (h : Keeps s₀ s) : Completes s₀ (execRemoteResponse t a s) := by
  unfold execRemoteResponse
  refine completes_ite ?_ ?_
  · exact completes_next h
  · refine completes_ite ?_ ?_
    · exact completes_next (keeps_ite (keeps_crcFail h) h)
    · split
      · split
        · exact completes_next (keeps_remoteFail h)
        · exact completes_next (keeps_remoteFail h)
        · exact completes_ite (completes_next (keeps_remoteEnd h)) (completes_next h)
        · exact completes_ite (completes_next (keeps_remoteEnd h)) (completes_next h)
        · exact completes_next h
      · exact completes_next h

theorem completes_execRemoteAccessTimeout {t _why} (h : Keeps s₀ s) : Completes s₀ (execRemoteAccessTimeout t _why s) := by
  unfold execRemoteAccessTimeout
  split
  · exact completes_next h
  · exact completes_next (keeps_remoteFail h)

theorem steady_ropeAborts (h : Steady s₀ s) : Steady s₀ (ropeAborts s) := by
  unfold ropeAborts
  refine steady_foldl h fun t x ht => ?_
  split
  · exact steady_remoteFail ht
  · exact ht

theorem keeps_ropeAborts (h : Keeps s₀ s) : Keeps s₀ (ropeAborts s) :=
  keeps_of_steady h (steady_ropeAborts (steady_refl s))

theorem keeps_reply {came member x} (h : Keeps s₀ s) : Keeps s₀ (reply came member x s) := by
  unfold reply
  exact h

theorem completes_execRemoteRequest {member off ask} (h : Keeps s₀ s) : Completes s₀ (execRemoteRequest member off ask s) := by
  unfold execRemoteRequest
  extract_lets a s1
  have h1 : Keeps s₀ s1 := keeps_seeAs h
  refine completes_ite ?_ ?_
  · exact completes_next h
  · refine completes_ite ?_ ?_
    · exact completes_next (keeps_crcFail h)
    · split
      · refine completes_ite ?_ ?_
        · exact completes_next (keeps_reply (keeps_remoteFailed h))
        · split
          · exact completes_next (keeps_reply (keeps_uncorrectable h))
          · exact completes_next (keeps_reply (keeps_perfAdd (keeps_readCount h)))
      · exact completes_ite (completes_next (keeps_reply (keeps_remoteFailed h))) (completes_next (keeps_reply (keeps_perfAdd
          (keeps_devWrite h))))

theorem steady_cutCurrent {t} (h : Steady s₀ s) : Steady s₀ (cutCurrent t s) := by
  unfold cutCurrent
  split
  · exact steady_cutEff h
  · exact h

theorem keeps_cutCurrent {t} (h : Keeps s₀ s) : Keeps s₀ (cutCurrent t s) :=
  keeps_of_steady h (steady_cutCurrent (steady_refl s))

theorem completes_execBudgetAbort {t} (h : Keeps s₀ s) : Completes s₀ (execBudgetAbort t s) := by
  unfold execBudgetAbort
  refine completes_ite ?_ ?_
  · exact completes_next h
  · split
    · exact completes_next (keeps_tileStop (keeps_cutCurrent h))
    · exact completes_next h

theorem completes_execMemoryAbort {t addr loadStore} (h : Keeps s₀ s) : Completes s₀ (execMemoryAbort t addr loadStore s) := by
  unfold execMemoryAbort
  refine completes_ite ?_ ?_
  · exact completes_next h
  · extract_lets a
    exact completes_next (keeps_tileMemory (keeps_markDamaged h))

theorem completes_execAccessAbort {t addr loadStore} (h : Keeps s₀ s) : Completes s₀ (execAccessAbort t addr loadStore s) := by
  unfold execAccessAbort
  exact completes_ite (completes_next h) (completes_next (keeps_tileAccess (keeps_cutCurrent h)))

/-! ### Ropes -/

theorem steady_ropeRecord {sev code port b n} (h : Steady s₀ s) : Steady s₀ (ropeRecord sev code port b n s) := by
  unfold ropeRecord
  exact unseen_emit unseen_steady h

theorem keeps_ropeRecord {sev code port b n} (h : Keeps s₀ s) : Keeps s₀ (ropeRecord sev code port b n s) :=
  keeps_of_steady h (steady_ropeRecord (steady_refl s))

theorem steady_bypassClose (h : Steady s₀ s) : Steady s₀ (bypassClose s) := by
  unfold bypassClose
  extract_lets s1 s2
  have h1 : Steady s₀ s1 := steady_ite (steady_ropeRecord h) h
  have h2 : Steady s₀ s2 := steady_ite (steady_ropeRecord h1) h1
  exact steady_ropeMod h2

theorem keeps_bypassClose (h : Keeps s₀ s) : Keeps s₀ (bypassClose s) :=
  keeps_of_steady h (steady_bypassClose (steady_refl s))

theorem keeps_ropeRelease (h : Keeps s₀ s) : Keeps s₀ (ropeRelease s) := by
  unfold ropeRelease
  exact keeps_bypassClose (keeps_ropeMod h)

theorem keeps_ropeFault {p cause} (h : Keeps s₀ s) : Keeps s₀ (ropeFault p cause s) := by
  unfold ropeFault
  refine keeps_ite ?_ ?_
  · extract_lets s1
    have h1 : Keeps s₀ s1 := keeps_ropeAborts (keeps_ropeRecord (keeps_fnFault (keeps_bypassClose h)))
    exact keeps_answer (keeps_refSelect h1)
  · exact h

theorem keeps_bypassOpen {b} (h : Keeps s₀ s) : Keeps s₀ (bypassOpen b s) := by
  unfold bypassOpen
  extract_lets s1 up
  have h1 : Keeps s₀ s1 := keeps_ropeMod h
  exact keeps_ite (keeps_portMod (keeps_portMod h1)) (keeps_portMod (keeps_portMod h1))

theorem keeps_ropeStart (h : Keeps s₀ s) : Keeps s₀ (ropeStart s).1 := by
  unfold ropeStart
  extract_lets s1 s2
  have h1 : Keeps s₀ s1 := keeps_claimAll h
  have h2 : Keeps s₀ s2 := keeps_ropeMod h1
  exact keeps_bypassOpen h2

theorem keeps_ropeStartFail {a} (h : Keeps s₀ s) : Keeps s₀ (ropeStartFail a s) := by
  unfold ropeStartFail
  exact keeps_answer (keeps_claimRelease (keeps_bypassClose (keeps_ropeMod h)))

theorem keeps_wrapStart {p} (h : Keeps s₀ s) : Keeps s₀ (wrapStart p s) := by
  unfold wrapStart
  refine keeps_ite ?_ ?_
  · extract_lets b
    exact keeps_ite h (keeps_ropeRecord (keeps_ropeMod h))
  · exact h

theorem keeps_wrapsAtStart (h : Keeps s₀ s) : Keeps s₀ (wrapsAtStart s) := by
  unfold wrapsAtStart
  exact keeps_foldl h fun _ _ ht => keeps_ite ht (keeps_wrapStart ht)

theorem keeps_ropeStarted (h : Keeps s₀ s) : Keeps s₀ (ropeStarted s) := by
  unfold ropeStarted
  extract_lets s1
  have h1 : Keeps s₀ s1 := keeps_ropeMod h
  exact keeps_answer (keeps_wrapsAtStart (keeps_fnSet h1))

theorem keeps_islandEnter (h : Keeps s₀ s) : Keeps s₀ (islandEnter s) := by
  unfold islandEnter
  exact keeps_ite h (keeps_ropeRecord (keeps_ropeMod h))

theorem keeps_islandLeave {port} (h : Keeps s₀ s) : Keeps s₀ (islandLeave port s) := by
  unfold islandLeave
  exact keeps_ite (keeps_ropeRecord (keeps_ropeMod h)) h

theorem completes_execRopeStartWaitExpired {second} (h : Keeps s₀ s) : Completes s₀ (execRopeStartWaitExpired second s) := by
  unfold execRopeStartWaitExpired
  split
  · exact completes_ite (completes_next h) (completes_next (keeps_bypassOpen (keeps_ropeMod h)))
  · refine completes_ite ?_ ?_
    · exact completes_next h
    · extract_lets s1
      have h1 : Keeps s₀ s1 := keeps_ropeStarted h
      exact completes_next (keeps_ite (keeps_islandEnter h1) h1)
  · exact completes_next h

theorem keeps_ropeStopCmd (h : Keeps s₀ s) : Keeps s₀ (ropeStopCmd s).1 := by
  unfold ropeStopCmd
  exact h

theorem steady_ropeStopped (h : Steady s₀ s) : Steady s₀ (ropeStopped s) := by
  unfold ropeStopped
  extract_lets s1 x x1 s2
  have h1 : Steady s₀ s1 := steady_claimRelease (steady_bypassClose (steady_ropeMod h))
  have h2 : Steady s₀ s2 := steady_ite h1 h1
  exact steady_refSelect (steady_ropeAborts (steady_fnSet h2))

theorem steady_ropeStopBoundary (h : Steady s₀ s) : Steady s₀ (ropeStopBoundary s) := by
  unfold ropeStopBoundary
  exact steady_ite (unseen_answer unseen_steady (steady_ropeStopped h)) h

theorem keeps_linkFail {p} (h : Keeps s₀ s) : Keeps s₀ (linkFail p s) := by
  unfold linkFail
  extract_lets x recent n s1
  have h1 : Keeps s₀ s1 := keeps_portMod h
  exact keeps_ite h (keeps_wrapStart (keeps_ropeRecord h1))

theorem completes_execLinkFailed {port} (h : Keeps s₀ s) : Completes s₀ (execLinkFailed port s) := by
  unfold execLinkFailed
  exact completes_next (keeps_linkFail h)

theorem completes_execLinkUp {l} (h : Keeps s₀ s) : Completes s₀ (execLinkUp l s) := by
  unfold execLinkUp
  refine completes_ite ?_ ?_
  · exact completes_next h
  · extract_lets s1
    have h1 : Keeps s₀ s1 := keeps_ropeRecord (keeps_portMod h)
    exact completes_ite (completes_next (keeps_bypassOpen (keeps_ropeMod h1))) (completes_next h1)

theorem completes_execHeldDownExpired {port} (h : Keeps s₀ s) : Completes s₀ (execHeldDownExpired port s) := by
  unfold execHeldDownExpired
  refine completes_ite ?_ ?_
  · extract_lets on
    exact completes_next (keeps_portMod h)
  · exact completes_next h

theorem steady_wrapBoundary (h : Steady s₀ s) : Steady s₀ (wrapBoundary s) := by
  unfold wrapBoundary
  extract_lets s1
  have h1 : Steady s₀ s1 := steady_ite (steady_ropeRecord (steady_ropeMod h)) h
  exact steady_ite (steady_ropeRecord (steady_ropeMod h1)) h1

theorem steady_areasMeet {xs} (h : Steady s₀ s) : Steady s₀ (areasMeet xs s) := by
  unfold areasMeet
  refine steady_foldl h fun t x ht => ?_
  split
  · exact unseen_uncorrectable unseen_steady ht
  · exact ht

theorem steady_figuresNote {k} (h : Steady s₀ s) : Steady s₀ (figuresNote k s) := by
  unfold figuresNote
  exact steady_ite h (steady_areasMeet (steady_ropeMod h))

theorem steady_ropeSend {b ls} (h : Steady s₀ s) : Steady s₀ (ropeSend b ls s) := by
  unfold ropeSend
  extract_lets wrap ls1
  exact steady_ropeMod h

theorem keeps_ropeSend {b ls} (h : Keeps s₀ s) : Keeps s₀ (ropeSend b ls s) :=
  keeps_of_steady h (steady_ropeSend (steady_refl s))

theorem keeps_strokeAdopt {l : Line} (h : Keeps s₀ s) : Keeps s₀ (strokeAdopt l s) := by
  unfold strokeAdopt
  extract_lets n old s1 x x1 x2 x3
  have h1 : Keeps s₀ s1 := keeps_emit h
  exact keeps_ite h (keeps_epochChange (keeps_frame h1 rfl rfl rfl rfl rfl rfl))

theorem keeps_crcCount {p ls} (h : Keeps s₀ s) : Keeps s₀ (crcCount p ls s) := by
  unfold crcCount
  exact keeps_crcFail h

theorem steady_slotTake {l} (h : Steady s₀ s) : Steady s₀ (slotTake l s) := by
  unfold slotTake
  refine steady_ite ?_ ?_
  · extract_lets at_
    exact steady_ropeMod h
  · exact h

theorem keeps_slotTake {l} (h : Keeps s₀ s) : Keeps s₀ (slotTake l s) :=
  keeps_of_steady h (steady_slotTake (steady_refl s))

theorem keeps_frameAlign {port h'} (h : Keeps s₀ s) : Keeps s₀ (frameAlign port h' s) := by
  unfold frameAlign
  exact keeps_ite (keeps_strokeAdopt (keeps_islandLeave h)) (keeps_ite (keeps_strokeAdopt h) h)

theorem keeps_frameNote {port h'} (h : Keeps s₀ s) : Keeps s₀ (frameNote port h' s) := by
  unfold frameNote
  exact keeps_ropeMod h

theorem steady_contribNote {b k} (h : Steady s₀ s) : Steady s₀ (contribNote b k s) := by
  unfold contribNote
  exact steady_ropeMod h

theorem keeps_contribNote {b k} (h : Keeps s₀ s) : Keeps s₀ (contribNote b k s) :=
  keeps_of_steady h (steady_contribNote (steady_refl s))

theorem keeps_memberFrame {b ps h' ls} (h : Keeps s₀ s) : Keeps s₀ (memberFrame b ps h' ls s) := by
  unfold memberFrame
  extract_lets port first s1 out s2 s3
  have h1 : Keeps s₀ s1 := keeps_frameNote (keeps_frameAlign h)
  have h2 : Keeps s₀ s2 := by
    unfold s2
    split
    · exact keeps_ite (keeps_slotTake h1) h1
    · exact h1
  have h3 : Keeps s₀ s3 := keeps_ite (keeps_contribNote h2) h2
  exact keeps_ite (keeps_ropeFault h) (keeps_ropeSend h3)

theorem keeps_ownThrough {b ps h' ls} (h : Keeps s₀ s) : Keeps s₀ (ownThrough b ps h' ls s) := by
  unfold ownThrough
  exact keeps_ite h (keeps_ropeSend h)

theorem keeps_runFrame {b ps h' ls} (h : Keeps s₀ s) : Keeps s₀ (runFrame b ps h' ls s) := by
  unfold runFrame
  refine keeps_ite ?_ ?_
  · exact keeps_ite (keeps_ownThrough h) (keeps_ite (keeps_ropeFault h) (keeps_ite (keeps_ropeFault h) h))
  · refine keeps_ite ?_ ?_
    · extract_lets s1
      have h1 : Keeps s₀ s1 := keeps_ropeSend (keeps_ropeMod h)
      exact keeps_ite (keeps_ropeFault h1) h1
    · exact keeps_ite (keeps_ropeFault h) (keeps_memberFrame h)

theorem completes_execStrokeFrameReceived {rope lines linkDelayPs forwardPs} (h : Keeps s₀ s) : Completes s₀
  (execStrokeFrameReceived rope lines linkDelayPs forwardPs s) := by
  unfold execStrokeFrameReceived
  extract_lets b port waits s1
  have h1 : Keeps s₀ s1 := keeps_portMod (keeps_crcCount h)
  refine completes_ite ?_ ?_
  · exact completes_next h
  · split
    · exact completes_next h1
    · extract_lets v
      refine completes_ite ?_ ?_
      · exact completes_next h1
      · refine completes_ite ?_ ?_
        · split
          · exact completes_next (keeps_ropeStartFail h1)
          · exact completes_next (keeps_memberFrame (keeps_strokeAdopt (keeps_ropeStarted h1)))
        · exact completes_next (keeps_runFrame h1)

theorem steady_headLaunch {k} (h : Steady s₀ s) : Steady s₀ (headLaunch k s) := by
  unfold headLaunch
  refine steady_ite ?_ ?_
  · exact h
  · extract_lets go own st s1 s2
    have hgo : ∀ {a0 t}, Steady s₀ t → Steady s₀ (go a0 t) := by
      intro a0 t ht
      exact steady_ropeSend ht
    have h1 : Steady s₀ s1 := steady_contribNote (steady_contribNote (hgo (hgo (steady_ite (steady_areasMeet h) h))))
    have h2 : Steady s₀ s2 := by
      unfold s2
      clear_value own
      split
      · exact steady_slotTake h1
      · exact h1
    exact steady_ropeMod h2

theorem keeps_ropeStSet {b x} (h : Keeps s₀ s) : Keeps s₀ (ropeStSet b x s) := by
  unfold ropeStSet
  exact keeps_ite h (keeps_ropeRecord (keeps_ropeMod h))

theorem keeps_frameMissed (h : Keeps s₀ s) : Keeps s₀ (frameMissed s) := by
  unfold frameMissed
  extract_lets s1 due
  have h1 : Keeps s₀ s1 := keeps_ropeMod h
  exact keeps_ite (keeps_ropeRecord (keeps_ropeMod h1)) h1

theorem keeps_flightDone {b k} (h : Keeps s₀ s) : Keeps s₀ (flightDone b k s) := by
  unfold flightDone
  extract_lets gone fs lost s1
  have h1 : Keeps s₀ s1 := keeps_ropeMod h
  exact keeps_ite (keeps_frameMissed h1) h1

theorem keeps_frameLand {h' ls} (h : Keeps s₀ s) : Keeps s₀ (frameLand h' ls s) := by
  unfold frameLand
  extract_lets k s1
  have h1 : Keeps s₀ s1 := keeps_ropeMod h
  exact keeps_ite h1 (keeps_ropeMod h1)

theorem steady_landingSeen {n} (h : Steady s₀ s) : Steady s₀ (landingSeen n s) := by
  unfold landingSeen
  extract_lets due put x
  have hput : ∀ {a0 t a2}, Steady s₀ t → Steady s₀ (put a0 t a2) := by
    intro a0 t a2 ht
    exact steady_memWriteWords (steady_memWriteWords ht)
  refine steady_foldl h fun t x ht => ?_
  refine steady_ropeMod ?_
  refine steady_foldl ht fun t x ht => ?_
  exact hput ht

theorem keeps_liveNote {port h'} (h : Keeps s₀ s) : Keeps s₀ (liveNote port h' s) := by
  unfold liveNote
  exact keeps_ite h (keeps_ropeRecord h)

theorem keeps_copyBack {b h' ls} (h : Keeps s₀ s) : Keeps s₀ (copyBack b h' ls s) := by
  unfold copyBack
  extract_lets port s1 k s2 done whole ok s3
  have h1 : Keeps s₀ s1 := keeps_islandLeave h
  have h2 : Keeps s₀ s2 := keeps_ropeStSet h1
  have h3 : Keeps s₀ s3 := keeps_frameNote (keeps_liveNote h2)
  exact keeps_flightDone (keeps_ite (keeps_frameLand h3) h3)

theorem completes_execFrameCopyReturn {rope lines} (h : Keeps s₀ s) : Completes s₀ (execFrameCopyReturn rope lines s) := by
  unfold execFrameCopyReturn
  extract_lets b port s1
  have h1 : Keeps s₀ s1 := keeps_crcCount h
  refine completes_ite ?_ ?_
  · exact completes_next h
  · split
    · exact completes_next h1
    · extract_lets v out
      exact completes_ite (completes_next h1) (completes_ite (completes_ite (completes_next (keeps_ropeStartFail h1))
        (completes_next (keeps_copyBack (keeps_ropeStarted h1)))) (completes_next (keeps_copyBack h1)))

theorem completes_execFrameCopyTimeout {rope} (h : Keeps s₀ s) : Completes s₀ (execFrameCopyTimeout rope s) := by
  unfold execFrameCopyTimeout
  extract_lets b
  split
  · exact completes_next h
  · exact completes_next (keeps_flightDone (keeps_ropeStSet h))

theorem unseen_allocateRun (hP : Unseen P) {l} (h : P s) : P (allocateRun l s) := by
  unfold allocateRun
  extract_lets old fr k r1 m void sum rt res put ws given x s1
  have h1 : P s1 := hP.rope h
  exact holds_ite (unseen_stageArea hP h) (unseen_stageArea hP h1)

theorem steady_ropeTargetApply {k v} (h : Steady s₀ s) : Steady s₀ (ropeTargetApply k v s) := by
  unfold ropeTargetApply
  extract_lets t x
  exact steady_ropeMod h

theorem steady_ropeTargets {k} (h : Steady s₀ s) : Steady s₀ (ropeTargets k s) := by
  unfold ropeTargets
  extract_lets due s1
  have h1 : Steady s₀ s1 := steady_ropeMod h
  split
  · exact steady_ite (steady_ropeTargetApply h1) h1
  · exact h1

theorem steady_portsSeen {xs} (h : Steady s₀ s) : Steady s₀ (portsSeen xs s) := by
  unfold portsSeen
  refine steady_foldl h fun t x ht => ?_
  split
  · extract_lets n
    exact steady_portMod ht
  · exact ht

theorem steady_ropeStrokeEnd (h : Steady s₀ s) : Steady s₀ (ropeStrokeEnd s) := by
  unfold ropeStrokeEnd
  extract_lets s1 s2
  have h1 : Steady s₀ s1 := by
    unfold s1
    refine steady_foldl h fun t x ht => ?_
    extract_lets n
    exact steady_ite ht (steady_ropeRecord (steady_portMod ht))
  have h2 : Steady s₀ s2 := steady_ite (steady_ropeMod h1) h1
  exact steady_ropeMod h2

theorem completes_execRopeLossHoldExpired (h : Keeps s₀ s) : Completes s₀ (execRopeLossHoldExpired s) := by
  unfold execRopeLossHoldExpired
  extract_lets x x1 x2 s1
  have h1 : Keeps s₀ s1 := h
  exact completes_ite (completes_next (keeps_ropeRecord (keeps_ropeMod h1))) (completes_next h)

theorem completes_execRoleSet {r} (h : Keeps s₀ s) : Completes s₀ (execRoleSet r s) := by
  unfold execRoleSet
  refine completes_mailbox h fun s1 h1 => ?_
  extract_lets n
  refine keeps_guardE h1 fun s2 h2 => ?_
  exact h2

theorem completes_execRopeConfig {r} (h : Keeps s₀ s) : Completes s₀ (execRopeConfig r s) := by
  unfold execRopeConfig
  refine completes_mailbox h fun s1 h1 => ?_
  refine keeps_guardE h1 fun s2 h2 => ?_
  extract_lets c
  exact keeps_ropeMod h2

theorem completes_execRopeQuery {r} (h : Keeps s₀ s) : Completes s₀ (execRopeQuery r s) := by
  unfold execRopeQuery
  refine completes_mailbox h fun s1 h1 => ?_
  exact keeps_asks h1

theorem completes_execRopePortQuery {r} (h : Keeps s₀ s) : Completes s₀ (execRopePortQuery r s) := by
  unfold execRopePortQuery
  refine completes_mailbox h fun s1 h1 => ?_
  exact keeps_asks h1

theorem completes_execCmisPoll {port poll} (h : Keeps s₀ s) : Completes s₀ (execCmisPoll port poll s) := by
  unfold execCmisPoll
  extract_lets p first s1 s2
  have h1 : Keeps s₀ s1 := keeps_portMod h
  have h2 : Keeps s₀ s2 := keeps_ite (keeps_ropeRecord h1) h1
  exact completes_ite (completes_next h) (completes_next (keeps_ite (keeps_linkFail h2) h2))

theorem keeps_cmisWrite {port bank page off data} (h : Keeps s₀ s) : Keeps s₀ (cmisWrite port bank page off data s) := by
  unfold cmisWrite
  exact keeps_ite h (keeps_ropeMod h)

theorem completes_execRopeCmis {r reply} (h : Keeps s₀ s) : Completes s₀ (execRopeCmis r reply s) := by
  unfold execRopeCmis
  refine completes_mailbox h fun s1 h1 => ?_
  refine keeps_guardE h1 fun s2 h2 => ?_
  split
  · extract_lets p
    exact keeps_ropeRecord h2
  · split
    · exact keeps_cmisWrite h2
    · exact h2

theorem completes_execRopeRead {r} (h : Keeps s₀ s) : Completes s₀ (execRopeRead r s) := by
  unfold execRopeRead
  refine completes_mailbox h fun s1 h1 => ?_
  extract_lets n f lines s2 base size
  have h2 : Keeps s₀ s2 := keeps_seeAs h1
  split
  · exact h1
  · split
    · exact h1
    · split
      · exact h1
      · split
        · split
          next s3 e3 =>
            have h3 : Keeps s₀ s3 := keeps_some_clerkRead e3 h1
            exact h3
          · exact h1
        · split
          · exact h1
          · exact h1

/-! ### Active–standby pairing -/

theorem steady_pairMod {f} (h : Steady s₀ s) : Steady s₀ (pairMod f s) := by
  unfold pairMod
  exact h

theorem keeps_pairMod {f} (h : Keeps s₀ s) : Keeps s₀ (pairMod f s) :=
  keeps_of_steady h (steady_pairMod (steady_refl s))

theorem steady_pairRecord {sev code detail} (h : Steady s₀ s) : Steady s₀ (pairRecord sev code detail s) := by
  unfold pairRecord
  exact unseen_emit unseen_steady h

theorem keeps_pairRecord {sev code detail} (h : Keeps s₀ s) : Keeps s₀ (pairRecord sev code detail s) :=
  keeps_of_steady h (steady_pairRecord (steady_refl s))

theorem steady_reqUpdate (h : Steady s₀ s) : Steady s₀ (reqUpdate s) := by
  unfold reqUpdate
  exact steady_pairMod h

theorem keeps_reqUpdate (h : Keeps s₀ s) : Keeps s₀ (reqUpdate s) :=
  keeps_of_steady h (steady_reqUpdate (steady_refl s))

theorem steady_giveUp {new} (h : Steady s₀ s) : Steady s₀ (giveUp new s) := by
  unfold giveUp
  extract_lets was s1
  have h1 : Steady s₀ s1 := steady_pairLeave h
  exact steady_ite (steady_refSelect (steady_estRoleChange (steady_stageGrantLost h1))) h1

theorem keeps_giveUp {new} (h : Keeps s₀ s) : Keeps s₀ (giveUp new s) :=
  keeps_of_steady h (steady_giveUp (steady_refl s))

theorem steady_claim {row} (h : Steady s₀ s) : Steady s₀ (claim row s) := by
  unfold claim
  exact steady_pairMod (steady_giveUp h)

theorem keeps_claim {row} (h : Keeps s₀ s) : Keeps s₀ (claim row s) :=
  keeps_of_steady h (steady_claim (steady_refl s))

theorem keeps_mismatchStep {b} (h : Keeps s₀ s) : Keeps s₀ (mismatchStep b s) := by
  unfold mismatchStep
  extract_lets d rec_ s1 s2
  have hrec_ : ∀ {a0 t}, Keeps s₀ t → Keeps s₀ (rec_ a0 t) := by
    intro a0 t ht
    exact keeps_pairRecord ht
  have h1 : Keeps s₀ s1 := keeps_pairMod h
  have h2 : Keeps s₀ s2 := keeps_ite (hrec_ h1) h1
  exact keeps_ite (hrec_ h2) h2

theorem steady_pathSet {path silent} (h : Steady s₀ s) : Steady s₀ (pathSet path silent s) := by
  unfold pathSet
  extract_lets rope was s1
  have h1 : Steady s₀ s1 := steady_pairMod h
  exact steady_ite h (steady_pairRecord h1)

theorem keeps_pathSet {path silent} (h : Keeps s₀ s) : Keeps s₀ (pathSet path silent s) :=
  keeps_of_steady h (steady_pathSet (steady_refl s))

theorem keeps_beatNote {path b} (h : Keeps s₀ s) : Keeps s₀ (beatNote path b s) := by
  unfold beatNote
  extract_lets hb dup run s1 x
  have h1 : Keeps s₀ s1 := keeps_pairMod h
  exact keeps_ite h1 h1

theorem steady_pairStopped (h : Steady s₀ s) : Steady s₀ (pairStopped s) := by
  unfold pairStopped
  extract_lets s1
  have h1 : Steady s₀ s1 := steady_reqUpdate (steady_fnSet (steady_claimRelease (steady_giveUp h)))
  exact unseen_answer unseen_steady (steady_pairMod h1)

theorem keeps_pairStopped (h : Keeps s₀ s) : Keeps s₀ (pairStopped s) :=
  keeps_of_steady h (steady_pairStopped (steady_refl s))

theorem keeps_handoverSeen {b} (h : Keeps s₀ s) : Keeps s₀ (handoverSeen b s) := by
  unfold handoverSeen
  split
  · refine keeps_ite ?_ ?_
    · exact h
    · extract_lets s1 s2
      have h1 : Keeps s₀ s1 := keeps_pairMod h
      have h2 : Keeps s₀ s2 := keeps_ite (keeps_giveUp h1) h1
      exact keeps_ite (keeps_answer h2) (keeps_pairStopped h2)
  · exact h

theorem completes_execBeatReceived {path words crcOk} (h : Keeps s₀ s) : Completes s₀ (execBeatReceived path words crcOk s) := by
  unfold execBeatReceived
  refine completes_ite ?_ ?_
  · exact completes_next h
  · refine completes_ite ?_ ?_
    · extract_lets s1
      have h1 : Keeps s₀ s1 := keeps_ite h (keeps_crcFail h)
      exact completes_next (keeps_pairMod h1)
    · exact completes_next (keeps_handoverSeen (keeps_mismatchStep (keeps_pathSet (keeps_beatNote h))))

theorem completes_execPathSilent {path} (h : Keeps s₀ s) : Completes s₀ (execPathSilent path s) := by
  unfold execPathSilent
  extract_lets due x s1
  have h1 : Keeps s₀ s1 := keeps_ite h h
  exact completes_ite (completes_next h) (completes_next (keeps_pathSet h1))

theorem steady_pathsBoundary (h : Steady s₀ s) : Steady s₀ (pathsBoundary s) := by
  unfold pathsBoundary
  extract_lets s1 late s2
  have h1 : Steady s₀ s1 := steady_pairMod h
  have h2 : Steady s₀ s2 := steady_ite (steady_pathSet h1) h1
  exact steady_ite (steady_pathSet h2) h2

theorem keeps_grantVector (h : Keeps s₀ s) : Keeps s₀ (grantVector s) := by
  unfold grantVector
  exact keeps_ite (keeps_msixDue h) h

theorem keeps_grantRecord {rise} (h : Keeps s₀ s) : Keeps s₀ (grantRecord rise s) := by
  unfold grantRecord
  exact keeps_ite h (keeps_ite (keeps_ite h (keeps_pairRecord h)) (keeps_ite h (keeps_pairRecord h)))

theorem completes_execGrantLost (h : Keeps s₀ s) : Completes s₀ (execGrantLost s) := by
  unfold execGrantLost
  refine completes_ite ?_ ?_
  · exact completes_next h
  · extract_lets s1
    have h1 : Keeps s₀ s1 := keeps_grantRecord (keeps_grantVector (keeps_pairMod h))
    exact completes_next (keeps_estRoleChange (keeps_holdEnd (keeps_chainGrantLost (keeps_chainGrantLost
      (keeps_stageGrantLost h1)))))

theorem completes_execGrantRise (h : Keeps s₀ s) : Completes s₀ (execGrantRise s) := by
  unfold execGrantRise
  refine completes_ite ?_ ?_
  · exact completes_next h
  · refine completes_ite ?_ ?_
    · exact completes_next (keeps_pairMod h)
    · extract_lets s1
      have h1 : Keeps s₀ s1 := keeps_grantRecord (keeps_grantVector (keeps_pairMod h))
      exact completes_next (keeps_estRoleChange (keeps_chainGrantRise (keeps_chainGrantRise h1)))

theorem completes_execWatchdogVeto (h : Keeps s₀ s) : Completes s₀ (execWatchdogVeto s) := by
  unfold execWatchdogVeto
  exact completes_ite (completes_next h) (completes_next (keeps_vetoLatch h))

theorem steady_beatSend {k token} (h : Steady s₀ s) : Steady s₀ (beatSend k token s) := by
  unfold beatSend
  extract_lets idle due hb w
  exact steady_ite (steady_pairMod h) (steady_pairMod h)

theorem steady_mirrorSend {k sums tags live spread} (h : Steady s₀ s) : Steady s₀ (mirrorSend k sums tags live spread s) := by
  unfold mirrorSend
  refine steady_ite ?_ ?_
  · extract_lets s1
    have h1 : Steady s₀ s1 := steady_areasMeet h
    exact steady_pairMod h1
  · exact h

theorem steady_areaKeep {x modelId} (h : Steady s₀ s) : Steady s₀ (areaKeep x modelId s) := by
  unfold areaKeep
  extract_lets known
  exact steady_pairMod h

theorem steady_areaApply {modelId i j status copy} (h : Steady s₀ s) : Steady s₀ (areaApply modelId i j status copy s) := by
  unfold areaApply
  split
  · exact h
  · split
    · exact h
    · exact steady_ite h (steady_foldl h fun _ _ ht => unseen_seenBytes unseen_steady (unseen_seenWords unseen_steady ht))

theorem steady_estApply {cells open_} (h : Steady s₀ s) : Steady s₀ (estApply cells open_ s) := by
  unfold estApply
  refine steady_ite ?_ ?_
  · exact h
  · extract_lets learned s1 s2 one
    have h1 : Steady s₀ s1 := steady_foldl h fun _ _ ht => unseen_cellPut unseen_steady ht
    have h2 : Steady s₀ s2 := steady_ite (unseen_capacityDue unseen_steady h1) h1
    exact unseen_estMod unseen_steady h2

theorem steady_cellsFor {pairs} (h : Steady s₀ s) : Steady s₀ (cellsFor pairs s) := by
  unfold cellsFor
  exact steady_foldl h fun _ _ ht => steady_ite ht (steady_ldMod ht)

theorem steady_itemApply {x} (h : Steady s₀ s) : Steady s₀ (itemApply x s) := by
  unfold itemApply
  extract_lets ledger
  split
  · exact steady_areaKeep h
  · exact steady_pairMod (steady_estApply h)
  · refine steady_ite ?_ ?_
    · exact h
    · extract_lets xs s1
      have h1 : Steady s₀ s1 := steady_cellsFor h
      exact steady_ldMod (steady_strokeAdd h1)
  · refine steady_ite ?_ ?_
    · exact h
    · extract_lets named
      exact steady_ldMod (steady_cellsFor h)
  · refine steady_ite ?_ ?_
    · exact h
    · extract_lets cs
      exact steady_ldMod h
  · exact steady_ite (steady_jobClose h) h
  · extract_lets x1 t q s1 x2
    have h1 : Steady s₀ s1 := steady_pairMod h
    exact steady_ite h1 h1
  · refine steady_ite ?_ ?_
    · exact h
    · extract_lets s1
      have h1 : Steady s₀ s1 := steady_ite (steady_publishLater h) h
      exact steady_ropeMod h1

theorem completes_execMirrorReceived {stroke lines} (h : Keeps s₀ s) : Completes s₀ (execMirrorReceived stroke lines s) := by
  unfold execMirrorReceived
  refine completes_ite ?_ ?_
  · exact completes_next h
  · refine completes_ite ?_ ?_
    · exact completes_next (keeps_crcFail h)
    · refine completes_ite ?_ ?_
      · exact completes_next (keeps_pairMod h)
      · refine completes_ite ?_ ?_
        · refine completes_next ?_
          refine keeps_foldl h fun t x ht => ?_
          split
          · exact ht
          · exact ht
        · exact completes_next h

theorem steady_syncUpdate (h : Steady s₀ s) : Steady s₀ (syncUpdate s) := by
  unfold syncUpdate
  extract_lets s1 new was s2
  have h1 : Steady s₀ s1 := steady_pairMod h
  have h2 : Steady s₀ s2 := steady_pairMod h1
  exact steady_ite h2 (steady_pairRecord h2)

theorem keeps_syncUpdate (h : Keeps s₀ s) : Keeps s₀ (syncUpdate s) :=
  keeps_of_steady h (steady_syncUpdate (steady_refl s))

theorem steady_itemsApply {k items} (h : Steady s₀ s) : Steady s₀ (itemsApply k items s) := by
  unfold itemsApply
  extract_lets est s1
  have h1 : Steady s₀ s1 := steady_foldl h fun _ _ ht => steady_itemApply ht
  exact steady_pairMod h1

theorem keeps_itemsApply {k items} (h : Keeps s₀ s) : Keeps s₀ (itemsApply k items s) :=
  keeps_of_steady h (steady_itemsApply (steady_refl s))

theorem steady_areasApply (h : Steady s₀ s) : Steady s₀ (areasApply s) := by
  unfold areasApply
  refine steady_foldl h fun t x ht => ?_
  split
  · exact steady_areaApply ht
  · exact ht

theorem keeps_areasApply (h : Keeps s₀ s) : Keeps s₀ (areasApply s) :=
  keeps_of_steady h (steady_areasApply (steady_refl s))

theorem steady_mirrorBoundary (h : Steady s₀ s) : Steady s₀ (mirrorBoundary s) := by
  unfold mirrorBoundary
  extract_lets ins s1
  have h1 : Steady s₀ s1 := steady_pairMod h
  exact steady_ite (steady_writesLand (steady_areasApply (steady_foldl h1 fun _ _ ht => steady_itemsApply ht))) h1

theorem completes_execSnapshotRequest {stroke items packages} (h : Keeps s₀ s) : Completes s₀
  (execSnapshotRequest stroke items packages s) := by
  unfold execSnapshotRequest
  refine completes_ite ?_ ?_
  · exact completes_next h
  · extract_lets s1
    have h1 : Keeps s₀ s1 := keeps_areasApply (keeps_itemsApply h)
    exact completes_next (keeps_syncUpdate (keeps_pairMod h1))

theorem steady_estTakeover (h : Steady s₀ s) : Steady s₀ (estTakeover s) := by
  unfold estTakeover
  split
  · exact h
  · refine steady_ite ?_ ?_
    · exact h
    · extract_lets us s1 q s2
      have h1 : Steady s₀ s1 := unseen_estMod unseen_steady h
      have h2 : Steady s₀ s2 := steady_foldl h1 fun _ _ ht => unseen_cellPut unseen_steady ht
      exact steady_stMod h2

theorem steady_hostLossTakeover (h : Steady s₀ s) : Steady s₀ (hostLossTakeover s) := by
  unfold hostLossTakeover
  exact steady_ite h h

theorem steady_autoStart (h : Steady s₀ s) : Steady s₀ (autoStart s) := by
  unfold autoStart
  refine steady_ite ?_ ?_
  · refine steady_ite ?_ ?_
    · exact steady_pairRecord (steady_fnFault h)
    · split
      · exact steady_stageStart h
      · exact steady_pairRecord h
      · exact h
  · exact h

theorem steady_takeActive (h : Steady s₀ s) : Steady s₀ (takeActive s) := by
  unfold takeActive
  extract_lets lag row s1 s2 s3
  have h1 : Steady s₀ s1 := steady_hostLossTakeover (steady_ledgerTakeover (steady_estRoleChange (steady_estTakeover h)))
  have h2 : Steady s₀ s2 := steady_pairMod h1
  have h3 : Steady s₀ s3 := unseen_msixDue unseen_steady (steady_pairRecord h2)
  exact steady_autoStart (steady_refSelect h3)

theorem steady_activeStep (h : Steady s₀ s) : Steady s₀ (activeStep s) := by
  unfold activeStep
  refine steady_ite ?_ ?_
  · exact steady_pairRecord (steady_giveUp h)
  · refine steady_ite ?_ ?_
    · exact h
    · refine steady_ite ?_ ?_
      · extract_lets s1
        have h1 : Steady s₀ s1 := steady_pairMod (steady_fnFault (steady_giveUp h))
        exact unseen_answer unseen_steady (unseen_answer unseen_steady h1)
      · exact steady_pairRecord h

theorem steady_standbyStep (h : Steady s₀ s) : Steady s₀ (standbyStep s) := by
  unfold standbyStep
  refine steady_ite ?_ ?_
  · exact steady_ite h (steady_pairRecord (steady_pairMod h))
  · split
    · exact steady_claim h
    · exact h

theorem steady_claimingStep (h : Steady s₀ s) : Steady s₀ (claimingStep s) := by
  unfold claimingStep
  extract_lets us
  exact steady_ite (steady_takeActive h) (steady_ite (steady_pairRecord (steady_giveUp h)) (steady_ite (steady_giveUp h) (steady_ite
    (steady_pairRecord (steady_pairMod h)) h)))

theorem steady_releaseStep (h : Steady s₀ s) : Steady s₀ (releaseStep s) := by
  unfold releaseStep
  split
  · exact steady_ite (steady_ite (steady_pairStopped h) h) (steady_ite (steady_pairMod h) (steady_ite h (steady_pairMod (steady_giveUp h))))
  · exact h

theorem steady_handoverLate (h : Steady s₀ s) : Steady s₀ (handoverLate s) := by
  unfold handoverLate
  split
  · exact steady_ite h (unseen_answer unseen_steady (steady_pairMod h))
  · exact h

theorem steady_releasingStep (h : Steady s₀ s) : Steady s₀ (releasingStep s) := by
  unfold releasingStep
  exact steady_ite (steady_giveUp h) h

theorem steady_vetoStep (h : Steady s₀ s) : Steady s₀ (vetoStep s) := by
  unfold vetoStep
  split
  · exact steady_pairStopped h
  · exact steady_pairMod h
  · exact h

theorem steady_pairDecide (h : Steady s₀ s) : Steady s₀ (pairDecide s) := by
  unfold pairDecide
  refine steady_ite ?_ ?_
  · exact h
  · refine steady_ite ?_ ?_
    · exact steady_vetoStep (steady_giveUp h)
    · extract_lets s1
      have h1 : Steady s₀ s1 := steady_ite h (steady_releaseStep h)
      refine steady_ite ?_ ?_
      · exact h1
      · split
        · exact steady_activeStep h1
        · exact steady_standbyStep h1
        · exact steady_claimingStep h1
        · exact steady_releasingStep h1

theorem completes_execHandoverReclaim (h : Keeps s₀ s) : Completes s₀ (execHandoverReclaim s) := by
  unfold execHandoverReclaim
  split
  · refine completes_ite ?_ ?_
    · exact completes_next h
    · extract_lets s1
      have h1 : Keeps s₀ s1 := keeps_reqUpdate (keeps_claim (keeps_pairMod h))
      exact completes_next (keeps_answer h1)
  · exact completes_next h

theorem steady_pstateBoundary {token} (h : Steady s₀ s) : Steady s₀ (pstateBoundary token s) := by
  unfold pstateBoundary
  extract_lets s1
  have h1 : Steady s₀ s1 := steady_pairMod h
  exact steady_reqUpdate (steady_syncUpdate (steady_pairDecide (steady_handoverLate (steady_mirrorBoundary (steady_pathsBoundary h1)))))

theorem keeps_pairStart (h : Keeps s₀ s) : Keeps s₀ (pairStart s) := by
  unfold pairStart
  extract_lets s1
  have h1 : Keeps s₀ s1 := keeps_fnSet (keeps_claimAll h)
  exact keeps_pairMod h1

theorem keeps_handoverOpen {cmd hands} (h : Keeps s₀ s) : Keeps s₀ (handoverOpen cmd hands s) := by
  unfold handoverOpen
  extract_lets s1
  have h1 : Keeps s₀ s1 := keeps_ite (keeps_stMod h) (keeps_loopOpening h)
  exact keeps_pairMod h1

theorem keeps_pairStopCmd (h : Keeps s₀ s) : Keeps s₀ (pairStopCmd s).1 := by
  unfold pairStopCmd
  split
  · exact keeps_handoverOpen h
  · exact keeps_pairStopped h

theorem completes_execPairConfig {r} (h : Keeps s₀ s) : Completes s₀ (execPairConfig r s) := by
  unfold execPairConfig
  refine completes_mailbox h fun s1 h1 => ?_
  extract_lets w t
  refine keeps_guardE h1 fun s2 h2 => ?_
  exact keeps_pairMod h2

theorem completes_execPairQuery {r} (h : Keeps s₀ s) : Completes s₀ (execPairQuery r s) := by
  unfold execPairQuery
  refine completes_mailbox h fun s1 h1 => ?_
  exact keeps_asks h1

theorem completes_execPairHandover {r} (h : Keeps s₀ s) : Completes s₀ (execPairHandover r s) := by
  unfold execPairHandover
  refine completes_mailbox h fun s1 h1 => ?_
  refine keeps_guardE h1 fun s2 h2 => ?_
  exact keeps_handoverOpen h2

theorem keeps_hostLossTarget (h : Keeps s₀ s) : Keeps s₀ (hostLossTarget s) := by
  unfold hostLossTarget
  extract_lets k ramp alone x
  exact keeps_ite (keeps_ite h h) (keeps_ite h h)

theorem completes_execHostLossHoldExpired (h : Keeps s₀ s) : Completes s₀ (execHostLossHoldExpired s) := by
  unfold execHostLossHoldExpired
  refine completes_ite ?_ ?_
  · exact completes_next h
  · extract_lets x s1
    have h1 : Keeps s₀ s1 := keeps_pairRecord h
    exact completes_next (keeps_hostLossTarget h1)

theorem steady_hostLossBoundary (h : Steady s₀ s) : Steady s₀ (hostLossBoundary s) := by
  unfold hostLossBoundary
  exact steady_ite h h

/-! ### Die temperatures, the operating points of the general tiles and the moves between them, with THERMAL_CONFIG, THERMAL_QUERY and POWER_QUERY -/

theorem steady_thMod {f} (h : Steady s₀ s) : Steady s₀ (thMod f s) := by
  unfold thMod
  exact h

theorem keeps_thMod {f} (h : Keeps s₀ s) : Keeps s₀ (thMod f s) :=
  keeps_of_steady h (steady_thMod (steady_refl s))

theorem keeps_thermRecord {sev code detail} (h : Keeps s₀ s) : Keeps s₀ (thermRecord sev code detail s) := by
  unfold thermRecord
  exact keeps_emit h

theorem keeps_brokenStep {n now_} (h : Keeps s₀ s) : Keeps s₀ (brokenStep n now_ s) := by
  unfold brokenStep
  exact keeps_ite h (keeps_thermRecord (keeps_thMod h))

theorem keeps_alarmStep {n} (h : Keeps s₀ s) : Keeps s₀ (alarmStep n s) := by
  unfold alarmStep
  extract_lets t on
  exact keeps_ite h (keeps_ite (keeps_thermRecord (keeps_thMod h)) (keeps_ite (keeps_thMod h) h))

theorem keeps_shutdownStep {n} (h : Keeps s₀ s) : Keeps s₀ (shutdownStep n s) := by
  unfold shutdownStep
  extract_lets t sent s1 s2 s3
  have h1 : Keeps s₀ s1 := keeps_thMod h
  have h2 : Keeps s₀ s2 := keeps_vetoLatch h1
  have h3 : Keeps s₀ s3 := keeps_thermRecord h2
  exact keeps_ite h (keeps_ite h3 (keeps_msixDue h3))

theorem completes_execTemperatureConversion {sensor reading} (h : Keeps s₀ s) : Completes s₀
  (execTemperatureConversion sensor reading s) := by
  unfold execTemperatureConversion
  refine completes_ite ?_ ?_
  · exact completes_next h
  · extract_lets n v s1
    have h1 : Keeps s₀ s1 := keeps_thMod h
    exact completes_next (keeps_shutdownStep (keeps_alarmStep (keeps_brokenStep h1)))

theorem steady_domMod {d f} (h : Steady s₀ s) : Steady s₀ (domMod d f s) := by
  unfold domMod
  exact h

theorem keeps_domMod {d f} (h : Keeps s₀ s) : Keeps s₀ (domMod d f s) :=
  keeps_of_steady h (steady_domMod (steady_refl s))

theorem steady_pllStart {p} (h : Steady s₀ s) : Steady s₀ (pllStart p s) := by
  unfold pllStart
  exact h

theorem keeps_pllStart {p} (h : Keeps s₀ s) : Keeps s₀ (pllStart p s) :=
  keeps_of_steady h (steady_pllStart (steady_refl s))

theorem steady_moveStart {p} (h : Steady s₀ s) : Steady s₀ (moveStart p s) := by
  unfold moveStart
  extract_lets up s1
  have h1 : Steady s₀ s1 := steady_foldl h fun _ _ ht => steady_pllStart ht
  exact steady_thMod h1

theorem steady_planStart {p} (h : Steady s₀ s) : Steady s₀ (planStart p s) := by
  unfold planStart
  exact steady_ite (steady_thMod h) (steady_ite (steady_thMod h) (steady_moveStart h))

theorem keeps_planStart {p} (h : Keeps s₀ s) : Keeps s₀ (planStart p s) :=
  keeps_of_steady h (steady_planStart (steady_refl s))

theorem keeps_planAsk {p} (h : Keeps s₀ s) : Keeps s₀ (planAsk p s) := by
  unfold planAsk
  refine keeps_ite ?_ ?_
  · exact h
  · extract_lets s1
    have h1 : Keeps s₀ s1 := keeps_thMod h
    exact keeps_ite (keeps_thMod h1) (keeps_planStart h1)

theorem keeps_moveReady (h : Keeps s₀ s) : Keeps s₀ (moveReady s) := by
  unfold moveReady
  split
  · exact h
  · exact keeps_ite (keeps_thMod h) h

theorem keeps_moveEnd (h : Keeps s₀ s) : Keeps s₀ (moveEnd s) := by
  unfold moveEnd
  exact keeps_thMod h

theorem keeps_switchDone (h : Keeps s₀ s) : Keeps s₀ (switchDone s) := by
  unfold switchDone
  split
  · exact h
  · extract_lets rise s1 s2
    have h1 : Keeps s₀ s1 := keeps_foldl h fun _ _ ht => keeps_domMod ht
    have h2 : Keeps s₀ s2 := keeps_thMod h1
    exact keeps_ite (keeps_moveEnd h2) (keeps_thMod h2)

theorem completes_execRailSettled (h : Keeps s₀ s) : Completes s₀ (execRailSettled s) := by
  unfold execRailSettled
  refine completes_ite ?_ ?_
  · exact completes_next h
  · extract_lets s1
    have h1 : Keeps s₀ s1 := keeps_thMod h
    exact completes_next (keeps_ite (keeps_moveEnd h1) (keeps_moveReady h1))

theorem completes_execPllLockCount {pll} (h : Keeps s₀ s) : Completes s₀ (execPllLockCount pll s) := by
  unfold execPllLockCount
  extract_lets p x s1 lk s2 x1 s3 up
  have h1 : Keeps s₀ s1 := h
  have h2 : Keeps s₀ s2 := keeps_ite (keeps_pllStart (keeps_pllStart h1)) h1
  have h3 : Keeps s₀ s3 := keeps_ite h2 h2
  exact completes_ite (completes_next h) (completes_next (keeps_ite (keeps_moveReady (keeps_thMod h3)) h3))

theorem steady_rampStart (h : Steady s₀ s) : Steady s₀ (rampStart s) := by
  unfold rampStart
  exact steady_foldl (steady_thMod (steady_measureBlur h)) fun _ _ ht => steady_domMod ht

theorem completes_execDividerStep {d} (h : Keeps s₀ s) : Completes s₀ (execDividerStep d s) := by
  unfold execDividerStep
  extract_lets x was held s1
  have h1 : Keeps s₀ s1 := keeps_ite (keeps_measureBlur (keeps_domMod h)) (keeps_ite (keeps_measureBlur (keeps_domMod h))
    (keeps_ite (keeps_domMod h) h))
  exact completes_next (keeps_ratiosAnswer (keeps_ite (keeps_switchDone h1) h1))

theorem steady_capacityStep {f} (h : Steady s₀ s) : Steady s₀ (capacityStep f s) := by
  unfold capacityStep
  extract_lets higher s1 s2
  have h1 : Steady s₀ s1 := steady_thMod h
  have h2 : Steady s₀ s2 := steady_shedAll h1
  exact steady_ite (steady_restoreAll h2) h2

theorem steady_thermalBoundary (h : Steady s₀ s) : Steady s₀ (thermalBoundary s) := by
  unfold thermalBoundary
  extract_lets s1 s2 s3
  have h1 : Steady s₀ s1 := steady_ite (steady_thMod h) h
  have h2 : Steady s₀ s2 := by
    unfold s2
    split
    · exact steady_thMod h1
    · exact h1
  have h3 : Steady s₀ s3 := by
    unfold s3
    split
    · exact steady_capacityStep h2
    · exact h2
  refine steady_ite ?_ ?_
  · exact steady_ite (steady_rampStart h3) h3
  · split
    · exact steady_planStart (steady_thMod h3)
    · exact h3

theorem keeps_thermalApply (h : Keeps s₀ s) : Keeps s₀ (thermalApply s) := by
  unfold thermalApply
  split
  · exact keeps_thMod h
  · exact h

theorem keeps_throttleStep (h : Keeps s₀ s) : Keeps s₀ (throttleStep s) := by
  unfold throttleStep
  extract_lets x us hot cool pt moved s1
  have h1 : Keeps s₀ s1 := keeps_thMod h
  exact keeps_ite (keeps_thermRecord h1) h1

theorem keeps_boostStep {ptMoved} (h : Keeps s₀ s) : Keeps s₀ (boostStep ptMoved s) := by
  unfold boostStep
  extract_lets x hot held ends new s1
  have h1 : Keeps s₀ s1 := keeps_thMod h
  exact keeps_ite h1 (keeps_thermRecord h1)

theorem completes_execThrottleEvaluation (h : Keeps s₀ s) : Completes s₀ (execThrottleEvaluation s) := by
  unfold execThrottleEvaluation
  refine completes_ite ?_ ?_
  · exact completes_next h
  · extract_lets s1 pt s2 s3
    have h1 : Keeps s₀ s1 := keeps_thermalApply h
    have h2 : Keeps s₀ s2 := keeps_throttleStep h1
    have h3 : Keeps s₀ s3 := keeps_boostStep h2
    exact completes_next (keeps_planAsk h3)

theorem completes_execThermalConfig {r} (h : Keeps s₀ s) : Completes s₀ (execThermalConfig r s) := by
  unfold execThermalConfig
  refine completes_mailbox h fun s1 h1 => ?_
  extract_lets w t
  refine keeps_guardE h1 fun s2 h2 => ?_
  exact keeps_thMod h2

theorem completes_execThermalQuery {r} (h : Keeps s₀ s) : Completes s₀ (execThermalQuery r s) := by
  unfold execThermalQuery
  refine completes_mailbox h fun s1 h1 => ?_
  exact keeps_asks h1

theorem completes_execPowerQuery {r} (h : Keeps s₀ s) : Completes s₀ (execPowerQuery r s) := by
  unfold execPowerQuery
  refine completes_mailbox h fun s1 h1 => ?_
  exact keeps_asks h1

/-! ### Resets of every kind, the feeds and hold-up, the loss of every reference, the thermal shutdown's own steps and the NOR summaries -/

theorem keeps_summaryWrite {good type cause at_ status w6 w7} (h : Keeps s₀ s) : Keeps s₀
  (summaryWrite good type cause at_ status w6 w7 s) := by
  unfold summaryWrite
  refine keeps_ite ?_ ?_
  · split
    next s1 _ e1 =>
      have h1 : Keeps s₀ s1 := keeps_fst e1 (keeps_takeFree h)
      extract_lets e e2 n
      refine keeps_norOp ?_ fun t ht => ?_
      · refine keeps_norOp h1 fun t ht => ?_
        exact ht
      · exact ht
  · exact h

theorem keeps_resetParts {cause : Nat} (h : Keeps s₀ s) : Keeps s₀ (resetParts cause s) := by
  refine keeps_of h rfl fun hs => ?_
  obtain ⟨hc, hh, -⟩ := (keeps_writesLand (keeps_refl s)).2 hs
  obtain ⟨hc', hh'⟩ := cellsWf_resetMem ⟨hc, hh⟩ cause
  exact ⟨hc', hh', rfl, rfl, rfl, rfl⟩

theorem keeps_resetTo {cause} (h : Keeps s₀ s) : Keeps s₀ (resetTo cause s) := by
  unfold resetTo
  extract_lets s1 x p
  have h1 : Keeps s₀ s1 := keeps_resetParts h
  exact keeps_ite h1 h1

theorem keeps_resetHold {off} (h : Keeps s₀ s) : Keeps s₀ (resetHold off s) := by
  unfold resetHold
  extract_lets s1 x
  have h1 : Keeps s₀ s1 := keeps_resetParts h
  exact h1

theorem completes_execWarmReset {value} (h : Keeps s₀ s) : Completes s₀ (execWarmReset value s) := by
  unfold execWarmReset
  exact completes_ite (completes_next h) (completes_ite (completes_next (keeps_emit h)) (completes_ite (completes_next
    (keeps_resetTo h)) (completes_next h)))

theorem completes_execPerstReset (h : Keeps s₀ s) : Completes s₀ (execPerstReset s) := by
  unfold execPerstReset
  split
  · exact completes_next (keeps_resetTo h)
  · exact completes_ite (completes_next (keeps_resetTo h)) (completes_next h)
  · exact completes_next h

theorem completes_execAssayerReset (h : Keeps s₀ s) : Completes s₀ (execAssayerReset s) := by
  unfold execAssayerReset
  exact completes_ite (completes_next (keeps_resetTo h)) (completes_next h)

theorem completes_execPanicReset (h : Keeps s₀ s) : Completes s₀ (execPanicReset s) := by
  unfold execPanicReset
  exact completes_ite (completes_next (keeps_resetTo h)) (completes_next h)

theorem keeps_feedSet {b ok ov} (h : Keeps s₀ s) : Keeps s₀ (feedSet b ok ov s) := by
  unfold feedSet
  exact h

theorem keeps_clerkRecord {sev code w} (h : Keeps s₀ s) : Keeps s₀ (clerkRecord sev code w s) := by
  unfold clerkRecord
  exact keeps_ite (keeps_emit h) h

theorem completes_execFeedLost {feed overVoltage} (h : Keeps s₀ s) : Completes s₀ (execFeedLost feed overVoltage s) := by
  unfold execFeedLost
  extract_lets b
  exact completes_ite (completes_next (keeps_clerkRecord (keeps_feedSet h))) (completes_next h)

theorem completes_execBothFeedsLost {feed overVoltage} (h : Keeps s₀ s) : Completes s₀ (execBothFeedsLost feed overVoltage s) := by
  unfold execBothFeedsLost
  extract_lets b s1 x s2
  have h1 : Keeps s₀ s1 := keeps_feedSet h
  have h2 : Keeps s₀ s2 := h1
  exact completes_ite (completes_next (keeps_clerkRecord h2)) (completes_next h)

theorem keeps_norRelease (h : Keeps s₀ s) : Keeps s₀ (norRelease s) := by
  unfold norRelease
  extract_lets b x x1
  refine keeps_ite ?_ ?_
  · refine keeps_norOp h fun t ht => ?_
    exact ht
  · exact h

theorem completes_execFeedPresent {feed} (h : Keeps s₀ s) : Completes s₀ (execFeedPresent feed s) := by
  unfold execFeedPresent
  extract_lets b loss s1 x s2
  have h1 : Keeps s₀ s1 := keeps_clerkRecord (keeps_feedSet h)
  have h2 : Keeps s₀ s2 := h1
  refine completes_ite ?_ ?_
  · exact completes_next h
  · refine completes_next ?_
    clear_value loss
    split
    · exact h2
    · exact keeps_norNext (keeps_norRelease h2)
    · exact keeps_norNext (keeps_norRelease (keeps_vetoRelease h2))
    · exact keeps_resetHold h2

theorem completes_execHoldupAuthDrop (h : Keeps s₀ s) : Completes s₀ (execHoldupAuthDrop s) := by
  unfold execHoldupAuthDrop
  refine completes_ite ?_ ?_
  · exact completes_next h
  · extract_lets x s1
    have h1 : Keeps s₀ s1 := h
    exact completes_ite (completes_next (keeps_stMod (keeps_vetoLatch h1))) (completes_next h1)

theorem completes_execHoldupRopeRelease (h : Keeps s₀ s) : Completes s₀ (execHoldupRopeRelease s) := by
  unfold execHoldupRopeRelease
  exact completes_ite (completes_next h) (completes_next (keeps_ropeRelease h))

theorem completes_execHoldupExpired (h : Keeps s₀ s) : Completes s₀ (execHoldupExpired s) := by
  unfold execHoldupExpired
  exact completes_ite (completes_next h) (completes_next (keeps_resetHold h))

theorem completes_execColdStart (h : Keeps s₀ s) : Completes s₀ (execColdStart s) := by
  unfold execColdStart
  exact completes_ite (completes_next h) (completes_next (keeps_resetTo h))

theorem completes_execLossOfEveryReference (h : Keeps s₀ s) : Completes s₀ (execLossOfEveryReference s) := by
  unfold execLossOfEveryReference
  refine completes_ite ?_ ?_
  · exact completes_next h
  · extract_lets s1 x x1
    have h1 : Keeps s₀ s1 := keeps_resetParts h
    exact completes_next h1

theorem completes_execClockLossRestart (h : Keeps s₀ s) : Completes s₀ (execClockLossRestart s) := by
  unfold execClockLossRestart
  refine completes_ite ?_ ?_
  · exact completes_next h
  · extract_lets w x
    exact completes_next (keeps_resetTo h)

theorem completes_execShutdownRopeRelease (h : Keeps s₀ s) : Completes s₀ (execShutdownRopeRelease s) := by
  unfold execShutdownRopeRelease
  split
  · exact completes_next h
  · refine completes_ite ?_ ?_
    · exact completes_next h
    · extract_lets s1
      have h1 : Keeps s₀ s1 := keeps_ropeRelease (keeps_thMod h)
      exact completes_next (keeps_summaryWrite h1)

theorem completes_execShutdownRegulatorsOff (h : Keeps s₀ s) : Completes s₀ (execShutdownRegulatorsOff s) := by
  unfold execShutdownRegulatorsOff
  refine completes_ite ?_ ?_
  · exact completes_next h
  · extract_lets s1 x
    have h1 : Keeps s₀ s1 := keeps_resetHold h
    exact completes_next h1

/-! ### The boot, firmware update, attestation and policies -/

theorem keeps_slotMod {b f} (h : Keeps s₀ s) : Keeps s₀ (slotMod b f s) := by
  unfold slotMod
  exact keeps_btMod h

theorem keeps_skipSet {b v} (h : Keeps s₀ s) : Keeps s₀ (skipSet b v s) := by
  unfold skipSet
  exact keeps_btMod h

theorem keeps_attemptUse {b} (h : Keeps s₀ s) : Keeps s₀ (attemptUse b s) := by
  unfold attemptUse
  extract_lets x
  refine keeps_ite ?_ ?_
  · exact h
  · split
    · exact keeps_slotMod h
    · exact h

theorem keeps_bootMeasure {b trim certs} (h : Keeps s₀ s) : Keeps s₀ (bootMeasure b trim certs s) := by
  unfold bootMeasure
  extract_lets x s1 s2 s3
  have h1 : Keeps s₀ s1 := keeps_measure h
  have h2 : Keeps s₀ s2 := keeps_foldl h1 fun _ _ ht => keeps_measure ht
  have h3 : Keeps s₀ s3 := keeps_measure (keeps_measure h2)
  split
  · exact keeps_measure h3
  · exact h3

theorem keeps_bridgeDown {i} (h : Keeps s₀ s) : Keeps s₀ (bridgeDown i s) := by
  unfold bridgeDown
  refine keeps_ite ?_ ?_
  · extract_lets x x1 s1
    have h1 : Keeps s₀ s1 := h
    split
    next s2 _ e2 =>
      have h2 : Keeps s₀ s2 := keeps_fst e2 (keeps_takeFree h1)
      exact keeps_emit h2
  · exact h

theorem keeps_headerPut {h'} (h : Keeps s₀ s) : Keeps s₀ (headerPut h' s) := by
  unfold headerPut
  exact keeps_memWriteWords h

theorem keeps_dumpHeld {cause preserved} (h : Keeps s₀ s) : Keeps s₀ (dumpHeld cause preserved s) := by
  unfold dumpHeld
  exact h

theorem keeps_dumpCheck (h : Keeps s₀ s) : Keeps s₀ (dumpCheck s) := by
  unfold dumpCheck
  refine keeps_ite ?_ ?_
  · extract_lets v cause s1
    have h1 : Keeps s₀ s1 := keeps_dumpHeld (keeps_headerPut h)
    exact keeps_fwRecord h1
  · exact h

theorem keeps_summariesReport (h : Keeps s₀ s) : Keeps s₀ (summariesReport s) := by
  unfold summariesReport
  extract_lets new skip x s1 s2
  have h1 : Keeps s₀ s1 := h
  have h2 : Keeps s₀ s2 := keeps_foldl h1 fun _ _ ht => keeps_ite (keeps_emit ht) (keeps_emit ht)
  exact keeps_foldl h2 fun _ _ ht => keeps_fwRecord ht

theorem keeps_trimLoad {t : TrimRec} {certs : List Byte} (h : Keeps s₀ s) : Keeps s₀ (trimLoad t certs s) := by
  unfold trimLoad
  extract_lets s1 x
  have h1 : Keeps s₀ s1 := keeps_btMod h
  clear_value x s1
  exact h1

theorem keeps_bootFailed {reason} (h : Keeps s₀ s) : Keeps s₀ (bootFailed reason s) := by
  unfold bootFailed
  exact h

theorem keeps_bootRecovery (h : Keeps s₀ s) : Keeps s₀ (bootRecovery s) := by
  unfold bootRecovery
  extract_lets s1 x x1
  have h1 : Keeps s₀ s1 := keeps_bootFailed h
  exact h1

theorem keeps_posinStart {b} (h : Keeps s₀ s) : Keeps s₀ (posinStart b s) := by
  unfold posinStart
  exact h

theorem keeps_sectsCopy (h : Keeps s₀ s) : Keeps s₀ (sectsCopy s) := by
  unfold sectsCopy
  extract_lets x
  exact keeps_foldl h fun _ _ ht => keeps_ite ht (keeps_memWrite ht)

theorem keeps_policyLoad (h : Keeps s₀ s) : Keeps s₀ (policyLoad s) := by
  unfold policyLoad
  extract_lets k held
  split
  · exact keeps_btMod h
  · exact h

theorem keeps_copyFailed {off die} (h : Keeps s₀ s) : Keeps s₀ (copyFailed off die s) := by
  unfold copyFailed
  exact keeps_fwRecord h

theorem keeps_lifeLoad (h : Keeps s₀ s) : Keeps s₀ (lifeLoad s) := by
  unfold lifeLoad
  split
  · extract_lets n
    exact keeps_estMod h
  · exact h

theorem keeps_bootOpen {trim cert helper env} (h : Keeps s₀ s) : Keeps s₀ (bootOpen trim cert helper env s) := by
  unfold bootOpen
  extract_lets b t c s1 s2 s3 x x1 s4 s5 s6 s7 s8 s9 s10 s11
  have h1 : Keeps s₀ s1 := keeps_policyLoad (keeps_lifeLoad (keeps_trimLoad h))
  have h2 : Keeps s₀ s2 := keeps_btMod h1
  have h3 : Keeps s₀ s3 := keeps_bootMeasure h2
  have h4 : Keeps s₀ s4 := h3
  have h5 : Keeps s₀ s5 := keeps_ite (keeps_fwRecord h4) h4
  have h6 : Keeps s₀ s6 := keeps_ite h5 (keeps_copyFailed h5)
  have h7 : Keeps s₀ s7 := keeps_ite h6 (keeps_copyFailed h6)
  have h8 : Keeps s₀ s8 := keeps_ite h7 (keeps_copyFailed h7)
  have h9 : Keeps s₀ s9 := by
    unfold s9
    refine keeps_ite ?_ ?_
    · exact h8
    · split
      next s12 _ e12 =>
        have h12 : Keeps s₀ s12 := keeps_fst e12 (keeps_takeFree h8)
        exact keeps_fwRecord h12
  have h10 : Keeps s₀ s10 := by
    unfold s10
    split
    · exact keeps_fwRecord h9
    · exact h9
  have h11 : Keeps s₀ s11 := keeps_summariesReport (keeps_dumpCheck h10)
  exact keeps_foldl h11 fun _ _ ht => keeps_bridgeDown ht

theorem keeps_bootRecords {env} (h : Keeps s₀ s) : Keeps s₀ (bootRecords env s) := by
  unfold bootRecords
  extract_lets root
  split
  · exact keeps_ite (keeps_bootOpen h) (keeps_bootFailed h)
  · exact keeps_bootFailed h

theorem keeps_bootImage {b env} (h : Keeps s₀ s) : Keeps s₀ (bootImage b env s) := by
  unfold bootImage
  extract_lets s1 x s2 x1 x2
  have h1 : Keeps s₀ s1 := keeps_posinStart (keeps_attemptUse h)
  have h2 : Keeps s₀ s2 := keeps_skipSet h1
  exact keeps_ite (keeps_bootFailed h1) (keeps_ite h2 (keeps_bootRecords (keeps_sectsCopy h1)))

theorem completes_execBootWatchdogExpired (h : Keeps s₀ s) : Completes s₀ (execBootWatchdogExpired s) := by
  unfold execBootWatchdogExpired
  refine completes_ite ?_ ?_
  · exact completes_next h
  · split
    · exact completes_next h
    · extract_lets s1
      have h1 : Keeps s₀ s1 := keeps_skipSet (keeps_attemptUse h)
      exact completes_next (keeps_btMod h1)

theorem completes_execFwQuery {r} (h : Keeps s₀ s) : Completes s₀ (execFwQuery r s) := by
  unfold execFwQuery
  refine completes_mailbox h fun s1 h1 => ?_
  exact keeps_asks h1

theorem keeps_slotErase {b} (h : Keeps s₀ s) : Keeps s₀ (slotErase b s) := by
  unfold slotErase
  refine keeps_ite ?_ ?_
  · exact keeps_btMod h
  · refine keeps_norOp (keeps_btMod h) fun t ht => ?_
    exact keeps_slotMod ht

theorem keeps_copyBegin (h : Keeps s₀ s) : Keeps s₀ (copyBegin s) := by
  unfold copyBegin
  exact keeps_slotErase (keeps_btMod h)

theorem keeps_writeBegin {x} (h : Keeps s₀ s) : Keeps s₀ (writeBegin x s) := by
  unfold writeBegin
  exact keeps_slotErase (keeps_btMod h)

theorem keeps_slotStore {b state x} (h : Keeps s₀ s) : Keeps s₀ (slotStore b state x s) := by
  unfold slotStore
  split
  next s1 _ e1 =>
    have h1 : Keeps s₀ s1 := keeps_fst e1 (keeps_takeFree h)
    refine keeps_norOp ?_ fun t ht => ?_
    · refine keeps_norOp h1 fun t ht => ?_
      exact keeps_slotMod ht
    · exact ht

theorem completes_execFwWrite {r : Req} {image : ImageInfo} (h : Keeps s₀ s) : Completes s₀ (execFwWrite r image s) := by
  unfold execFwWrite
  refine completes_mailbox h fun s1 h1 => ?_
  extract_lets x
  refine keeps_guardE h1 fun s2 h2 => ?_
  split
  next s3 e =>
    split at e
    · exact keeps_some_clerkRead e h2
    · cases e
  · split
    · exact keeps_writeBegin h2
    · split
      · exact keeps_copyBegin (keeps_btMod h2)
      · exact keeps_writeBegin h2

theorem keeps_workCode {ok} (h : Keeps s₀ s) : Keeps s₀ (workCode ok s).1 := by
  unfold workCode
  split
  · exact h
  · exact keeps_failCode h

theorem completes_execSlotBCopyComplete {ok} (h : Keeps s₀ s) : Completes s₀ (execSlotBCopyComplete ok s) := by
  unfold execSlotBCopyComplete
  refine completes_ite ?_ ?_
  · exact completes_next h
  · extract_lets s1 s2 p s3
    have h1 : Keeps s₀ s1 := keeps_btMod h
    have h2 : Keeps s₀ s2 := keeps_ite (keeps_slotStore h1) h1
    have hp : Keeps s₀ p.1 := keeps_workCode h2
    have h3 : Keeps s₀ s3 := keeps_fwRecord hp
    split
    · exact completes_next (keeps_writeBegin h3)
    · exact completes_next h3

theorem completes_execFwWriteComplete {writeOk} (h : Keeps s₀ s) : Completes s₀ (execFwWriteComplete writeOk s) := by
  unfold execFwWriteComplete
  split
  · exact completes_next h
  · refine completes_ite ?_ ?_
    · exact completes_next h
    · extract_lets s1 s2 p s3 s4
      have h1 : Keeps s₀ s1 := keeps_btMod h
      have h2 : Keeps s₀ s2 := keeps_ite (keeps_slotStore h1) h1
      have hp : Keeps s₀ p.1 := keeps_workCode h2
      have h3 : Keeps s₀ s3 := hp
      have h4 : Keeps s₀ s4 := keeps_ite (keeps_measure h3) h3
      exact completes_ite (completes_next (keeps_answer h3)) (completes_next (keeps_fwRecord h4))

theorem keeps_commitGo (h : Keeps s₀ s) : Keeps s₀ (commitGo s) := by
  unfold commitGo
  extract_lets x c s1
  have h1 : Keeps s₀ s1 := by
    unfold s1
    refine keeps_norOp h fun t ht => ?_
    exact keeps_slotMod ht
  split
  next s2 _ e2 =>
    have h2 : Keeps s₀ s2 := keeps_fst e2 (keeps_takeFree h1)
    extract_lets s3 s4
    have h3 : Keeps s₀ s3 := by
      unfold s3
      refine keeps_norOp h2 fun t ht => ?_
      exact keeps_btMod ht
    have h4 : Keeps s₀ s4 := keeps_fwRecord (keeps_measure h3)
    exact keeps_ite h4 (keeps_copyBegin h4)

theorem completes_execFwCommit {r} (h : Keeps s₀ s) : Completes s₀ (execFwCommit r s) := by
  unfold execFwCommit
  refine completes_mailbox h fun s1 h1 => ?_
  refine keeps_guardE h1 fun s2 h2 => ?_
  split
  · exact keeps_commitGo h2
  · exact h2

theorem completes_execAttestQuote {r} (h : Keeps s₀ s) : Completes s₀ (execAttestQuote r s) := by
  unfold execAttestQuote
  refine completes_mailbox h fun s1 h1 => ?_
  exact keeps_asks h1

theorem completes_execAttestLogRead {r} (h : Keeps s₀ s) : Completes s₀ (execAttestLogRead r s) := by
  unfold execAttestLogRead
  refine completes_mailbox h fun s1 h1 => ?_
  exact keeps_asks h1

theorem completes_execAttestCert {r} (h : Keeps s₀ s) : Completes s₀ (execAttestCert r s) := by
  unfold execAttestCert
  refine completes_mailbox h fun s1 h1 => ?_
  exact keeps_asks h1

theorem completes_execPolicySet {r : Req} {desc : HostRead} (h : Keeps s₀ s) : Completes s₀ (execPolicySet r desc s) := by
  unfold execPolicySet
  generalize hb : (fun (s : State) => (_ : State × Answer)) = body
  refine completes_mailbox h fun t ht => ?_
  subst hb
  split
  · exact ht
  · split
    · exact ht
    · beta_reduce
      split
      · exact keeps_ite (keeps_fwRecord ht) ht
      · exact keeps_ite ht (keeps_norErase ht)

theorem completes_execPolicyQuery {r} (h : Keeps s₀ s) : Completes s₀ (execPolicyQuery r s) := by
  unfold execPolicyQuery
  refine completes_mailbox h fun s1 h1 => ?_
  exact keeps_asks h1

theorem keeps_commitResume (h : Keeps s₀ s) : Keeps s₀ (commitResume s) := by
  unfold commitResume
  split
  · exact keeps_ite (keeps_answer h) (keeps_answer (keeps_ite h (keeps_commitGo h)))
  · exact h

theorem keeps_holdupResume (h : Keeps s₀ s) : Keeps s₀ (holdupResume s) := by
  unfold holdupResume
  exact keeps_foldl h fun _ _ ht => keeps_commitResume ht

theorem completes_execHoldupCharged (h : Keeps s₀ s) : Completes s₀ (execHoldupCharged s) := by
  unfold execHoldupCharged
  refine completes_ite ?_ ?_
  · exact completes_next h
  · extract_lets x s1
    have h1 : Keeps s₀ s1 := h
    exact completes_next (keeps_ite (keeps_holdupResume h1) h1)

theorem completes_execHoldupGoodWaitTimeout (h : Keeps s₀ s) : Completes s₀ (execHoldupGoodWaitTimeout s) := by
  unfold execHoldupGoodWaitTimeout
  refine completes_ite (completes_next h) (completes_next (keeps_ite ?_ ?_))
  · refine keeps_norGone (keeps_estMod ?_)
    exact keeps_foldl (keeps_foldl (keeps_answer h) fun _ _ ht => keeps_answer (keeps_answer ht)) fun _ _ ht => keeps_answer ht
  · exact keeps_foldl (keeps_foldl (keeps_answer h) fun _ _ ht => keeps_answer (keeps_answer ht)) fun _ _ ht => keeps_answer ht

/-! ### The clock and stroke commands -/

theorem completes_execClockQuery {r} (h : Keeps s₀ s) : Completes s₀ (execClockQuery r s) := by
  unfold execClockQuery
  refine completes_mailbox h fun s1 h1 => ?_
  exact keeps_asks h1

theorem completes_execStrokeConfig {r} (h : Keeps s₀ s) : Completes s₀ (execStrokeConfig r s) := by
  unfold execStrokeConfig
  refine completes_mailbox h fun s1 h1 => ?_
  refine keeps_guardE h1 fun s2 h2 => ?_
  exact h2

theorem keeps_ratiosApply (h : Keeps s₀ s) : Keeps s₀ (ratiosApply s) := by
  unfold ratiosApply
  extract_lets set
  have hset : ∀ {a0 t}, Keeps s₀ t → Keeps s₀ (set a0 t) := by
    intro a0 t ht
    exact ht
  exact hset (hset (hset (keeps_measureBlur h)))

theorem completes_execClockConfig {r} (h : Keeps s₀ s) : Completes s₀ (execClockConfig r s) := by
  unfold execClockConfig
  refine completes_mailbox h fun s1 h1 => ?_
  refine keeps_guardE h1 fun s2 h2 => ?_
  extract_lets x s3 s4 x1
  have h3 : Keeps s₀ s3 := h2
  have h4 : Keeps s₀ s4 := keeps_ratiosApply h3
  exact h4

theorem completes_execClockMeasure {r} (h : Keeps s₀ s) : Completes s₀ (execClockMeasure r s) := by
  unfold execClockMeasure
  refine completes_mailbox h fun s1 h1 => ?_
  refine keeps_guardE h1 fun s2 h2 => ?_
  extract_lets s3 g i m x
  have h3 : Keeps s₀ s3 := keeps_claimAll h2
  exact h3

theorem completes_execClockMeasureComplete {count measStopped gateStopped} (h : Keeps s₀ s) : Completes s₀
  (execClockMeasureComplete count measStopped gateStopped s) := by
  unfold execClockMeasureComplete
  split
  · exact completes_next h
  · extract_lets a x s1
    have h1 : Keeps s₀ s1 := keeps_claimRelease h
    exact completes_next (keeps_complete h1)

theorem completes_execClockGate {r} (h : Keeps s₀ s) : Completes s₀ (execClockGate r s) := by
  unfold execClockGate
  refine completes_mailbox h fun s1 h1 => ?_
  refine keeps_guardE h1 fun s2 h2 => ?_
  exact h2

/-! ### The device cache and the eight pumps -/

theorem steady_pumpPut {p v} (h : Steady s₀ s) : Steady s₀ (pumpPut p v s) := by
  unfold pumpPut
  exact steady_of h rfl fun hs => by simpa [Sound] using hs

theorem keeps_pumpPut {p v} (h : Keeps s₀ s) : Keeps s₀ (pumpPut p v s) :=
  keeps_of_steady h (steady_pumpPut (steady_refl s))

theorem keeps_cacheTake {a} (h : Keeps s₀ s) : Keeps s₀ (cacheTake a s) := by
  unfold cacheTake
  exact keeps_ite h h

theorem keeps_cacheDrop {a} (h : Keeps s₀ s) : Keeps s₀ (cacheDrop a s) := by
  unfold cacheDrop
  exact h

theorem keeps_snoopAnswer {k a} (h : Keeps s₀ s) : Keeps s₀ (snoopAnswer k a s).1 := by
  unfold snoopAnswer
  split
  · exact h
  · split
    · exact h
    · exact keeps_cacheDrop h
    · exact h

theorem steady_pumpVector {p} (h : Steady s₀ s) : Steady s₀ (pumpVector p s) := by
  unfold pumpVector
  exact unseen_msixDue unseen_steady h

theorem keeps_pumpVector {p} (h : Keeps s₀ s) : Keeps s₀ (pumpVector p s) :=
  keeps_of_steady h (steady_pumpVector (steady_refl s))

theorem keeps_pumpStopped {p cause} (h : Keeps s₀ s) : Keeps s₀ (pumpStopped p cause s) := by
  unfold pumpStopped
  extract_lets v
  exact keeps_claimRelease (keeps_pumpPut h)

theorem keeps_pumpStoppedEvent {p cause k} (h : Keeps s₀ s) : Keeps s₀ (pumpStoppedEvent p cause k s) := by
  unfold pumpStoppedEvent
  exact keeps_pumpVector (keeps_emit (keeps_pumpStopped h))

theorem keeps_pumpFaultedAt {p cause k moved addr} (h : Keeps s₀ s) : Keeps s₀ (pumpFaultedAt p cause k moved addr s) := by
  unfold pumpFaultedAt
  extract_lets v s1 s2
  have h1 : Keeps s₀ s1 := keeps_pumpPut h
  have h2 : Keeps s₀ s2 := keeps_emit h1
  exact keeps_answer (keeps_pumpVector h2)

theorem keeps_pumpStore {p d bs} (h : Keeps s₀ s) : Keeps s₀ (pumpStore p d bs s) := by
  unfold pumpStore
  extract_lets v a others mark clash s1 bs1 s2
  have h1 : Keeps s₀ s1 := keeps_pumpPut h
  have h2 : Keeps s₀ s2 := h1
  exact keeps_ite (keeps_perfAdd (keeps_hostWrite h2)) (keeps_perfAdd (keeps_openWrite h2))

theorem keeps_pumpMove {p d n data} (h : Keeps s₀ s) : Keeps s₀ (pumpMove p d n data s) := by
  unfold pumpMove
  extract_lets ws v a s1
  have h1 : Keeps s₀ s1 := keeps_pumpPut h
  exact keeps_ite (keeps_perfAdd (keeps_pumpStore h1)) (keeps_ite (keeps_readCount (keeps_pumpStore h1)) (keeps_ite
    (keeps_pumpStore h1) (keeps_pumpPut h1)))

theorem keeps_pumpWriteBack {p k code detail} (h : Keeps s₀ s) : Keeps s₀ (pumpWriteBack p k code detail s) := by
  unfold pumpWriteBack
  extract_lets v
  exact keeps_hostWrite h

theorem keeps_pumpAdvance {p} (h : Keeps s₀ s) : Keeps s₀ (pumpAdvance p s) := by
  unfold pumpAdvance
  extract_lets v v'
  exact keeps_hostWrite (keeps_pumpPut h)

theorem keeps_pumpPart {p d n} (h : Keeps s₀ s) : Keeps s₀ (pumpPart p d n s) := by
  unfold pumpPart
  extract_lets n1 i
  exact keeps_pumpMove h

theorem keeps_pumpCutOne {unit p d} (h : Keeps s₀ s) : Keeps s₀ (pumpCutOne unit p d s) := by
  unfold pumpCutOne
  refine keeps_ite ?_ ?_
  · exact h
  · split
    next s1 _ e1 =>
      have h1 : Keeps s₀ s1 := keeps_fst e1 (keeps_takeFree h)
      exact keeps_pumpPart h1

theorem keeps_pumpCut {p} (h : Keeps s₀ s) : Keeps s₀ (pumpCut p s) := by
  unfold pumpCut
  exact keeps_foldl h fun _ _ ht => keeps_pumpCutOne ht

theorem keeps_pumpRest {p done} (h : Keeps s₀ s) : Keeps s₀ (pumpRest p done s) := by
  unfold pumpRest
  exact keeps_foldl h fun _ _ ht => keeps_pumpCutOne ht

theorem keeps_pumpFaulted {p cause done k moved addr} (h : Keeps s₀ s) : Keeps s₀ (pumpFaulted p cause done k moved addr s) := by
  unfold pumpFaulted
  exact keeps_pumpFaultedAt (keeps_pumpRest h)

theorem keeps_pumpProd {p prod} (h : Keeps s₀ s) : Keeps s₀ (pumpProd p prod s) := by
  unfold pumpProd
  extract_lets v s1
  have h1 : Keeps s₀ s1 := keeps_cacheTake (keeps_pumpPut h)
  exact keeps_ite (keeps_pumpFaulted h1) h1

theorem keeps_pumpProdRead {p prod} (h : Keeps s₀ s) : Keeps s₀ (pumpProdRead p prod s) := by
  unfold pumpProdRead
  extract_lets v
  split
  · exact keeps_pumpProd h
  · exact keeps_pumpFaulted h
  · exact keeps_pumpFaulted h
  · exact keeps_pumpFaulted h

theorem keeps_pumpLinkStop {cause p} (h : Keeps s₀ s) : Keeps s₀ (pumpLinkStop cause p s) := by
  unfold pumpLinkStop
  exact keeps_ite (keeps_answer (keeps_pumpStoppedEvent (keeps_pumpCut h))) h

theorem keeps_pumpsLinkStop {cause} (h : Keeps s₀ s) : Keeps s₀ (pumpsLinkStop cause s) := by
  unfold pumpsLinkStop
  exact keeps_foldl h fun _ _ ht => keeps_pumpLinkStop ht

theorem steady_pumpsBoundary (h : Steady s₀ s) : Steady s₀ (pumpsBoundary s) := by
  unfold pumpsBoundary
  refine steady_foldl h fun t x ht => ?_
  extract_lets v s1
  have h1 : Steady s₀ s1 := steady_pumpPut ht
  exact steady_ite (steady_pumpVector h1) h1

theorem keeps_pumpRingApply {p r} (h : Keeps s₀ s) : Keeps s₀ (pumpRingApply p r s) := by
  unfold pumpRingApply
  extract_lets v l ring
  exact keeps_ite h (keeps_ite (keeps_pumpPut h) (keeps_hostWrite (keeps_pumpPut h)))

theorem completes_execPumpRingSet {r} (h : Keeps s₀ s) : Completes s₀ (execPumpRingSet r s) := by
  unfold execPumpRingSet
  refine completes_mailbox h fun s1 h1 => ?_
  extract_lets p st
  refine keeps_guardE h1 fun s2 h2 => ?_
  exact keeps_pumpRingApply h2

theorem keeps_pumpStartGo {p prod} (h : Keeps s₀ s) : Keeps s₀ (pumpStartGo p prod s).1 := by
  unfold pumpStartGo
  extract_lets v s1 s2 s3
  have h1 : Keeps s₀ s1 := keeps_claimAll h
  have h2 : Keeps s₀ s2 := keeps_pumpPut h1
  have h3 : Keeps s₀ s3 := keeps_pumpProdRead h2
  exact h3

theorem completes_execPumpStart {r prod} (h : Keeps s₀ s) : Completes s₀ (execPumpStart r prod s) := by
  unfold execPumpStart
  refine completes_mailbox h fun s1 h1 => ?_
  refine keeps_guardE h1 fun s2 h2 => ?_
  exact keeps_pumpStartGo h2

theorem keeps_pumpDrain {p} (h : Keeps s₀ s) : Keeps s₀ (pumpDrain p s) := by
  unfold pumpDrain
  extract_lets v go
  exact keeps_pumpPut h

theorem completes_execPumpStop {r} (h : Keeps s₀ s) : Completes s₀ (execPumpStop r s) := by
  unfold execPumpStop
  refine completes_mailbox h fun s1 h1 => ?_
  extract_lets p stopped
  refine keeps_guardE h1 fun s2 h2 => ?_
  split
  · exact h2
  · split
    · exact keeps_pumpStopped (keeps_pumpCut h2)
    · split
      · exact keeps_pumpStopped h2
      · exact keeps_pumpDrain h2

theorem completes_execPumpClear {r selfCheck} (h : Keeps s₀ s) : Completes s₀ (execPumpClear r selfCheck s) := by
  unfold execPumpClear
  refine completes_mailbox h fun s1 h1 => ?_
  extract_lets p v
  refine keeps_guardE h1 fun s2 h2 => ?_
  exact keeps_pumpStoppedEvent h2

theorem completes_execPumpQuery {r} (h : Keeps s₀ s) : Completes s₀ (execPumpQuery r s) := by
  unfold execPumpQuery
  refine completes_mailbox h fun s1 h1 => ?_
  exact keeps_asks h1

theorem completes_execPumpWake {p prod} (h : Keeps s₀ s) : Completes s₀ (execPumpWake p prod s) := by
  unfold execPumpWake
  extract_lets v s1
  have h1 : Keeps s₀ s1 := keeps_snoopAnswer h
  exact completes_ite (completes_next (keeps_ite (keeps_pumpProdRead (keeps_pumpPut h1)) h1)) (completes_next h)

theorem keeps_pumpLost {p} (h : Keeps s₀ s) : Keeps s₀ (pumpLost p s) := by
  unfold pumpLost
  extract_lets v
  split
  · exact keeps_ite (keeps_pumpFaulted h) h
  · exact h

theorem completes_execPumpDescriptorFetch {p d} (h : Keeps s₀ s) : Completes s₀ (execPumpDescriptorFetch p d s) := by
  unfold execPumpDescriptorFetch
  extract_lets v ws lost new
  exact completes_ite (completes_next (keeps_pumpLost (keeps_perfAdd (keeps_pumpPut h)))) (completes_next h)

theorem keeps_pumpDrained {p} (h : Keeps s₀ s) : Keeps s₀ (pumpDrained p s) := by
  unfold pumpDrained
  extract_lets v
  exact keeps_ite (keeps_answer (keeps_pumpStopped h)) (keeps_pumpLost h)

theorem keeps_irqNote {p d} (h : Keeps s₀ s) : Keeps s₀ (irqNote p d s) := by
  unfold irqNote
  exact keeps_ite (keeps_pumpPut h) h

theorem keeps_pumpWellFault {p d off linkAllows} (h : Keeps s₀ s) : Keeps s₀ (pumpWellFault p d off linkAllows s) := by
  unfold pumpWellFault
  extract_lets a
  split
  next s1 _ e1 =>
    have h1 : Keeps s₀ s1 := keeps_fst e1 (keeps_takeFree h)
    extract_lets n s2 s3
    have h2 : Keeps s₀ s2 := keeps_uncorrectable (keeps_pumpPart h1)
    have h3 : Keeps s₀ s3 := keeps_ite (keeps_irqNote (keeps_pumpWriteBack h2)) h2
    exact keeps_pumpFaulted h3

theorem keeps_pumpFinish {p d data} (h : Keeps s₀ s) : Keeps s₀ (pumpFinish p d data s) := by
  unfold pumpFinish
  extract_lets v a
  split
  · extract_lets s1
    have h1 : Keeps s₀ s1 := keeps_pumpWriteBack (keeps_pumpPut h)
    exact keeps_ite (keeps_answer (keeps_pumpStoppedEvent (keeps_irqNote (keeps_pumpAdvance (keeps_pumpRest h1)))))
      (keeps_pumpDrained (keeps_irqNote (keeps_pumpAdvance h1)))
  · split
    · exact keeps_pumpWellFault h
    · exact keeps_pumpDrained (keeps_irqNote (keeps_pumpAdvance (keeps_pumpWriteBack (keeps_pumpMove h))))

theorem completes_execPumpDescriptorComplete {p data} (h : Keeps s₀ s) : Completes s₀ (execPumpDescriptorComplete p data s) := by
  unfold execPumpDescriptorComplete
  split
  · exact completes_next (keeps_pumpFinish h)
  · exact completes_next h

theorem completes_execPumpTransferFault {p cause moved addr linkAllows} (h : Keeps s₀ s) : Completes s₀
  (execPumpTransferFault p cause moved addr linkAllows s) := by
  unfold execPumpTransferFault
  split
  · refine completes_ite ?_ ?_
    · exact completes_next h
    · refine completes_ite ?_ ?_
      · extract_lets off
        exact completes_ite (completes_next h) (completes_next (keeps_pumpWellFault (keeps_markDamaged h)))
      · extract_lets n s1 s2
        have h1 : Keeps s₀ s1 := keeps_pumpPart h
        have h2 : Keeps s₀ s2 := by
          unfold s2
          split
          · exact keeps_ite (keeps_irqNote (keeps_pumpWriteBack h1)) h1
          · exact h1
        exact completes_next (keeps_pumpFaulted h2)
  · exact completes_next h

theorem completes_execPumpStopTimeout {p} (h : Keeps s₀ s) : Completes s₀ (execPumpStopTimeout p s) := by
  unfold execPumpStopTimeout
  extract_lets v
  exact completes_ite (completes_next (keeps_answer (keeps_pumpPut h))) (completes_next h)

/-! ### The panic and its dump, NOR summaries, counters, self-tests and raw access -/

theorem keeps_putWords {a : Nat} {ws : List Word} (h : Keeps s₀ s) : Keeps s₀ (putWords a ws s) := by
  induction ws generalizing a s with
  | nil => exact h
  | cons w ws ih => exact ih (keeps_ite h (keeps_memWriteWords h))

theorem keeps_dumpClear (h : Keeps s₀ s) : Keeps s₀ (dumpClear s) :=
  keeps_of h rfl (sound_of_memWf (fun ⟨hc, hh⟩ => ⟨cellsWf_filter hc _, hh⟩) rfl rfl rfl rfl)

theorem keeps_panicFreeze (h : Keeps s₀ s) : Keeps s₀ (panicFreeze s) := by
  unfold panicFreeze
  extract_lets s1
  have h1 : Keeps s₀ s1 := keeps_foldl h fun _ _ ht => keeps_ite (keeps_pumpStopped (keeps_pumpCut ht)) ht
  clear_value s1
  exact h1

theorem keeps_sectionsWrite {u : State} {cause : Nat} (h : Keeps s₀ s) : Keeps s₀ (sectionsWrite u cause s).2 := by
  unfold sectionsWrite
  exact keeps_foldl_snd h fun _ _ ht => keeps_putWords ht

theorem keeps_dumpWrite {cause detail status skipped} (h : Keeps s₀ s) : Keeps s₀ (dumpWrite cause detail status skipped s) := by
  unfold dumpWrite
  split
  · exact keeps_headerPut h
  · exact keeps_dumpHeld (keeps_headerPut (keeps_sectionsWrite (keeps_dumpClear (keeps_takeFree h))))

theorem keeps_panicHandle {cause detail status good} (h : Keeps s₀ s) : Keeps s₀ (panicHandle cause detail status good s) := by
  unfold panicHandle
  extract_lets can fresh s1 s2 s3 s4 x
  have h1 : Keeps s₀ s1 := keeps_ite (keeps_dumpWrite h) h
  have h2 : Keeps s₀ s2 := keeps_summaryWrite h1
  have h3 : Keeps s₀ s3 := keeps_emit h2
  have h4 : Keeps s₀ s4 := keeps_ite (keeps_msixDue h3) h3
  exact h4

theorem keeps_panicBegin {cause detail handlerRuns good} (h : Keeps s₀ s) : Keeps s₀
  (panicBegin cause detail handlerRuns good s) := by
  unfold panicBegin
  refine keeps_ite ?_ ?_
  · exact h
  · extract_lets status s1 x s2
    have h1 : Keeps s₀ s1 := keeps_vetoLatch h
    have h2 : Keeps s₀ s2 := h1
    exact keeps_ite (keeps_panicHandle (keeps_panicFreeze h2)) h2

theorem completes_execPanic {cause detail handlerRuns holdupAt20} (h : Keeps s₀ s) : Completes s₀
  (execPanic cause detail handlerRuns holdupAt20 s) := by
  unfold execPanic
  refine completes_ite ?_ ?_
  · exact completes_next h
  · extract_lets s1
    have h1 : Keeps s₀ s1 := by
      unfold s1
      refine keeps_ite ?_ ?_
      · split
        next s2 _ e2 =>
          have h2 : Keeps s₀ s2 := keeps_fst e2 (keeps_takeFree h)
          exact keeps_uncorrectable h2
      · exact h
    exact completes_next (keeps_panicBegin h1)

theorem keeps_bridgesCheck (h : Keeps s₀ s) : Keeps s₀ (bridgesCheck s) := by
  unfold bridgesCheck
  exact keeps_ite (keeps_panicBegin h) h

theorem completes_execBridgeDisabled {b} (h : Keeps s₀ s) : Completes s₀ (execBridgeDisabled b s) := by
  unfold execBridgeDisabled
  refine completes_ite ?_ ?_
  · split
    next s1 _ e1 =>
      have h1 : Keeps s₀ s1 := keeps_fst e1 (keeps_takeFree h)
      exact completes_next (keeps_bridgesCheck (keeps_bridgeDown h1))
  · exact completes_next h

theorem completes_execBoot {env} (h : Keeps s₀ s) : Completes s₀ (execBoot env s) := by
  unfold execBoot
  refine completes_ite ?_ ?_
  · exact completes_next h
  · split
    · exact completes_next (keeps_bootRecovery h)
    · exact completes_next (keeps_bridgesCheck (keeps_bootImage h))

theorem completes_execDumpRead {r} (h : Keeps s₀ s) : Completes s₀ (execDumpRead r s) := by
  unfold execDumpRead
  refine completes_mailbox h fun s1 h1 => ?_
  extract_lets o n
  refine keeps_guardE h1 fun s2 h2 => ?_
  split
  next s3 e3 =>
    have h3 : Keeps s₀ s3 := keeps_some_clerkRead e3 h2
    exact h3
  · exact h2

theorem keeps_dumpDrop (h : Keeps s₀ s) : Keeps s₀ (dumpDrop s) := by
  unfold dumpDrop
  extract_lets s1 x
  have h1 : Keeps s₀ s1 := keeps_pendWords h
  exact h1

theorem completes_execDumpRelease {r} (h : Keeps s₀ s) : Completes s₀ (execDumpRelease r s) := by
  unfold execDumpRelease
  refine completes_mailbox h fun s1 h1 => ?_
  exact keeps_ite (keeps_dumpDrop h1) h1

theorem completes_execNorSummaryRead {r} (h : Keeps s₀ s) : Completes s₀ (execNorSummaryRead r s) := by
  unfold execNorSummaryRead
  refine completes_mailbox h fun s1 h1 => ?_
  exact keeps_asks h1

theorem completes_execCounterRead {r} (h : Keeps s₀ s) : Completes s₀ (execCounterRead r s) := by
  unfold execCounterRead
  refine completes_mailbox h fun s1 h1 => ?_
  extract_lets g s2 x s3
  have h2 : Keeps s₀ s2 := keeps_ite h1 h1
  have h3 : Keeps s₀ s3 := keeps_ite h2 h2
  split
  · exact h1
  · split
    · exact h1
    · exact h3

theorem keeps_testRecord {i x} (h : Keeps s₀ s) : Keeps s₀ (testRecord i x s) := by
  unfold testRecord
  split
  · exact keeps_emit h
  · exact h

theorem completes_execSelftest {r results} (h : Keeps s₀ s) : Completes s₀ (execSelftest r results s) := by
  unfold execSelftest
  refine completes_mailbox h fun s1 h1 => ?_
  split
  · exact h1
  · extract_lets l counter s2 s3
    have h2 : Keeps s₀ s2 := keeps_ite (keeps_claimAll h1) h1
    have h3 : Keeps s₀ s3 := keeps_foldl h2 fun _ _ ht => keeps_testRecord ht
    exact keeps_ite (keeps_claimRelease h3) h3

theorem keeps_rawRecord {r} (h : Keeps s₀ s) : Keeps s₀ (rawRecord r s) := by
  unfold rawRecord
  exact keeps_emit h

theorem keeps_rawMemory {r} (h : Keeps s₀ s) : Keeps s₀ (rawMemory r s).1 := by
  unfold rawMemory
  extract_lets n
  split
  · exact keeps_rawRecord (keeps_devWrite h)
  · split
    next s1 e1 =>
      have h1 : Keeps s₀ s1 := keeps_some_clerkRead e1 h
      exact h1
    · exact keeps_readCount h

theorem keeps_multWrite {p w} (h : Keeps s₀ s) : Keeps s₀ (multWrite p w s) := by
  unfold multWrite
  exact keeps_pllStart h

theorem keeps_rawClock {r} (h : Keeps s₀ s) : Keeps s₀ (rawClock r s).1 := by
  unfold rawClock
  extract_lets d x x1
  split
  · exact keeps_rawRecord (keeps_measureBlur h)
  · exact keeps_rawRecord (keeps_multWrite h)
  · exact h
  · split
    · exact h
    · split
      next s1 _ e1 =>
        have h1 : Keeps s₀ s1 := keeps_fst e1 (keeps_takeFree h)
        exact h1

theorem keeps_rawCmis {r reply} (h : Keeps s₀ s) : Keeps s₀ (rawCmis r reply s).1 := by
  unfold rawCmis
  extract_lets w
  split
  · exact h
  · split
    · exact keeps_rawRecord (keeps_foldl h fun _ _ ht => keeps_cmisWrite ht)
    · exact h

theorem completes_execDiagRaw {r reply} (h : Keeps s₀ s) : Completes s₀ (execDiagRaw r reply s) := by
  unfold execDiagRaw
  refine completes_mailbox h fun s1 h1 => ?_
  refine keeps_guardE h1 fun s2 h2 => ?_
  split
  · exact keeps_rawMemory h2
  · split
    · exact keeps_rawClock h2
    · exact keeps_rawCmis h2

theorem completes_execPatrolScrub {addr found} (h : Keeps s₀ s) : Completes s₀ (execPatrolScrub addr found s) := by
  unfold execPatrolScrub
  extract_lets a
  refine completes_ite ?_ ?_
  · exact completes_next h
  · refine completes_ite ?_ ?_
    · exact completes_next (keeps_uncorrectable h)
    · split
      · exact completes_next h
      · exact completes_next (keeps_correctable h)
      · exact completes_next (keeps_uncorrectable (keeps_markDamaged h))

/-! ### The CXL link, configuration space, the HDM decoder and the host's window onto the well -/

theorem keeps_configReset (h : Keeps s₀ s) : Keeps s₀ (configReset s) := by
  unfold configReset
  exact h

theorem keeps_hdmCommit {base size ways lock} (h : Keeps s₀ s) : Keeps s₀ (hdmCommit base size ways lock s) := by
  unfold hdmCommit
  refine keeps_ite ?_ ?_
  · exact h
  · extract_lets good x
    exact h

theorem completes_execHdmCommit {base size ways lock} (h : Keeps s₀ s) : Completes s₀ (execHdmCommit base size ways lock s) := by
  unfold execHdmCommit
  exact completes_ite (completes_next h) (completes_next (keeps_hdmCommit h))

theorem keeps_bmeClear (h : Keeps s₀ s) : Keeps s₀ (bmeClear s) := by
  unfold bmeClear
  exact keeps_ite (keeps_pumpsLinkStop h) h

theorem keeps_bmeSet (h : Keeps s₀ s) : Keeps s₀ (bmeSet s) := by
  unfold bmeSet
  exact keeps_evtDrain h

theorem keeps_d3hotEnter (h : Keeps s₀ s) : Keeps s₀ (d3hotEnter s) := by
  unfold d3hotEnter
  exact keeps_ite h (keeps_pumpsLinkStop h)

theorem completes_execBusMasterEnableClear (h : Keeps s₀ s) : Completes s₀ (execBusMasterEnableClear s) := by
  unfold execBusMasterEnableClear
  exact completes_ite (completes_next h) (completes_next (keeps_bmeClear h))

theorem completes_execD3hotEntry (h : Keeps s₀ s) : Completes s₀ (execD3hotEntry s) := by
  unfold execD3hotEntry
  exact completes_ite (completes_next h) (completes_next (keeps_d3hotEnter h))

theorem keeps_msix {x : Msix} (h : Keeps s₀ s) : Keeps s₀ { s with msix := x } := h

theorem keeps_configWrite {off : Nat} {v : Word} (h : Keeps s₀ s) : Keeps s₀ (configWrite off v s) := by
  unfold configWrite
  refine keeps_ite (keeps_ite (keeps_ite h (keeps_bmeSet h)) (keeps_bmeClear h)) (keeps_ite (keeps_link h) (keeps_ite (keeps_link h)
    (keeps_ite (keeps_link h) (keeps_ite (keeps_link h) (keeps_ite (keeps_ite (keeps_d3hotEnter h)
      (keeps_ite (keeps_evtDrain (keeps_link h)) h)) (keeps_ite (keeps_msixFlushAll (keeps_msix h)) ?_))))))
  split
  · exact keeps_link h
  · exact h

theorem keeps_bar2Write {off : Nat} {v : Word} (h : Keeps s₀ s) : Keeps s₀ (bar2Write off v s) := by
  unfold bar2Write
  cases bar2Rows.find? fun x => decide (x.off = off) with
  | some x => exact keeps_link h
  | none =>
    exact keeps_ite (keeps_link h) (keeps_ite (keeps_link h) (keeps_ite
      (keeps_ite (keeps_hdmCommit h) (keeps_ite h (keeps_link h))) (keeps_ite h (keeps_ite (keeps_link h) (keeps_ite (keeps_link h)
        (keeps_ite (keeps_link h) (keeps_ite (keeps_link h) h)))))))

theorem keeps_dlDown (h : Keeps s₀ s) : Keeps s₀ (dlDown s) := by
  unfold dlDown
  exact keeps_ite (keeps_hostLossDeclare (keeps_pumpsLinkStop (keeps_configReset h))) h

theorem completes_execDlDown (h : Keeps s₀ s) : Completes s₀ (execDlDown s) := by
  unfold execDlDown
  exact completes_next (keeps_dlDown h)

theorem completes_execDlActive {m} (h : Keeps s₀ s) : Completes s₀ (execDlActive m s) := by
  unfold execDlActive
  exact completes_ite (completes_next h) (completes_next h)

theorem keeps_rasPoisoned (h : Keeps s₀ s) : Keeps s₀ (rasPoisoned s) := by
  unfold rasPoisoned
  exact h

theorem completes_execCxlMemRead {hpa words} (h : Keeps s₀ s) : Completes s₀ (execCxlMemRead hpa words s) := by
  unfold execCxlMemRead
  split
  · exact completes_next h
  · extract_lets s1 put a ws x s2
    have h1 : Keeps s₀ s1 := keeps_perfAdd h
    have hput : ∀ {a0 a1 t}, Keeps s₀ t → Keeps s₀ (put a0 a1 t) := by
      intro a0 a1 t ht
      exact ht
    have h2 : Keeps s₀ s2 := keeps_rasPoisoned h1
    refine completes_ite ?_ ?_
    · exact completes_next (hput h1)
    · split
      · exact completes_next (hput (keeps_readCount h1))
      · exact completes_next (hput (keeps_uncorrectable h2))

theorem keeps_cxlDrop {off} (h : Keeps s₀ s) : Keeps s₀ (cxlDrop off s) := by
  unfold cxlDrop
  extract_lets x s1 x1
  have h1 : Keeps s₀ s1 := h
  exact keeps_ite (keeps_emit h1) h1

theorem completes_execCxlMemWrite {hpa bytes} (h : Keeps s₀ s) : Completes s₀ (execCxlMemWrite hpa bytes s) := by
  unfold execCxlMemWrite
  split
  · exact completes_next h
  · extract_lets n s1 a
    have h1 : Keeps s₀ s1 := keeps_perfAdd h
    exact completes_ite (completes_next (keeps_perfAdd (keeps_foldl h1 fun _ _ ht => keeps_openWrite ht))) (completes_next
      (keeps_cxlDrop h1))

/-! ### Reference inputs and the Assayer's declarations of clock domains -/

theorem keeps_qualSet {i q} (h : Keeps s₀ s) : Keeps s₀ (qualSet i q s) := by
  unfold qualSet
  exact h

theorem completes_execRefInputQualified {i} (h : Keeps s₀ s) : Completes s₀ (execRefInputQualified i s) := by
  unfold execRefInputQualified
  exact completes_ite (completes_next h) (completes_next (keeps_refSelect (keeps_qualSet h)))

theorem completes_execRefInputLost {i} (h : Keeps s₀ s) : Completes s₀ (execRefInputLost i s) := by
  unfold execRefInputLost
  refine completes_ite ?_ ?_
  · exact completes_next h
  · extract_lets s1 s2 s3
    have h1 : Keeps s₀ s1 := keeps_qualSet h
    have h2 : Keeps s₀ s2 := keeps_ite (keeps_dlDown h1) h1
    have h3 : Keeps s₀ s3 := keeps_refSelect h2
    exact completes_ite (completes_next h1) (completes_next (keeps_ite (keeps_islandEnter h3) h3))

theorem completes_execForcedSwitch {d} (h : Keeps s₀ s) : Completes s₀ (execForcedSwitch d s) := by
  unfold execForcedSwitch
  refine completes_ite ?_ ?_
  · exact completes_next h
  · extract_lets held x s1 s2
    have h1 : Keeps s₀ s1 := h
    have h2 : Keeps s₀ s2 := keeps_domMod h1
    exact completes_next (keeps_emit (keeps_ratiosAnswer h2))

theorem keeps_domRecord {sev d off ended} (h : Keeps s₀ s) : Keeps s₀ (domRecord sev d off ended s) := by
  unfold domRecord
  exact keeps_ite (keeps_emit h) h

theorem keeps_domFault {f cause} (h : Keeps s₀ s) : Keeps s₀ (domFault f cause s) := by
  unfold domFault
  exact keeps_ite (keeps_answer (keeps_answer (keeps_fnFault h))) h

theorem keeps_domOutcome {d off} (h : Keeps s₀ s) : Keeps s₀ (domOutcome d off s) := by
  unfold domOutcome
  extract_lets queues s1
  have hqueues : ∀ {a0 t}, Keeps s₀ t → Keeps s₀ (queues a0 t) := by
    intro a0 t ht
    exact keeps_foldl ht fun _ _ ht => keeps_queueFault ht
  have h1 : Keeps s₀ s1 := keeps_ite h (keeps_stMod h)
  split
  · exact keeps_domFault (keeps_stageFault h1)
  · exact hqueues h
  · exact keeps_dropReq h
  · exact hqueues (hqueues h)
  · exact hqueues (hqueues h)
  · exact hqueues (hqueues h)
  · exact hqueues (hqueues h)
  · exact keeps_panicBegin h
  · exact keeps_panicBegin h
  · exact keeps_dlDown h
  · exact keeps_linkFail h
  · exact keeps_linkFail h
  · exact keeps_linkFail h
  · exact keeps_linkFail h
  · exact keeps_chainFault (keeps_chainFault h)
  · exact keeps_pathSet h
  · exact h

theorem keeps_domDeclare {d off} (h : Keeps s₀ s) : Keeps s₀ (domDeclare d off s) := by
  unfold domDeclare
  extract_lets x s1
  have h1 : Keeps s₀ s1 := keeps_domRecord (keeps_domMod h)
  exact keeps_ite h (keeps_ite (keeps_domMod h) (keeps_domOutcome (keeps_ite (keeps_vetoLatch h1) h1)))

theorem completes_execDomainDeclaredStopped {d} (h : Keeps s₀ s) : Completes s₀ (execDomainDeclaredStopped d s) := by
  unfold execDomainDeclaredStopped
  exact completes_next (keeps_domDeclare h)

theorem completes_execDomainDeclaredOffFrequency {d} (h : Keeps s₀ s) : Completes s₀ (execDomainDeclaredOffFrequency d s) := by
  unfold execDomainDeclaredOffFrequency
  exact completes_next (keeps_domDeclare h)

theorem keeps_clockVetoCheck (h : Keeps s₀ s) : Keeps s₀ (clockVetoCheck s) := by
  unfold clockVetoCheck
  extract_lets runs held
  exact keeps_ite (keeps_vetoRelease h) h

theorem completes_execDomainDeclarationEnds {d} (h : Keeps s₀ s) : Completes s₀ (execDomainDeclarationEnds d s) := by
  unfold execDomainDeclarationEnds
  extract_lets was s1 s2
  have h1 : Keeps s₀ s1 := keeps_domMod h
  have h2 : Keeps s₀ s2 := keeps_domRecord h1
  exact completes_ite (completes_next h) (completes_next (keeps_ite (keeps_reqUpdate h2) (keeps_clockVetoCheck h2)))

/-! ### The end of a segment -/

theorem unseen_builtinRun (hP : Unseen P) {l k} (h : P s) : P (builtinRun l k s) := by
  unfold builtinRun
  split
  · exact h
  · exact unseen_dispatchRun hP h
  · exact unseen_allocateRun hP h
  · exact unseen_estimateRun hP h
  · exact unseen_forecastRun hP h
  · exact unseen_persistRun hP h

theorem steady_mismatchAbort {q g t} (h : Steady s₀ s) : Steady s₀ (mismatchAbort q g t s) := by
  unfold mismatchAbort
  extract_lets s1
  have h1 : Steady s₀ s1 := unseen_computeAdd unseen_steady (steady_segAbort h)
  exact steady_ite (unseen_listRecord unseen_steady (steady_queueFault (steady_vetoLatch h1))) h1

theorem steady_builtinAbort {l g t a} (h : Steady s₀ s) : Steady s₀ (builtinAbort l g t a s) := by
  unfold builtinAbort
  extract_lets s1
  have h1 : Steady s₀ s1 := unseen_uncorrectable unseen_steady h
  exact steady_ite (steady_mismatchAbort h1) (steady_segAbort h1)

theorem steady_segHalted {l g t e} (h : Steady s₀ s) : Steady s₀ (segHalted l g t e s) := by
  unfold segHalted
  split
  · exact h
  · exact steady_builtinAbort h
  · extract_lets done p n s1 s2 w f
    have h1 : Steady s₀ s1 := steady_instSet h
    have h2 : Steady s₀ s2 := by
      unfold s2
      refine steady_ite ?_ ?_
      · refine steady_runCommit ?_
        refine steady_inView (unseen_seenJoin unseen_steady h1) fun t ht => ?_
        exact unseen_builtinRun unseen_steady ht
      · exact h1
    exact steady_ite (unseen_flagSet unseen_steady (unseen_seenJoin unseen_steady (unseen_seenFrom unseen_steady h2))) h2

theorem steady_haltPass {l g t e} (h : Steady s₀ s) : Steady s₀ (haltPass l g t e s) := by
  unfold haltPass
  extract_lets fl s1 s2 x s3
  have h1 : Steady s₀ s1 := steady_tileMod h
  have h2 : Steady s₀ s2 := steady_instSet h1
  have h3 : Steady s₀ s3 := unseen_seenJoin unseen_steady h2
  exact steady_ite (steady_segHalted h3) h3

theorem keeps_haltPass {l g t e} (h : Keeps s₀ s) : Keeps s₀ (haltPass l g t e s) :=
  keeps_of_steady h (steady_haltPass (steady_refl s))

theorem completes_execHalt {t e} (h : Keeps s₀ s) : Completes s₀ (execHalt t e s) := by
  unfold execHalt
  refine completes_pointCmd h fun l g t ht => ?_
  exact keeps_haltPass ht

theorem steady_pairMismatch {t} (h : Steady s₀ s) : Steady s₀ (pairMismatch t s) := by
  unfold pairMismatch
  split
  · exact h
  · exact steady_mismatchAbort h

theorem keeps_pairMismatch {t} (h : Keeps s₀ s) : Keeps s₀ (pairMismatch t s) :=
  keeps_of_steady h (steady_pairMismatch (steady_refl s))

theorem steady_pointPass {t} (h : Steady s₀ s) : Steady s₀ (pointPass t s) := by
  unfold pointPass
  split
  · exact h
  · split
    · exact h
    · extract_lets e
      split
      · exact steady_syncPass h
      · exact steady_signalPass h
      · exact steady_haltPass h
      · exact h

theorem steady_crcKeep {p} (h : Steady s₀ s) : Steady s₀ (crcKeep p s) := by
  unfold crcKeep
  extract_lets a x
  exact h

theorem keeps_crcKeep {p} (h : Keeps s₀ s) : Keeps s₀ (crcKeep p s) :=
  keeps_of_steady h (steady_crcKeep (steady_refl s))

theorem steady_pointWait {t n} (h : Steady s₀ s) : Steady s₀ (pointWait t n s) := by
  unfold pointWait
  split
  · exact h
  · exact steady_ite h (steady_ite (steady_tileStop h) (steady_tileMod h))

theorem keeps_pointWait {t n} (h : Keeps s₀ s) : Keeps s₀ (pointWait t n s) :=
  keeps_of_steady h (steady_pointWait (steady_refl s))

theorem steady_pointWaited {t} (h : Steady s₀ s) : Steady s₀ (pointWaited t s) := by
  unfold pointWaited
  extract_lets q
  have hq : Steady s₀ q.1 := steady_usedFree h
  exact steady_pointWait hq

theorem steady_pairCompare {p} (h : Steady s₀ s) : Steady s₀ (pairCompare p s) := by
  unfold pairCompare
  extract_lets a
  split
  · exact steady_ite (steady_pointPass (steady_pointPass (steady_crcKeep h))) (steady_pairMismatch (steady_crcKeep h))
  · refine steady_ite ?_ ?_
    · split
      · exact steady_segAbort (steady_crcKeep h)
      · exact h
    · exact steady_pairMismatch (steady_crcKeep h)
  · exact steady_pairMismatch (steady_crcKeep h)
  · exact steady_pairMismatch (steady_crcKeep h)
  · exact h

theorem keeps_pairCompare {p} (h : Keeps s₀ s) : Keeps s₀ (pairCompare p s) :=
  keeps_of_steady h (steady_pairCompare (steady_refl s))

theorem keeps_pairAbort {t cause} (h : Keeps s₀ s) : Keeps s₀ (pairAbort t cause s) := by
  unfold pairAbort
  exact keeps_ite h (keeps_tileMod h)

theorem completes_execPairComparison {p m} (h : Keeps s₀ s) : Completes s₀ (execPairComparison p m s) := by
  unfold execPairComparison
  extract_lets a
  split
  · exact completes_ite (completes_next (keeps_pairMismatch (keeps_crcKeep h))) (completes_next h)
  · exact completes_ite (completes_next h) (completes_ite (completes_next (keeps_pairCompare (keeps_pairAbort
      (keeps_pairAbort h)))) (completes_next (keeps_pairMismatch (keeps_crcKeep h))))
  · exact completes_ite (completes_next (keeps_pairCompare (keeps_pointWait (keeps_pointWait h)))) (completes_next
      (keeps_pairCompare h))

theorem steady_pairBoundary {p} (h : Steady s₀ s) : Steady s₀ (pairBoundary p s) := by
  unfold pairBoundary
  extract_lets a stop s1 s2
  have hstop : ∀ {a0 t}, Steady s₀ t → Steady s₀ (stop a0 t) := by
    intro a0 t ht
    unfold stop
    refine steady_ite ?_ ?_
    · extract_lets q
      have hq : Steady s₀ q.1 := steady_usedFree (steady_cutCurrent ht)
      exact steady_tileStop hq
    · exact ht
  have h1 : Steady s₀ s1 := by
    unfold s1
    split
    · exact steady_pairCompare (steady_pointWaited (steady_pointWaited h))
    · exact h
  have h2 : Steady s₀ s2 := hstop (hstop h1)
  split
  · exact h2
  · exact steady_pairMismatch (steady_crcKeep h2)
  · exact steady_pairMismatch (steady_crcKeep h2)
  · exact steady_pairCompare h2

theorem steady_boundaryAborts (h : Steady s₀ s) : Steady s₀ (boundaryAborts s) := by
  unfold boundaryAborts
  extract_lets s1
  have h1 : Steady s₀ s1 := steady_foldl h fun _ _ ht => steady_pairBoundary ht
  refine steady_foldl h1 fun t x ht => ?_
  refine steady_ite ?_ ?_
  · exact ht
  · refine steady_ite ?_ ?_
    · extract_lets q
      have hq : Steady s₀ q.1 := steady_usedFree (steady_cutCurrent ht)
      exact steady_tileStop hq
    · exact ht

theorem steady_unrunAborts {k} (h : Steady s₀ s) : Steady s₀ (unrunAborts k s) := by
  unfold unrunAborts
  refine steady_foldl h fun t x ht => ?_
  split
  · exact ht
  · split
    · exact ht
    · extract_lets g
      exact steady_segAbort ht

/-! ### FUNC_ON, FUNC_OFF, FUNC_START, FUNC_STOP and FUNC_CLEAR, with what each function's own chapter gives them -/

theorem keeps_fnDefaults {f} (h : Keeps s₀ s) : Keeps s₀ (fnDefaults f s) := by
  unfold fnDefaults
  refine keeps_ite ?_ ?_
  · exact keeps_stMod h
  · refine keeps_ite ?_ ?_
    · exact keeps_chMod h
    · refine keeps_ite ?_ ?_
      · exact keeps_chMod h
      · refine keeps_ite ?_ ?_
        · exact keeps_estMod h
        · refine keeps_ite ?_ ?_
          · exact keeps_ropeMod h
          · refine keeps_ite ?_ ?_
            · exact keeps_pairMod h
            · refine keeps_ite ?_ ?_
              · exact h
              · extract_lets s1 x
                have h1 : Keeps s₀ s1 := keeps_queueOff h
                exact keeps_ite h1 h1

theorem completes_execFuncOn {r} (h : Keeps s₀ s) : Completes s₀ (execFuncOn r s) := by
  unfold execFuncOn
  refine completes_mailbox h fun s1 h1 => ?_
  refine keeps_fcBody h1 fun f s2 h2 => ?_
  split
  · extract_lets s3
    have h3 : Keeps s₀ s3 := keeps_fnSet (keeps_fnDefaults h2)
    exact keeps_ite (keeps_ledgerOn h3) h3
  · exact h2
  · exact h2
  · exact h2

theorem completes_execFuncOff {r} (h : Keeps s₀ s) : Completes s₀ (execFuncOff r s) := by
  unfold execFuncOff
  refine completes_mailbox h fun s1 h1 => ?_
  refine keeps_fcBody h1 fun f s2 h2 => ?_
  split
  · exact h2
  · extract_lets s3
    have h3 : Keeps s₀ s3 := keeps_fnSet (keeps_fnDefaults h2)
    exact keeps_ite (keeps_ledgerOff h3) h3
  · exact h2
  · exact h2

theorem keeps_queueGo {f} (h : Keeps s₀ s) : Keeps s₀ (queueGo f s) := by
  unfold queueGo
  extract_lets x s1
  have h1 : Keeps s₀ s1 := keeps_ite h h
  exact keeps_queueStart (keeps_fnSet h1)

theorem keeps_startGo {f} (h : Keeps s₀ s) : Keeps s₀ (startGo f s).1 := by
  unfold startGo
  split
  · exact keeps_stageStart h
  · split
    · exact keeps_chainStart h
    · split
      · exact keeps_chainStart h
      · split
        · exact keeps_estStart h
        · split
          · exact keeps_ropeStart h
          · split
            · exact keeps_pairStart h
            · split
              · exact keeps_fnSet h
              · exact keeps_queueGo h

theorem completes_execFuncStart {r} (h : Keeps s₀ s) : Completes s₀ (execFuncStart r s) := by
  unfold execFuncStart
  refine completes_mailbox h fun s1 h1 => ?_
  refine keeps_fcBody h1 fun f s2 h2 => ?_
  split
  · exact h2
  · split
    · exact keeps_fnFault h2
    · refine keeps_guardE h2 fun s3 h3 => ?_
      exact keeps_startGo h3
  · exact h2
  · exact h2

theorem keeps_stopGo {f} (h : Keeps s₀ s) : Keeps s₀ (stopGo f s).1 := by
  unfold stopGo
  split
  · exact keeps_stageStopCmd h
  · split
    · exact keeps_chainStopCmd h
    · split
      · exact keeps_chainStopCmd h
      · split
        · exact keeps_estStopCmd h
        · split
          · exact keeps_ropeStopCmd h
          · split
            · exact keeps_pairStopCmd h
            · exact h

theorem completes_execFuncStop {r} (h : Keeps s₀ s) : Completes s₀ (execFuncStop r s) := by
  unfold execFuncStop
  refine completes_mailbox h fun s1 h1 => ?_
  refine keeps_fcBody h1 fun f s2 h2 => ?_
  split
  · exact h2
  · exact h2
  · exact keeps_stopGo h2
  · exact h2

theorem keeps_clearGo {f} (h : Keeps s₀ s) : Keeps s₀ (clearGo f s) := by
  unfold clearGo
  refine keeps_ite ?_ ?_
  · exact keeps_clockVetoCheck (keeps_stageClear h)
  · refine keeps_ite ?_ ?_
    · exact keeps_fnSet (keeps_ledgerClear h)
    · refine keeps_ite ?_ ?_
      · exact keeps_giveUp (keeps_fnSet (keeps_claimRelease h))
      · refine keeps_ite ?_ ?_
        · exact keeps_fnSet (keeps_claimRelease h)
        · extract_lets s1
          have h1 : Keeps s₀ s1 := keeps_fnSet h
          exact keeps_clockVetoCheck (keeps_ite (keeps_vetoRelease h1) h1)

theorem completes_execFuncClear {r test} (h : Keeps s₀ s) : Completes s₀ (execFuncClear r test s) := by
  unfold execFuncClear
  refine completes_mailbox h fun s1 h1 => ?_
  refine keeps_fcBody h1 fun f s2 h2 => ?_
  split
  · extract_lets x s3
    have h3 : Keeps s₀ s3 := by
      unfold s3
      split
      · exact keeps_testRecord h2
      · exact h2
    split
    · exact keeps_clearGo h3
    · exact h3
  · exact h2

/-! ### A host write of a register by its address -/

theorem completes_registerWrite {space off v} (h : Keeps s₀ s) : Completes s₀ (registerWrite space off v s) := by
  unfold registerWrite
  split
  · exact completes_ite (completes_execWarmReset h) (completes_next (keeps_bar0Write h))
  · exact completes_next (keeps_bar2Write h)
  · exact completes_next (keeps_configWrite h)

theorem completes_execRegisterWrite {space off value wholeWord} (h : Keeps s₀ s) : Completes s₀
  (execRegisterWrite space off value wholeWord s) := by
  unfold execRegisterWrite
  extract_lets o x
  exact completes_ite (completes_next h) (completes_ite (completes_next (keeps_ite h h)) (completes_registerWrite h))

/-! ### STROKE_BOUNDARY -/

theorem keeps_strokeAdvance (h : Keeps s₀ s) : Keeps s₀ (strokeAdvance s) := by
  unfold strokeAdvance
  extract_lets d x
  exact h

theorem steady_realign {env} (h : Steady s₀ s) : Steady s₀ (realign env s) := by
  unfold realign
  extract_lets err go was x s1
  have h1 : Steady s₀ s1 := h
  exact steady_ite h1 (unseen_emit unseen_steady h1)

theorem steady_queuesStop (h : Steady s₀ s) : Steady s₀ (queuesStop s) := by
  unfold queuesStop
  extract_lets due s1 x
  have h1 : Steady s₀ s1 := steady_foldl h fun _ _ ht => unseen_answer unseen_steady (steady_fnSet (steady_queueStopRuns ht))
  exact steady_ite h1 h1

theorem steady_flagsClear (h : Steady s₀ s) : Steady s₀ (flagsClear s) := by
  unfold flagsClear
  exact h

theorem steady_secondsBoundary {k} (h : Steady s₀ s) : Steady s₀ (secondsBoundary k s) := by
  unfold secondsBoundary
  exact steady_ite h h

theorem steady_ringVector (h : Steady s₀ s) : Steady s₀ (ringVector s) := by
  unfold ringVector
  exact steady_ite (unseen_msixDue unseen_steady h) h

theorem steady_strokeEnd {k ports} (h : Steady s₀ s) : Steady s₀ (strokeEnd k ports s) := by
  unfold strokeEnd
  exact steady_ropeStrokeEnd (steady_portsSeen (steady_streakBoundary (steady_flipsBoundary (steady_writesLand (steady_unrunAborts
    (steady_boundaryAborts (steady_queuesStop h)))))))

theorem steady_strokeCommit {k handed bad} (h : Steady s₀ s) : Steady s₀ (strokeCommit k handed bad s) := by
  unfold strokeCommit
  exact steady_ledgerBoundary (steady_estBoundary (steady_streamBoundary (steady_blockBoundary (steady_stageBoundary h))))

theorem steady_strokeTargets {n} (h : Steady s₀ s) : Steady s₀ (strokeTargets n s) := by
  unfold strokeTargets
  extract_lets s1 s2
  have h1 : Steady s₀ s1 := steady_figuresNote (steady_landingSeen (steady_ropeStopBoundary h))
  have h2 : Steady s₀ s2 := steady_wrapBoundary (steady_headLaunch (steady_ropeTargets (steady_targetsBoundary h1)))
  exact steady_chainBoundary (steady_chainBoundary h2)

theorem steady_strokeSchedule {n} (h : Steady s₀ s) : Steady s₀ (strokeSchedule n s) := by
  unfold strokeSchedule
  extract_lets s1 s2
  have h1 : Steady s₀ s1 := steady_restoreBoundary (steady_unloadsDue (steady_thermalBoundary (steady_hostLossBoundary
    (steady_shortfallBoundary (steady_youngBoundary (steady_pumpsBoundary h))))))
  have h2 : Steady s₀ s2 := steady_flagsClear h1
  exact steady_ite h2 (steady_runsBegin h2)

theorem steady_vetoAsked {ask} (h : Steady s₀ s) : Steady s₀ (vetoAsked ask s) := by
  unfold vetoAsked
  exact steady_ite (steady_vetoLatch h) (steady_vetoRelease h)

/-- After the count has advanced, the rest of the boundary leaves the time in strokes alone. -/
theorem steady_boundaryServe {env} : Steady (strokeAdvance (strokeEnd (now s) env.ports s)) (boundaryServe env s) := by
  unfold boundaryServe
  extract_lets k token sums tags spread live s1 s2 s3
  have h1 : Steady s1 s1 := steady_refl s1
  have h2 : Steady s1 s2 := steady_pstateBoundary (steady_strokeCommit (steady_vetoAsked (steady_ite (steady_vetoLatch h1) h1)))
  have h3 : Steady s1 s3 := steady_strokeSchedule (steady_mirrorSend (steady_strokeTargets h2))
  exact steady_ringVector (steady_realign (steady_secondsBoundary (steady_beatSend h3)))

theorem keeps_boundaryServe {env} (h : Keeps s₀ s) : Keeps s₀ (boundaryServe env s) :=
  keeps_of_steady (keeps_strokeAdvance (keeps_of_steady h (steady_strokeEnd (steady_refl s)))) steady_boundaryServe

theorem completes_execStrokeBoundary {env} (h : Keeps s₀ s) : Completes s₀ (execStrokeBoundary env s) := by
  unfold execStrokeBoundary
  refine completes_ite ?_ ?_
  · exact completes_next h
  · refine completes_ite ?_ ?_
    · extract_lets s1 s2 x
      have h1 : Keeps s₀ s1 := keeps_writesLand h
      have h2 : Keeps s₀ s2 := keeps_strokeAdvance h1
      exact completes_next h2
    · exact completes_next (keeps_boundaryServe h)

/-! ### The dispatch of a command to its meaning -/

theorem completes_exec {i} (h : Keeps s₀ s) : Completes s₀ (exec i s) := by
  unfold exec
  split
  · exact completes_execNop h
  · exact completes_execEventRingSet h
  · exact completes_execFuncQuery h
  · exact completes_execFuncOn h
  · exact completes_execFuncOff h
  · exact completes_execFuncStart h
  · exact completes_execFuncStop h
  · exact completes_execFuncClear h
  · exact completes_execClaimQuery h
  · exact completes_execClockQuery h
  · exact completes_execStrokeConfig h
  · exact completes_execClockConfig h
  · exact completes_execClockMeasure h
  · exact completes_execClockMeasureComplete h
  · exact completes_execClockGate h
  · exact completes_execPumpRingSet h
  · exact completes_execPumpStart h
  · exact completes_execPumpStop h
  · exact completes_execPumpClear h
  · exact completes_execPumpQuery h
  · exact completes_execPumpWake h
  · exact completes_execPumpDescriptorFetch h
  · exact completes_execPumpDescriptorComplete h
  · exact completes_execPumpTransferFault h
  · exact completes_execListSubmit h
  · exact completes_execListRemove h
  · exact completes_execListQuery h
  · exact completes_execSchedQuery h
  · exact completes_execModelLoad h
  · exact completes_execModelUnload h
  · exact completes_execModelQuery h
  · exact completes_execBucketSet h
  · exact completes_execBucketQuery h
  · exact completes_execTargetSet h
  · exact completes_execPipeConfig h
  · exact completes_execPipeQuery h
  · exact completes_execRoleSet h
  · exact completes_execRopeConfig h
  · exact completes_execRopeQuery h
  · exact completes_execRopePortQuery h
  · exact completes_execRopeCmis h
  · exact completes_execRopeRead h
  · exact completes_execStageConfig h
  · exact completes_execLoopCoef h
  · exact completes_execLoopOpen h
  · exact completes_execLoopOpenParked h
  · exact completes_execLoopClose h
  · exact completes_execStageMode h
  · exact completes_execStageQuery h
  · exact completes_execTraceArm h
  · exact completes_execTraceDisarm h
  · exact completes_execTraceQuery h
  · exact completes_execTraceTrigger h
  · exact completes_execTraceCopied h
  · exact completes_execChainConfig h
  · exact completes_execChainBal h
  · exact completes_execChainQuery h
  · exact completes_execChainRead h
  · exact completes_execChainId h
  · exact completes_execEstConfig h
  · exact completes_execEstModel h
  · exact completes_execEstQuery h
  · exact completes_execEstRead h
  · exact completes_execEstAnchor h
  · exact completes_execEstLifeRead h
  · exact completes_execEstSave h
  · exact completes_execThermalConfig h
  · exact completes_execThermalQuery h
  · exact completes_execPowerQuery h
  · exact completes_execCapSet h
  · exact completes_execLedgerTag h
  · exact completes_execLedgerRead h
  · exact completes_execLedgerClose h
  · exact completes_execLedgerQuery h
  · exact completes_execJobEnergyQuery h
  · exact completes_execPairConfig h
  · exact completes_execPairQuery h
  · exact completes_execPairHandover h
  · exact completes_execFwQuery h
  · exact completes_execFwWrite h
  · exact completes_execFwWriteComplete h
  · exact completes_execFwCommit h
  · exact completes_execSlotBCopyComplete h
  · exact completes_execAttestQuote h
  · exact completes_execAttestLogRead h
  · exact completes_execAttestCert h
  · exact completes_execPolicySet h
  · exact completes_execPolicyQuery h
  · exact completes_execDumpRead h
  · exact completes_execDumpRelease h
  · exact completes_execNorSummaryRead h
  · exact completes_execCounterRead h
  · exact completes_execSelftest h
  · exact completes_execDiagRaw h
  · exact completes_execLoad h
  · exact completes_execStore h
  · exact completes_execGemm h
  · exact completes_execScan h
  · exact completes_execVec h
  · exact completes_execReduce h
  · exact completes_execBracket h
  · exact completes_execLedger h
  · exact completes_execSync h
  · exact completes_execSyncRelease h
  · exact completes_execSignal h
  · exact completes_execHalt h
  · exact completes_execRopeGet h
  · exact completes_execRopePut h
  · exact completes_execSegmentStart h
  · exact completes_execBudgetAbort h
  · exact completes_execMemoryAbort h
  · exact completes_execAccessAbort h
  · exact completes_execPairComparison h
  · exact completes_execRemoteRequest h
  · exact completes_execRemoteAccessTimeout h
  · exact completes_execStrokeBoundary h
  · exact completes_execSampleBoundary h
  · exact completes_execRefStarved h
  · exact completes_execSoftStartRampEnd h
  · exact completes_execSoftStartLoopClose h
  · exact completes_execSoftStartRetry h
  · exact completes_execVoltageModeExit h
  · exact completes_execFastLimitTrip h
  · exact completes_execOvLatch h
  · exact completes_execUvTrip h
  · exact completes_execFaultInAsserted h
  · exact completes_execMarkEdge h
  · exact completes_execLedgerConversion h
  · exact completes_execGrantLost h
  · exact completes_execGrantRise h
  · exact completes_execBeatReceived h
  · exact completes_execPathSilent h
  · exact completes_execWatchdogVeto h
  · exact completes_execHandoverReclaim h
  · exact completes_execMirrorReceived h
  · exact completes_execSnapshotRequest h
  · exact completes_execHostLossHoldExpired h
  · exact completes_execDlDown h
  · exact completes_execBusMasterEnableClear h
  · exact completes_execD3hotEntry h
  · exact completes_execMsixUnmask h
  · exact completes_execHdmCommit h
  · exact completes_execCxlMemRead h
  · exact completes_execCxlMemWrite h
  · exact completes_execWarmReset h
  · exact completes_execEvtConsWrite h
  · exact completes_execStrokeLoRead h
  · exact completes_execStrokeHiRead h
  · exact completes_execRegisterWrite h
  · exact completes_execPerstReset h
  · exact completes_execBoot h
  · exact completes_execBootWatchdogExpired h
  · exact completes_execAssayerReset h
  · exact completes_execPllLockCount h
  · exact completes_execDividerStep h
  · exact completes_execForcedSwitch h
  · exact completes_execRefInputQualified h
  · exact completes_execRefInputLost h
  · exact completes_execLossOfEveryReference h
  · exact completes_execClockLossRestart h
  · exact completes_execDomainDeclaredStopped h
  · exact completes_execDomainDeclaredOffFrequency h
  · exact completes_execDomainDeclarationEnds h
  · exact completes_execTemperatureConversion h
  · exact completes_execShutdownRopeRelease h
  · exact completes_execShutdownRegulatorsOff h
  · exact completes_execThrottleEvaluation h
  · exact completes_execRailSettled h
  · exact completes_execLifetimeHistogramTick h
  · exact completes_execLifetimeSaveTimer h
  · exact completes_execNorWriteResume h
  · exact completes_execNorEraseComplete h
  · exact completes_execAnchorTimeout h
  · exact completes_execEstCommitTimeout h
  · exact completes_execChainSettleWaitEnd h
  · exact completes_execChainFrameReceived h
  · exact completes_execReadCellsTimeout h
  · exact completes_execBalSetHiTimeout h
  · exact completes_execBalanceHoldExpired h
  · exact completes_execLinkFailed h
  · exact completes_execLinkUp h
  · exact completes_execHeldDownExpired h
  · exact completes_execCmisPoll h
  · exact completes_execStrokeFrameReceived h
  · exact completes_execFrameCopyReturn h
  · exact completes_execFrameCopyTimeout h
  · exact completes_execRopeLossHoldExpired h
  · exact completes_execFeedLost h
  · exact completes_execFeedPresent h
  · exact completes_execHoldupCharged h
  · exact completes_execBothFeedsLost h
  · exact completes_execHoldupAuthDrop h
  · exact completes_execHoldupRopeRelease h
  · exact completes_execHoldupExpired h
  · exact completes_execColdStart h
  · exact completes_execBridgeDisabled h
  · exact completes_execPatrolScrub h
  · exact completes_execPanic h
  · exact completes_execPanicReset h
  · exact completes_execFaultInDeasserted h
  · exact completes_execDlActive h
  · exact completes_execRemoteResponse h
  · exact completes_execUnknownOpcode h
  · exact completes_execPumpStopTimeout h
  · exact completes_execHoldupGoodWaitTimeout h
  · exact completes_execRopeStartWaitExpired h
  · exact completes_execEnumHiTimeout h

theorem keeps_rung {op acts r} (h : Keeps s₀ s) : Keeps s₀ (rung op acts r s) := by
  unfold rung
  exact keeps_mbStart (keeps_mbPost h)

end

/-! ### Every command -/

/-- Settles O3: every meaning completes, and no function of the model touches the queue. -/
theorem commandsCompleteAndLeaveTheQueue : Obligations.CommandsCompleteAndLeaveTheQueue := by
  unfold Obligations.CommandsCompleteAndLeaveTheQueue
  intro c s
  obtain ⟨t, ht, hq, -⟩ := completes_exec (i := c) (keeps_refl s)
  exact ⟨t, ht, hq⟩

/-- A tick changes the clocks alone. -/
theorem sound_idleTick {s : State} (hs : Sound s) : Sound (idleTick s) := (keeps_idleTick (keeps_refl s)).2 hs

/-- Settles O4: a step is a tick, or the front command's meaning, and every meaning keeps the invariant. -/
theorem stepKeepsSound : Obligations.StepKeepsSound := by
  unfold Obligations.StepKeepsSound
  intro s t hs hstep
  unfold step at hstep
  split at hstep
  · cases hstep
    exact sound_idleTick hs
  · obtain ⟨u, hu, -, hsound⟩ := completes_exec (keeps_refl _)
    cases hu.symm.trans hstep
    exact hsound hs

end Sys2Proof.Machine
end

section
/-! PROOFS. The system commands of chapter 4: queries, the event ring, the registers of BAR0 (R80 to R126). -/

namespace Sys2Proof.Machine

/-! ### The state in which a body runs -/

/-- The parts that a doorbell changes, each with a name of its own. -/
theorem rung_parts (o : Nat) (a : List Nat) (r : Req) (s : State) :
    ∃ mbs evt log logCount hostLoss holdLeft holdExpired host dh dc, rung o a r s = { s with
      mbs := mbs, evt := evt, clerk := { s.clerk with log := log, logCount := logCount }
      link := { s.link with hostLoss := hostLoss, holdLeft := holdLeft, holdExpired := holdExpired }
      mem := { s.mem with host := host }, diag := { s.diag with host := dh, clerk := dc } } :=
  ⟨_, _, _, _, _, _, _, _, _, _, rung_eq o a r s⟩

/-- A command that acts on no function is in progress on no function (R100). -/
theorem actingMb_rung {s : State} (h : Ready s) (o : Nat) (r : Req) (f : Nat) : actingMb (rung o [] r s) f = none := by
  rw [actingMb, List.find?_eq_none]
  intro n _
  have hidle := ready_idle h n
  simp only [rung, mbStart, hostLossEnd_mbs, mbPost, List.getD_eq_getElem?_getD, List.getElem?_modify] at hidle ⊢
  cases hn : s.mbs[n]? with
  | none => simp
  | some m =>
    rw [hn] at hidle
    by_cases hr : r.mb.val = n
    · simp [hr]
    · simp [hr, show m.busy = none from hidle]

/-! ### Queries (R80, R124, R126) -/

theorem funcWords_rung {s : State} (h : Ready s) (o : Nat) (r : Req) (f : Nat) : funcWords (rung o [] r s) f = funcWords s f := by
  simp [funcWords, actingMb_rung h, ready_acting h, fnRec, claimCount]

theorem funcStates_rung (o : Nat) (a : List Nat) (r : Req) (s : State) (b n : Nat) :
    funcStates (rung o a r s) b n = funcStates s b n := by
  simp only [funcStates, fnState, fnRec, rung_funcs]

theorem claimOwner_rung (o : Nat) (a : List Nat) (r : Req) (s : State) (n : Nat) : claimOwner (rung o a r s) n = claimOwner s n := by
  simp only [claimOwner, rung_claims]

theorem clockWords_rung (o : Nat) (a : List Nat) (r : Req) (s : State) : clockWords (rung o a r s) = clockWords s := by
  obtain ⟨_, _, _, _, _, _, _, _, _, _, h⟩ := rung_parts o a r s
  rw [h]
  rfl

theorem fnIdx_isSome_of_mem {f : Nat} (h : f ∈ fnIds) : (fnIdx f).isSome = true := by
  revert f
  decide

/-- A function's ID is none of the values that stand for every function. -/
theorem ne_all_of_mem_fnIds {f : Nat} (h : f ∈ fnIds) : f ≠ 0xFF := by
  rintro rfl
  exact absurd h (by decide)

/-- Settles O11: each query reads parts that its own doorbell leaves as they were. -/
theorem systemQueriesAnswer : Obligations.SystemQueriesAnswer := by
  unfold Obligations.SystemQueriesAnswer
  intro r s hs
  refine ⟨?all, ?one, ?claim, ?clock⟩
  case all =>
    intro hl hz hf
    rw [Asks, exec_funcQuery, execFuncQuery]
    refine mailbox_asks hs _ r _ _ rfl rfl (by omega) (by simp [hl]) ?_
    simp [hz, hf, funcStates_rung]
  case one =>
    intro hl hz hf
    rw [Asks, exec_funcQuery, execFuncQuery]
    refine mailbox_asks hs _ r _ _ rfl rfl (by omega) (by simp [hl]) ?_
    simp [hz, ne_all_of_mem_fnIds hf, fnIdx_isSome_of_mem hf, funcWords_rung hs]
  case claim =>
    intro hl hz hn
    rw [Asks, exec_claimQuery, execClaimQuery]
    refine mailbox_asks hs _ r _ _ rfl rfl (by omega) (by simp [hl]) ?_
    simp [hz, hn, claimOwner_rung]
  case clock =>
    intro hl
    rw [Asks, exec_clockQuery, execClockQuery]
    refine mailbox_asks hs _ r _ _ rfl rfl (by omega) (by simp [hl]) ?_
    rw [clockWords_rung]

end Sys2Proof.Machine
end

section
/-! PROOFS. The event ring (R105 to R108, R123): how queued records follow when a ring is set or space returns. -/

namespace Sys2Proof.Machine

/-! ### Lengths of records -/

theorem length_wordBytes (w : Word) : (wordBytes w).length = 4 := rfl

theorem length_bytesOf (ws : List Word) : (bytesOf ws).length = 4 * ws.length := by
  induction ws with
  | nil => rfl
  | cons w ws ih => rw [bytesOf, List.length_append, length_wordBytes, ih, List.length_cons]; omega

/-! ### What draining keeps -/

/-- The fields of the ring that only the host and EVENT_RING_SET change. -/
def ringOf (s : State) : Nat × Nat × Word × Bool := (s.evt.base, s.evt.log2, s.evt.cons, s.evt.consBad)

theorem evtDrainQueue_keeps (q : List Line) (s : State) :
    Served s (evtDrainQueue q s) ∧ (evtDrainQueue q s).mbs = s.mbs ∧ ringOf (evtDrainQueue q s) = ringOf s := by
  induction q generalizing s with
  | nil => exact ⟨by simp [Served, evtDrainQueue], rfl, rfl⟩
  | cons r q ih =>
    unfold evtDrainQueue
    split
    · obtain ⟨hs, hm, hr⟩ := ih (evtWrite r s)
      exact ⟨(served_evtWrite r s).trans hs, hm.trans rfl, hr.trans rfl⟩
    · exact ⟨by simp [Served], rfl, rfl⟩

theorem served_evt (s : State) (e : Events) : Served s { s with evt := e } := by simp [Served]

theorem evtDrain_keeps (s : State) : Served s (evtDrain s) ∧ (evtDrain s).mbs = s.mbs ∧ ringOf (evtDrain s) = ringOf s := by
  obtain ⟨hs, hm, hr⟩ := evtDrainQueue_keeps s.evt.queue s
  unfold evtDrain
  extract_lets u rec
  split
  · refine ⟨hs.trans (Served.trans (t := { u with evt := { u.evt with dropped := 0 } }) (served_evt _ _) ?_), hm, hr⟩
    exact (served_evtCreate _ _).trans (served_evtWrite _ _)
  · exact ⟨hs, hm, hr⟩

/-- Without room nothing follows (R105). -/
theorem evtDrainQueue_of_no_room {s : State} (h : evtRoom s = false) : evtDrainQueue s.evt.queue s = s := by
  cases hq : s.evt.queue with
  | nil => rw [evtDrainQueue, ← hq]
  | cons r q => simp [evtDrainQueue, h, ← hq]

theorem evtDrain_of_no_room {s : State} (h : evtRoom s = false) : evtDrain s = s := by
  rw [evtDrain, evtDrainQueue_of_no_room h]
  simp [h]

/-! ### Records that follow, in the slots of their numbers -/

/-- A ring of `2 ^ l` slots at `b` into which the module may write, with `n` records and none taken. -/
structure RingAt (b l n : Nat) (s : State) : Prop where
  enabled : evtEnabled s = true
  running : s.diag.panic = none
  base : s.evt.base = b
  log2 : s.evt.log2 = l
  prod : s.evt.prod = BitVec.ofNat 32 n
  cons : s.evt.cons = 0
  wf : cellsWf s.mem.host = true

section
variable {b l n : Nat} {s : State}

theorem RingAt.toNat_prod (h : RingAt b l n s) (hl : l ≤ 16) (hn : n ≤ 2 ^ l) : s.evt.prod.toNat = n := by
  have h16 : 2 ^ l ≤ 2 ^ 16 := Nat.pow_le_pow_right (by decide) hl
  rw [h.prod, BitVec.toNat_ofNat, Nat.mod_eq_of_lt (by omega)]

theorem RingAt.room (h : RingAt b l n s) (hl : l ≤ 16) (hn : n ≤ 2 ^ l) : evtRoom s = decide (n < 2 ^ l) := by
  have hp := h.toNat_prod hl hn
  have hc : s.evt.prod - s.evt.cons = s.evt.prod := by rw [h.cons]; exact BitVec.sub_zero _
  simp [evtRoom, h.enabled, h.running, hc, hp, h.log2]

/-- A record goes into the slot of its number, and leaves what lies below it. -/
theorem RingAt.write (h : RingAt b l n s) (hl : l ≤ 16) (hn : n < 2 ^ l) (r : Line) :
    RingAt b l (n + 1) (evtWrite r s) ∧ (∀ x, cellRead (evtWrite r s).mem.host x =
      if b + 64 * n ≤ x ∧ x < b + 64 * n + (bytesOf r).length then (bytesOf r).getD (x - (b + 64 * n)) 0
      else cellRead s.mem.host x) := by
  have hp := h.toNat_prod hl hn.le
  have hslot : s.evt.base + 64 * (s.evt.prod.toNat % 2 ^ s.evt.log2) = b + 64 * n := by
    rw [hp, h.base, h.log2, Nat.mod_eq_of_lt hn]
  have hhost : (evtWrite r s).mem.host = cellsWrite s.mem.host (b + 64 * n) (bytesOf r) := by
    rw [← hslot]
    rfl
  refine ⟨⟨h.enabled, h.running, h.base, h.log2, ?_, h.cons, ?_⟩, fun x => ?_⟩
  · have hw : (evtWrite r s).evt.prod = s.evt.prod + 1 := rfl
    rw [hw, h.prod, BitVec.ofNat_add]
    rfl
  · rw [hhost]
    exact cellsWf_cellsWrite h.wf _ _
  · rw [hhost]
    exact cellRead_cellsWrite h.wf _ _ _

/-- The queued records follow in order, as many as there is room for, each in the slot of its number. -/
theorem RingAt.drainQueue {q : List Line} (h : RingAt b l n s) (hl : l ≤ 16) (hn : n ≤ 2 ^ l) (hq : ∀ r ∈ q, r.length = 16) :
    let k := min q.length (2 ^ l - n)
    let u := evtDrainQueue q s
    RingAt b l (n + k) u ∧ u.evt.queue = q.drop k ∧ u.evt.seq = s.evt.seq ∧ u.evt.dropped = s.evt.dropped ∧
      (∀ x, x < b + 64 * n → cellRead u.mem.host x = cellRead s.mem.host x) ∧
      ∀ i j, i < k → j < 64 → cellRead u.mem.host (b + 64 * (n + i) + j) = (bytesOf (q.getD i [])).getD j 0 := by
  induction q generalizing n s with
  | nil =>
    refine ⟨?_, rfl, rfl, rfl, fun _ _ => rfl, fun i j hi => ?_⟩
    · simpa using ⟨h.enabled, h.running, h.base, h.log2, h.prod, h.cons, h.wf⟩
    · simp at hi
  | cons r q ih =>
    intro k u
    have hroom := h.room hl hn
    by_cases hlt : n < 2 ^ l
    · have hu : u = evtDrainQueue q (evtWrite r s) := by simp [u, evtDrainQueue, hroom, hlt]
      have hk : k = min q.length (2 ^ l - (n + 1)) + 1 := by simp only [k, List.length_cons]; omega
      obtain ⟨hring, hmem⟩ := h.write hl hlt r
      obtain ⟨iring, iqueue, iseq, idrop, ilow, islots⟩ := ih hring (by omega) fun x hx => hq x (List.mem_cons_of_mem _ hx)
      have hlen : (bytesOf r).length = 64 := by rw [length_bytesOf, hq r List.mem_cons_self]
      rw [hu, hk]
      refine ⟨?_, iqueue, iseq, idrop, fun x hx => ?_, fun i j hi hj => ?_⟩
      · rw [show n + (min q.length (2 ^ l - (n + 1)) + 1) = n + 1 + min q.length (2 ^ l - (n + 1)) by omega]
        exact iring
      · rw [ilow x (by omega), hmem, if_neg (by omega)]
      · cases i with
        | zero =>
          rw [ilow _ (by omega), hmem, if_pos (by omega), List.getD_cons_zero]
          congr 1
          omega
        | succ i =>
          rw [show n + (i + 1) = n + 1 + i by omega, List.getD_cons_succ]
          exact islots i j (by omega) hj
    · have hk : k = 0 := by simp only [k]; omega
      have hu : u = { s with evt := { s.evt with queue := r :: q } } := by simp [u, evtDrainQueue, hroom, hlt]
      rw [hu, hk]
      exact ⟨⟨h.enabled, h.running, h.base, h.log2, h.prod, h.cons, h.wf⟩, rfl, rfl, rfl, fun _ _ => rfl,
        fun i j hi => absurd hi (Nat.not_lt_zero i)⟩

/-- A ring that is set: the queued records follow, and where there is room the record of those dropped. -/
theorem RingAt.drain (h : RingAt b l 0 s) (hl : l ≤ 16) (hq : ∀ r ∈ s.evt.queue, r.length = 16) :
    let k := min s.evt.queue.length (2 ^ l)
    let u := evtDrain s
    u.evt.queue = s.evt.queue.drop k ∧
      (s.evt.dropped = 0 ∨ 2 ^ l ≤ s.evt.queue.length →
        u.evt.prod = BitVec.ofNat 32 k ∧ u.evt.seq = s.evt.seq ∧ u.evt.dropped = s.evt.dropped) ∧
      (s.evt.dropped ≠ 0 → s.evt.queue.length < 2 ^ l →
        u.evt.prod = BitVec.ofNat 32 (k + 1) ∧ u.evt.seq = s.evt.seq + 1 ∧ u.evt.dropped = 0) ∧
      ∀ i j, i < k → j < 64 → cellRead u.mem.host (b + 64 * i + j) = (bytesOf (s.evt.queue.getD i [])).getD j 0 := by
  intro k u
  obtain ⟨hring, hqueue, hseq, hdrop, -, hslots⟩ := h.drainQueue (n := 0) hl (Nat.zero_le _) hq
  simp only [Nat.sub_zero, Nat.zero_add] at hring hqueue hslots
  have hkl : k ≤ 2 ^ l := Nat.min_le_right _ _
  have hroom := hring.room hl hkl
  set v := evtDrainQueue s.evt.queue s with hv
  have hempty : v.evt.queue.isEmpty = decide (s.evt.queue.length ≤ 2 ^ l) := by
    rw [hqueue, Bool.eq_iff_iff, List.isEmpty_iff, List.drop_eq_nil_iff, decide_eq_true_eq]
    omega
  by_cases hmore : s.evt.dropped ≠ 0 ∧ s.evt.queue.length < 2 ^ l
  · obtain ⟨hd, hlen⟩ := hmore
    have hk : k < 2 ^ l := lt_of_le_of_lt (Nat.min_le_left _ _) hlen
    have hu : u = evtWrite (evtLine v 1 0 1 [w32 v.evt.dropped])
        (evtCreate (evtLine v 1 0 1 [w32 v.evt.dropped]) { v with evt := { v.evt with dropped := 0 } }) := by
      simp only [u, evtDrain, ← hv, hempty, hdrop, hroom]
      rw [if_pos (by simpa [hlen.le, hd] using hlen)]
    obtain ⟨hring', hmem⟩ := RingAt.write (s := evtCreate (evtLine v 1 0 1 [w32 v.evt.dropped])
      { v with evt := { v.evt with dropped := 0 } })
      ⟨hring.enabled, hring.running, hring.base, hring.log2, hring.prod, hring.cons, hring.wf⟩ hl hk
      (evtLine v 1 0 1 [w32 v.evt.dropped])
    rw [hu]
    refine ⟨hqueue, fun hor => absurd hor (by omega), fun _ _ => ⟨hring'.prod, by rw [← hseq]; rfl, rfl⟩, fun i j hi hj => ?_⟩
    rw [hmem, if_neg (by omega)]
    exact hslots i j hi hj
  · have hno : u = v := by
      simp only [u, evtDrain, ← hv, hempty, hdrop, hroom]
      rw [if_neg]
      simp only [Bool.and_eq_true, decide_eq_true_eq, not_and]
      omega
    rw [hno]
    exact ⟨hqueue, fun _ => ⟨hring.prod, hseq, hdrop⟩, fun hd hlen => absurd ⟨hd, hlen⟩ hmore, hslots⟩

end

/-! ### EVENT_RING_SET and EVT_CONS (R106, R123) -/

/-- Without host loss a doorbell writes no record: the ring and memory stay as they were (R162). -/
theorem rung_of_no_hostLoss {s : State} (h : s.link.hostLoss = false) (o : Nat) (a : List Nat) (r : Req) :
    (rung o a r s).evt = s.evt ∧ (rung o a r s).mem = s.mem ∧ (rung o a r s).link = s.link ∧ (rung o a r s).diag = s.diag := by
  have hpost : hostLossEnd (mbPost o r s) = mbPost o r s := by simp [hostLossEnd, h]
  simp only [rung, mbStart, hpost, mbPost_evt, mbPost_mem, mbPost_link, mbPost_diag, and_self]

theorem evtRoom_of_log2 {s : State} (h : s.evt.log2 = 0) : evtRoom s = false := by simp [evtRoom, evtEnabled, h]

theorem evtRoom_of_bme {s : State} (h : s.link.bme = false) : evtRoom s = false := by simp [evtRoom, evtEnabled, h]

/-- A ring that is set where the module masters the bus: the queued records follow in order, from slot 0. -/
theorem ringSet_enabled {b l : Nat} {s : State} (hl : l ≠ 0) (hl' : l ≤ 16) (hbme : s.link.bme = true) (hup : s.link.up = true)
    (hd3 : s.link.d3hot = false) (hpanic : s.diag.panic = none) (hwf : cellsWf s.mem.host = true)
    (hq : ∀ r ∈ s.evt.queue, r.length = 16) :
    let k := min s.evt.queue.length (2 ^ l)
    let t := ringSet b l s
    t.evt.base = b ∧ t.evt.log2 = l ∧ t.evt.cons = 0 ∧ t.evt.queue = s.evt.queue.drop k ∧
      (s.evt.dropped = 0 ∨ 2 ^ l ≤ s.evt.queue.length →
        t.evt.prod = BitVec.ofNat 32 k ∧ t.evt.seq = s.evt.seq ∧ t.evt.dropped = s.evt.dropped) ∧
      (s.evt.dropped ≠ 0 → s.evt.queue.length < 2 ^ l →
        t.evt.prod = BitVec.ofNat 32 (k + 1) ∧ t.evt.seq = s.evt.seq + 1 ∧ t.evt.dropped = 0) ∧
      ∀ i j : Nat, i < k → j < 64 → cellRead t.mem.host (b + 64 * i + j) = (bytesOf (s.evt.queue.getD i [])).getD j 0 := by
  have hring : RingAt b l 0 { s with evt := { s.evt with base := b, log2 := l, prod := 0, cons := 0 } } :=
    ⟨by simp [evtEnabled, hbme, hup, hd3, hl], hpanic, rfl, rfl, rfl, rfl, hwf⟩
  obtain ⟨-, -, hkeep⟩ := evtDrain_keeps { s with evt := { s.evt with base := b, log2 := l, prod := 0, cons := 0 } }
  simp only [ringOf, Prod.mk.injEq] at hkeep
  obtain ⟨hbase, hlog2, hcons, -⟩ := hkeep
  exact ⟨hbase, hlog2, hcons, hring.drain hl' hq⟩

/-- EVENT_RING_SET with its fields in range sets the ring and answers OK (R123). -/
theorem eventRingSet_sets {r : Req} {s : State} (hs : Ready s) (hh : High r 3) (h0 : fld (r.w 2) 0 6 = 0) (h1 : fld (r.w 4) 5 27 = 0)
    (hl : fld (r.w 4) 0 5 = 0 ∨ 6 ≤ fld (r.w 4) 0 5 ∧ fld (r.w 4) 0 5 ≤ 16) :
    ∃ t, exec (.eventRingSet r) s = .next t ∧ Answered t r .ok 0 [] ∧ Served s t ∧
      t.evt = (ringSet (wide (r.w 2) (r.w 3)) (fld (r.w 4) 0 5) (rung 0x0101 [] r s)).evt ∧
      t.mem = (ringSet (wide (r.w 2) (r.w 3)) (fld (r.w 4) 0 5) (rung 0x0101 [] r s)).mem := by
  obtain ⟨hmb, hlen⟩ := hh
  have hok : eventRingSetBad r = none := by
    simp only [eventRingSetBad, h0, h1]
    rcases hl with hl | ⟨hl, hl'⟩ <;> simp [*, rangeBad, firstBad]
  have hkeep := evtDrain_keeps { rung 0x0101 [] r s with
    evt := { (rung 0x0101 [] r s).evt with base := wide (r.w 2) (r.w 3), log2 := fld (r.w 4) 0 5, prod := 0, cons := 0 } }
  rw [exec_eventRingSet, execEventRingSet]
  refine ⟨_, mailbox_ready hs _ r _ rfl (by simp [mbHigh, hmb]) (by omega) (by simp [hlen]), ?_⟩
  simp only [hok, guardE]
  exact ⟨answered_complete hs 0x0101 [] r hkeep.2.1 .., served_now ((served_rung ..).trans ((served_evt _ _).trans hkeep.1)) ..,
    mbAnswer_evt .., mbAnswer_mem ..⟩

/-- A write of EVT_CONS takes its value; CONS_BAD is set by one beyond the slot count (R106). -/
theorem consWrite_keeps (v : Word) (s : State) (hl : s.evt.log2 ≠ 0) :
    Served s (consWrite v s) ∧ (consWrite v s).mbs = s.mbs ∧
      ringOf (consWrite v s) = (s.evt.base, s.evt.log2, v, s.evt.consBad || decide (2 ^ s.evt.log2 < (s.evt.prod - v).toNat)) := by
  obtain ⟨hs, hm, hr⟩ := evtDrain_keeps { s with evt := { s.evt with
    cons := v, consBad := s.evt.consBad || (decide (2 ^ s.evt.log2 < (s.evt.prod - v).toNat) && decide (s.evt.log2 ≠ 0)) } }
  refine ⟨(served_evt s _).trans hs, hm, hr.trans ?_⟩
  simp [ringOf, hl]

/-- A value of EVT_CONS that leaves the ring full lets no record follow (R105). -/
theorem consWrite_full (v : Word) (s : State) (hf : 2 ^ s.evt.log2 ≤ (s.evt.prod - v).toNat) :
    (consWrite v s).evt.prod = s.evt.prod ∧ (consWrite v s).evt.queue = s.evt.queue ∧ (consWrite v s).mem = s.mem := by
  have h : evtRoom { s with evt := { s.evt with
    cons := v, consBad := s.evt.consBad || (decide (2 ^ s.evt.log2 < (s.evt.prod - v).toNat) && decide (s.evt.log2 ≠ 0)) } } = false := by
    simp only [evtRoom, decide_eq_false (Nat.not_lt.2 hf), Bool.and_false, Bool.false_and]
  rw [consWrite, evtDrain_of_no_room h]
  exact ⟨rfl, rfl, rfl⟩

/-- Settles O12: the ring that EVENT_RING_SET sets takes the queued records by induction on the queue; EVT_CONS is its register. -/
theorem eventRing : Obligations.EventRing := by
  unfold Obligations.EventRing
  refine ⟨fun r s hs hh h0 h1 hloss hpanic => ?_, fun v s hreach hl => ?_⟩
  · obtain ⟨hevt, hmem, hlink, hdiag⟩ := rung_of_no_hostLoss hloss 0x0101 [] r
    refine ⟨fun hl => ?_, fun hl hl' hbme => ?_, fun hl hl' hbme hsound hq => ?_⟩
    · obtain ⟨t, ht, ha, hsv, he, hm⟩ := eventRingSet_sets hs hh h0 h1 (.inl hl)
      rw [ringSet, evtDrain_of_no_room (evtRoom_of_log2 hl)] at he hm
      exact ⟨t, ht, ha, hsv, hm.trans hmem, by rw [he, hevt, hl]⟩
    · obtain ⟨t, ht, ha, hsv, he, hm⟩ := eventRingSet_sets hs hh h0 h1 (.inr ⟨hl, hl'⟩)
      rw [ringSet, evtDrain_of_no_room (evtRoom_of_bme (by simpa using hbme))] at he hm
      exact ⟨t, ht, ha, hsv, hm.trans hmem, by rw [he, hevt]⟩
    · obtain ⟨t, ht, ha, hsv, he, hm⟩ := eventRingSet_sets hs hh h0 h1 (.inr ⟨hl, hl'⟩)
      obtain ⟨hreach, -⟩ := hs
      simp only [hostReaches, Bool.and_eq_true, Bool.not_eq_true', decide_eq_true_eq] at hreach
      obtain ⟨⟨hup, hd3⟩, -⟩ := hreach
      have hset := ringSet_enabled (b := wide (r.w 2) (r.w 3)) (l := fld (r.w 4) 0 5) (s := rung 0x0101 [] r s) (by omega) hl'
        (by simpa using hbme) (by simpa using hup) (by simpa using hd3) (by simpa using hpanic) (by rw [hmem]; exact hsound.2.1)
        (by rw [hevt]; exact hq)
      rw [hevt] at hset
      refine ⟨t, ht, ha, hsv, ?_⟩
      rw [hm, he]
      exact hset
  · obtain ⟨hs, hm, hr⟩ := consWrite_keeps v s hl
    simp only [ringOf, Prod.mk.injEq] at hr
    obtain ⟨hbase, hlog2, hcons, hbad⟩ := hr
    refine ⟨consWrite v s, ?_, hs, hm, hcons, hbase, hlog2, hbad, consWrite_full v s⟩
    rw [exec_evtConsWrite, execEvtConsWrite, hreach]
    rfl

end Sys2Proof.Machine
end

section
/-! PROOFS. How a command on a mailbox ends, whatever it does (R95, R96, R101), and what folds of operations keep. -/

namespace Sys2Proof.Machine

/-! ### The parts that serving a mailbox leaves -/

section
variable {s t : State} (h : Served s t)
include h

theorem Served.clk : t.clk = s.clk := h.1
theorem Served.clerk : t.clerk = { s.clerk with log := t.clerk.log, logCount := t.clerk.logCount } := h.2.1
theorem Served.mbs_length : t.mbs.length = s.mbs.length := h.2.2.1
theorem Served.funcs : t.funcs = s.funcs := h.2.2.2.1
theorem Served.claims : t.claims = s.claims := h.2.2.2.2.1
theorem Served.link : t.link = { s.link with hostLoss := t.link.hostLoss, holdLeft := t.link.holdLeft, holdExpired := t.link.holdExpired } :=
  h.2.2.2.2.2.1
theorem Served.pumps : t.pumps = s.pumps := h.2.2.2.2.2.2.1
theorem Served.mem : t.mem = { s.mem with host := t.mem.host } := h.2.2.2.2.2.2.2.1
theorem Served.tiles : t.tiles = s.tiles := h.2.2.2.2.2.2.2.2.1
theorem Served.lists : t.lists = s.lists := h.2.2.2.2.2.2.2.2.2.1
theorem Served.pipe : t.pipe = s.pipe := h.2.2.2.2.2.2.2.2.2.2.1
theorem Served.rope : t.rope = s.rope := h.2.2.2.2.2.2.2.2.2.2.2.1
theorem Served.stage : t.stage = s.stage := h.2.2.2.2.2.2.2.2.2.2.2.2.1
theorem Served.traces : t.traces = s.traces := h.2.2.2.2.2.2.2.2.2.2.2.2.2.1
theorem Served.chainA : t.chainA = s.chainA := h.2.2.2.2.2.2.2.2.2.2.2.2.2.2.1
theorem Served.chainB : t.chainB = s.chainB := h.2.2.2.2.2.2.2.2.2.2.2.2.2.2.2.1
theorem Served.est : t.est = s.est := h.2.2.2.2.2.2.2.2.2.2.2.2.2.2.2.2.1
theorem Served.therm : t.therm = s.therm := h.2.2.2.2.2.2.2.2.2.2.2.2.2.2.2.2.2.1
theorem Served.power : t.power = s.power := h.2.2.2.2.2.2.2.2.2.2.2.2.2.2.2.2.2.2.1
theorem Served.ledger : t.ledger = s.ledger := h.2.2.2.2.2.2.2.2.2.2.2.2.2.2.2.2.2.2.2.1
theorem Served.pair : t.pair = s.pair := h.2.2.2.2.2.2.2.2.2.2.2.2.2.2.2.2.2.2.2.2.1
theorem Served.boot : t.boot = s.boot := h.2.2.2.2.2.2.2.2.2.2.2.2.2.2.2.2.2.2.2.2.2.1
theorem Served.diag : t.diag = { s.diag with host := t.diag.host, clerk := t.diag.clerk } :=
  h.2.2.2.2.2.2.2.2.2.2.2.2.2.2.2.2.2.2.2.2.2.2.1
theorem Served.pending : t.pending = s.pending := h.2.2.2.2.2.2.2.2.2.2.2.2.2.2.2.2.2.2.2.2.2.2.2

theorem Served.fnRec (f : Nat) : fnRec t f = fnRec s f := by rw [Machine.fnRec, h.funcs, Machine.fnRec]
theorem Served.fnState (f : Nat) : fnState t f = fnState s f := by rw [Machine.fnState, h.fnRec, Machine.fnState]

end

/-! Both states with one part replaced by the same. -/

section
variable {s t : State} (h : Served s t)
include h

theorem Served.set_clk {x y : Clocks} (hx : y = x) : Served { s with clk := x } { t with clk := y } := by
  subst hx; unfold Served at h ⊢; tauto
theorem Served.set_funcs {x y : List FuncRec} (hx : y = x) : Served { s with funcs := x } { t with funcs := y } := by
  subst hx; unfold Served at h ⊢; tauto
theorem Served.set_claims {x y : List (Nat × Nat)} (hx : y = x) : Served { s with claims := x } { t with claims := y } := by
  subst hx; unfold Served at h ⊢; tauto
theorem Served.set_link {x y : Link} (hx : y = x) : Served { s with link := x } { t with link := y } := by
  subst hx; unfold Served at h ⊢; tauto
theorem Served.set_pumps {x y : List Pump} (hx : y = x) : Served { s with pumps := x } { t with pumps := y } := by
  subst hx; unfold Served at h ⊢; tauto
theorem Served.set_tiles {x y : List Tile} (hx : y = x) : Served { s with tiles := x } { t with tiles := y } := by
  subst hx; unfold Served at h ⊢; tauto
theorem Served.set_lists {x y : Lists} (hx : y = x) : Served { s with lists := x } { t with lists := y } := by
  subst hx; unfold Served at h ⊢; tauto
theorem Served.set_pipe {x y : Pipe} (hx : y = x) : Served { s with pipe := x } { t with pipe := y } := by
  subst hx; unfold Served at h ⊢; tauto
theorem Served.set_rope {x y : Rope} (hx : y = x) : Served { s with rope := x } { t with rope := y } := by
  subst hx; unfold Served at h ⊢; tauto
theorem Served.set_stage {x y : Stage} (hx : y = x) : Served { s with stage := x } { t with stage := y } := by
  subst hx; unfold Served at h ⊢; tauto
theorem Served.set_traces {x y : List Trace} (hx : y = x) : Served { s with traces := x } { t with traces := y } := by
  subst hx; unfold Served at h ⊢; tauto
theorem Served.set_chainA {x y : Chain} (hx : y = x) : Served { s with chainA := x } { t with chainA := y } := by
  subst hx; unfold Served at h ⊢; tauto
theorem Served.set_chainB {x y : Chain} (hx : y = x) : Served { s with chainB := x } { t with chainB := y } := by
  subst hx; unfold Served at h ⊢; tauto
theorem Served.set_est {x y : Est} (hx : y = x) : Served { s with est := x } { t with est := y } := by
  subst hx; unfold Served at h ⊢; tauto
theorem Served.set_therm {x y : Thermal} (hx : y = x) : Served { s with therm := x } { t with therm := y } := by
  subst hx; unfold Served at h ⊢; tauto
theorem Served.set_ledger {x y : Ledger} (hx : y = x) : Served { s with ledger := x } { t with ledger := y } := by
  subst hx; unfold Served at h ⊢; tauto
theorem Served.set_pair {x y : Pair} (hx : y = x) : Served { s with pair := x } { t with pair := y } := by
  subst hx; unfold Served at h ⊢; tauto
theorem Served.set_boot {x y : Boot} (hx : y = x) : Served { s with boot := x } { t with boot := y } := by
  subst hx; unfold Served at h ⊢; tauto

end

/-- A message changes the vectors alone. -/
theorem served_msixDue (v : Nat) (s : State) : Served s (msixDue v s) := by
  unfold msixDue
  split
  · exact served_refl s
  · split <;> simp [Served, vecSend]

/-! ### Commands that the module takes -/

/-- A request that passes the header checks of its command on an idle module (R95, R101, R104). -/
structure Taken (c : Cmd) (r : Req) : Prop where
  known : c.known = true
  onMb : c.onMb r.mb = true
  short : r.length.toNat ≤ 1023
  length : c.lenOk r.length.toNat = true

theorem taken_high {c : Cmd} {r : Req} {n : Nat} (h : High r n) (hk : c.known = true) (hm : c.onMb = mbHigh) (hl : c.lenOk n = true)
    (hn : n ≤ 1023) : Taken c r := by
  obtain ⟨hmb, hlen⟩ := h
  exact ⟨hk, by simp [hm, mbHigh, hmb], by omega, by rw [hlen]; exact hl⟩

theorem taken_low {c : Cmd} {r : Req} {n : Nat} (h : Low r n) (hk : c.known = true) (hm : c.onMb = mbZero) (hl : c.lenOk n = true)
    (hn : n ≤ 1023) : Taken c r := by
  obtain ⟨hmb, hlen⟩ := h
  exact ⟨hk, by simp [hm, mbZero, hmb], by omega, by rw [hlen]; exact hl⟩

theorem guardE_none {e : Option Answer} {s : State} {go : State → State × Answer} (h : e = none) : guardE e s go = go s := by
  rw [h, guardE]

theorem guardE_some {e : Option Answer} {s : State} {go : State → State × Answer} {a : Answer} (h : e = some a) :
    guardE e s go = (s, a) := by
  rw [h, guardE]

section
variable {s b : State} {c : Cmd} {r : Req} {body : State → State × Answer}

/-- A command whose body ends it at once: its response stands in its mailbox, and the rest is what the body left. -/
theorem mailbox_now {k : Code} {d : Nat} {w : List Word} (hs : Ready s) (ht : Taken c r)
    (hb : body (rung c.op c.acts r s) = (b, .now k d w)) (hbs : b.mbs = (rung c.op c.acts r s).mbs) :
    ∃ t, mailbox c r body s = .next t ∧ Answered t r k d w ∧ Served b t := by
  refine ⟨_, mailbox_ready hs c r body ht.known ht.onMb ht.short ht.length, ?_, ?_⟩
  · rw [hb]; exact answered_complete hs c.op c.acts r hbs ..
  · rw [hb]; exact served_complete ..

/-- A command whose body leaves it in progress. -/
theorem mailbox_later {w : Waiting} (hs : Ready s) (ht : Taken c r)
    (hb : body (rung c.op c.acts r s) = (b, .later w)) (hbs : b.mbs = (rung c.op c.acts r s).mbs) :
    ∃ t, mailbox c r body s = .next t ∧ Waits t r w ∧ Served b t := by
  refine ⟨_, mailbox_ready hs c r body ht.known ht.onMb ht.short ht.length, ?_, ?_⟩
  · rw [hb]; exact waits_later hs c.op c.acts r hbs w
  · rw [hb]; simp [mbAnswer, Served, mbWait]

/-- `mailbox_now` for a statement about the state that follows. -/
theorem mailbox_ends {k : Code} {d : Nat} {w : List Word} {p : State → Prop} (hs : Ready s) (ht : Taken c r)
    (hb : body (rung c.op c.acts r s) = (b, .now k d w)) (hbs : b.mbs = (rung c.op c.acts r s).mbs)
    (hp : ∀ t, Answered t r k d w → Served b t → p t) : ∃ t, mailbox c r body s = .next t ∧ p t := by
  obtain ⟨t, hexec, hans, hserved⟩ := mailbox_now hs ht hb hbs
  exact ⟨t, hexec, hp t hans hserved⟩

/-- The same where the statement speaks of memory or of the link, which a response does not touch. -/
theorem mailbox_ends_mem {k : Code} {d : Nat} {w : List Word} {p : State → Prop} (hs : Ready s) (ht : Taken c r)
    (hb : body (rung c.op c.acts r s) = (b, .now k d w)) (hbs : b.mbs = (rung c.op c.acts r s).mbs)
    (hp : ∀ t, Answered t r k d w → Served b t → t.mem = b.mem → t.link = b.link → p t) : ∃ t, mailbox c r body s = .next t ∧ p t := by
  refine ⟨_, mailbox_ready hs c r body ht.known ht.onMb ht.short ht.length, ?_⟩
  rw [hb]
  exact hp _ (answered_complete hs c.op c.acts r hbs ..) (served_complete ..) (complete_mem ..) (complete_link ..)

/-- `mailbox_later` for a statement about the state that follows. -/
theorem mailbox_goes_on {w : Waiting} {p : State → Prop} (hs : Ready s) (ht : Taken c r)
    (hb : body (rung c.op c.acts r s) = (b, .later w)) (hbs : b.mbs = (rung c.op c.acts r s).mbs)
    (hp : ∀ t, Waits t r w → Served b t → p t) : ∃ t, mailbox c r body s = .next t ∧ p t := by
  obtain ⟨t, hexec, hwaits, hserved⟩ := mailbox_later hs ht hb hbs
  exact ⟨t, hexec, hp t hwaits hserved⟩

/-- A command whose body leaves the state as the doorbell did. -/
theorem mailbox_same {k : Code} {d : Nat} {w : List Word} (hs : Ready s) (ht : Taken c r)
    (hb : body (rung c.op c.acts r s) = (rung c.op c.acts r s, .now k d w)) :
    ∃ t, mailbox c r body s = .next t ∧ Answered t r k d w ∧ Served s t := by
  obtain ⟨t, hexec, hans, hserved⟩ := mailbox_now hs ht hb rfl
  exact ⟨t, hexec, hans, (served_rung ..).trans hserved⟩

end

/-! ### The commands of a function (R101, R113) -/

theorem fnIdx_of_mem {f : Nat} (h : f ∈ fnIds) : ∃ i, fnIdx f = some i ∧ i < 27 := by
  have hall : ∀ g ∈ fnIds, (fnIdx g).any (decide <| · < 27) = true := by decide
  have hf := hall f h
  cases hi : fnIdx f with
  | none => simp [hi] at hf
  | some i => exact ⟨i, rfl, by simpa [hi] using hf⟩

theorem taken_function {r : Req} (h : FuncHeader r) (op : Nat) : Taken (fcCmd op r) r := by
  obtain ⟨hlen, -, -, hmb⟩ := h
  exact ⟨rfl, by simp [fcCmd, fcOn, hmb], by omega, by simp [fcCmd, hlen]⟩

theorem fcCmd_op (op : Nat) (r : Req) : (fcCmd op r).op = op := rfl

theorem fcBody_of_header {r : Req} (h : FuncHeader r) (body : Nat → State → State × Answer) (s : State) :
    fcBody r body s = body (fcId r) s := by
  obtain ⟨-, hres, hid, -⟩ := h
  obtain ⟨i, hi, -⟩ := fnIdx_of_mem hid
  simp [fcBody, fcOk, hi, hres]

/-- Different functions have different records. -/
theorem fnIdx_inj {f g : Nat} (hf : f ∈ fnIds) (hg : g ∈ fnIds) (h : fnIdx f = fnIdx g) : f = g := by
  have hall : ∀ a ∈ fnIds, ∀ b ∈ fnIds, fnIdx a = fnIdx b → a = b := by decide
  exact hall f hf g hg h

@[simp] theorem fnSet_funcs_length (f : Nat) (x : FState) (c : Nat) (s : State) : (fnSet f x c s).funcs.length = s.funcs.length := by
  unfold fnSet
  split
  · rfl
  · dsimp only
    split_ifs <;> simp

/-- The record of a function after its change of state (R113). -/
theorem fnRec_fnSet {f : Nat} {s : State} (hs : s.funcs.length = 27) (hf : f ∈ fnIds) {x : FState} (hx : fnState s f ≠ x) (c : Nat) :
    fnRec (fnSet f x c s) f =
      { state := x
        change := s.clk.stroke
        faultCount := if x = .faulted then satAdd 65535 (fnRec s f).faultCount 1 else (fnRec s f).faultCount
        faultCause := if x = .faulted then BitVec.ofNat 16 c else (fnRec s f).faultCause } := by
  obtain ⟨i, hi, hlt⟩ := fnIdx_of_mem hf
  simp only [fnState, fnRec, hi, Option.getD_some] at hx ⊢
  simp only [fnSet, hi, if_neg hx, decide_eq_true_eq]
  split <;> simp [List.getD_eq_getElem?_getD, hs, hlt]

theorem fnState_fnSet {f : Nat} {s : State} (hs : s.funcs.length = 27) (hf : f ∈ fnIds) (x : FState) (c : Nat) :
    fnState (fnSet f x c s) f = x := by
  by_cases hx : fnState s f = x
  · obtain ⟨i, hi, hlt⟩ := fnIdx_of_mem hf
    have hsame : fnSet f x c s = s := by
      simp only [fnState, fnRec, hi, Option.getD_some] at hx
      simp only [fnSet, hi, hx, if_true]
    rw [hsame, hx]
  · rw [fnState, fnRec_fnSet hs hf hx]

theorem fnRec_fnSet_other {f g : Nat} (hf : f ∈ fnIds) (hg : g ∈ fnIds) (hne : g ≠ f) (x : FState) (c : Nat) (s : State) :
    fnRec (fnSet f x c s) g = fnRec s g := by
  obtain ⟨i, hi, -⟩ := fnIdx_of_mem hf
  obtain ⟨j, hj, -⟩ := fnIdx_of_mem hg
  have hij : i ≠ j := fun h => hne (fnIdx_inj hg hf (by rw [hi, hj, h]))
  have hfuncs : (fnSet f x c s).funcs = s.funcs ∨ ∃ y, (fnSet f x c s).funcs = s.funcs.set i y := by
    simp only [fnSet, hi]
    split
    · exact .inl rfl
    · split
      · exact .inr ⟨_, (msixDue_funcs ..).trans (emit_funcs ..)⟩
      · exact .inr ⟨_, emit_funcs ..⟩
  rcases hfuncs with h | ⟨y, h⟩
  · rw [fnRec, fnRec, h]
  · simp only [fnRec, h, hj, Option.getD_some, List.getD_eq_getElem?_getD, List.getElem?_set_ne hij]

theorem othersKeep_fnSet {f : Nat} (hf : f ∈ fnIds) (x : FState) (c : Nat) (s : State) : OthersKeep s (fnSet f x c s) f :=
  fun g hg hne => by rw [fnState, fnRec_fnSet_other hf hg hne, fnState]

theorem startFault_rung (o : Nat) (a : List Nat) (r : Req) (s : State) (f : Nat) : startFault (rung o a r s) f = startFault s f := by
  unfold startFault
  rw [rung_clk]

/-! ### One part of the state -/

@[simp] theorem stMod_funcs (f : Stage → Stage) (s : State) : (stMod f s).funcs = s.funcs := rfl
@[simp] theorem stMod_mbs (f : Stage → Stage) (s : State) : (stMod f s).mbs = s.mbs := rfl
@[simp] theorem estMod_funcs (f : Est → Est) (s : State) : (estMod f s).funcs = s.funcs := rfl
@[simp] theorem estMod_mbs (f : Est → Est) (s : State) : (estMod f s).mbs = s.mbs := rfl
@[simp] theorem ropeMod_funcs (f : Rope → Rope) (s : State) : (ropeMod f s).funcs = s.funcs := rfl
@[simp] theorem ropeMod_mbs (f : Rope → Rope) (s : State) : (ropeMod f s).mbs = s.mbs := rfl
@[simp] theorem pairMod_funcs (f : Pair → Pair) (s : State) : (pairMod f s).funcs = s.funcs := rfl
@[simp] theorem pairMod_mbs (f : Pair → Pair) (s : State) : (pairMod f s).mbs = s.mbs := rfl
@[simp] theorem ldMod_funcs (f : Ledger → Ledger) (s : State) : (ldMod f s).funcs = s.funcs := rfl
@[simp] theorem ldMod_mbs (f : Ledger → Ledger) (s : State) : (ldMod f s).mbs = s.mbs := rfl
@[simp] theorem chMod_funcs (b : Bool) (f : Chain → Chain) (s : State) : (chMod b f s).funcs = s.funcs := by cases b <;> rfl
@[simp] theorem chMod_mbs (b : Bool) (f : Chain → Chain) (s : State) : (chMod b f s).mbs = s.mbs := by cases b <;> rfl

/-! ### Folds -/

/-- What every step of a fold keeps, the fold keeps. -/
theorem foldl_keeps {α β : Type} (p : State → β) {f : State → α → State} (h : ∀ t a, p (f t a) = p t) (l : List α) (s : State) :
    p (l.foldl f s) = p s := by
  induction l generalizing s with
  | nil => rfl
  | cons a l ih => rw [List.foldl_cons, ih, h]

end Sys2Proof.Machine
end

section
/-! PROOFS. FUNC_ON, FUNC_OFF, FUNC_START, FUNC_STOP and FUNC_CLEAR (R113 to R117): the state of the function and of no other. -/

namespace Sys2Proof.Machine

/-! ### FUNC_ON and FUNC_OFF -/

theorem listDrop_funcs (id : Nat) (s : State) : (listDrop id s).funcs = s.funcs := by unfold listDrop; split <;> rfl
theorem listDrop_mbs (id : Nat) (s : State) : (listDrop id s).mbs = s.mbs := by unfold listDrop; split <;> rfl

@[simp] theorem queueOff_funcs (f : Nat) (s : State) : (queueOff f s).funcs = s.funcs :=
  foldl_keeps (·.funcs) (fun _ _ => listDrop_funcs ..) _ s
@[simp] theorem queueOff_mbs (f : Nat) (s : State) : (queueOff f s).mbs = s.mbs :=
  foldl_keeps (·.mbs) (fun _ _ => listDrop_mbs ..) _ s

/-- Default values are no state and no answer (R113). -/
theorem fnDefaults_keeps (f : Nat) (s : State) : (fnDefaults f s).funcs = s.funcs ∧ (fnDefaults f s).mbs = s.mbs := by
  unfold fnDefaults
  split_ifs <;> simp

/-- From `s` to `b` function `f` has changed its state to `x`, and no other function has. -/
def Moves (s b : State) (f : Nat) (x : FState) : Prop := ∃ u c, u.funcs = s.funcs ∧ b.funcs = (fnSet f x c u).funcs

theorem fnRec_congr {s t : State} (h : s.funcs = t.funcs) (f : Nat) : fnRec s f = fnRec t f := by rw [fnRec, h, fnRec]
theorem fnState_congr {s t : State} (h : s.funcs = t.funcs) (f : Nat) : fnState s f = fnState t f := by
  rw [fnState, fnRec_congr h, fnState]

/-- The queries of the other functions do not see the move. -/
theorem Moves.state {s b : State} {f : Nat} {x : FState} (h : Moves s b f x) (hs : s.funcs.length = 27) (hf : f ∈ fnIds) :
    fnState b f = x ∧ OthersKeep s b f := by
  obtain ⟨u, c, hu, hb⟩ := h
  refine ⟨(fnState_congr hb f).trans (fnState_fnSet (by rw [hu, hs]) hf x c), fun g hg hne => ?_⟩
  rw [fnState_congr hb g, othersKeep_fnSet hf x c u g hg hne, fnState_congr hu]

/-- A function command whose body moves its function and answers OK. -/
theorem function_moves {r : Req} {s b : State} {x : FState} {op : Nat} {body : Nat → State → State × Answer} (hs : Ready s)
    (hsound : Sound s) (hh : FuncHeader r) (hb : body (fcId r) (rung op (fcCmd op r).acts r s) = (b, okR []))
    (hbs : b.mbs = (rung op (fcCmd op r).acts r s).mbs) (hm : Moves (rung op (fcCmd op r).acts r s) b (fcId r) x) :
    ∃ t, mailbox (fcCmd op r) r (fcBody r body) s = .next t ∧ Answered t r .ok 0 [] ∧ fnState t (fcId r) = x ∧
      OthersKeep s t (fcId r) := by
  obtain ⟨-, -, -, hlen, -⟩ := hsound
  obtain ⟨-, -, hid, -⟩ := id hh
  obtain ⟨t, hexec, hans, hserved⟩ := mailbox_now hs (taken_function hh op) ((fcBody_of_header hh body _).trans hb) hbs
  obtain ⟨hstate, hothers⟩ := hm.state (by rw [rung_funcs, hlen]) hid
  refine ⟨t, hexec, hans, by rw [hserved.fnState, hstate], fun g hg hne => ?_⟩
  rw [hserved.fnState, hothers g hg hne, fnState_congr (rung_funcs ..)]

/-- Where the function is in the state that the command leads to, the command changes nothing. -/
theorem function_asks {r : Req} {s : State} {op : Nat} {body : Nat → State → State × Answer} {k : Code} {d : Nat} (hs : Ready s)
    (hh : FuncHeader r) (hb : body (fcId r) (rung op (fcCmd op r).acts r s) = (rung op (fcCmd op r).acts r s, .now k d [])) :
    ∃ t, mailbox (fcCmd op r) r (fcBody r body) s = .next t ∧ Answered t r k d [] ∧ Served s t :=
  mailbox_same hs (taken_function hh op) ((fcBody_of_header hh body _).trans hb)

theorem fnState_rung (o : Nat) (a : List Nat) (r : Req) (s : State) (f : Nat) : fnState (rung o a r s) f = fnState s f :=
  fnState_congr (rung_funcs ..) f

/-- Settles O13: the state of R113's outcomes table decides, and the function enters the state that the command names. -/
theorem funcOnAndFuncOff : Obligations.FuncOnAndFuncOff := by
  unfold Obligations.FuncOnAndFuncOff
  intro r s hs hsound hh
  refine ⟨fun hst => ?_, fun hst => ?_, fun hst => ?_, fun hst => ?_⟩
  · rw [exec_funcOn, execFuncOn]
    obtain ⟨hfuncs, hmbs⟩ := fnDefaults_keeps (fcId r) (rung 0x0103 (fcCmd 0x0103 r).acts r s)
    refine function_moves hs hsound hh (by simp only [fnState_rung, hst]; rfl) ?_ ⟨_, 0, hfuncs, ?_⟩
    · split <;> simp [ledgerOn, ldMod, hmbs]
    · split <;> rfl
  · rw [Asks, exec_funcOn, execFuncOn]
    exact function_asks hs hh (by simp only [fnState_rung, hst]; rfl)
  · rw [exec_funcOff, execFuncOff]
    obtain ⟨hfuncs, hmbs⟩ := fnDefaults_keeps (fcId r) (rung 0x0104 (fcCmd 0x0104 r).acts r s)
    refine function_moves hs hsound hh (by simp only [fnState_rung, hst]; rfl) ?_ ⟨_, 0, hfuncs, ?_⟩
    · split <;> simp [ledgerOff, ldMod, hmbs]
    · split <;> rfl
  · rw [Asks, exec_funcOff, execFuncOff]
    exact function_asks hs hh (by simp only [fnState_rung, hst]; rfl)

end Sys2Proof.Machine
end

section
/-! PROOFS. FUNC_START (R113, R115, R68): each function's own start puts it in RUNNING, or goes on to the event that does. -/

namespace Sys2Proof.Machine

/-! ### What the starts keep -/

@[simp] theorem norOp_funcs (e : Bool) (o n : Nat) {go : State → State} (h : ∀ s, (go s).funcs = s.funcs) (s : State) :
    (norOp e o n go s).funcs = s.funcs := by unfold norOp; split <;> simp [h]
@[simp] theorem norOp_mbs (e : Bool) (o n : Nat) {go : State → State} (h : ∀ s, (go s).mbs = s.mbs) (s : State) :
    (norOp e o n go s).mbs = s.mbs := by unfold norOp; split <;> simp [h]

@[simp] theorem norMod_funcs (k : Nat) (f : NorKind → NorKind) (s : State) : (norMod k f s).funcs = s.funcs := by
  unfold norMod; split <;> rfl
@[simp] theorem norMod_mbs (k : Nat) (f : NorKind → NorKind) (s : State) : (norMod k f s).mbs = s.mbs := by
  unfold norMod; split <;> rfl

theorem norErase_keeps (k : Nat) (p : List Word) (s : State) : (norErase k p s).funcs = s.funcs ∧ (norErase k p s).mbs = s.mbs := by
  simp [norErase]

theorem norNext_keeps (s : State) : (norNext s).funcs = s.funcs ∧ (norNext s).mbs = s.mbs := by
  unfold norNext
  split_ifs
  · exact ⟨rfl, rfl⟩
  · exact norErase_keeps ..
  · exact norErase_keeps ..
  · split
    · exact norErase_keeps ..
    · exact ⟨rfl, rfl⟩

@[simp] theorem estRecord_funcs (v c : Nat) (m : List Word) (s : State) : (estRecord v c m s).funcs = s.funcs := emit_funcs ..
@[simp] theorem estRecord_mbs (v c : Nat) (m : List Word) (s : State) : (estRecord v c m s).mbs = s.mbs := emit_mbs ..

theorem queueGo_lists (f : Nat) (s : State) :
    ∃ u, u.funcs = s.funcs ∧ u.mbs = s.mbs ∧ (queueGo f s).funcs = (fnSet f .running 0 u).funcs ∧ (queueGo f s).mbs = u.mbs := by
  refine ⟨if f = fFIXED0 ∨ f = 0x11 then { s with pipe := { s.pipe with live := s.pipe.cfg } } else s, ?_, ?_, rfl, ?_⟩
  · split <;> rfl
  · split <;> rfl
  · exact fnSet_mbs ..

/-- EST starts from its records in NOR (R419). -/
theorem estStart_moves (s : State) : Moves s (estStart s) fEST .running ∧ (estStart s).mbs = s.mbs := by
  unfold estStart
  extract_lets a b cells c
  have ha : a.funcs = s.funcs ∧ a.mbs = s.mbs := by simp only [a]; split <;> simp
  have hb : b.funcs = s.funcs ∧ b.mbs = s.mbs := by simp only [b]; split <;> simp [ha]
  have hc : c.funcs = s.funcs ∧ c.mbs = s.mbs := hb
  clear_value c
  obtain ⟨hfuncs, hmbs⟩ := norNext_keeps (fnSet fEST .running 0 (stMod (fun x => { x with qCmd := 0, qAbs := 0 }) c))
  refine ⟨⟨_, 0, ?_, hfuncs⟩, hmbs.trans ((fnSet_mbs ..).trans hc.2)⟩
  exact hc.1

@[simp] theorem bringUp_funcs (b : Bool) (s : State) : (bringUp b s).funcs = s.funcs := by simp [bringUp, chSend, chPhase]
@[simp] theorem bringUp_mbs (b : Bool) (s : State) : (bringUp b s).mbs = s.mbs := by simp [bringUp, chSend, chPhase]

@[simp] theorem bypassOpen_funcs (b : Bool) (s : State) : (bypassOpen b s).funcs = s.funcs := by cases b <;> rfl
@[simp] theorem bypassOpen_mbs (b : Bool) (s : State) : (bypassOpen b s).mbs = s.mbs := by cases b <;> rfl

@[simp] theorem softStart_funcs (s : State) : (softStart s).funcs = s.funcs := rfl
@[simp] theorem softStart_mbs (s : State) : (softStart s).mbs = s.mbs := rfl

theorem stageStart_moves (s : State) : Moves s (stageStart s) fSTAGE .running ∧ (stageStart s).mbs = s.mbs :=
  ⟨⟨claimAll fSTAGE (stagePins s.stage.cfg) s, 0, claimAll_funcs .., by simp [stageStart]⟩, by simp [stageStart]⟩

theorem pairStart_moves (s : State) : Moves s (pairStart s) fPAIR .running ∧ (pairStart s).mbs = s.mbs :=
  ⟨⟨claimAll fPAIR [0x114] s, 0, claimAll_funcs .., by simp [pairStart]⟩, by simp [pairStart]⟩

/-! ### A start -/

/-- A chain without the grant runs at once; with it, bring-up comes first (R403). -/
theorem chainStart_of_no_grant (b : Bool) {s : State} (h : s.pair.gnt = false) :
    ∃ u, chainStart b s = (u, okR []) ∧ Moves s u (chainFn b) .running ∧ u.mbs = s.mbs := by
  have hg : (chMod b (fun c => { c with phase := .idle, broughtUp := false }) s).pair.gnt = false := by cases b <;> exact h
  refine ⟨_, by rw [chainStart]; simp only [hg]; rfl, ⟨_, 0, ?_, rfl⟩, ?_⟩ <;> simp

theorem chainStart_of_grant (b : Bool) {s : State} (h : s.pair.gnt = true) :
    ∃ u, chainStart b s = (u, .later (.funcStart (chainFn b))) ∧ u.funcs = s.funcs ∧ u.mbs = s.mbs := by
  have hg : (chMod b (fun c => { c with phase := .idle, broughtUp := false }) s).pair.gnt = true := by cases b <;> exact h
  refine ⟨_, by rw [chainStart]; simp only [hg]; rfl, ?_, ?_⟩ <;> simp

theorem startGo_now {f : Nat} {s : State} (hrope : f ≠ fROPE) (hchain : ¬ ((f = fCHAINA ∨ f = fCHAINB) ∧ s.pair.gnt = true)) :
    ∃ u, startGo f s = (u, okR []) ∧ Moves s u f .running ∧ u.mbs = s.mbs := by
  unfold startGo
  split_ifs with hst ha hb he hp hl
  · subst hst
    exact ⟨stageStart s, rfl, stageStart_moves s⟩
  · exact ha ▸ chainStart_of_no_grant false (by simpa [ha] using hchain)
  · exact hb ▸ chainStart_of_no_grant true (by simpa [hb] using hchain)
  · subst he
    exact ⟨estStart s, rfl, estStart_moves s⟩
  · subst hp
    exact ⟨pairStart s, rfl, pairStart_moves s⟩
  · subst hl
    exact ⟨_, rfl, ⟨_, 0, rfl, rfl⟩, fnSet_mbs ..⟩
  · obtain ⟨u, hu, hmbs, hfuncs, hmbs'⟩ := queueGo_lists f s
    exact ⟨_, rfl, ⟨u, 0, hu, hfuncs⟩, hmbs'.trans hmbs⟩

theorem startGo_later {f : Nat} {s : State} (h : f = fROPE ∨ (f = fCHAINA ∨ f = fCHAINB) ∧ s.pair.gnt = true) :
    ∃ u, startGo f s = (u, .later (.funcStart f)) ∧ u.funcs = s.funcs ∧ u.mbs = s.mbs := by
  rcases h with rfl | ⟨rfl | rfl, hg⟩
  · exact ⟨_, rfl, bypassOpen_funcs .., bypassOpen_mbs ..⟩
  · exact chainStart_of_grant false hg
  · exact chainStart_of_grant true hg

/-- Settles O14: R68's declared domain first, then the checks, then the function's own start. -/
theorem funcStart : Obligations.FuncStart := by
  unfold Obligations.FuncStart
  refine ⟨fun r s hs hsound hh hst hfault hbad => ⟨fun hrope hchain => ?_, fun hlater => ?_⟩, fun r s c hs hsound hh hst hfault => ?_⟩
  · rw [exec_funcStart, execFuncStart]
    obtain ⟨u, hu, hm, hmbs⟩ := startGo_now (s := rung 0x0105 (fcCmd 0x0105 r).acts r s) hrope (by simpa using hchain)
    refine function_moves hs hsound hh ?_ hmbs hm
    simp only [fnState_rung, hst, startFault_rung, hfault, startBad_rung, hbad, guardE, hu]
  · rw [exec_funcStart, execFuncStart]
    obtain ⟨u, hu, hfuncs, hmbs⟩ := startGo_later (s := rung 0x0105 (fcCmd 0x0105 r).acts r s) (by simpa using hlater)
    refine mailbox_goes_on hs (taken_function hh 0x0105) ((fcBody_of_header hh _ _).trans ?_) hmbs fun t hwaits hserved =>
      ⟨hwaits, hserved.funcs.trans (hfuncs.trans (rung_funcs ..))⟩
    simp only [fcCmd_op, fnState_rung, hst, startFault_rung, hfault, startBad_rung, hbad, guardE, hu]
  · obtain ⟨-, -, -, hlen, -⟩ := hsound
    obtain ⟨-, -, hid, -⟩ := id hh
    have hrec := fnRec_fnSet (s := rung 0x0105 (fcCmd 0x0105 r).acts r s) (x := .faulted) (by rw [rung_funcs, hlen]) hid
      (by rw [fnState_rung, hst]; decide) c
    rw [exec_funcStart, execFuncStart]
    refine mailbox_ends hs (taken_function hh 0x0105) ((fcBody_of_header hh _ _).trans ?_) (fnSet_mbs _ (fcId r) .faulted c) fun t hans hserved =>
      ⟨hans, ?_, ?_, ?_, fun g hg hne => ?_⟩
    · simp only [fcCmd_op, fnState_rung, hst, startFault_rung, hfault]
      rfl
    · rw [hserved.fnState, fcCmd_op, fnState, hrec]
    · rw [hserved.fnRec, fcCmd_op, hrec]; rfl
    · rw [hserved.fnRec, fcCmd_op, hrec, rung_clk]
    · rw [hserved.fnState, fcCmd_op, othersKeep_fnSet hid _ _ _ g hg hne, fnState_rung]

end Sys2Proof.Machine
end

section
/-! PROOFS. FUNC_STOP and FUNC_CLEAR (R113, R114). -/

namespace Sys2Proof.Machine

/-! ### No other command waits -/

/-- No mailbox waits for an event: what an event would answer has none to go to. -/
def Unawaited (s : State) : Prop := ∀ w : Waiting, w ≠ .body → waitingMb (fun x => decide (x = w)) s = none

theorem unawaited_of_mbs {s t : State} (h : Unawaited s) (hm : t.mbs = s.mbs) : Unawaited t := fun w hw => by
  rw [← h w hw, waitingMb, hm, waitingMb]

theorem answer_unawaited {s : State} (h : Unawaited s) {w : Waiting} (hw : w ≠ .body) (c : Code) (d : Nat) (l : List Word) :
    answer w c d l s = s := by rw [answer, h w hw]

/-- While a body runs, its own mailbox alone has a command in progress. -/
theorem unawaited_rung {s : State} (h : Ready s) (o : Nat) (a : List Nat) (r : Req) : Unawaited (rung o a r s) := by
  intro w hw
  rw [waitingMb, List.find?_eq_none]
  intro n _
  have hidle := ready_idle h n
  simp only [rung, mbStart, hostLossEnd_mbs, mbPost, List.getD_eq_getElem?_getD, List.getElem?_modify] at hidle ⊢
  cases hn : s.mbs[n]? with
  | none => simp
  | some m =>
    rw [hn] at hidle
    by_cases hr : r.mb.val = n
    · simpa [hr] using hw.symm
    · simp only [Option.getD_some] at hidle
      simp [hr, hidle]

/-! ### Who changes STAGE alone -/

theorem othersKeep_congr {s t u : State} {f : Nat} (h : OthersKeep s t f) (hu : u.funcs = t.funcs) : OthersKeep s u f :=
  fun g hg hne => by rw [fnState_congr hu, h g hg hne]

theorem othersKeep_of_eq {s u : State} (h : u.funcs = s.funcs) (f : Nat) : OthersKeep s u f := fun g _ _ => fnState_congr h g

theorem OthersKeep.trans {s t u : State} {f : Nat} (h : OthersKeep s t f) (k : OthersKeep t u f) : OthersKeep s u f :=
  fun g hg hne => by rw [k g hg hne, h g hg hne]

/-- STAGE stops: its function is STOPPED, and no other changes its state (R114). -/
theorem stageStopped_keeps {s : State} (h : Unawaited s) :
    OthersKeep s (stageStopped s) fSTAGE ∧ (stageStopped s).mbs = s.mbs ∧ (stageStopped s).funcs.length = s.funcs.length := by
  unfold stageStopped
  split
  · extract_lets u
    have hu : u.mbs = s.mbs := by simp [u]
    rw [answer_unawaited (unawaited_of_mbs h hu) (by decide), answer_unawaited (unawaited_of_mbs h hu) (by decide)]
    refine ⟨?_, hu, ?_⟩
    · exact (othersKeep_of_eq (by simp) _).trans (othersKeep_fnSet (by decide) _ _ _)
    · simp [u, stMod]
  · exact ⟨othersKeep_of_eq rfl _, rfl, rfl⟩

@[simp] theorem stRecord_funcs (v c d : Nat) (s : State) : (stRecord v c d s).funcs = s.funcs := emit_funcs ..
@[simp] theorem stRecord_mbs (v c d : Nat) (s : State) : (stRecord v c d s).mbs = s.mbs := emit_mbs ..

theorem stageGrantLost_keeps {s : State} (h : Unawaited s) :
    OthersKeep s (stageGrantLost s) fSTAGE ∧ (stageGrantLost s).mbs = s.mbs ∧ (stageGrantLost s).funcs.length = s.funcs.length := by
  unfold stageGrantLost
  extract_lets l u
  split
  · have hu : (stRecord 2 0x0602 l u).funcs = s.funcs ∧ (stRecord 2 0x0602 l u).mbs = s.mbs := by simp [u]
    obtain ⟨hothers, hmbs, hlen⟩ := stageStopped_keeps (unawaited_of_mbs h hu.2)
    exact ⟨(othersKeep_of_eq hu.1 _).trans hothers, hmbs.trans hu.2, by rw [hlen, hu.1]⟩
  · exact ⟨othersKeep_of_eq rfl _, rfl, rfl⟩

@[simp] theorem disqualify_funcs (n r : Nat) (s : State) : (disqualify n r s).funcs = s.funcs := by
  unfold disqualify; split <;> simp [strPut]
@[simp] theorem disqualify_mbs (n r : Nat) (s : State) : (disqualify n r s).mbs = s.mbs := by
  unfold disqualify; split <;> simp [strPut]

@[simp] theorem estRoleChange_funcs (s : State) : (estRoleChange s).funcs = s.funcs := by
  unfold estRoleChange; split <;> [exact foldl_keeps (·.funcs) (fun _ _ => disqualify_funcs ..) _ s; rfl]
@[simp] theorem estRoleChange_mbs (s : State) : (estRoleChange s).mbs = s.mbs := by
  unfold estRoleChange; split <;> [exact foldl_keeps (·.mbs) (fun _ _ => disqualify_mbs ..) _ s; rfl]

@[simp] theorem refSelect_funcs (s : State) : (refSelect s).funcs = s.funcs := by
  unfold refSelect; split <;> [(unfold refSwitch; split <;> [rfl; exact emit_funcs ..]); rfl]
@[simp] theorem refSelect_mbs (s : State) : (refSelect s).mbs = s.mbs := by
  unfold refSelect; split <;> [(unfold refSwitch; split <;> [rfl; exact emit_mbs ..]); rfl]

/-- A module that gives up its role stops STAGE where it runs, and no other function (R508). -/
theorem giveUp_keeps {s : State} (h : Unawaited s) (p : PState) :
    OthersKeep s (giveUp p s) fSTAGE ∧ (giveUp p s).mbs = s.mbs ∧ (giveUp p s).funcs.length = s.funcs.length := by
  unfold giveUp
  extract_lets was u
  have hu : u.funcs = s.funcs ∧ u.mbs = s.mbs := by simp [u]
  split
  · obtain ⟨hothers, hmbs, hlen⟩ := stageGrantLost_keeps (unawaited_of_mbs h hu.2)
    refine ⟨(othersKeep_of_eq hu.1 _).trans (othersKeep_congr hothers (by simp)), ?_, ?_⟩
    · rw [refSelect_mbs, estRoleChange_mbs, hmbs, hu.2]
    · rw [refSelect_funcs, estRoleChange_funcs, hlen, hu.1]
  · exact ⟨othersKeep_of_eq hu.1 _, hu.2, by rw [hu.1]⟩

/-! ### FUNC_STOP -/

theorem stageStopped_state {s : State} (h : Unawaited s) (hlen : s.funcs.length = 27) (hrun : fnState s fSTAGE = .running) :
    fnState (stageStopped s) fSTAGE = .stopped := by
  unfold stageStopped
  rw [if_pos (by simp [fnRunning, hrun])]
  extract_lets u
  have hu : u.mbs = s.mbs := by simp [u]
  have hstate : fnState u fSTAGE = .stopped :=
    fnState_fnSet (s := claimRelease fSTAGE (stMod stIdle s)) (by simpa using hlen) (by decide) .stopped 0
  clear_value u
  rw [answer_unawaited (unawaited_of_mbs h hu) (by decide), answer_unawaited (unawaited_of_mbs h hu) (by decide)]
  exact hstate

theorem pairStopped_state {s : State} (h : Unawaited s) (hlen : s.funcs.length = 27) :
    fnState (pairStopped s) fPAIR = .stopped ∧ (pairStopped s).mbs = s.mbs := by
  obtain ⟨-, hmbs, hlen'⟩ := giveUp_keeps h .standby
  unfold pairStopped
  extract_lets u
  have hu : u.mbs = s.mbs := by simp [u, reqUpdate, hmbs]
  have hstate : fnState u fPAIR = .stopped :=
    fnState_fnSet (s := claimRelease fPAIR (giveUp .standby s)) (by rw [claimRelease_funcs, hlen', hlen]) (by decide) .stopped 0
  clear_value u
  rw [answer_unawaited (s := pairMod _ u) (unawaited_of_mbs h hu) (by decide)]
  exact ⟨hstate, hu⟩

/-- A function that runs and has no orderly stop to go through is STOPPED at once (R114). -/
theorem stopGo_now {f : Nat} {s : State} (h : Unawaited s) (hlen : s.funcs.length = 27) (hrun : fnState s f = .running)
    (hf : (f = fCHAINA ∨ f = fCHAINB) ∧ s.pair.gnt = false ∨ f = fPAIR ∧ s.pair.pstate ≠ .active ∨
      f = fSTAGE ∧ (s.stage.modeV = true ∨ (s.stage.loop ≠ .closed ∧ s.stage.loop ≠ .opening))) :
    ∃ u, stopGo f s = (u, okR []) ∧ fnState u f = .stopped ∧ u.mbs = s.mbs := by
  have hchain (b : Bool) (hg : s.pair.gnt = false) :
      ∃ u, chainStopCmd b s = (u, okR []) ∧ fnState u (chainFn b) = .stopped ∧ u.mbs = s.mbs := by
    refine ⟨fnSet (chainFn b) .stopped 0 (chPhase b .idle s), by simp [chainStopCmd, hg], ?_, by simp [chPhase]⟩
    exact fnState_fnSet (by simp [chPhase, hlen]) (by cases b <;> decide) ..
  rcases hf with ⟨rfl | rfl, hg⟩ | ⟨rfl, hp⟩ | ⟨rfl, hst⟩
  · exact hchain false hg
  · exact hchain true hg
  · refine ⟨pairStopped s, ?_, pairStopped_state h hlen⟩
    rw [stopGo]
    simp [fPAIR, fSTAGE, fCHAINA, fCHAINB, fEST, fROPE, pairStopCmd, hp]
  · refine ⟨stageStopped s, ?_, stageStopped_state h hlen hrun, (stageStopped_keeps h).2.1⟩
    rw [stopGo, if_pos rfl, stageStopCmd, if_neg]
    rcases hst with hv | ⟨hc, ho⟩
    · simp [hv]
    · simp [hc, ho]

@[simp] theorem loopOpening_funcs (s : State) : (loopOpening s).funcs = s.funcs := by unfold loopOpening; split <;> rfl
@[simp] theorem loopOpening_mbs (s : State) : (loopOpening s).mbs = s.mbs := by unfold loopOpening; split <;> rfl

@[simp] theorem handoverOpen_funcs (c h : Bool) (s : State) : (handoverOpen c h s).funcs = s.funcs := by
  unfold handoverOpen; dsimp only; split <;> simp
@[simp] theorem handoverOpen_mbs (c h : Bool) (s : State) : (handoverOpen c h s).mbs = s.mbs := by
  unfold handoverOpen; dsimp only; split <;> simp

@[simp] theorem holdEnd_funcs (t : Bool) (s : State) : (holdEnd t s).funcs = s.funcs := by unfold holdEnd; split <;> simp
@[simp] theorem holdEnd_mbs (t : Bool) (s : State) : (holdEnd t s).mbs = s.mbs := by unfold holdEnd; split <;> simp

@[simp] theorem balSend_funcs (b : Bool) (e : ChainEnd) (m : BitVec 512) (s : State) : (balSend b e m s).funcs = s.funcs := chMod_funcs ..
@[simp] theorem balSend_mbs (b : Bool) (e : ChainEnd) (m : BitVec 512) (s : State) : (balSend b e m s).mbs = s.mbs := chMod_mbs ..

/-- A function that goes through an orderly stop still runs (R114). -/
theorem stopGo_later {f : Nat} {s : State} (hf : f = fEST ∨ (f = fCHAINA ∨ f = fCHAINB) ∧ s.pair.gnt = true ∨
      f = fPAIR ∧ s.pair.pstate = .active ∨ f = fSTAGE ∧ s.stage.modeV = false ∧ (s.stage.loop = .closed ∨ s.stage.loop = .opening)) :
    ∃ u, stopGo f s = (u, .later (.funcStop f)) ∧ u.funcs = s.funcs ∧ u.mbs = s.mbs := by
  have hchain (b : Bool) (hg : s.pair.gnt = true) :
      ∃ u, chainStopCmd b s = (u, .later (.funcStop (chainFn b))) ∧ u.funcs = s.funcs ∧ u.mbs = s.mbs :=
    ⟨chPhase b .stopBal (balSend b .lo 0 s), by rw [chainStopCmd, if_pos hg], by simp [chPhase], by simp [chPhase]⟩
  rcases hf with rfl | ⟨rfl | rfl, hg⟩ | ⟨rfl, hp⟩ | ⟨rfl, hv, hst⟩
  · obtain ⟨hfuncs, hmbs⟩ := norNext_keeps (estMod (fun e => { e with duLife := true }) (holdEnd false s))
    exact ⟨_, rfl, hfuncs.trans (by simp), hmbs.trans (by simp)⟩
  · exact hchain false hg
  · exact hchain true hg
  · refine ⟨handoverOpen false (partnerReady s) s, ?_, by simp, by simp⟩
    rw [stopGo]
    simp [fPAIR, fSTAGE, fCHAINA, fCHAINB, fEST, fROPE, pairStopCmd, hp]
  · refine ⟨stMod (fun x => { x with stopAfterOpen := true }) (loopOpening s), ?_, by simp, by simp⟩
    rw [stopGo, if_pos rfl, stageStopCmd, if_pos (by simp [hv, hst])]

/-- ROPE, LEDGER and the queues stop at a later boundary (R327, R487, R273). -/
theorem stopGo_boundary {f : Nat} (hf : f = fROPE ∨ f = fLEDGER ∨ 0x10 ≤ f) (s : State) : stopGo f s = (s, .later (.funcStop f)) := by
  rcases hf with rfl | rfl | h
  · rfl
  · rfl
  · have hne (g : Nat) (hg : g < 0x10) : f ≠ g := by omega
    rw [stopGo, if_neg (hne _ (by decide)), if_neg (hne _ (by decide)), if_neg (hne _ (by decide)), if_neg (hne _ (by decide)),
      if_neg (hne _ (by decide)), if_neg (hne _ (by decide))]

/-- Settles O15: `stopGo` by the function and what it has to end first. -/
theorem funcStopStopsAFunction : Obligations.FuncStopStopsAFunction := by
  unfold Obligations.FuncStopStopsAFunction
  intro r s hs hsound hh
  have hrung := unawaited_rung hs 0x0106 (fcCmd 0x0106 r).acts r
  obtain ⟨-, -, -, hlen, -⟩ := hsound
  refine ⟨fun hst => ?_, fun hst => ⟨fun hnow => ?_, fun hf => ?_, fun hlater => ?_⟩⟩
  · rw [Asks, exec_funcStop, execFuncStop]
    exact function_asks hs hh (by simp only [fnState_rung, hst]; rfl)
  · rw [exec_funcStop, execFuncStop]
    obtain ⟨u, hu, hstate, hmbs⟩ := stopGo_now (f := fcId r) hrung (by rw [rung_funcs, hlen]) (by rw [fnState_rung, hst]) (by simpa using hnow)
    refine mailbox_ends hs (taken_function hh 0x0106) ((fcBody_of_header hh _ _).trans ?_) hmbs fun t hans hserved =>
      ⟨hans, by rw [hserved.fnState, hstate]⟩
    simp only [fcCmd_op, fnState_rung, hst, hu, okR]
  · rw [Awaits, exec_funcStop, execFuncStop]
    refine mailbox_goes_on hs (taken_function hh 0x0106) ((fcBody_of_header hh _ _).trans ?_) rfl fun t hwaits hserved =>
      ⟨hwaits, (served_rung ..).trans hserved⟩
    simp only [fcCmd_op, fnState_rung, hst, stopGo_boundary hf]
  · rw [exec_funcStop, execFuncStop]
    obtain ⟨u, hu, hfuncs, hmbs⟩ := stopGo_later (f := fcId r) (s := rung 0x0106 (fcCmd 0x0106 r).acts r s) (by simpa using hlater)
    refine mailbox_goes_on hs (taken_function hh 0x0106) ((fcBody_of_header hh _ _).trans ?_) hmbs fun t hwaits hserved =>
      ⟨hwaits, by rw [hserved.fnState, fnState_congr hfuncs, fnState_rung, hst]⟩
    simp only [fcCmd_op, fnState_rung, hst, hu]

end Sys2Proof.Machine
end

section
/-! PROOFS. FUNC_CLEAR (R113, R274, R345, R384, R420, R452, R487, R526). -/

namespace Sys2Proof.Machine

/-! ### What the condition of a fault sees -/

/-- A self-test's record leaves everything but the ring and its counters. -/
theorem testRecord_served (i : Nat) (x : TestResult) (s : State) : Served s (testRecord i x s) := by
  unfold testRecord
  split
  · exact served_emit ..
  · exact served_refl s

theorem testRecord_mbs (i : Nat) (x : TestResult) (s : State) : (testRecord i x s).mbs = s.mbs := by
  unfold testRecord
  split
  · exact emit_mbs ..
  · rfl

theorem clearTest_congr {s t : State} (h : s.funcs = t.funcs) (f : Nat) : clearTest s f = clearTest t f := by
  simp only [clearTest, fnRec_congr h]

/-- Serving a mailbox does not change whether a fault's condition is gone. -/
theorem condGone_served {s t : State} (h : Served s t) (f : Nat) (x : TestResult) : condGone t f x = condGone s f x := by
  have hrec := fun g => h.fnRec g
  have hstart : startFault t f = startFault s f := by rw [startFault, h.clk, startFault]
  have hstage : stageCondGone t x = stageCondGone s x := by
    simp only [stageCondGone, hrec, h.stage, sampleTicks, h.clk]
    rfl
  have hpair : pairCondGone t = pairCondGone s := by simp only [pairCondGone, shows, h.pair]
  simp only [condGone, hrec, hstart, hstage, hpair, h.est]

/-- The self-test of a clear is one of STAGE or of the two fixed pairs, which does not count the frequency counter. -/
theorem clearEnd_served {s t : State} (h : Served s t) (f : Nat) (x : TestResult) : clearEnd t f x = clearEnd s f x := by
  have hrun (g : Nat) : fnRunning t g = fnRunning s g := by rw [fnRunning, h.fnState, fnRunning]
  have hmay (i : Nat) : testMay t i = testMay s i := by
    have hconf : claimConflict t = claimConflict s := by
      funext o l; exact claimConflict_claims h.claims ..
    simp only [testMay, hrun, h.pair, h.clk, h.pumps, hconf]
  simp only [clearEnd, clearTest_congr h.funcs, hmay]

/-! ### The end of a fault -/

@[simp] theorem clockVetoCheck_funcs (s : State) : (clockVetoCheck s).funcs = s.funcs := by
  unfold clockVetoCheck; dsimp only; split <;> simp
@[simp] theorem clockVetoCheck_mbs (s : State) : (clockVetoCheck s).mbs = s.mbs := by
  unfold clockVetoCheck; dsimp only; split <;> simp

/-- A function whose fault is cleared is STOPPED, and no command is answered. -/
theorem clearGo_state {f : Nat} {s : State} (h : Unawaited s) (hlen : s.funcs.length = 27) (hf : f ∈ fnIds) :
    fnState (clearGo f s) f = .stopped ∧ (clearGo f s).mbs = s.mbs := by
  have hset (u : State) (hu : u.funcs = s.funcs) : fnState (fnSet f .stopped 0 u) f = .stopped :=
    fnState_fnSet (by rw [hu, hlen]) hf ..
  unfold clearGo
  split_ifs with hst hl hp hlow
  · subst hst
    refine ⟨?_, by simp [stageClear]⟩
    rw [fnState_congr (clockVetoCheck_funcs _), stageClear, fnState_congr (vetoRelease_funcs ..), fnState_congr (vetoRelease_funcs ..)]
    exact hset _ rfl
  · exact ⟨hset _ rfl, fnSet_mbs ..⟩
  · subst hp
    have hu : (fnSet fPAIR .stopped 0 (claimRelease fPAIR s)).mbs = s.mbs := by simp
    obtain ⟨hothers, hmbs, -⟩ := giveUp_keeps (unawaited_of_mbs h hu) .standby
    exact ⟨(hothers fPAIR (by decide) (by decide)).trans (hset _ rfl), hmbs.trans hu⟩
  · exact ⟨hset _ rfl, fnSet_mbs ..⟩
  · rw [fnState_congr (clockVetoCheck_funcs _), clockVetoCheck_mbs]
    exact ⟨(fnState_congr (vetoRelease_funcs ..) f).trans (hset s rfl), by simp⟩
  · rw [fnState_congr (clockVetoCheck_funcs _), clockVetoCheck_mbs]
    exact ⟨hset s rfl, fnSet_mbs ..⟩

/-- The state in which FUNC_CLEAR decides: a failed test has written its record (R578). -/
def clearSeen (f : Nat) (x : TestResult) (s : State) : State :=
  match clearTest s f with
  | some i => testRecord i x s
  | none => s

theorem clearSeen_keeps (f : Nat) (x : TestResult) (s : State) : Served s (clearSeen f x s) ∧ (clearSeen f x s).mbs = s.mbs := by
  unfold clearSeen
  split
  · exact ⟨testRecord_served .., testRecord_mbs ..⟩
  · exact ⟨served_refl s, rfl⟩

/-- Settles O16: the condition of the fault decides, and the doorbell does not touch it. -/
theorem funcClearEndsAFault : Obligations.FuncClearEndsAFault := by
  unfold Obligations.FuncClearEndsAFault
  intro r test s hs hsound hh
  have hrung := served_rung 0x0107 (fcCmd 0x0107 r).acts r s
  obtain ⟨-, -, -, hlen, -⟩ := hsound
  obtain ⟨-, -, hid, -⟩ := id hh
  set u := clearSeen (fcId r) (clearEnd s (fcId r) test) (rung 0x0107 (fcCmd 0x0107 r).acts r s) with hu
  obtain ⟨hserved, hmbs⟩ := clearSeen_keeps (fcId r) (clearEnd s (fcId r) test) (rung 0x0107 (fcCmd 0x0107 r).acts r s)
  rw [← hu] at hserved hmbs
  have hseen := condGone_served (hrung.trans hserved) (fcId r) (clearEnd s (fcId r) test)
  refine ⟨fun hst hgone => ?_, fun hst hgone => ?_, fun hst => ?_⟩
  · rw [exec_funcClear, execFuncClear]
    obtain ⟨hstate, hmbs'⟩ := clearGo_state (f := fcId r) (s := u)
      (unawaited_of_mbs (unawaited_rung hs 0x0107 (fcCmd 0x0107 r).acts r) hmbs) (by rw [(hrung.trans hserved).funcs, hlen]) hid
    refine mailbox_ends hs (taken_function hh 0x0107) ((fcBody_of_header hh _ _).trans ?_) (hmbs'.trans hmbs) fun t hans hserved' =>
      ⟨hans, by rw [hserved'.fnState, hstate]⟩
    simp only [fcCmd_op, fnFaulted, fnState_rung, hst, clearEnd_served hrung]
    change (if condGone u (fcId r) (clearEnd s (fcId r) test) = true then _ else _) = _
    rw [hseen, hgone]
    rfl
  · rw [exec_funcClear, execFuncClear]
    refine mailbox_ends hs (taken_function hh 0x0107) ((fcBody_of_header hh _ _).trans ?_) hmbs fun t hans hserved' =>
      ⟨hans, by rw [hserved'.funcs, (hrung.trans hserved).funcs]⟩
    simp only [fcCmd_op, fnFaulted, fnState_rung, hst, clearEnd_served hrung]
    change (if condGone u (fcId r) (clearEnd s (fcId r) test) = true then _ else _) = _
    rw [hseen, hgone]
    rfl
  · rw [Refuses, exec_funcClear, execFuncClear]
    exact function_asks hs hh (by simp only [fnFaulted, fnState_rung, hst, decide_false]; rfl)

end Sys2Proof.Machine
end

section
/-! PROOFS. The commands of the clocks (R81 to R84, R60, R66, R67). -/

namespace Sys2Proof.Machine

/-! ### Completions and frames -/

/-- An event that answers a command in progress completes it (R96). -/
theorem completed_complete {s b : State} {n : Nat} (h : Busy s n) (hb : b.mbs = s.mbs) (c : Code) (d : Nat) (w : List Word) :
    Completed s (complete n c d w b) n c d w := by
  obtain ⟨m, hm, hbusy⟩ := h
  obtain ⟨p, hp⟩ := Option.isSome_iff_exists.1 hbusy
  have hg : b.mbs.getD n {} = m := by rw [hb, List.getD_eq_getElem?_getD, hm]; rfl
  have hn : n < b.mbs.length := by rw [hb]; exact (List.getElem?_eq_some_iff.1 hm).1
  unfold complete Completed
  simp only [hg, hp]
  split
  · refine ⟨m, p, _, hm, hp, by rw [msixDue_mbs]; exact List.getElem?_set_self hn, rfl, rfl, rfl, rfl, rfl, rfl⟩
  · exact ⟨m, p, _, hm, hp, List.getElem?_set_self hn, rfl, rfl, rfl, rfl, rfl, rfl⟩

/-! ### STROKE_CONFIG and CLOCK_GATE -/

theorem allQuiet_rung {s : State} (h : ∀ f ∈ s.funcs, f.state = .off ∨ f.state = .stopped) (o : Nat) (a : List Nat) (r : Req) :
    allQuiet (rung o a r s) = true := by
  rw [allQuiet, rung_funcs, List.all_eq_true]
  exact fun f hf => decide_eq_true (h f hf)

theorem strokeConfig_does {r : Req} {s : State} (hs : Ready s) (hh : High r 2) (hq : ∀ f ∈ s.funcs, f.state = .off ∨ f.state = .stopped)
    (h20 : fld (r.w 2) 20 12 = 0) (h6 : fld (r.w 3) 6 26 = 0) (hlo : 1000 ≤ fld (r.w 2) 0 20) (hhi : fld (r.w 2) 0 20 ≤ 1000000)
    (hl1 : 1 ≤ fld (r.w 3) 0 6) (hl32 : fld (r.w 3) 0 6 ≤ 32) (hmod : fld (r.w 2) 0 20 % fld (r.w 3) 0 6 = 0)
    (hdiv : 100 ≤ fld (r.w 2) 0 20 / fld (r.w 3) 0 6) :
    Does (.strokeConfig r) r s { s with clk := { s.clk with nextDivs := some (fld (r.w 2) 0 20, fld (r.w 3) 0 6) } } [] := by
  have hok : strokeConfigBad (rung 0x0202 [] r s) r = none := by
    have hsd : ¬ (fld (r.w 2) 0 20 < 1000 ∨ 1000000 < fld (r.w 2) 0 20) := by omega
    have hld : ¬ (fld (r.w 3) 0 6 < 1 ∨ 32 < fld (r.w 3) 0 6) := by omega
    simp only [strokeConfigBad, allQuiet_rung hq, rangeBad, firstBad, divsJoint, h20, h6, hsd, hld, hmod, hdiv]
    rfl
  rw [Does, exec_strokeConfig, execStrokeConfig]
  refine mailbox_ends hs (taken_high hh rfl rfl rfl (by decide)) (guardE_none hok) rfl fun t hans hserved =>
    ⟨hans, Served.trans ((served_rung ..).set_clk (by simp only [rung_clk])) hserved⟩

theorem gateConflict_rung (o : Nat) (a : List Nat) (r : Req) (s : State) (w : Word) : gateConflict (rung o a r s) w = gateConflict s w := by
  obtain ⟨_, _, _, _, _, _, _, _, _, _, h⟩ := rung_parts o a r s
  rw [h]
  rfl

theorem clockGate_does {r : Req} {s : State} (hs : Ready s) (hh : High r 1) (h21 : fld (r.w 2) 21 11 = 0)
    (hfree : gateConflict s (r.w 2) = none) :
    Does (.clockGate r) r s { s with clk := { s.clk with gate := r.w 2 } } [r.w 2] := by
  have hok : clockGateBad (rung 0x0205 [] r s) r = none := by
    simp [clockGateBad, gateConflict_rung, hfree, rangeBad, firstBad, firstErr, h21]
  rw [Does, exec_clockGate, execClockGate]
  refine mailbox_ends hs (taken_high hh rfl rfl rfl (by decide)) (guardE_none hok) rfl fun t hans hserved =>
    ⟨hans, Served.trans ((served_rung ..).set_clk (by simp only [rung_clk])) hserved⟩

theorem clockGate_conflict {r : Req} {s : State} {owner b : Nat} (hs : Ready s) (hh : High r 1) (h21 : fld (r.w 2) 21 11 = 0)
    (hheld : gateConflict s (r.w 2) = some (owner, b)) :
    ∃ t, exec (.clockGate r) s = .next t ∧ Answered t r .conflict owner [w32 (0x100 + b)] ∧ Served s t := by
  have hbad : clockGateBad (rung 0x0205 [] r s) r = some (conflictR owner (0x100 + b)) := by
    simp [clockGateBad, gateConflict_rung, hheld, rangeBad, firstBad, firstErr, h21]
  rw [exec_clockGate, execClockGate]
  exact mailbox_same hs (taken_high hh rfl rfl rfl (by decide)) (guardE_some hbad)

/-! ### CLOCK_CONFIG -/

/-- The ratios that CLOCK_CONFIG names are the targets of the dividers of sramA, sramB and noc (R82), and of no other. -/
theorem ratiosApply_domains (s : State) (d : Nat) :
    (ratiosApply s).clk.domains[d]? = (s.clk.domains[d]?).map fun x =>
      if d = 6 ∨ d = 7 ∨ d = 8 then { x with target := if x.switching then x.target else domBase (ratiosApply s) d, rawDiv := none }
      else x := by
  simp only [ratiosApply, measureBlur, List.getElem?_modify]
  cases s.clk.domains[d]? with
  | none => rfl
  | some x =>
    by_cases h6 : d = 6
    · subst h6; rfl
    · by_cases h7 : d = 7
      · subst h7; rfl
      · by_cases h8 : d = 8
        · subst h8; rfl
        · simp [h6, h7, h8, Ne.symm h6, Ne.symm h7, Ne.symm h8]

/-- The clocks as CLOCK_CONFIG names them, before the dividers have their targets. -/
def clockNamed (r : Req) (s : State) : State :=
  { s with clk := { s.clk with
    prefB := bit (r.w 2) 8, halfB := bit (r.w 2) 5, halfA := bit (r.w 2) 4, nocSel := fld (r.w 2) 0 2, sscPpm := fld (r.w 3) 0 13 } }

/-- The state that CLOCK_CONFIG leaves. -/
def clockSet (r : Req) (s : State) : State :=
  { ratiosApply (clockNamed r s) with clk := { (ratiosApply (clockNamed r s)).clk with
    spreadSeen := (ratiosApply (clockNamed r s)).clk.spreadSeen || spreadNow (ratiosApply (clockNamed r s)) } }

theorem execClockConfig_eq (r : Req) : execClockConfig r =
    mailbox { op := 0x0203, onMb := mbHigh, lenOk := (· = 2) } r fun s => guardE (clockConfigBad s r) s fun s =>
      (clockSet r s, if ratiosDone (clockSet r s) then okR [] else .later .ratios) := rfl

theorem clockSet_clk {r : Req} {s u : State} (h : u.clk = s.clk) :
    (clockSet r u).clk = { s.clk with
      prefB := bit (r.w 2) 8, halfB := bit (r.w 2) 5, halfA := bit (r.w 2) 4, nocSel := fld (r.w 2) 0 2, sscPpm := fld (r.w 3) 0 13,
      measure := s.clk.measure.map fun m => { m with ratio := none },
      spreadSeen := s.clk.spreadSeen || (decide (fld (r.w 3) 0 13 ≠ 0) && decide (s.clk.refSrc = some .refclk)),
      domains := (clockSet r u).clk.domains } := by
  rw [← h]
  rfl

theorem clockSet_domains (r : Req) (s : State) (d : Nat) :
    (clockSet r s).clk.domains[d]? = (s.clk.domains[d]?).map fun x =>
      if d = 6 ∨ d = 7 ∨ d = 8 then { x with target := if x.switching then x.target else domBase (clockSet r s) d, rawDiv := none }
      else x := ratiosApply_domains (clockNamed r s) d

theorem clockConfig_sets {r : Req} {s : State} (hs : Ready s) (hh : High r 2) (hq : ∀ f ∈ s.funcs, f.state = .off ∨ f.state = .stopped)
    (hres : r.w 2 &&& 0xFFFFFECC = 0) (hnoc : fld (r.w 2) 0 2 ≠ 3) (h13 : fld (r.w 3) 13 19 = 0) (hssc : fld (r.w 3) 0 13 ≤ 5000)
    (hboost : fld (r.w 2) 0 2 = 1 → boostSet s = false)
    (hrole : fld (r.w 3) 0 13 ≠ 0 → s.clerk.ropeRole ≠ 1 ∧ s.clerk.ropeRole ≠ 2) :
    ∃ t, exec (.clockConfig r) s = .next t ∧ (ratiosDone t = true → Answered t r .ok 0 []) ∧
      (ratiosDone t = false → Waits t r .ratios) ∧ Served { s with clk := t.clk } t ∧
      t.clk = { s.clk with
        prefB := bit (r.w 2) 8, halfB := bit (r.w 2) 5, halfA := bit (r.w 2) 4, nocSel := fld (r.w 2) 0 2,
        sscPpm := fld (r.w 3) 0 13, measure := s.clk.measure.map fun m => { m with ratio := none },
        spreadSeen := s.clk.spreadSeen || (decide (fld (r.w 3) 0 13 ≠ 0) && decide (s.clk.refSrc = some .refclk)),
        domains := t.clk.domains } ∧
      ∀ d : Nat, t.clk.domains[d]? = (s.clk.domains[d]?).map fun x =>
        if d = 6 ∨ d = 7 ∨ d = 8 then { x with target := if x.switching then x.target else domBase t d, rawDiv := none }
        else x := by
  have hok : clockConfigBad (rung 0x0203 [] r s) r = none := by
    have hb : boostSet (rung 0x0203 [] r s) = boostSet s := by rw [boostSet, rung_therm, boostSet]
    have h3 : (decide (fld (r.w 2) 0 2 = 1) && boostSet s) = false := by
      by_cases h1 : fld (r.w 2) 0 2 = 1
      · rw [hboost h1, Bool.and_false]
      · simp [h1]
    have h4 : ¬ (fld (r.w 3) 0 13 ≠ 0 ∧ (s.clerk.ropeRole = 1 ∨ s.clerk.ropeRole = 2)) := by
      rintro ⟨h0, h1 | h2⟩
      · exact (hrole h0).1 h1
      · exact (hrole h0).2 h2
    simp only [clockConfigBad, allQuiet_rung hq, rangeBad, firstBad, hb, h3, hres, hnoc, h13, Nat.not_lt.2 hssc, rung_clerk_ropeRole,
      if_neg h4]
    rfl
  rw [exec_clockConfig, execClockConfig_eq]
  set b := clockSet r (rung 0x0203 [] r s) with hb
  have hend (t : State) (ht : Served b t) : Served { s with clk := t.clk } t ∧
      t.clk = { s.clk with
        prefB := bit (r.w 2) 8, halfB := bit (r.w 2) 5, halfA := bit (r.w 2) 4, nocSel := fld (r.w 2) 0 2,
        sscPpm := fld (r.w 3) 0 13, measure := s.clk.measure.map fun m => { m with ratio := none },
        spreadSeen := s.clk.spreadSeen || (decide (fld (r.w 3) 0 13 ≠ 0) && decide (s.clk.refSrc = some .refclk)),
        domains := t.clk.domains } ∧
      ∀ d : Nat, t.clk.domains[d]? = (s.clk.domains[d]?).map fun x =>
        if d = 6 ∨ d = 7 ∨ d = 8 then { x with target := if x.switching then x.target else domBase t d, rawDiv := none }
        else x := by
    refine ⟨?_, ?_, fun d => ?_⟩
    · have hframe : b = { rung 0x0203 [] r s with clk := b.clk } := rfl
      rw [hframe] at ht
      exact ((served_rung 0x0203 [] r s).set_clk ht.clk.symm).trans ht
    · rw [ht.clk]
      exact clockSet_clk (rung_clk ..)
    · have hbase : domBase t d = domBase b d := by rw [domBase, ht.clk, domBase]
      rw [ht.clk, hbase, hb, clockSet_domains, rung_clk]
  have hdone (t : State) (ht : Served b t) : ratiosDone t = ratiosDone b := by rw [ratiosDone, ht.clk, ratiosDone]
  by_cases hd : ratiosDone b = true
  · refine mailbox_ends hs (taken_high hh rfl rfl rfl (by decide)) ((guardE_none hok).trans (congrArg (Prod.mk b) (if_pos hd))) rfl
      fun t hans ht => ⟨fun _ => hans, fun hf => ?_, hend t ht⟩
    rw [hdone t ht, hd] at hf
    exact absurd hf (by decide)
  · refine mailbox_goes_on hs (taken_high hh rfl rfl rfl (by decide)) ((guardE_none hok).trans (congrArg (Prod.mk b) (if_neg hd))) rfl
      fun t hwaits ht => ⟨fun hf => ?_, fun _ => hwaits, hend t ht⟩
    rw [hdone t ht] at hf
    exact absurd hf hd

/-! ### CLOCK_MEASURE -/

theorem claimOwner_claimInsert (res owner : Nat) (s : State) :
    claimOwner { s with claims := claimInsert res owner s.claims } res = some owner := by
  simp only [claimOwner]
  induction s.claims with
  | nil => simp [claimInsert]
  | cons c l ih =>
    unfold claimInsert
    split_ifs with hlt heq
    · simp
    · simp
    · simpa [List.find?_cons, Ne.symm heq] using ih

theorem measure_rung (o : Nat) (a : List Nat) (r : Req) (s : State) :
    clockRatio (rung o a r s) = clockRatio s ∧ inputDead (rung o a r s) = inputDead s := by
  obtain ⟨_, _, _, _, _, _, _, _, _, _, h⟩ := rung_parts o a r s
  rw [h]
  exact ⟨rfl, rfl⟩

theorem clockMeasure_waits {r : Req} {s : State} (hs : Ready s) (hh : High r 1) (hres : r.w 2 &&& 0xFFE0E0E0 = 0)
    (hk : 8 ≤ fld (r.w 2) 16 5) (hk' : fld (r.w 2) 16 5 ≤ 24) (hg : fld (r.w 2) 8 5 ≤ 21) (hi : fld (r.w 2) 0 5 ≤ 21)
    (hm : s.clk.measure = none) (hgate : gateOn s 8 = true) (hfree : claimOwner s 0x210 = none) :
    let g := fld (r.w 2) 8 5
    let i := fld (r.w 2) 0 5
    let m : Measure := { mb := r.mb.val, k := fld (r.w 2) 16 5, gateIn := g, measIn := i, ratio := clockRatio s g i,
                         gateDead := inputDead s g, measDead := inputDead s i }
    ∃ t, exec (.clockMeasure r) s = .next t ∧ Waits t r .measure ∧ claimOwner t 0x210 = some 0x38 ∧
      t.clk = { s.clk with measure := some m } := by
  intro g i m
  obtain ⟨hratio, hdead⟩ := measure_rung 0x0204 [] r s
  have hok : clockMeasureBad (rung 0x0204 [] r s) r = none := by
    have h1 : ¬ (fld (r.w 2) 16 5 < 8 ∨ 24 < fld (r.w 2) 16 5) := by omega
    have hconf : claimConflict (rung 0x0204 [] r s) oMeasure [rFreqCounter] = none := by
      rw [claimConflict_claims (rung_claims ..), claimConflict, rFreqCounter, hfree, claimConflict]
    have hon : gateOn (rung 0x0204 [] r s) 8 = true := by rw [gateOn, rung_clk]; exact hgate
    simp only [clockMeasureBad, rangeBad, firstBad, hres, h1, Nat.not_lt.2 hg, Nat.not_lt.2 hi, rung_clk, hm, hconf, hon]
    rfl
  rw [exec_clockMeasure, execClockMeasure]
  refine mailbox_goes_on hs (taken_high hh rfl rfl rfl (by decide)) (guardE_none hok) rfl fun t hwaits ht =>
    ⟨hwaits, ?_, ?_⟩
  · rw [claimOwner, ht.claims]
    exact claimOwner_claimInsert 0x210 0x38 (rung 0x0204 [] r s)
  · rw [ht.clk]
    have hr' : clockRatio (claimAll oMeasure [rFreqCounter] (rung 0x0204 [] r s)) g i = clockRatio s g i := by rw [← hratio]; rfl
    have hd' : inputDead (claimAll oMeasure [rFreqCounter] (rung 0x0204 [] r s)) = inputDead s := by rw [← hdead]; rfl
    simp only [claimAll_clk, rung_clk, hr', hd', m, g, i]

/-- A count within one of the exact ratio (R67). -/
theorem countNear_bounds {x : Rat} (hx : 0 ≤ x) (k count : Nat) :
    x * (2 ^ k : Nat) - 1 ≤ (countNear x k count : Rat) ∧ (countNear x k count : Rat) ≤ x * (2 ^ k : Nat) + 1 := by
  set y := x * (2 ^ k : Nat) with hy
  have hy0 : 0 ≤ y := mul_nonneg hx (Nat.cast_nonneg _)
  have hcast (z : Int) (hz : 0 ≤ z) : ((z.toNat : Nat) : Rat) = z := by
    rw [← Int.cast_natCast, Int.toNat_of_nonneg hz]
  have hfloor : (((y + 1).floor.toNat : Nat) : Rat) ≤ y + 1 := by
    rw [hcast _ (Rat.le_floor_iff.2 (by rw [Int.cast_zero]; linarith))]
    exact Rat.floor_le _
  have hceil : y - 1 ≤ (((y - 1).ceil.toNat : Nat) : Rat) := by
    calc y - 1 ≤ ((y - 1).ceil : Rat) := Rat.le_ceil
      _ ≤ (((y - 1).ceil.toNat : Nat) : Rat) := by exact_mod_cast Int.self_le_toNat _
  have hle : (y - 1).ceil.toNat ≤ (y + 1).floor.toNat := by
    refine Int.toNat_le_toNat (Rat.ceil_le_iff.2 ?_)
    have hlt := Rat.lt_floor (x := y + 1)
    linarith
  simp only [countNear, ← hy]
  constructor
  · exact hceil.trans (by exact_mod_cast le_max_left _ _)
  · refine le_trans ?_ hfloor
    exact_mod_cast max_le hle (min_le_left _ _)

/-- The edges that a measurement returns. -/
def measured (m : Measure) (count : Nat) : Nat :=
  match m.ratio with
  | some x => countNear x m.k count
  | none => count

theorem measureAnswer_of_edges {s : State} {m : Measure} (hgate : gateOn s 8 = true) (hg : inputDead s m.gateIn = false)
    (hi : inputDead s m.measIn = false) (count : Nat) :
    measureAnswer s m count false false = (.ok, [w32 (measured m count), 0]) := by
  simp only [measureAnswer, hgate, hg, hi, Bool.and_false, Bool.or_false, Bool.false_and, measured]
  rfl

/-- A measurement whose clocks show edges returns its count and frees the counter. -/
theorem clockMeasure_completes {s : State} {m : Measure} {count : Nat} (hm : s.clk.measure = some m) (hbusy : Busy s m.mb)
    (hgate : gateOn s 8 = true) (hg : inputDead s m.gateIn = false) (hi : inputDead s m.measIn = false) :
    ∃ t n, exec (.clockMeasureComplete count false false) s = .next t ∧ Completed s t m.mb .ok 0 [w32 n, 0] ∧
      (m.ratio = none → n = count) ∧
      (∀ x : Rat, m.ratio = some x → 0 ≤ x → x * (2 ^ m.k : Nat) - 1 ≤ (n : Rat) ∧ (n : Rat) ≤ x * (2 ^ m.k : Nat) + 1) ∧
      t.clk = { s.clk with measure := none } ∧ t.claims = s.claims.filter fun c => c.2 ≠ 0x38 := by
  refine ⟨complete m.mb .ok 0 [w32 (measured m count), 0] (claimRelease oMeasure { s with clk := { s.clk with measure := none } }),
    measured m count, ?_, completed_complete hbusy (by rfl) .., fun h => ?_, fun x h hx => ?_, complete_clk .., complete_claims ..⟩
  · simp only [exec_clockMeasureComplete, execClockMeasureComplete, hm, measureAnswer_of_edges hgate hg hi]
  · simp only [measured, h]
  · simp only [measured, h]
    exact countNear_bounds hx m.k count

/-- Settles O17: each command by its own lemma, and the count of a measurement by the bounds of `countNear`. -/
theorem clockCommands : Obligations.ClockCommands := by
  unfold Obligations.ClockCommands
  refine ⟨⟨fun r s hs hh hq h20 h6 hlo hhi hl1 hl32 hmod hdiv => strokeConfig_does hs hh hq h20 h6 hlo hhi hl1 hl32 hmod hdiv,
      fun r s hs => ⟨fun hh hq hres hnoc h13 hssc hboost hrole => clockConfig_sets hs hh hq hres hnoc h13 hssc hboost hrole,
        fun hh h21 hfree => clockGate_does hs hh h21 hfree, fun owner b hh h21 hheld => clockGate_conflict hs hh h21 hheld⟩⟩,
    fun r s hs hh hres hk hk' hg hi hm hgate hfree => clockMeasure_waits hs hh hres hk hk' hg hi hm hgate hfree,
    fun count m s hm hbusy hgate hg hi => ?_⟩
  exact clockMeasure_completes hm hbusy hgate hg hi

end Sys2Proof.Machine
end

section
/-! PROOFS. Writes of BAR0 and the vectors of MSI-X (R87, R93, R110). -/

namespace Sys2Proof.Machine

/-- R87: a write that does not cover a whole aligned word is counted, and nothing else. -/
theorem registerWrite_drops {s : State} (h : hostReaches s = true) {off : BitVec 32} {whole : Bool}
    (hw : whole = false ∨ off.toNat % 4 ≠ 0) (v : Word) :
    exec (.registerWrite .bar0 off v whole) s = .next { s with diag := { s.diag with host := bump s.diag.host 0 1 } } := by
  obtain ⟨hc, hd⟩ := configReaches_of_hostReaches h
  rw [exec_registerWrite, execRegisterWrite]
  have hbad : (!whole || decide (off.toNat % 4 ≠ 0)) = true := by simpa using hw
  simp only [hc, hd, hbad, Bool.not_true, Bool.false_and, Bool.or_self, Bool.false_eq_true, if_false, if_true]

/-- R93: the register of mailbox `n` at 0x804 is its TAG. -/
theorem bar0Write_tag (n : Fin 4) (v : Word) (s : State) :
    bar0Write (0x804 + 0x20 * n.val) v s = { s with mbs := s.mbs.set n.val { s.mbs.getD n.val {} with tag := v } } := by
  have hn := n.isLt
  have hdiv : (0x804 + 0x20 * n.val - 0x800) / 0x20 = n.val := by omega
  have hmod : (0x804 + 0x20 * n.val) % 0x20 = 4 := by omega
  rw [bar0Write, if_neg (by omega), if_neg (by omega), if_pos (by omega), hdiv, hmod]
  rfl

theorem registerWrite_tag {s : State} (h : hostReaches s = true) (n : Fin 4) (v : Word) :
    ∃ t, exec (.registerWrite .bar0 (BitVec.ofNat 32 (0x804 + 0x20 * n.val)) v true) s = .next t ∧
      t = { s with mbs := t.mbs } ∧ t.mbs[n.val]? = (s.mbs[n.val]?).map (fun m => { m with tag := v }) ∧
      ∀ k : Nat, k ≠ n.val → t.mbs[k]? = s.mbs[k]? := by
  have hn := n.isLt
  have hoff : (BitVec.ofNat 32 (0x804 + 0x20 * n.val)).toNat = 0x804 + 0x20 * n.val := by
    rw [BitVec.toNat_ofNat, Nat.mod_eq_of_lt (by omega)]
  refine ⟨{ s with mbs := s.mbs.set n.val { s.mbs.getD n.val {} with tag := v } }, ?_, rfl, ?_, fun k hk => List.getElem?_set_ne hk.symm⟩
  · rw [exec_registerWrite_bar0 h (by rw [hoff]; omega), hoff, registerWrite, if_neg (by omega), bar0Write_tag]
  · rw [List.getElem?_set_self', List.getD_eq_getElem?_getD]
    cases s.mbs[n.val]? <;> rfl

theorem msixTableWrite_unmask (v : Fin 32) (s : State) :
    msixTableWrite (4 * v.val + 3) 0 s = msixFlush v.val { s with msix := { s.msix with table := s.msix.table.set (4 * v.val + 3) 0 } } := by
  have hmod : (4 * v.val + 3) % 4 = 3 := by omega
  have hdiv : (4 * v.val + 3) / 4 = v.val := by omega
  simp only [msixTableWrite, hmod, hdiv, if_true]
  rfl

theorem msixFlush_frame (v : Nat) (s : State) :
    msixFlush v s = { s with msix := (msixFlush v s).msix } ∧ (msixFlush v s).msix.table = s.msix.table := by
  unfold msixFlush
  split <;> exact ⟨rfl, rfl⟩

theorem getLsbD_setBit_false {n : Nat} (v : BitVec n) (i : Nat) : (setBit v i false).getLsbD i = false := by
  rw [setBit, if_neg Bool.false_ne_true]
  by_cases hi : i < n <;> simp [hi]

/-- A vector that is enabled and not masked sends its pending message, and none is pending then. -/
theorem msixFlush_sends {v : Nat} {s : State} (he : s.msix.enable = true) (hm : vecMasked s v = false) (hp : s.msix.pba.getLsbD v = true)
    (hv : v < s.msix.sent.length) :
    (msixFlush v s).msix.sent = s.msix.sent.set v (s.msix.sent.getD v 0 + 1) ∧ (msixFlush v s).msix.pba.getLsbD v = false := by
  rw [msixFlush, if_pos (by simp [he, hm, hp])]
  refine ⟨?_, getLsbD_setBit_false _ _⟩
  simp only [vecSend]
  rw [List.modify_eq_set_getElem?, List.getD_eq_getElem?_getD, List.getElem?_eq_getElem hv]
  rfl

/-- R110: clearing the mask of a vector writes its entry of the table; its pending message is sent, once. -/
theorem msixUnmask_sends {s : State} (h : hostReaches s = true) (v : Fin 32) :
    ∃ t, exec (.msixUnmask (some v)) s = .next t ∧ t = { s with msix := t.msix } ∧
      t.msix.table = s.msix.table.set (4 * v.val + 3) 0 ∧
      (s.msix.enable = true → s.msix.funMask = false → s.msix.pba.getLsbD v.val = true → v.val < s.msix.sent.length →
        4 * v.val + 3 < s.msix.table.length →
        t.msix.sent = s.msix.sent.set v.val (s.msix.sent.getD v.val 0 + 1) ∧ t.msix.pba.getLsbD v.val = false) := by
  obtain ⟨hframe, htable⟩ := msixFlush_frame v.val { s with msix := { s.msix with table := s.msix.table.set (4 * v.val + 3) 0 } }
  refine ⟨_, ?_, hframe, htable, fun he hf hp hv ht => ?_⟩
  · rw [exec_msixUnmask, execMsixUnmask, h]
    exact congrArg Host.Outcome.next (msixTableWrite_unmask v s)
  · refine msixFlush_sends (s := { s with msix := { s.msix with table := s.msix.table.set (4 * v.val + 3) 0 } }) he ?_ hp hv
    simp [vecMasked, hf, List.getD_eq_getElem?_getD, ht, bit]

/-- Settles O19: one lemma for each kind of write. -/
theorem registerWritesAndUnmask : Obligations.RegisterWritesAndUnmask := by
  unfold Obligations.RegisterWritesAndUnmask
  exact fun s h => ⟨fun off v whole hw => registerWrite_drops h hw v, registerWrite_tag h, msixUnmask_sends h⟩

end Sys2Proof.Machine
end

section
/-! PROOFS. The rings of the pumps: what a ring's own operations change (R148 to R154). -/

namespace Sys2Proof.Machine

/-! ### One ring -/

theorem pumpOf_pumpPut {p : Nat} {s : State} (hp : p < s.pumps.length) (v : Pump) : pumpOf (pumpPut p v s) p = v := by
  simp [pumpOf, pumpPut, List.getD_eq_getElem?_getD, hp]

theorem pumpOf_congr {s t : State} (h : s.pumps = t.pumps) (p : Nat) : pumpOf s p = pumpOf t p := by rw [pumpOf, h, pumpOf]

@[simp] theorem pumpPut_pumps (p : Nat) (v : Pump) (s : State) : (pumpPut p v s).pumps = s.pumps.set p v := rfl
@[simp] theorem pumpPut_claims (p : Nat) (v : Pump) (s : State) : (pumpPut p v s).claims = s.claims := rfl
@[simp] theorem pumpPut_funcs (p : Nat) (v : Pump) (s : State) : (pumpPut p v s).funcs = s.funcs := rfl
@[simp] theorem pumpPut_mbs (p : Nat) (v : Pump) (s : State) : (pumpPut p v s).mbs = s.mbs := rfl
@[simp] theorem pumpPut_link (p : Nat) (v : Pump) (s : State) : (pumpPut p v s).link = s.link := rfl
@[simp] theorem pumpPut_mem (p : Nat) (v : Pump) (s : State) : (pumpPut p v s).mem = s.mem := rfl

/-! ### Data that a ring's descriptors move -/

/-- From `s` to `t` descriptors of ring `p` have moved data: memory, the traffic counters, the ring's byte count and the marks of its
descriptors in progress have changed, and nothing else. -/
structure PumpMoved (p : Nat) (s t : State) : Prop where
  frame : t = { s with pumps := t.pumps, mem := t.mem, diag := { s.diag with perf := t.diag.perf }, free := t.free }
  length : t.pumps.length = s.pumps.length
  ring : pumpOf t p = { pumpOf s p with bytes := (pumpOf t p).bytes, inProg := (pumpOf t p).inProg }

namespace PumpMoved

variable {p : Nat} {s t u : State}

theorem refl (p : Nat) (s : State) : PumpMoved p s s := ⟨rfl, rfl, rfl⟩

theorem trans (h : PumpMoved p s t) (k : PumpMoved p t u) : PumpMoved p s u := by
  refine ⟨k.frame.trans (by rw [h.frame]), k.length.trans h.length, k.ring.trans (by rw [h.ring])⟩

/-- Memory, counters and free values are no part of a ring. -/
theorem of_pumps (hf : t = { s with mem := t.mem, diag := { s.diag with perf := t.diag.perf }, free := t.free }) : PumpMoved p s t := by
  have hp : t.pumps = s.pumps := by rw [hf]
  refine ⟨hf.trans (by rw [hp]), by rw [hp], ?_⟩
  rw [pumpOf_congr hp]

theorem of_put (hp : p < s.pumps.length) (b : BitVec 64) (l : List PumpDesc) :
    PumpMoved p s (pumpPut p { pumpOf s p with bytes := b, inProg := l } s) :=
  ⟨rfl, List.length_set, by rw [pumpOf_pumpPut hp]⟩

theorem claims (h : PumpMoved p s t) : t.claims = s.claims := congrArg (·.claims) h.frame
theorem funcs (h : PumpMoved p s t) : t.funcs = s.funcs := congrArg (·.funcs) h.frame
theorem mbs (h : PumpMoved p s t) : t.mbs = s.mbs := congrArg (·.mbs) h.frame

end PumpMoved

theorem openWrite_moved (p a : Nat) (bs : List Byte) (s : State) : PumpMoved p s (openWrite a bs s) := by
  unfold openWrite
  dsimp only
  split <;> exact .of_pumps rfl

theorem perfAdd_moved (p i n : Nat) (s : State) : PumpMoved p s (perfAdd i n s) := .of_pumps rfl

theorem readCount_moved (p a n : Nat) (s : State) : PumpMoved p s (readCount a n s) := by
  unfold readCount
  split
  · exact perfAdd_moved ..
  · exact .refl ..

theorem pumpStore_moved {p : Nat} {s : State} (hp : p < s.pumps.length) (d : PumpDesc) (bs : List Byte) :
    PumpMoved p s (pumpStore p d bs s) := by
  unfold pumpStore
  extract_lets v a others mark clash s1 bs' s2
  have h1 : PumpMoved p s s1 := .of_put hp v.bytes _
  have h2 : PumpMoved p s1 s2 := .of_pumps rfl
  refine h1.trans (h2.trans ?_)
  split
  · exact .of_pumps rfl
  · exact (openWrite_moved ..).trans (perfAdd_moved ..)

theorem pumpMove_moved {p : Nat} {s : State} (hp : p < s.pumps.length) (d : PumpDesc) (n : Nat) (data : List Word) :
    PumpMoved p s (pumpMove p d n data s) := by
  unfold pumpMove
  extract_lets ws v a s1
  have h1 : PumpMoved p s s1 := .of_put hp _ v.inProg
  have hp1 : p < s1.pumps.length := by rw [h1.length]; exact hp
  split_ifs
  · exact h1.trans ((pumpStore_moved hp1 ..).trans (perfAdd_moved ..))
  · exact h1.trans ((pumpStore_moved hp1 ..).trans (readCount_moved ..))
  · exact h1.trans (pumpStore_moved hp1 ..)
  · have hv : v = { pumpOf s1 p with bytes := v.bytes, inProg := v.inProg } := by rw [pumpOf_pumpPut hp]
    rw [hv]
    exact h1.trans (.of_put hp1 ..)

theorem pumpPart_moved {p : Nat} {s : State} (hp : p < s.pumps.length) (d : PumpDesc) (n : Nat) : PumpMoved p s (pumpPart p d n s) :=
  .trans (.of_pumps rfl) (pumpMove_moved (s := { s with free := s.free + pumpClean p d n s / 4 }) hp ..)

theorem pumpCutOne_moved {p : Nat} {s : State} (hp : p < s.pumps.length) (unit : Nat) (d : PumpDesc) :
    PumpMoved p s (pumpCutOne unit p d s) := by
  unfold pumpCutOne
  split
  · exact .refl ..
  · exact .trans (.of_pumps rfl) (pumpPart_moved (s := (takeFree s).1) hp ..)

theorem pumpCutAll_moved {p : Nat} {s : State} (hp : p < s.pumps.length) (unit : Nat) (l : List PumpDesc) :
    PumpMoved p s (l.foldl (fun t d => pumpCutOne unit p d t) s) := by
  induction l generalizing s with
  | nil => exact .refl ..
  | cons d l ih =>
    have h := pumpCutOne_moved hp unit d
    exact h.trans (ih (by rw [h.length]; exact hp))

theorem pumpCut_moved {p : Nat} {s : State} (hp : p < s.pumps.length) : PumpMoved p s (pumpCut p s) := pumpCutAll_moved hp ..
theorem pumpRest_moved {p : Nat} {s : State} (hp : p < s.pumps.length) (n : Nat) : PumpMoved p s (pumpRest p n s) := pumpCutAll_moved hp ..

end Sys2Proof.Machine
end

section
/-! PROOFS. The commands of the pumps (R155 to R159). -/

namespace Sys2Proof.Machine

/-! ### Faults and stops of a ring -/

theorem served_hostWrite (a : Nat) (bs : List Byte) (s : State) : Served s (hostWrite a bs s) := by simp [Served, hostWrite]

/-- A ring that goes FAULTED keeps its CONS (R154). -/
theorem pumpFaultedAt_ring {p : Nat} {s : State} (hp : p < s.pumps.length) (cause : Nat) (k : Word) (moved addr : Nat) :
    pumpOf (pumpFaultedAt p cause k moved addr s) p = { pumpOf s p with
      state := .faulted, faultCause := cause, faults := satAdd 65535 (pumpOf s p).faults 1
      inProg := [], next := (pumpOf s p).cons, draining := false } := by
  unfold pumpFaultedAt
  extract_lets v s1 s2
  have hpumps : (pumpVector p s2).pumps = s1.pumps := by rw [pumpVector, msixDue_pumps, emit_pumps]
  rw [pumpOf_congr (answer_pumps ..), pumpOf_congr hpumps, pumpOf_pumpPut hp]

theorem pumpFaultedAt_mbs {s : State} (hu : Unawaited s) (p cause : Nat) (k : Word) (moved addr : Nat) :
    (pumpFaultedAt p cause k moved addr s).mbs = s.mbs := by
  unfold pumpFaultedAt
  extract_lets v s1 s2
  have hmbs : (pumpVector p s2).mbs = s.mbs := by rw [pumpVector, msixDue_mbs, emit_mbs]; rfl
  rw [answer_unawaited (unawaited_of_mbs hu hmbs) (by intro h; cases h), hmbs]

/-- A ring that goes FAULTED, what its descriptors have moved settled: its cause, and CONS at the faulting one (R154). -/
theorem pumpFaulted_ring {p : Nat} {s : State} (hp : p < s.pumps.length) (cause n : Nat) (k : Word) (moved addr : Nat) :
    (pumpOf (pumpFaulted p cause n k moved addr s) p).state = .faulted ∧
    (pumpOf (pumpFaulted p cause n k moved addr s) p).faultCause = cause ∧
    (pumpOf (pumpFaulted p cause n k moved addr s) p).cons = (pumpOf s p).cons := by
  have h := pumpRest_moved hp n
  rw [pumpFaulted, pumpFaultedAt_ring (by rw [h.length]; exact hp), h.ring]
  exact ⟨rfl, rfl, rfl⟩

theorem pumpFaulted_mbs {p : Nat} {s : State} (hu : Unawaited s) (hp : p < s.pumps.length) (cause n : Nat) (k : Word) (moved addr : Nat) :
    (pumpFaulted p cause n k moved addr s).mbs = s.mbs := by
  have h := pumpRest_moved hp n
  rw [pumpFaulted, pumpFaultedAt_mbs (unawaited_of_mbs hu h.mbs), h.mbs]

theorem cacheTake_frame (a : Nat) (s : State) : cacheTake a s = { s with link := { s.link with cache := (cacheTake a s).link.cache } } := by
  unfold cacheTake
  split <;> rfl

/-- A ring that stops keeps its byte count and its CONS, and releases its claim (R157). -/
theorem pumpStopped_eq (p cause : Nat) (s : State) : pumpStopped p cause s = { s with
    claims := s.claims.filter fun c => c.2 ≠ 0x40 + p
    pumps := s.pumps.set p { pumpOf s p with
      state := .stopped, stopCause := cause, inProg := [], next := (pumpOf s p).cons, draining := false } } := rfl

/-! ### The checks -/

theorem pumpSel_lt (r : Req) : pumpSel r < 8 := Nat.mod_lt _ (by decide)

theorem pumpWord2Bad_none {r : Req} {mask : Word} (h : r.w 2 &&& mask = 0) : pumpWord2Bad r mask = none := by
  simp [pumpWord2Bad, rangeBad, firstBad, h]

theorem pumpOf_rung (o : Nat) (a : List Nat) (r : Req) (s : State) (p : Nat) : pumpOf (rung o a r s) p = pumpOf s p :=
  pumpOf_congr (rung_pumps ..) p

theorem gateOn_rung (o : Nat) (a : List Nat) (r : Req) (s : State) (b : Nat) : gateOn (rung o a r s) b = gateOn s b := by
  rw [gateOn, rung_clk, gateOn]

theorem taken_pump {r : Req} {n : Nat} (h : High r n) (op : Nat) (hn : n ≤ 1023) : Taken (pumpCmd op n r) r :=
  taken_high h rfl rfl (decide_eq_true rfl) hn

/-! ### PUMP_RING_SET -/

/-- A ring as PUMP_RING_SET names it, and one that it removes. -/
def pumpNamed (r : Req) (v : Pump) : Pump := { v with
  state := .stopped, ring := wide (r.w 3) (r.w 4), log2 := fld (r.w 2) 11 5, haltOnErr := bit (r.w 2) 10,
  allowFrom := bit (r.w 2) 9, allowTo := bit (r.w 2) 8, stopCause := if v.state = .off then 0 else v.stopCause,
  winBase := fld (r.w 5) 12 20 * 4096 + fld (r.w 6) 0 8 * 2 ^ 32, winPages := (r.w 7).toNat, cons := 0, next := 0 }
def pumpRemoved (v : Pump) : Pump := { v with
  state := .off, ring := 0, log2 := 0, haltOnErr := false, allowFrom := false, allowTo := false, winBase := 0, winPages := 0,
  cons := 0, next := 0 }

section
variable {r : Req} {s : State}

theorem pumpRingApply_gated {p : Nat} (hg : gateOn s (12 + p) = false) : pumpRingApply p r s = s := by
  rw [pumpRingApply, pumpGate, if_pos hg]

theorem pumpRingApply_set {p : Nat} (hg : gateOn s (12 + p) = true) (hl : fld (r.w 2) 11 5 ≠ 0) :
    pumpRingApply p r s = hostWrite (wide (r.w 3) (r.w 4) + 4) (wordBytes 0) (pumpPut p (pumpNamed r (pumpOf s p)) s) := by
  rw [pumpRingApply, pumpGate, if_neg (by simp [hg]), if_neg hl]
  rfl

theorem pumpRingApply_remove {p : Nat} (hg : gateOn s (12 + p) = true) (hl : fld (r.w 2) 11 5 = 0) :
    pumpRingApply p r s = pumpPut p (pumpRemoved (pumpOf s p)) s := by
  rw [pumpRingApply, pumpGate, if_neg (by simp [hg]), if_pos hl]
  rfl

theorem pumpRingSet_ok (hst : (pumpOf s (pumpSel r)).state = .off ∨ (pumpOf s (pumpSel r)).state = .stopped) (hbad : pumpRingSetBad r = none)
    (o : Nat) (a : List Nat) :
    firstErr [if (pumpOf (rung o a r s) (pumpSel r)).state = .faulted then some (errR .fault (pumpId (pumpSel r))) else none,
      if (pumpOf (rung o a r s) (pumpSel r)).state = .running then some (errR .state 0) else none, pumpRingSetBad r] = none := by
  rw [pumpOf_rung]
  rcases hst with h | h <;> simp [h, hbad, firstErr]

theorem pumpRingSet_gated (hs : Ready s) (hh : High r 6)
    (hst : (pumpOf s (pumpSel r)).state = .off ∨ (pumpOf s (pumpSel r)).state = .stopped) (hbad : pumpRingSetBad r = none)
    (hg : gateOn s (12 + pumpSel r) = false) : Does (.pumpRingSet r) r s s [] := by
  rw [Does, exec_pumpRingSet, execPumpRingSet]
  refine mailbox_same hs (taken_pump hh 0x0401 (by decide)) ((guardE_none (pumpRingSet_ok hst hbad ..)).trans ?_)
  rw [pumpRingApply_gated ((gateOn_rung ..).trans hg)]
  rfl

theorem pumpRingSet_sets (hs : Ready s) (hsound : Sound s) (hh : High r 6)
    (hst : (pumpOf s (pumpSel r)).state = .off ∨ (pumpOf s (pumpSel r)).state = .stopped) (hbad : pumpRingSetBad r = none)
    (hg : gateOn s (12 + pumpSel r) = true) (hl : fld (r.w 2) 11 5 ≠ 0) :
    ∃ t, exec (.pumpRingSet r) s = .next t ∧ Answered t r .ok 0 [] ∧
      Served { s with pumps := s.pumps.set (pumpSel r) (pumpNamed r (pumpOf s (pumpSel r))) } t ∧
      ∀ j : Nat, j < 4 → cellRead t.mem.host (wide (r.w 3) (r.w 4) + 4 + j) = 0 := by
  have hrung : Sound (rung 0x0401 (pumpCmd 0x0401 6 r).acts r s) := (keeps_rung (keeps_refl s)).2 hsound
  obtain ⟨-, hhost, -⟩ := hrung
  rw [exec_pumpRingSet, execPumpRingSet]
  refine mailbox_ends_mem hs (taken_pump hh 0x0401 (by decide)) ((guardE_none (pumpRingSet_ok hst hbad ..)).trans
    (congrArg (·, okR []) (pumpRingApply_set ((gateOn_rung ..).trans hg) hl))) rfl fun t hans hserved hmem _ => ⟨hans, ?_, fun j hj => ?_⟩
  · refine Served.trans ?_ hserved
    refine ((served_rung 0x0401 (pumpCmd 0x0401 6 r).acts r s).set_pumps ?_).trans (served_hostWrite _ _ (pumpPut _ _ _))
    rw [rung_pumps, pumpOf_rung]
  · rw [hmem]
    change cellRead (cellsWrite (rung 0x0401 (pumpCmd 0x0401 6 r).acts r s).mem.host _ _) _ = 0
    rw [cellRead_cellsWrite hhost, length_wordBytes, if_pos (by omega), Nat.add_sub_cancel_left]
    have hzero : ∀ i < 4, (wordBytes 0).getD i 0 = 0 := by decide
    exact hzero j hj

theorem pumpRingSet_removes (hs : Ready s) (hh : High r 6)
    (hst : (pumpOf s (pumpSel r)).state = .off ∨ (pumpOf s (pumpSel r)).state = .stopped) (hbad : pumpRingSetBad r = none)
    (hg : gateOn s (12 + pumpSel r) = true) (hl : fld (r.w 2) 11 5 = 0) :
    Does (.pumpRingSet r) r s { s with pumps := s.pumps.set (pumpSel r) (pumpRemoved (pumpOf s (pumpSel r))) } [] := by
  rw [Does, exec_pumpRingSet, execPumpRingSet]
  refine mailbox_ends hs (taken_pump hh 0x0401 (by decide)) ((guardE_none (pumpRingSet_ok hst hbad ..)).trans
    (congrArg (·, okR []) (pumpRingApply_remove ((gateOn_rung ..).trans hg) hl))) rfl fun t hans hserved => ⟨hans, Served.trans ?_ hserved⟩
  refine (served_rung 0x0401 (pumpCmd 0x0401 6 r).acts r s).set_pumps ?_
  rw [rung_pumps, pumpOf_rung]

/-! ### PUMP_START -/

theorem pumpStart_ok (hst : (pumpOf s (pumpSel r)).state = .stopped) (hres : r.w 2 &&& 0xFFFFFFF8 = 0)
    (hg : gateOn s (12 + pumpSel r) = true) (hbme : s.link.bme = true) (hfree : claimOwner s (0x10C + pumpSel r) = none) (o : Nat)
    (a : List Nat) : pumpStartBad (rung o a r s) (pumpSel r) r = none := by
  have hconf : claimConflict (rung o a r s) (pumpId (pumpSel r)) [pumpRes (pumpSel r)] = none := by
    rw [claimConflict_claims (rung_claims ..), claimConflict, pumpRes, hfree, claimConflict]
  simp only [pumpStartBad, pumpNeeds, pumpOf_rung, hst, pumpWord2Bad_none hres, gateOn_rung, pumpGate, hg, rung_link_bme, hbme, hconf]
  rfl

/-- A ring that has been started with a PROD that it can hold, and as it is before PROD is read. -/
def pumpRunning (prod : Word) (v : Pump) : Pump :=
  { v with state := .running, prod := prod, next := v.cons, inProg := [], draining := false }

/-- PUMP_START reads PROD (R156): the ring runs, and its claim is held. -/
theorem pumpStartGo_runs {p : Nat} (hp : p < s.pumps.length) {prod : Word}
    (hle : (prod - (pumpOf s p).cons).toNat ≤ 2 ^ (pumpOf s p).log2) :
    ∃ c, pumpStartGo p (.words [prod]) s = ({ s with
      claims := claimInsert (0x10C + p) (0x40 + p) s.claims, pumps := s.pumps.set p (pumpRunning prod (pumpOf s p))
      link := { s.link with cache := c } }, okR []) := by
  unfold pumpStartGo
  extract_lets v s1 s2 s3
  have hv2 : pumpOf s2 p = pumpRunning v.prod v := pumpOf_pumpPut (s := s1) hp _
  have hp2 : p < s2.pumps.length := by simpa [s2, s1] using hp
  have hs3 : s3 = cacheTake v.ring (pumpPut p (pumpRunning prod v) s2) := by
    simp only [s3, pumpProdRead, pumpProd, hv2]
    exact if_neg (Nat.not_lt.2 hle)
  have hpumps : s3.pumps = s.pumps.set p (pumpRunning prod v) := by
    rw [hs3, cacheTake_frame, pumpPut_pumps]
    exact List.set_set ..
  have hv3 : pumpOf s3 p = pumpRunning prod v := by
    rw [pumpOf, hpumps]
    simp [List.getD_eq_getElem?_getD, hp]
  have hframe : s3 = { s with
      claims := claimInsert (0x10C + p) (0x40 + p) s.claims, pumps := s3.pumps, link := { s.link with cache := s3.link.cache } } := by
    rw [hs3, cacheTake_frame]
    rfl
  refine ⟨s3.link.cache, ?_⟩
  rw [hv3, if_neg (by simp [pumpRunning]), hframe, hpumps]

/-- A PROD that the ring cannot hold faults it with cause 5, CONS as it was (R148, R154). -/
theorem pumpStartGo_faults {p : Nat} (hu : Unawaited s) (hp : p < s.pumps.length) {prod : Word}
    (hlt : 2 ^ (pumpOf s p).log2 < (prod - (pumpOf s p).cons).toNat) :
    ∃ u, pumpStartGo p (.words [prod]) s = (u, errR .fault (0x40 + p)) ∧ (pumpOf u p).state = .faulted ∧ (pumpOf u p).faultCause = 5 ∧
      (pumpOf u p).cons = (pumpOf s p).cons ∧ u.mbs = s.mbs := by
  unfold pumpStartGo
  extract_lets v s1 s2 s3
  have hv2 : pumpOf s2 p = pumpRunning v.prod v := pumpOf_pumpPut (s := s1) hp _
  have hp2 : p < s2.pumps.length := by simpa [s2, s1] using hp
  set w := cacheTake v.ring (pumpPut p (pumpRunning prod v) s2) with hw
  have hframe : w = { s2 with pumps := s2.pumps.set p (pumpRunning prod v), link := w.link } := by rw [hw, cacheTake_frame]; rfl
  have hpw : p < w.pumps.length := by rw [hframe]; simpa using hp2
  have hvw : pumpOf w p = pumpRunning prod v := by rw [hframe]; exact pumpOf_pumpPut hp2 _
  have hs3 : s3 = pumpFaulted p 5 0 v.cons 0 0 w := by
    simp only [s3, pumpProdRead, pumpProd, hv2]
    exact if_pos hlt
  have hmbs : w.mbs = s.mbs := by rw [hframe]; rfl
  obtain ⟨hstate, hcause, hcons⟩ := pumpFaulted_ring hpw 5 0 v.cons 0 0
  have hmbs' := pumpFaulted_mbs (unawaited_of_mbs hu hmbs) hpw 5 0 v.cons 0 0
  rw [← hs3] at hstate hcause hcons hmbs'
  refine ⟨s3, by rw [if_pos hstate]; rfl, hstate, hcause, ?_, hmbs'.trans hmbs⟩
  rw [hcons, hvw]
  rfl

theorem pumpStart_runs (hs : Ready s) (hsound : Sound s) (hh : High r 1) (hst : (pumpOf s (pumpSel r)).state = .stopped)
    (hres : r.w 2 &&& 0xFFFFFFF8 = 0) (hg : gateOn s (12 + pumpSel r) = true) (hbme : s.link.bme = true)
    (hfree : claimOwner s (0x10C + pumpSel r) = none) {prod : Word}
    (hle : (prod - (pumpOf s (pumpSel r)).cons).toNat ≤ 2 ^ (pumpOf s (pumpSel r)).log2) :
    ∃ t, exec (.pumpStart r (.words [prod])) s = .next t ∧ Answered t r .ok 0 [] ∧
      Served { s with claims := claimInsert (0x10C + pumpSel r) (0x40 + pumpSel r) s.claims,
                      pumps := s.pumps.set (pumpSel r) (pumpRunning prod (pumpOf s (pumpSel r))), link := t.link } t ∧
      t.link.bme = true ∧ t.link.up = true := by
  have hlen : pumpSel r < s.pumps.length := by obtain ⟨-, -, -, -, h8, -⟩ := hsound; rw [h8]; exact pumpSel_lt r
  obtain ⟨c, hgo⟩ := pumpStartGo_runs (s := rung 0x0402 (pumpCmd 0x0402 1 r).acts r s) (by rw [rung_pumps]; exact hlen)
    (by rw [pumpOf_rung]; exact hle)
  rw [exec_pumpStart, execPumpStart]
  refine mailbox_ends_mem hs (taken_pump hh 0x0402 (by decide)) ((guardE_none (pumpStart_ok hst hres hg hbme hfree ..)).trans hgo) rfl
    fun t hans hserved _ hlink => ⟨hans, ?_, ?_, ?_⟩
  · refine Served.trans ?_ hserved
    have hclaims := (served_rung 0x0402 (pumpCmd 0x0402 1 r).acts r s).set_claims
      (congrArg (claimInsert (0x10C + pumpSel r) (0x40 + pumpSel r)) (rung_claims s 0x0402 (pumpCmd 0x0402 1 r).acts r))
    have hpumps := hclaims.set_pumps (x := s.pumps.set (pumpSel r) (pumpRunning prod (pumpOf s (pumpSel r)))) rfl
    rw [rung_pumps, pumpOf_rung]
    exact hpumps.set_link hlink.symm
  · rw [hlink]; simpa using hbme
  · obtain ⟨hreach, -⟩ := hs
    simp only [hostReaches, Bool.and_eq_true] at hreach
    rw [hlink]
    simpa using hreach.1.1

theorem pumpStart_faults (hs : Ready s) (hsound : Sound s) (hh : High r 1) (hst : (pumpOf s (pumpSel r)).state = .stopped)
    (hres : r.w 2 &&& 0xFFFFFFF8 = 0) (hg : gateOn s (12 + pumpSel r) = true) (hbme : s.link.bme = true)
    (hfree : claimOwner s (0x10C + pumpSel r) = none) {prod : Word}
    (hlt : 2 ^ (pumpOf s (pumpSel r)).log2 < (prod - (pumpOf s (pumpSel r)).cons).toNat) :
    ∃ t, exec (.pumpStart r (.words [prod])) s = .next t ∧ Answered t r .fault (0x40 + pumpSel r) [] ∧
      (pumpOf t (pumpSel r)).state = .faulted ∧ (pumpOf t (pumpSel r)).faultCause = 5 ∧
      (pumpOf t (pumpSel r)).cons = (pumpOf s (pumpSel r)).cons := by
  have hlen : pumpSel r < s.pumps.length := by obtain ⟨-, -, -, -, h8, -⟩ := hsound; rw [h8]; exact pumpSel_lt r
  obtain ⟨u, hgo, hstate, hcause, hcons, hmbs⟩ := pumpStartGo_faults (unawaited_rung hs 0x0402 (pumpCmd 0x0402 1 r).acts r)
    (by rw [rung_pumps]; exact hlen) (by rw [pumpOf_rung]; exact hlt)
  rw [exec_pumpStart, execPumpStart]
  refine mailbox_ends hs (taken_pump hh 0x0402 (by decide)) ((guardE_none (pumpStart_ok hst hres hg hbme hfree ..)).trans hgo) hmbs
    fun t hans hserved => ⟨hans, ?_⟩
  rw [pumpOf_congr hserved.pumps]
  exact ⟨hstate, hcause, hcons.trans (by rw [pumpOf_rung])⟩

/-! ### PUMP_STOP, PUMP_CLEAR and PUMP_QUERY -/

/-- A ring that has stopped, and one that drains the descriptors that have started. -/
def pumpHalted (v : Pump) : Pump := { v with state := .stopped, stopCause := 0, inProg := [], next := v.cons, draining := false }
def pumpDraining (v : Pump) : Pump :=
  { v with draining := true, inProg := startedIn v.inProg, next := v.cons + BitVec.ofNat 32 (startedIn v.inProg).length }

theorem pumpStop_ok (hst : (pumpOf s (pumpSel r)).state = .stopped ∨ (pumpOf s (pumpSel r)).state = .running)
    (hres : r.w 2 &&& 0xFFFFFEF8 = 0) (o : Nat) (a : List Nat) :
    firstErr [if decide ((pumpOf (rung o a r s) (pumpSel r)).state = .stopped) = true then none
      else pumpNeeds (rung o a r s) (pumpSel r) .running, pumpWord2Bad r 0xFFFFFEF8] = none := by
  rw [pumpWord2Bad_none hres, pumpNeeds, pumpOf_rung]
  rcases hst with h | h <;> simp [h, firstErr]

theorem pumpStop_of_stopped (hs : Ready s) (hh : High r 1) (hres : r.w 2 &&& 0xFFFFFEF8 = 0)
    (hst : (pumpOf s (pumpSel r)).state = .stopped) : Asks (.pumpStop r) r s [] := by
  rw [Asks, exec_pumpStop, execPumpStop]
  refine mailbox_same hs (taken_pump hh 0x0403 (by decide)) ((guardE_none (pumpStop_ok (.inl hst) hres ..)).trans ?_)
  rw [if_pos (by rw [pumpOf_rung]; exact decide_eq_true hst)]
  rfl

/-- A running ring is not STOPPED. -/
theorem not_stopped_rung (hst : (pumpOf s (pumpSel r)).state = .running) (o : Nat) (a : List Nat) :
    ¬ decide ((pumpOf (rung o a r s) (pumpSel r)).state = .stopped) = true := by
  rw [pumpOf_rung, hst]
  exact Bool.false_ne_true

theorem served_pumpStopped (o : Nat) (a : List Nat) :
    Served { s with claims := s.claims.filter fun c => c.2 ≠ 0x40 + pumpSel r, pumps := s.pumps.set (pumpSel r) (pumpHalted (pumpOf s (pumpSel r))) }
      (pumpStopped (pumpSel r) 0 (rung o a r s)) := by
  rw [pumpStopped_eq]
  have hclaims := (served_rung o a r s).set_claims
    (congrArg (List.filter fun c => decide (c.2 ≠ 0x40 + pumpSel r)) (rung_claims s o a r))
  rw [rung_pumps, pumpOf_rung]
  exact hclaims.set_pumps rfl

theorem pumpStop_idle (hs : Ready s) (hh : High r 1) (hres : r.w 2 &&& 0xFFFFFEF8 = 0)
    (hst : (pumpOf s (pumpSel r)).state = .running) (hidle : (pumpOf s (pumpSel r)).inProg = []) :
    Does (.pumpStop r) r s { s with
      claims := s.claims.filter fun c => c.2 ≠ 0x40 + pumpSel r
      pumps := s.pumps.set (pumpSel r) (pumpHalted (pumpOf s (pumpSel r))) } [] := by
  have hcut : pumpCut (pumpSel r) (rung 0x0403 (pumpCmd 0x0403 1 r).acts r s) = rung 0x0403 (pumpCmd 0x0403 1 r).acts r s := by
    rw [pumpCut, pumpOf_rung, hidle]
    rfl
  rw [Does, exec_pumpStop, execPumpStop]
  refine mailbox_ends hs (taken_pump hh 0x0403 (by decide)) (b := pumpStopped (pumpSel r) 0 (rung 0x0403 (pumpCmd 0x0403 1 r).acts r s))
    ((guardE_none (pumpStop_ok (.inr hst) hres ..)).trans ?_) rfl
    fun t hans hserved => ⟨hans, (served_pumpStopped ..).trans hserved⟩
  rw [if_neg (not_stopped_rung hst _ _)]
  split_ifs with habort hempty
  · exact congrArg (fun x => (pumpStopped (pumpSel r) 0 x, okR [])) hcut
  · rfl
  · exact absurd (by rw [pumpOf_rung, hidle]; rfl) hempty

theorem pumpStop_aborts (hs : Ready s) (hsound : Sound s) (hh : High r 1) (hres : r.w 2 &&& 0xFFFFFEF8 = 0)
    (hst : (pumpOf s (pumpSel r)).state = .running) (habort : bit (r.w 2) 8 = true) :
    ∃ t, exec (.pumpStop r) s = .next t ∧ Answered t r .ok 0 [] ∧ t.claims = s.claims.filter (fun c => c.2 ≠ 0x40 + pumpSel r) ∧
      pumpOf t (pumpSel r) = { pumpHalted (pumpOf s (pumpSel r)) with bytes := (pumpOf t (pumpSel r)).bytes } ∧ t.funcs = s.funcs := by
  have hlen : pumpSel r < (rung 0x0403 (pumpCmd 0x0403 1 r).acts r s).pumps.length := by
    obtain ⟨-, -, -, -, h8, -⟩ := hsound
    rw [rung_pumps, h8]
    exact pumpSel_lt r
  have hmoved := pumpCut_moved hlen
  have hlen' := hmoved.length ▸ hlen
  rw [exec_pumpStop, execPumpStop]
  refine mailbox_ends hs (taken_pump hh 0x0403 (by decide)) ((guardE_none (pumpStop_ok (.inr hst) hres ..)).trans
    ((if_neg (not_stopped_rung hst _ _)).trans (if_pos habort))) hmoved.mbs fun t hans hserved => ⟨hans, ?_, ?_, ?_⟩
  · rw [hserved.claims]
    exact (congrArg _ (hmoved.claims.trans (rung_claims ..)) :)
  · rw [pumpOf_congr hserved.pumps, pumpStopped_eq]
    have hring := hmoved.ring
    rw [pumpOf_rung] at hring
    have hv : pumpOf (pumpStopped (pumpSel r) 0 (pumpCut (pumpSel r) (rung 0x0403 (pumpCmd 0x0403 1 r).acts r s))) (pumpSel r) =
        pumpHalted (pumpOf (pumpCut (pumpSel r) (rung 0x0403 (pumpCmd 0x0403 1 r).acts r s)) (pumpSel r)) := pumpOf_pumpPut hlen' _
    have hbytes := congrArg Pump.bytes hv
    refine hv.trans ?_
    rw [← pumpStopped_eq]
    change _ = { pumpHalted (pumpOf s (pumpSel r)) with
      bytes := (pumpOf (pumpStopped (pumpSel r) 0 (pumpCut (pumpSel r) (rung 0x0403 (pumpCmd 0x0403 1 r).acts r s))) (pumpSel r)).bytes }
    rw [hbytes, hring]
    rfl
  · rw [hserved.funcs]
    exact hmoved.funcs.trans (rung_funcs ..)

theorem pumpStop_drains (hs : Ready s) (hh : High r 1) (hres : r.w 2 &&& 0xFFFFFEF8 = 0)
    (hst : (pumpOf s (pumpSel r)).state = .running) (habort : bit (r.w 2) 8 = false) (hbusy : (pumpOf s (pumpSel r)).inProg ≠ []) :
    Awaits (.pumpStop r) r s { s with pumps := s.pumps.set (pumpSel r) (pumpDraining (pumpOf s (pumpSel r))) } (.pumpStop (pumpSel r)) := by
  have hne : ¬ (pumpOf (rung 0x0403 (pumpCmd 0x0403 1 r).acts r s) (pumpSel r)).inProg.isEmpty = true := by
    rw [pumpOf_rung, List.isEmpty_iff]
    exact hbusy
  rw [Awaits, exec_pumpStop, execPumpStop]
  refine mailbox_goes_on hs (taken_pump hh 0x0403 (by decide)) ((guardE_none (pumpStop_ok (.inr hst) hres ..)).trans
    ((if_neg (not_stopped_rung hst _ _)).trans ((if_neg (by rw [habort]; exact Bool.false_ne_true)).trans (if_neg hne)))) rfl
    fun t hwaits hserved => ⟨hwaits, Served.trans ?_ hserved⟩
  refine (served_rung 0x0403 (pumpCmd 0x0403 1 r).acts r s).set_pumps ?_
  rw [rung_pumps, pumpOf_rung]
  rfl

theorem pumpClear_stops {check : TestResult} (hs : Ready s) (hh : High r 1) (hres : r.w 2 &&& 0xFFFFFFF8 = 0)
    (hst : (pumpOf s (pumpSel r)).state = .faulted) (hgone : pumpGone s (pumpOf s (pumpSel r)) check = true) :
    Does (.pumpClear r check) r s { s with
      claims := s.claims.filter fun c => c.2 ≠ 0x40 + pumpSel r
      pumps := s.pumps.set (pumpSel r) (pumpHalted (pumpOf s (pumpSel r))) } [] := by
  have hok : firstErr [if (pumpOf (rung 0x0404 (pumpCmd 0x0404 1 r).acts r s) (pumpSel r)).state = .faulted then none
      else some (errR .state 0), pumpWord2Bad r 0xFFFFFFF8,
      if pumpGone (rung 0x0404 (pumpCmd 0x0404 1 r).acts r s) (pumpOf (rung 0x0404 (pumpCmd 0x0404 1 r).acts r s) (pumpSel r)) check
      then none else some (errR .fault (pumpId (pumpSel r)))] = none := by
    have hgone' : pumpGone (rung 0x0404 (pumpCmd 0x0404 1 r).acts r s) (pumpOf s (pumpSel r)) check = true := by
      rw [← hgone]
      simp only [pumpGone, rung_link_up, rung_link_d3hot, rung_link_bme]
    simp only [pumpOf_rung, hst, pumpWord2Bad_none hres, hgone', if_true]
    rfl
  rw [Does, exec_pumpClear, execPumpClear]
  refine mailbox_ends hs (taken_pump hh 0x0404 (by decide)) (guardE_none hok)
    (by rw [pumpStoppedEvent, pumpVector, msixDue_mbs, emit_mbs]; rfl) fun t hans hserved => ⟨hans, Served.trans ?_ hserved⟩
  exact (served_pumpStopped 0x0404 (pumpCmd 0x0404 1 r).acts).trans ((served_emit ..).trans (served_msixDue ..))

theorem pumpQuery_asks (hs : Ready s) (hh : High r 1) (hres : r.w 2 &&& 0xFFFFFFF8 = 0) :
    Asks (.pumpQuery r) r s (pumpWords (pumpOf s (pumpSel r)) (!gateOn s (12 + pumpSel r)) (pumpSel r)) := by
  rw [Asks, exec_pumpQuery, execPumpQuery]
  refine mailbox_asks hs _ r _ _ rfl (taken_pump hh 0x0405 (by decide)).onMb (by rw [hh.2]; decide) (by simp [pumpCmd, hh.2]) ?_
  rw [pumpWord2Bad_none hres, Option.getD_none, pumpOf_rung, gateOn_rung, pumpGate]

end

/-- Settles O20: one lemma for each command and case. -/
theorem pumpCommands : Obligations.PumpCommands := by
  unfold Obligations.PumpCommands
  intro r s hs hsound p v free ring setTo removed stopped
  refine ⟨fun hh hst hbad => ⟨fun hg => pumpRingSet_gated hs hh hst hbad hg, fun hg hl => pumpRingSet_sets hs hsound hh hst hbad hg hl,
      fun hg hl => pumpRingSet_removes hs hh hst hbad hg hl⟩,
    fun prod hh hst hres hg hbme hfree => ⟨fun hle => pumpStart_runs hs hsound hh hst hres hg hbme hfree hle,
      fun hlt => pumpStart_faults hs hsound hh hst hres hg hbme hfree hlt⟩,
    fun hh hres => ⟨fun hst => pumpStop_of_stopped hs hh hres hst, fun hst hidle => pumpStop_idle hs hh hres hst hidle,
      fun hst habort => pumpStop_aborts hs hsound hh hres hst habort,
      fun hst habort hbusy => pumpStop_drains hs hh hres hst habort hbusy⟩,
    fun check hh hres hst hgone => pumpClear_stops hs hh hres hst hgone, fun hh hres => pumpQuery_asks hs hh hres⟩

end Sys2Proof.Machine
end

section
/-! PROOFS. The descriptors of the pumps (R144 to R154). -/

namespace Sys2Proof.Machine

section
variable {p : Nat} {s : State}

/-! ### The producer word -/

theorem snoopAnswer_frame (k : Snoop) (a : Nat) (s : State) :
    (snoopAnswer k a s).1 = { s with link := { s.link with cache := (snoopAnswer k a s).1.link.cache } } := by
  unfold snoopAnswer
  split
  · rfl
  · cases k <;> rfl

/-- A running ring's PROD as the pump has read it. -/
def pumpRead (prod : Word) (v : Pump) : Pump := { v with prod := prod, prodRead := true }

theorem pumpWake_eq (p : Fin 8) (prod : Word) (hup : s.link.up = true) (hdue : wakeDue s p.val = true)
    (hrun : (pumpOf s p.val).state = .running) :
    ∃ c, exec (.pumpWake p (.words [prod])) s = .next (pumpProd p.val prod (pumpPut p.val { pumpOf s p.val with prodRead := true }
      { s with link := { s.link with cache := c } })) := by
  refine ⟨(snoopAnswer .inv (pumpOf s p.val).ring s).1.link.cache, ?_⟩
  rw [exec_pumpWake, execPumpWake, if_pos ⟨hup, hdue⟩]
  dsimp only
  rw [if_pos hrun, snoopAnswer_frame]
  rfl

theorem pumpProd_reads (hp : p < s.pumps.length) {v : Pump} {prod : Word} (hle : (prod - v.cons).toNat ≤ 2 ^ v.log2) :
    ∃ c, pumpProd p prod (pumpPut p { v with prodRead := true } s) =
      { s with pumps := s.pumps.set p (pumpRead prod v), link := { s.link with cache := c } } := by
  refine ⟨(pumpProd p prod (pumpPut p { v with prodRead := true } s)).link.cache, ?_⟩
  unfold pumpProd
  rw [pumpOf_pumpPut hp]
  extract_lets w t
  rw [if_neg (Nat.not_lt.2 hle)]
  simp only [t]
  rw [cacheTake_frame]
  simp only [pumpPut, List.set_set]
  rfl

theorem pumpProd_faults (hp : p < s.pumps.length) {v : Pump} {prod : Word} (hlt : 2 ^ v.log2 < (prod - v.cons).toNat) :
    let t := pumpProd p prod (pumpPut p { v with prodRead := true } s)
    (pumpOf t p).state = .faulted ∧ (pumpOf t p).faultCause = 5 ∧ (pumpOf t p).cons = v.cons := by
  unfold pumpProd
  rw [pumpOf_pumpPut hp]
  extract_lets w u t
  have hframe : u = { s with pumps := s.pumps.set p (pumpRead prod v), link := u.link } := by
    simp only [u]
    rw [cacheTake_frame]
    simp only [pumpPut, List.set_set]
    rfl
  have hring := pumpFaulted_ring (s := u) (p := p) (by rw [hframe]; simpa using hp) 5 0 w.cons 0 0
  have hv : pumpOf u p = pumpRead prod v := by rw [hframe]; exact pumpOf_pumpPut hp _
  rw [hv] at hring
  have ht : t = pumpFaulted p 5 0 w.cons 0 0 u := if_pos hlt
  rw [ht]
  exact hring

/-! ### Fetches -/

theorem pumpLost_of_kept (h : (pumpOf s p).inProg.any (·.lost) = false) : pumpLost p s = s := by
  unfold pumpLost
  extract_lets v
  cases hl : v.inProg with
  | nil => rfl
  | cons d l =>
    have hd : d.lost = false := by
      rw [hl, List.any_cons, Bool.or_eq_false_iff] at h
      exact h.1
    simp only [hd, Bool.false_eq_true, if_false]

theorem fit_of_length {α : Type} {n : Nat} {l : List α} (h : l.length = n) (d : α) : fit n d l = l := by
  simp [fit, ← h]

/-- A ring that has fetched the words of a descriptor, with the outcome of its checks. -/
def pumpFetched (ws : List Word) (v : Pump) : Pump :=
  { v with next := v.next + 1, inProg := v.inProg ++ [{ k := v.next, words := ws, reject := dRejected v ws }] }

/-- A descriptor that the ring fetches joins those in progress, with the outcome of its checks (R149, R150). -/
theorem pumpDescriptorFetch_joins (p : Fin 8) (hp : p.val < s.pumps.length) {ws : List Word} (hws : ws.length = 8)
    (hrun : (pumpOf s p.val).state = .running) (hdrain : (pumpOf s p.val).draining = false)
    (hnext : (pumpOf s p.val).next ≠ (pumpOf s p.val).prod) (hroom : (pumpOf s p.val).inProg.length < 4)
    (hkept : (pumpOf s p.val).inProg.any (·.lost) = false) :
    exec (.pumpDescriptorFetch p (.words ws)) s = .next (perfAdd 8 32 (pumpPut p.val (pumpFetched ws (pumpOf s p.val)) s)) := by
  have hring : pumpOf (perfAdd 8 32 (pumpPut p.val (pumpFetched ws (pumpOf s p.val)) s)) p.val = pumpFetched ws (pumpOf s p.val) :=
    pumpOf_pumpPut hp _
  have hlost : (pumpOf (perfAdd 8 32 (pumpPut p.val (pumpFetched ws (pumpOf s p.val)) s)) p.val).inProg.any (·.lost) = false := by
    rw [hring, pumpFetched, List.any_append, hkept]
    rfl
  rw [exec_pumpDescriptorFetch]
  unfold execPumpDescriptorFetch
  rw [if_pos ⟨hrun, hdrain, hnext, hroom, hkept⟩]
  simp only [fit_of_length hws, Bool.false_eq_true, if_false]
  rw [pumpFetched] at hlost ⊢
  rw [pumpLost_of_kept hlost]

/-! ### Completion -/

/-- One write of the stroke as it takes its place in the cells. -/
def landOn (m : List Host.Cell) (w : PendWrite) : List Host.Cell := if w.bytes.isEmpty then m else cellsWrite m w.addr w.bytes

theorem writeLand_cells (w : PendWrite) (s : State) : (writeLand w s).mem.cells = landOn s.mem.cells w := by
  unfold writeLand landOn
  split <;> rfl

theorem writeLands_cells (l : List PendWrite) (s : State) :
    (l.foldl (fun t w => writeLand w t) s).mem.cells = l.foldl landOn s.mem.cells := by
  induction l generalizing s with
  | nil => rfl
  | cons w l ih => rw [List.foldl_cons, ih, writeLand_cells, List.foldl_cons]

/-- A reader sees the cells with the writes of the stroke that it sees upon them (R185). -/
theorem seeAs_cells (r : Seer) (s : State) : (seeAs r s).mem.cells =
    (s.mem.writes.filter fun w => w.bytes.isEmpty || w.seen.contains .every || w.seen.contains r).foldl landOn s.mem.cells :=
  writeLands_cells _ s

theorem cellsWf_landOns {m : List Host.Cell} (h : cellsWf m = true) (l : List PendWrite) : cellsWf (l.foldl landOn m) = true := by
  induction l generalizing m with
  | nil => exact h
  | cons w l ih =>
    refine ih ?_
    unfold landOn
    split
    · exact h
    · exact cellsWf_cellsWrite h _ _

theorem openWrite_cells (a : Nat) (bs : List Byte) (s : State) : (openWrite a bs s).mem.cells = cellsWrite s.mem.cells a bs := by
  unfold openWrite
  dsimp only
  split <;> rfl

theorem openWrite_writes (a : Nat) (bs : List Byte) (s : State) : (openWrite a bs s).mem.writes =
    if s.mem.writes.isEmpty || bs.isEmpty then s.mem.writes else s.mem.writes ++ [{ addr := a, bytes := bs, seen := [.every] }] := by
  unfold openWrite
  dsimp only [memWrite]
  split <;> rfl

theorem openWrite_mem_congr {s t : State} (h : s.mem = t.mem) (a : Nat) (bs : List Byte) : (openWrite a bs s).mem = (openWrite a bs t).mem := by
  unfold openWrite
  dsimp only [memWrite]
  rw [h]
  split <;> rfl

theorem openWrite_pumps (a : Nat) (bs : List Byte) (s : State) : (openWrite a bs s).pumps = s.pumps := by
  unfold openWrite
  dsimp only
  split <;> rfl

/-- The bytes of a write that every reader sees stand in every view (R151, R185). -/
theorem seeAs_openWrite {u : State} (hwf : cellsWf s.mem.cells = true) {a : Nat} {bs : List Byte}
    (hc : u.mem.cells = (openWrite a bs s).mem.cells) (hw : u.mem.writes = (openWrite a bs s).mem.writes) (r : Seer) {x : Nat}
    (hx : a ≤ x) (hx' : x < a + bs.length) : cellRead (seeAs r u).mem.cells x = cellRead u.mem.cells x := by
  have hne : bs.isEmpty = false := by
    cases bs with
    | nil => simp only [List.length_nil] at hx'; omega
    | cons _ _ => rfl
  rw [openWrite_cells] at hc
  rw [openWrite_writes, hne, Bool.or_false] at hw
  rw [seeAs_cells, hw, hc]
  split
  · next hempty =>
    rw [List.isEmpty_iff.1 hempty]
    rfl
  · rw [List.filter_append, List.foldl_append]
    have hlast (m : List Host.Cell) (hm : cellsWf m = true) :
        cellRead (List.foldl landOn m (List.filter (fun w : PendWrite => w.bytes.isEmpty || w.seen.contains .every || w.seen.contains r)
          [{ addr := a, bytes := bs, seen := [.every] }])) x = bs.getD (x - a) 0 := by
      simp only [List.filter_cons, List.contains_cons, BEq.rfl, Bool.true_or, Bool.or_true, if_true, List.filter_nil, List.foldl_cons,
        List.foldl_nil, landOn, hne, Bool.false_eq_true, if_false]
      rw [cellRead_cellsWrite hm, if_pos ⟨hx, hx'⟩]
    rw [hlast _ (cellsWf_landOns (cellsWf_cellsWrite hwf _ _) _), cellRead_cellsWrite hwf, if_pos ⟨hx, hx'⟩]

theorem length_fit {α : Type} (n : Nat) (d : α) (l : List α) : (fit n d l).length = n := by
  simp only [fit, List.length_append, List.length_take, List.length_replicate]
  omega

/-- A lone descriptor's data reach memory as one write, and its ring stays as it was (R151). -/
theorem pumpStore_alone (hp : p < s.pumps.length) {d : PumpDesc} (hd : (pumpOf s p).inProg = [d]) (hclash : d.clash = [])
    (hop : dOp d.words = 1) (bs : List Byte) :
    (pumpStore p d bs s).mem = (openWrite ((pumpOf s p).winBase + dWoff d.words) bs s).mem ∧ pumpOf (pumpStore p d bs s) p = pumpOf s p := by
  have hothers : (startedIn [d]).filter (fun x => decide (x.k ≠ d.k)) = [] := by simp [startedIn]
  have hdest : destOf (pumpOf s p) d.words = (pumpOf s p).winBase + dWoff d.words := by rw [destOf, hop, if_neg (by decide)]
  have hring : ({ pumpOf s p with inProg := if bs.isEmpty then [d] else [d] } : Pump) = pumpOf s p := by rw [ite_self, ← hd]
  have hstore : pumpStore p d bs s = perfAdd 6 bs.length (openWrite ((pumpOf s p).winBase + dWoff d.words) bs (pumpPut p (pumpOf s p) s)) := by
    simp only [pumpStore, hd, hothers, hclash, hdest, hop, List.any_nil, Bool.false_eq_true, if_false, List.map_nil, List.nil_append,
      List.filter_nil, List.isEmpty_nil, if_true, List.map_cons, hring]
    rfl
  rw [hstore]
  exact ⟨openWrite_mem_congr (by rfl) .., (pumpOf_congr (openWrite_pumps ..) p).trans (pumpOf_pumpPut hp _)⟩

theorem pumpAdvance_ring (hp : p < s.pumps.length) :
    pumpOf (pumpAdvance p s) p = { pumpOf s p with cons := (pumpOf s p).cons + 1, inProg := (pumpOf s p).inProg.drop 1 } :=
  pumpOf_pumpPut hp _

theorem irqNote_frame (p : Nat) (d : PumpDesc) (s : State) : irqNote p d s = { s with pumps := (irqNote p d s).pumps } := by
  unfold irqNote
  split <;> rfl

theorem irqNote_ring (hp : p < s.pumps.length) (d : PumpDesc) :
    pumpOf (irqNote p d s) p = { pumpOf s p with irqDue := (pumpOf (irqNote p d s) p).irqDue } := by
  by_cases h : dIrq d.words = true
  · rw [irqNote, if_pos h, pumpOf_pumpPut hp]
  · rw [irqNote, if_neg h]

theorem pumpDrained_of_done (hdrain : (pumpOf s p).draining = false) (hdone : (pumpOf s p).inProg = []) : pumpDrained p s = s := by
  unfold pumpDrained
  extract_lets v
  rw [if_neg (by rintro ⟨h, -⟩; rw [hdrain] at h; exact Bool.false_ne_true h)]
  exact pumpLost_of_kept (by rw [hdone]; rfl)

/-- A TO_WELL descriptor that is alone moves its bytes to its window. -/
theorem pumpMove_alone (hp : p < s.pumps.length) {d : PumpDesc} (hd : (pumpOf s p).inProg = [d]) (hclash : d.clash = [])
    (hop : dOp d.words = 1) (n : Nat) (data : List Word) :
    (pumpMove p d n data s).mem = (openWrite ((pumpOf s p).winBase + dWoff d.words) (fit n 0 (bytesOf (fit (n / 4) 0 data))) s).mem ∧
      pumpOf (pumpMove p d n data s) p = { pumpOf s p with bytes := (pumpOf s p).bytes + BitVec.ofNat 64 n } := by
  set u := pumpPut p { pumpOf s p with bytes := (pumpOf s p).bytes + BitVec.ofNat 64 n } s with hu
  have hring : pumpOf u p = { pumpOf s p with bytes := (pumpOf s p).bytes + BitVec.ofNat 64 n } := pumpOf_pumpPut hp _
  obtain ⟨hmem, hkeep⟩ := pumpStore_alone (s := u) (p := p) (by simpa [hu] using hp) (by rw [hring]; exact hd) hclash hop
    (fit n 0 (bytesOf (fit (n / 4) 0 data)))
  have hmove : pumpMove p d n data s = perfAdd 8 n (pumpStore p d (fit n 0 (bytesOf (fit (n / 4) 0 data))) u) := by
    rw [pumpMove, if_pos hop]
  rw [hring] at hkeep hmem
  rw [hmove]
  exact ⟨hmem.trans (openWrite_mem_congr (by rfl) ..), hkeep⟩

/-- A ring that completes a descriptor of its own: CONS advances, its data stand in memory. -/
theorem pumpDescriptorComplete_stores (p : Fin 8) (hsound : Sound s) (hrun : (pumpOf s p.val).state = .running) {d : PumpDesc}
    (hd : (pumpOf s p.val).inProg = [d]) (hrej : d.reject = none) (hclash : d.clash = []) (hdrain : (pumpOf s p.val).draining = false)
    (hop : dOp d.words = 1) (data : List Word) :
    let a := (pumpOf s p.val).winBase + dWoff d.words
    ∃ t, exec (.pumpDescriptorComplete p data) s = .next t ∧
      (pumpOf t p.val).cons = (pumpOf s p.val).cons + 1 ∧ (pumpOf t p.val).inProg = [] ∧
      (pumpOf t p.val).bytes = (pumpOf s p.val).bytes + BitVec.ofNat 64 (dLen d.words) ∧
      (∀ x : Nat, cellRead t.mem.cells x = if a ≤ x ∧ x < a + dLen d.words
        then (fit (dLen d.words) 0 (bytesOf (fit (dLen d.words / 4) 0 data))).getD (x - a) 0 else cellRead s.mem.cells x) ∧
      ∀ (r : Seer) (x : Nat), a ≤ x → x < a + dLen d.words → cellRead (seeAs r t).mem.cells x = cellRead t.mem.cells x := by
  intro a
  obtain ⟨hwf, -, -, -, h8, -⟩ := hsound
  have hp : p.val < s.pumps.length := by rw [h8]; exact p.isLt
  set bs := fit (dLen d.words) 0 (bytesOf (fit (dLen d.words / 4) 0 data)) with hbs
  have hlen : bs.length = dLen d.words := length_fit ..
  obtain ⟨hmem, hring⟩ := pumpMove_alone hp hd hclash hop (dLen d.words) data
  rw [← hbs] at hmem
  have hmoved := pumpMove_moved hp d (dLen d.words) data
  set m := pumpMove p.val d (dLen d.words) data s
  set w := pumpWriteBack p.val d.k 0 0 m with hw
  have hwring : pumpOf w p.val = pumpOf m p.val := pumpOf_congr rfl _
  have hpw : p.val < w.pumps.length := lt_of_lt_of_eq hp hmoved.length.symm
  have hadv := pumpAdvance_ring hpw
  have hpadv : p.val < (pumpAdvance p.val w).pumps.length := lt_of_lt_of_eq hpw (List.length_set ..).symm
  set t := irqNote p.val d (pumpAdvance p.val w) with ht
  have htring : pumpOf t p.val = { pumpOf s p.val with
      bytes := (pumpOf s p.val).bytes + BitVec.ofNat 64 (dLen d.words), cons := (pumpOf s p.val).cons + 1, inProg := []
      irqDue := (pumpOf t p.val).irqDue } := by
    rw [ht, irqNote_ring hpadv, hadv, hwring, hring, hd]
    rfl
  have htmem : t.mem.cells = (openWrite a bs s).mem.cells ∧ t.mem.writes = (openWrite a bs s).mem.writes := by
    rw [ht, irqNote_frame, ← hmem]
    exact ⟨rfl, rfl⟩
  refine ⟨t, ?_, by rw [htring], by rw [htring], by rw [htring], fun x => ?_, fun r x hx hx' => ?_⟩
  · rw [exec_pumpDescriptorComplete, execPumpDescriptorComplete]
    simp only [hrun, hd, pumpFinish, hrej, hop]
    rw [← pumpDrained_of_done (s := t) (p := p.val) (by rw [htring]; exact hdrain) (by rw [htring])]
    rfl
  · rw [htmem.1, openWrite_cells, cellRead_cellsWrite hwf, hlen]
  · exact seeAs_openWrite hwf htmem.1 htmem.2 r hx (by rw [hlen]; exact hx')

/-! ### Faults and time-outs -/

/-- The mailbox of a command that waits is busy. -/
theorem busy_of_waitingMb {q : Waiting → Bool} {n : Nat} (h : waitingMb q s = some n) : Busy s n := by
  have hn := List.find?_some h
  rw [List.getD_eq_getElem?_getD] at hn
  cases hm : s.mbs[n]? with
  | none => simp [hm] at hn
  | some m =>
    refine ⟨m, hm, ?_⟩
    rw [hm, Option.getD_some] at hn
    cases hb : m.busy with
    | none => simp [hb] at hn
    | some b => rfl

theorem pumpTransferFault_faults (p : Fin 8) (hp : p.val < s.pumps.length) (hrun : (pumpOf s p.val).state = .running) {d : PumpDesc}
    {rest : List PumpDesc} (hd : (pumpOf s p.val).inProg = d :: rest) {cause : Fin 8} (h0 : cause.val ≠ 0) (h4 : cause.val ≠ 4)
    (moved addr : Nat) (link : Bool) :
    ∃ t, exec (.pumpTransferFault p cause moved addr link) s = .next t ∧ (pumpOf t p.val).state = .faulted ∧
      (pumpOf t p.val).faultCause = cause.val ∧ (pumpOf t p.val).cons = (pumpOf s p.val).cons := by
  rw [exec_pumpTransferFault, execPumpTransferFault]
  simp only [hrun, hd, if_neg h0, if_neg h4]
  refine ⟨_, rfl, ?_⟩
  have hfault (u : State) (hpu : p.val < u.pumps.length) (hcons : (pumpOf u p.val).cons = (pumpOf s p.val).cons) (n : Nat) :
      let t := pumpFaulted p.val cause.val 1 d.k n addr u
      (pumpOf t p.val).state = .faulted ∧ (pumpOf t p.val).faultCause = cause.val ∧ (pumpOf t p.val).cons = (pumpOf s p.val).cons := by
    rw [← hcons]
    exact pumpFaulted_ring hpu ..
  have hpart (n : Nat) : p.val < (pumpPart p.val d n s).pumps.length ∧
      (pumpOf (pumpPart p.val d n s) p.val).cons = (pumpOf s p.val).cons := by
    have hmoved := pumpPart_moved hp d n
    exact ⟨lt_of_lt_of_eq hp hmoved.length.symm, by rw [hmoved.ring]⟩
  have hnote (u : State) (hpu : p.val < u.pumps.length) : p.val < (irqNote p.val d u).pumps.length ∧
      (pumpOf (irqNote p.val d u) p.val).cons = (pumpOf u p.val).cons := by
    refine ⟨?_, by rw [irqNote_ring hpu]⟩
    unfold irqNote
    split
    · exact lt_of_lt_of_eq hpu (List.length_set ..).symm
    · exact hpu
  generalize (if d.reject.isSome = true then 0 else pumpClean p.val d (min moved (dLen d.words)) s) = n
  obtain ⟨hpu, hcons⟩ := hpart n
  generalize pumpPart p.val d n s = m at hpu hcons ⊢
  cases pumpFaultCode p.val cause.val with
  | none => exact hfault m hpu hcons n
  | some cx =>
    dsimp only
    split
    · obtain ⟨hpu', hcons'⟩ := hnote (pumpWriteBack p.val d.k cx.1 cx.2 m) hpu
      exact hfault _ hpu' (hcons'.trans hcons) n
    · exact hfault m hpu hcons n

theorem pumpStopTimeout_goes_on (p : Fin 8) (hp : p.val < s.pumps.length) (hrun : (pumpOf s p.val).state = .running) {n : Nat}
    (hdrain : (pumpOf s p.val).draining = true) (hwait : waitingMb (fun x => decide (x = .pumpStop p.val)) s = some n) :
    ∃ t, exec (.pumpStopTimeout p) s = .next t ∧ Completed s t n .timeout 0 [] ∧ (pumpOf t p.val).state = .running ∧
      (pumpOf t p.val).draining = false := by
  have hbusy : Busy s n := busy_of_waitingMb hwait
  have hring := pumpOf_pumpPut hp { pumpOf s p.val with draining := false }
  have hput : waitingMb (fun x => decide (x = .pumpStop p.val)) (pumpPut p.val { pumpOf s p.val with draining := false } s) = some n := hwait
  rw [exec_pumpStopTimeout, execPumpStopTimeout]
  refine ⟨_, if_pos hdrain, ?_, ?_, ?_⟩
  · rw [answer, hput]
    exact completed_complete (b := pumpPut p.val { pumpOf s p.val with draining := false } s) hbusy rfl ..
  · rw [pumpOf_congr (answer_pumps ..), hring]
    exact hrun
  · rw [pumpOf_congr (answer_pumps ..), hring]

end

/-- Settles O21: a lemma for each event of a running ring. -/
theorem pumpDescriptors : Obligations.PumpDescriptors := by
  unfold Obligations.PumpDescriptors
  intro p s hsound hrun
  have hp : p.val < s.pumps.length := by obtain ⟨-, -, -, -, h8, -⟩ := hsound; rw [h8]; exact p.isLt
  refine ⟨fun prod hup hdue hle => ?_, fun prod hup hdue hlt => ?_, fun d hup hdue => ?_,
    fun ws hws hdrain hnext hroom hkept => ⟨_, pumpDescriptorFetch_joins p hp hws hrun hdrain hnext hroom hkept, rfl, ?_, ?_⟩,
    fun d data hd hrej hclash hdrain hop => pumpDescriptorComplete_stores p hsound hrun hd hrej hclash hdrain hop data,
    fun d rest cause moved addr link hd h0 h4 => pumpTransferFault_faults p hp hrun hd h0 h4 moved addr link,
    fun n hdrain hwait => pumpStopTimeout_goes_on p hp hrun hdrain hwait⟩
  · obtain ⟨c, hexec⟩ := pumpWake_eq p prod hup hdue hrun
    obtain ⟨c', heq⟩ := pumpProd_reads (p := p.val) (s := { s with link := { s.link with cache := c } }) hp hle
    exact ⟨_, hexec.trans (congrArg _ heq), rfl⟩
  · obtain ⟨c, hexec⟩ := pumpWake_eq p prod hup hdue hrun
    exact ⟨_, hexec, pumpProd_faults (p := p.val) (s := { s with link := { s.link with cache := c } }) hp hlt⟩
  · rw [exec_pumpWake, execPumpWake, if_neg]
    rintro ⟨-, h⟩
    rw [hdue] at h
    exact Bool.false_ne_true h
  · have hring : pumpOf (perfAdd 8 32 (pumpPut p.val (pumpFetched ws (pumpOf s p.val)) s)) p.val = pumpFetched ws (pumpOf s p.val) :=
      pumpOf_pumpPut hp _
    rw [hring]
    rfl
  · have hring : pumpOf (perfAdd 8 32 (pumpPut p.val (pumpFetched ws (pumpOf s p.val)) s)) p.val = pumpFetched ws (pumpOf s p.val) :=
      pumpOf_pumpPut hp _
    rw [hring]
    rfl

end Sys2Proof.Machine
end

section
/-! PROOFS. The computing commands of the tiles (R185, R193, R241 to R247, R254). -/

namespace Sys2Proof.Machine

section
variable {s u v : State} {t : Nat}

/-! ### What a reader sees depends on memory alone -/

theorem seeAs_frame (r : Seer) (s : State) : seeAs r s = { s with mem := (seeAs r s).mem } := by
  unfold seeAs
  generalize s.mem.writes.filter _ = l
  induction l generalizing s with
  | nil => rfl
  | cons w l ih =>
    have hw : writeLand w s = { s with mem := (writeLand w s).mem } := by
      unfold writeLand
      split <;> rfl
    rw [List.foldl_cons, ih (writeLand w s)]
    generalize (List.foldl _ _ l : State).mem = m
    rw [hw]

theorem writeLand_mem_congr (h : u.mem = s.mem) (w : PendWrite) : (writeLand w u).mem = (writeLand w s).mem := by
  unfold writeLand
  split
  · simp only [memDamage, h]
  · simp only [memWrite, h]

theorem seeAs_mem_congr (h : u.mem = s.mem) (r : Seer) : (seeAs r u).mem = (seeAs r s).mem := by
  unfold seeAs
  rw [h]
  generalize s.mem.writes.filter _ = l
  induction l generalizing s u with
  | nil => exact h
  | cons w l ih => exact ih (writeLand_mem_congr h w)

theorem writeAddrs_congr (h : u.mem = s.mem) (l : Inst) (t a : Nat) : writeAddrs u l t a = writeAddrs s l t a := by
  have hcur (b : Nat) : curOf u b = curOf s b := by unfold curOf memWord memRead; rw [h]
  unfold writeAddrs stagingCopy
  simp only [hcur]

/-! ### What the writes of a command change -/

/-- A state with the tiles, the pending writes and the counters of performance of another. -/
def wroteAs (u s : State) : State :=
  { s with tiles := u.tiles, mem := { s.mem with writes := u.mem.writes }, diag := { s.diag with perf := u.diag.perf } }

/-- A state differs from another in pending writes, in counters of performance and in one tile's CRC alone. -/
structure TileWrote (t : Nat) (s u : State) : Prop where
  frame : u = wroteAs u s
  others : ∀ k : Nat, k ≠ t → u.tiles[k]? = s.tiles[k]?
  own : tileOf u t = { tileOf s t with crc := (tileOf u t).crc }
  length : u.tiles.length = s.tiles.length

theorem TileWrote.refl (t : Nat) (s : State) : TileWrote t s s := ⟨rfl, fun _ _ => rfl, rfl, rfl⟩

theorem TileWrote.trans (h1 : TileWrote t s u) (h2 : TileWrote t u v) : TileWrote t s v where
  frame := (h2.frame.trans (congrArg (wroteAs v) h1.frame) : v = wroteAs v (wroteAs u s))
  others k hk := (h2.others k hk).trans (h1.others k hk)
  own := h2.own.trans (congrArg (fun x : Tile => { x with crc := (tileOf v t).crc }) h1.own)
  length := h2.length.trans h1.length

theorem wrote_of_same_tiles (hf :
    u = { s with mem := { s.mem with writes := u.mem.writes }, diag := { s.diag with perf := u.diag.perf } }) :
    TileWrote t s u := by
  have htiles : u.tiles = s.tiles := by rw [hf]
  have hown : tileOf u t = tileOf s t := by unfold tileOf; rw [htiles]
  refine ⟨?_, fun k _ => by rw [htiles], by rw [hown], by rw [htiles]⟩
  unfold wroteAs
  rw [htiles]
  exact hf

theorem devWrite_wrote (who : Seer) (a : Nat) (bs : List Byte) (s : State) : TileWrote t s (devWrite who a bs s) := by
  refine wrote_of_same_tiles ?_
  unfold devWrite
  extract_lets w
  split <;> rfl

theorem tileOf_modify (ht : t < s.tiles.length) (f : Tile → Tile) : tileOf { s with tiles := s.tiles.modify t f } t = f (tileOf s t) := by
  simp [tileOf, List.getD_eq_getElem?_getD, ht]

theorem tileOf_modify_outside (ht : ¬ t < s.tiles.length) (f : Tile → Tile) : s.tiles.modify t f = s.tiles :=
  List.modify_eq_self (Nat.not_lt.1 ht)

theorem crcTaken_wrote (f : Tile → BitVec 64) (s : State) :
    TileWrote t s { s with tiles := s.tiles.modify t fun x => { x with crc := f x } } := by
  refine ⟨rfl, fun k hk => ?_, ?_, by simp⟩
  · exact by simp [Ne.symm hk]
  · by_cases ht : t < s.tiles.length
    · rw [tileOf_modify ht]
    · rw [tileOf_modify_outside ht]

theorem opWrite_wrote (l : Inst) (a : Nat) (bs : List Byte) (s : State) : TileWrote t s (opWrite l t a bs s) := by
  unfold opWrite
  extract_lets w
  have hw : TileWrote t s w := by
    simp only [w]
    generalize writeAddrs _ l t a = ds
    clear w
    induction ds generalizing s with
    | nil => exact .refl t s
    | cons d ds ih =>
      rw [List.foldl_cons]
      split
      · exact (devWrite_wrote ..).trans (ih _)
      · exact ih s
  split
  · exact hw.trans (crcTaken_wrote ..)
  · exact hw

theorem opWrites_wrote (l : Inst) (ws : List (Nat × List Byte)) (s : State) : TileWrote t s (opWrites l t ws s) := by
  unfold opWrites
  induction ws generalizing s with
  | nil => exact .refl t s
  | cons w ws ih => exact (opWrite_wrote ..).trans (ih _)

/-! ### The writes of a command depend on memory alone -/

theorem devWrite_mem_congr (h : u.mem = s.mem) (who : Seer) (a : Nat) (bs : List Byte) :
    (devWrite who a bs u).mem = (devWrite who a bs s).mem := by
  unfold devWrite
  split <;> simp only [seenBytes, pendWrite, perfAdd, h]

theorem opWrite_mem_congr (h : u.mem = s.mem) (l : Inst) (t a : Nat) (bs : List Byte) :
    (opWrite l t a bs u).mem = (opWrite l t a bs s).mem := by
  unfold opWrite
  rw [writeAddrs_congr (seeAs_mem_congr h _)]
  generalize writeAddrs _ l t a = ds
  extract_lets x y
  have hxy : x.mem = y.mem := by
    simp only [x, y]
    clear x y
    induction ds generalizing s u with
    | nil => exact h
    | cons d ds ih =>
      rw [List.foldl_cons, List.foldl_cons]
      split
      · exact ih (devWrite_mem_congr h ..)
      · exact ih h
  split <;> exact hxy

theorem opWrites_mem_congr (h : u.mem = s.mem) (l : Inst) (t : Nat) (ws : List (Nat × List Byte)) :
    (opWrites l t ws u).mem = (opWrites l t ws s).mem := by
  unfold opWrites
  induction ws generalizing s u with
  | nil => exact h
  | cons w ws ih => exact ih (opWrite_mem_congr h ..)

/-! ### A computing command that runs to its end -/

theorem tileCur_parts {l : Inst} {g : TileSeg} {e : Line} (h : tileCur s t = some (l, g, e)) :
    (tileOf s t).seg = some g ∧ (tileOf s t).waiting = none ∧ instOf s g.listId = some l ∧ l.cmds.getD g.cmd [] = e := by
  unfold tileCur at h
  cases hseg : (tileOf s t).seg with
  | none => simp [hseg] at h
  | some g' =>
    cases hwait : (tileOf s t).waiting with
    | some w => simp [hseg, hwait] at h
    | none =>
      simp only [hseg, hwait, Option.map_eq_some_iff, Prod.mk.injEq] at h
      obtain ⟨l', hl, rfl, rfl, he⟩ := h
      exact ⟨rfl, rfl, hl, he⟩

theorem lt_tiles_of_seg {g : TileSeg} (h : (tileOf s t).seg = some g) : t < s.tiles.length := by
  by_contra hlt
  simp [tileOf, List.getD_eq_getElem?_getD, hlt] at h

/-- The state of a tile that goes on after a command. -/
def tilePassed (f : Eff) (acts : List Nat) (n : Nat) (x : Tile) : Tile :=
  { x with flags := x.flags ||| f.flags, acc := f.acc.getD x.acc,
           seg := x.seg.map fun g => { g with cmd := g.cmd + 1, used := g.used + n, acts := (g.acts.zip acts).map fun p => p.1 + p.2 } }

theorem carryOn_frame (l : Inst) (g : TileSeg) (t : Nat) (f : Eff) (s : State) :
    carryOn l g t f s = { s with lists := { s.lists with carries := (carryOn l g t f s).lists.carries } } := by
  unfold carryOn
  split <;> rfl

theorem cmdRun_eq {l : Inst} {g : TileSeg} {n : Nat} {e : Line} (hn : g.used + n < g.budget) :
    cmdRun l g t n e s =
      let v := seeAs (.tile t) s
      let f := cmdEff v l g t e
      let w := opWrites l t f.writes (perfAdd 5 (cmdWellBytes v l t e) s)
      { w with tiles := w.tiles.modify t (tilePassed f (cmdActivity v l t e) n), lists := (carryOn l g t f w).lists,
               diag := { w.diag with perf := bump w.diag.perf (tileEngine t) n } } := by
  unfold cmdRun
  extract_lets v f s1 w
  rw [if_neg (Nat.not_le.2 hn)]
  simp only [w]
  rw [carryOn_frame]
  simp only [cmdPass, actAdd, tileMod, perfAdd, List.modify_modify_eq]
  congr 2
  funext x
  simp only [Function.comp_apply, tilePassed, Option.map_map]
  congr 1

/-- What TileRuns says of a state, with the effect that the command's opcode has. -/
theorem tileRuns_of_cmdRun {i : Instr} {l : Inst} {g : TileSeg} {e : Line} {n : Nat} {f : Eff} (hcur : tileCur s t = some (l, g, e))
    (hexec : exec i s = .next (cmdRun l g t n e s)) (hn : g.used + n < g.budget) (hf : cmdEff (seeAs (.tile t) s) l g t e = f) :
    TileRuns i s t l g n f := by
  obtain ⟨hseg, hwait, -, he⟩ := tileCur_parts hcur
  have ht := lt_tiles_of_seg hseg
  rw [cmdRun_eq hn] at hexec
  dsimp only at hexec
  rw [hf] at hexec
  rw [TileRuns, he]
  generalize hb : cmdWellBytes (seeAs (.tile t) s) l t e = b at hexec
  generalize cmdActivity (seeAs (.tile t) s) l t e = acts at hexec ⊢
  have hw : TileWrote t s (opWrites l t f.writes (perfAdd 5 b s)) :=
    (wrote_of_same_tiles rfl : TileWrote t s (perfAdd 5 b s)).trans (opWrites_wrote l f.writes _)
  have hmem : (opWrites l t f.writes (perfAdd 5 b s)).mem = (opWrites l t f.writes s).mem := opWrites_mem_congr (s := s) (u := perfAdd 5 b s) rfl l t f.writes
  generalize opWrites l t f.writes (perfAdd 5 b s) = w at hexec hw hmem
  have hown : tileOf { w with tiles := w.tiles.modify t (tilePassed f acts n) } t = tilePassed f acts n (tileOf w t) :=
    tileOf_modify (by rw [hw.length]; exact ht) _
  have hmem' : w.mem = { s.mem with writes := w.mem.writes } := congrArg State.mem hw.frame
  refine ⟨_, hexec, ?_, ?_, ?_, ?_, ?_, fun k hk => ?_, ?_, ?_⟩
  · refine (congrArg Tile.seg hown).trans ?_
    rw [hw.own]
    simp [tilePassed, hseg]
  · refine (congrArg Tile.waiting hown).trans ?_
    rw [hw.own]
    exact hwait
  · refine (congrArg Tile.flags hown).trans ?_
    rw [hw.own]
    rfl
  · refine (congrArg Tile.acc hown).trans ?_
    rw [hw.own]
    rfl
  · rw [← hmem]
    exact hmem'
  · refine Eq.trans ?_ (hw.others k hk)
    simp [Ne.symm hk]
  · have hlists : w.lists = s.lists := by rw [hw.frame]; rfl
    unfold carryOn
    rw [← hlists]
    cases f.carry with
    | none => rfl
    | some ws => rfl
  · rw [carryOn_frame]
    dsimp only
    generalize (carryOn l g t f w).lists.carries = cs
    rw [hw.frame]
    rfl

theorem tileCmd_computes {opc : Nat} {ti : Fin 48} {l : Inst} {g : TileSeg} {e : Line} (wait : Nat) (hcur : tileCur s ti.val = some (l, g, e))
    (hdam : cmdDamage (seeAs (.tile ti.val) s) l ti.val e = none) (hop : opcOf e = opc) :
    tileCmd opc ti e wait s = .next (cmdRun l g ti.val (cmdCycles s ti.val e + wait) e s) := by
  rw [tileCmd, hcur]
  simp only [hop, hdam, ne_eq, not_true_eq_false, or_self, if_false]

theorem acc_seeAs (r : Seer) (s : State) : (tileOf (seeAs r s) t).acc = (tileOf s t).acc := by
  rw [seeAs_frame]
  rfl

/-- Settles O22: the effect of each opcode on the data that the tile sees, once for the eight commands. -/
theorem tileCommandsCompute : Obligations.TileCommandsCompute := by
  intro t e wait s l g hcur hdam hbud v n
  have hruns {i : Instr} {opc : Nat} {f : Eff} (hi : exec i s = tileCmd opc t e wait s) (hop : opcOf e = opc)
      (hf : cmdEff v l g t.val e = f) : TileRuns i s t.val l g n f :=
    tileRuns_of_cmdRun hcur (hi.trans (tileCmd_computes wait hcur hdam hop)) hbud hf
  refine ⟨fun h => hruns rfl h ?_, fun h => hruns rfl h ?_, fun h => hruns rfl h ?_, fun h hw => hruns ?_ h rfl, fun _ hw => ?_,
    fun h => hruns rfl h ?_, fun h => hruns rfl h ?_, fun h => hruns rfl h ?_, fun h => hruns rfl h ?_⟩
  · simp only [cmdEff, h]
  · simp only [cmdEff, h]
  · simp only [cmdEff, h]
  · rw [exec_scan, execScan, hw]
    rfl
  · rw [exec_scan, execScan, hw]
    rfl
  · simp only [cmdEff, h]
  · simp only [cmdEff, h]
  · simp only [cmdEff, h]
  · simp only [cmdEff, h, v, acc_seeAs]

end

end Sys2Proof.Machine
end

section
/-! PROOFS. The ends of runs and of segments (R230, R254, R256 to R258, R267, R273): tiles are freed, lists leave, runs end, and no
segment starts. -/

namespace Sys2Proof.Machine

/-- What the ends of runs leave: each tile as it was or free, each installed list with its commands and without a new run; a list goes only
once no tile works for it. -/
structure Later (s u : State) : Prop where
  tile : ∀ t : Nat, tileOf u t = tileOf s t ∨ (tileOf u t).seg = none ∧ (tileOf u t).waiting = none
  inst : ∀ (id : Nat) (x : Inst), instOf u id = some x →
    ∃ y, instOf s id = some y ∧ x.cmds = y.cmds ∧ (y.run = none → x.run = none ∧ x.lastAbort = y.lastAbort)
  stays : ∀ (t : Nat) (g : TileSeg), (tileOf u t).seg = some g → instOf u g.listId = none → instOf s g.listId = none

/-- No tile works for a list. -/
def NoTile (id : Nat) (s : State) : Prop := ∀ (t : Nat) (g : TileSeg), (tileOf s t).seg = some g → g.listId ≠ id

/-- Later, with no tile at work for a list. -/
def Cleared (id : Nat) (s₀ s : State) : Prop := Later s₀ s ∧ NoTile id s

section
variable {s₀ s u v : State} {t id : Nat}

/-! ### Later states -/

theorem Later.refl (s : State) : Later s s := ⟨fun _ => .inl rfl, fun _ x hx => ⟨x, hx, rfl, fun h => ⟨h, rfl⟩⟩, fun _ _ _ h => h⟩

theorem Later.seg_some {g : TileSeg} (h : Later s u) (hg : (tileOf u t).seg = some g) : tileOf u t = tileOf s t := by
  rcases h.tile t with ht | ⟨ht, -⟩
  · exact ht
  · rw [hg] at ht
    cases ht

theorem Later.trans (h1 : Later s u) (h2 : Later u v) : Later s v where
  tile t := by
    rcases h2.tile t with ht | ht
    · rw [ht]
      exact h1.tile t
    · exact .inr ht
  inst id x hx := by
    obtain ⟨y, hy, hcy, hry⟩ := h2.inst id x hx
    obtain ⟨z, hz, hcz, hrz⟩ := h1.inst id y hy
    refine ⟨z, hz, hcy.trans hcz, fun h => ?_⟩
    obtain ⟨hy0, hya⟩ := hrz h
    obtain ⟨hx0, hxa⟩ := hry hy0
    exact ⟨hx0, hxa.trans hya⟩
  stays t g hg hi := h1.stays t g (h2.seg_some hg ▸ hg) (h2.stays t g hg hi)

theorem Later.freed (h : Later s u) (hs : (tileOf s t).seg = none) : (tileOf u t).seg = none := by
  rcases h.tile t with ht | ⟨ht, -⟩
  · rw [ht, hs]
  · exact ht

theorem Later.freed_waiting (h : Later s u) (hs : (tileOf s t).waiting = none) : (tileOf u t).waiting = none := by
  rcases h.tile t with ht | ⟨-, ht⟩
  · rw [ht, hs]
  · exact ht

theorem NoTile.later (hn : NoTile id s) (h : Later s u) : NoTile id u := fun t g hg => hn t g (h.seg_some hg ▸ hg)

theorem Cleared.trans {w : State} (h : Cleared id s₀ s) (hw : Later s w) : Cleared id s₀ w := ⟨h.1.trans hw, h.2.later hw⟩

theorem Later.of_eq (h : Later s₀ s) (htiles : u.tiles = s.tiles) (hinst : u.lists.inst = s.lists.inst) : Later s₀ u := by
  have ht (t : Nat) : tileOf u t = tileOf s t := by unfold tileOf; rw [htiles]
  have hi (id : Nat) : instOf u id = instOf s id := by unfold instOf; rw [hinst]
  refine h.trans ⟨fun t => .inl (ht t), fun id x hx => ⟨x, (hi id).symm.trans hx, rfl, fun h => ⟨h, rfl⟩⟩, fun t g _ hn => ?_⟩
  rw [hi] at hn
  exact hn

theorem unseen_later : Unseen (Later s₀) where
  mem _ h := h.of_eq rfl rfl
  mbs _ h := h.of_eq rfl rfl
  lists hv h := h.of_eq rfl hv
  clerk h := h.of_eq rfl rfl
  evt h := h.of_eq rfl rfl
  msix h := h.of_eq rfl rfl
  diag h := h.of_eq rfl rfl
  pipe h := h.of_eq rfl rfl
  rope h := h.of_eq rfl rfl
  stage h := h.of_eq rfl rfl
  est h := h.of_eq rfl rfl
  ledger h := h.of_eq rfl rfl
  boot h := h.of_eq rfl rfl

/-! ### What ends a run -/

theorem find_map_id {f : Inst → Inst} (hf : ∀ x, (f x).id = x.id) (l : List Inst) (id : Nat) :
    (l.map f).find? (fun x => x.id = id) = (l.find? fun x => x.id = id).map f := by
  induction l with
  | nil => rfl
  | cons x l ih =>
    simp only [List.map_cons, List.find?_cons, hf]
    split
    · rfl
    · exact ih

theorem instOf_instSet {f : Inst → Inst} (hf : ∀ x, (f x).id = x.id) (n : Nat) :
    instOf (instSet n f s) id = (instOf s id).map fun x => if x.id = n then f x else x := by
  unfold instOf instSet
  refine find_map_id (fun x => ?_) _ _
  split
  · exact hf x
  · rfl

theorem id_of_instOf {x : Inst} (h : instOf s id = some x) : x.id = id := by simpa using List.find?_some h

/-- A change of a list that starts no run of it. -/
theorem later_instSet {f : Inst → Inst} (n : Nat) (hid : ∀ x, (f x).id = x.id) (hcmds : ∀ x, (f x).cmds = x.cmds)
    (hrun : ∀ x, instOf s n = some x → x.run = none → (f x).run = none ∧ (f x).lastAbort = x.lastAbort) (h : Later s₀ s) :
    Later s₀ (instSet n f s) := by
  refine h.trans ⟨fun _ => .inl rfl, fun id x hx => ?_, fun t g _ hn => ?_⟩
  · rw [instOf_instSet hid] at hx
    obtain ⟨y, hy, rfl⟩ := Option.map_eq_some_iff.1 hx
    refine ⟨y, hy, ?_, fun hr => ?_⟩
    · split
      · exact hcmds y
      · rfl
    · split
      · next hn =>
        have hyn : instOf s n = some y := by rw [← hn, id_of_instOf hy]; exact hy
        exact hrun y hyn hr
      · exact ⟨hr, rfl⟩
  · rw [instOf_instSet hid, Option.map_eq_none_iff] at hn
    exact hn

/-- A tile of a run that is cleared. -/
def tileCleared (id cause : Nat) (x : Tile) : Tile := match x.seg with
  | some g => if g.listId = id then
      { x with seg := none, waiting := none, count := (g.budget, g.used), lastAbort := if cause = 0 then x.lastAbort else cause } else x
  | none => x

theorem tileCleared_cases (id cause : Nat) (x : Tile) :
    tileCleared id cause x = x ∧ (∀ g, x.seg = some g → g.listId ≠ id) ∨
      (tileCleared id cause x).seg = none ∧ (tileCleared id cause x).waiting = none := by
  unfold tileCleared
  split
  · next g hg =>
    split
    · exact .inr ⟨rfl, rfl⟩
    · next hne => exact .inl ⟨rfl, fun g' hg' => by rw [hg] at hg'; cases hg'; exact hne⟩
  · next hn => exact .inl ⟨rfl, fun g hg => by rw [hn] at hg; cases hg⟩

theorem tileOf_map {f : Tile → Tile} (hf : f {} = {}) (l : List Tile) (t : Nat) : (l.map f).getD t {} = f (l.getD t {}) := by
  simp only [List.getD_eq_getElem?_getD, List.getElem?_map]
  cases l[t]? with
  | none => exact hf.symm
  | some x => rfl

theorem tileOf_runClear (n cause : Nat) : tileOf (runClear n cause s) t = tileCleared n cause (tileOf s t) :=
  tileOf_map (f := tileCleared n cause) rfl s.tiles t

/-- The clearing of a run, where what has changed on the tiles before is only on tiles that work for its list. -/
theorem cleared_runClear {n cause : Nat} (h : Later s₀ s) (hinst : u.lists.inst = s.lists.inst)
    (htiles : ∀ t, tileOf u t = tileOf s t ∨ ∃ g, (tileOf u t).seg = some g ∧ g.listId = n) : Cleared n s₀ (runClear n cause u) := by
  have hi (id : Nat) : instOf (runClear n cause u) id = instOf s id := by unfold instOf; rw [← hinst]; rfl
  refine ⟨h.trans ⟨fun t => ?_, fun id x hx => ?_, fun t g _ hn => ?_⟩, fun t g hg => ?_⟩
  · rw [tileOf_runClear]
    rcases tileCleared_cases n cause (tileOf u t) with ⟨he, hne⟩ | hfree
    · rcases htiles t with ht | ⟨g, hg, hgn⟩
      · exact .inl (he.trans ht)
      · exact absurd hgn (hne g hg)
    · exact .inr hfree
  · rw [hi] at hx
    exact ⟨x, hx, rfl, fun h => ⟨h, rfl⟩⟩
  · rw [hi] at hn
    exact hn
  · rw [tileOf_runClear] at hg
    rcases tileCleared_cases n cause (tileOf u t) with ⟨he, hne⟩ | ⟨hfree, -⟩
    · rw [he] at hg
      exact hne g hg
    · rw [hfree] at hg
      cases hg

/-- The installed lists after one of them is removed: a list may have stopped to stand in for it, and nothing else. -/
theorem instOf_listDrop (id : Nat) (s : State) : ∃ f : Inst → Inst,
    (∀ x, (f x).cmds = x.cmds ∧ (f x).run = x.run ∧ (f x).queue = x.queue ∧ (f x).lastAbort = x.lastAbort) ∧
    ∀ n, instOf (listDrop id s) n = if n = id then none else (instOf s n).map f := by
  unfold listDrop
  split
  · next hnone =>
    refine ⟨fun x => x, fun _ => ⟨rfl, rfl, rfl, rfl⟩, fun n => ?_⟩
    split
    · next hn => rw [hn, hnone]
    · rw [Option.map_id']
  · next l hl =>
    extract_lets ends rest held
    have hends (x : Inst) : (ends x).id = x.id ∧ (ends x).cmds = x.cmds ∧ (ends x).run = x.run ∧ (ends x).queue = x.queue ∧
        (ends x).lastAbort = x.lastAbort := by
      simp only [ends]
      split <;> exact ⟨rfl, rfl, rfl, rfl, rfl⟩
    refine ⟨ends, fun x => (hends x).2, fun n => ?_⟩
    show rest.find? (fun x => x.id = n) = _
    simp only [rest]
    rw [find_map_id fun x => (hends x).1]
    split
    · next hn =>
      rw [hn, Option.map_eq_none_iff, List.find?_eq_none]
      intro x hx
      simpa using (List.mem_filter.1 hx).2
    · next hn =>
      unfold instOf
      rw [List.find?_filter]
      congr 2
      funext x
      grind

theorem listDrop_tiles (id : Nat) (s : State) : (listDrop id s).tiles = s.tiles := by
  unfold listDrop
  split <;> rfl

theorem cleared_listDrop (h : Cleared id s₀ s) : Cleared id s₀ (listDrop id s) := by
  obtain ⟨f, hf, hinst⟩ := instOf_listDrop id s
  have htile (t : Nat) : tileOf (listDrop id s) t = tileOf s t := by unfold tileOf; rw [listDrop_tiles]
  refine h.trans ⟨fun t => .inl (htile t), fun n x hx => ?_, fun t g hg hn => ?_⟩
  · rw [hinst] at hx
    split at hx
    · cases hx
    · obtain ⟨y, hy, rfl⟩ := Option.map_eq_some_iff.1 hx
      obtain ⟨hcmds, hrun, -, hab⟩ := hf y
      exact ⟨y, hy, hcmds, fun h => ⟨hrun.trans h, hab⟩⟩
  · rw [htile] at hg
    rw [hinst, if_neg (h.2 t g hg), Option.map_eq_none_iff] at hn
    exact hn

theorem cleared_unseen {f : State → State} (hf : ∀ {w : State}, Later w w → Later w (f w)) (h : Cleared id s₀ s) : Cleared id s₀ (f s) :=
  h.trans (hf (.refl s))

theorem cleared_removalDue (h : Cleared id s₀ s) : Cleared id s₀ (removalDue id s) := by
  unfold removalDue
  split
  · split
    · exact cleared_unseen (fun hw => unseen_answer unseen_later hw) (cleared_listDrop h)
    · exact h
  · exact h

theorem cleared_onceGone {l : Inst} {seg cause : Nat} (h : Cleared l.id s₀ s) : Cleared l.id s₀ (onceGone l seg cause s) := by
  unfold onceGone
  split
  · extract_lets w
    have hw : Cleared l.id s₀ w := cleared_unseen (fun hw => unseen_listRecord unseen_later hw) (cleared_listDrop h)
    split
    · exact cleared_unseen (fun hw => unseen_answer unseen_later hw) hw
    · exact hw
  · exact h

theorem later_runStop {n : Nat} (h : Later s₀ s) : Later s₀ (runStop n s) := by
  unfold runStop
  split
  · next l hl =>
    extract_lets f p
    split
    · refine (cleared_removalDue (cleared_runClear (later_instSet n ?_ ?_ ?_ h) rfl fun t => .inl rfl)).1
      · exact fun _ => rfl
      · exact fun _ => rfl
      · exact fun x _ _ => ⟨rfl, rfl⟩
    · exact h
  · exact h

theorem later_queueFault {fid cause : Nat} (h : Later s₀ s) : Later s₀ (queueFault fid cause s) := by
  unfold queueFault queueFaulted
  split
  · exact h
  · refine unseen_answer unseen_later (holds_foldl ?_ fun _ _ ht => later_runStop ht)
    exact h.of_eq (fnSet_tiles ..) (congrArg Lists.inst (fnSet_lists ..))

theorem later_abortRecord {l : Inst} {seg tile cause used : Nat} (h : Later s₀ s) : Later s₀ (abortRecord l seg tile cause used s) := by
  unfold abortRecord
  extract_lets due n
  split
  · refine unseen_listRecord unseen_later (later_instSet l.id ?_ ?_ ?_ h)
    · exact fun _ => rfl
    · exact fun _ => rfl
    · exact fun x _ hr => ⟨hr, rfl⟩
  · refine later_instSet l.id ?_ ?_ ?_ h
    · exact fun _ => rfl
    · exact fun _ => rfl
    · exact fun x _ hr => ⟨hr, rfl⟩

/-- The run of a list has ended with a cause, and no tile works for it. -/
def RunEnded (id cause : Nat) (s : State) : Prop := NoTile id s ∧ ∀ x, instOf s id = some x → x.run = none ∧ x.lastAbort = cause

theorem RunEnded.later {cause : Nat} (h : RunEnded id cause s) (hl : Later s u) : RunEnded id cause u := by
  refine ⟨h.1.later hl, fun x hx => ?_⟩
  obtain ⟨y, hy, -, hrun⟩ := hl.inst id x hx
  obtain ⟨hy0, hya⟩ := h.2 y hy
  obtain ⟨hx0, hxa⟩ := hrun hy0
  exact ⟨hx0, hxa.trans hya⟩

/-- R256: an abort ends its run with its cause and frees the tiles of its list. -/
theorem runAbort_ends {l : Inst} {r : Run} (seg tile cause used bseg : Nat) (hl : instOf s id = some l) (hr : l.run = some r) :
    Later s (runAbort id seg tile cause used bseg s) ∧ RunEnded id cause (runAbort id seg tile cause used bseg s) := by
  have hlid := id_of_instOf hl
  unfold runAbort
  simp -zeta only [hl, hr]
  extract_lets due fl pk stop w r' m f s4 full s5 s6 s7
  have hstop (x : Tile) : { x with seg := x.seg.map stop } = x ∨
      ∃ g, ({ x with seg := x.seg.map stop } : Tile).seg = some g ∧ g.listId = id := by
    cases hx : x.seg with
    | none => exact .inl (by rw [Option.map_none, ← hx])
    | some g =>
      by_cases hg : g.listId = id
      · exact .inr ⟨{ g with used := used }, by simp [stop, hg], hg⟩
      · exact .inl (by simp only [Option.map_some, stop, if_neg hg]; rw [← hx])
  have hw (t : Nat) : tileOf w t = tileOf s t ∨ ∃ g, (tileOf w t).seg = some g ∧ g.listId = id := by
    by_cases ht : t < s.tiles.length
    · by_cases he : tile = t
      · subst he
        simp only [w]
        rw [tileOf_modify ht]
        exact hstop (tileOf s tile)
      · left
        simp [w, tileOf, he, List.getD_eq_getElem?_getD]
    · left
      simp [w, tileOf, ht, List.getD_eq_getElem?_getD]
  have hm : Cleared id s m := cleared_runClear (.refl s) rfl hw
  have hmi : instOf m id = some l := hl
  have hf : Later s f := later_instSet id (fun _ => rfl) (fun _ => rfl) (fun x hx hn => by
    rw [hmi] at hx
    cases hx
    rw [hr] at hn
    cases hn) hm.1
  have hend : RunEnded id cause f := by
    refine ⟨hm.2, fun x hx => ?_⟩
    simp only [f] at hx
    rw [instOf_instSet, hmi, Option.map_some, if_pos hlid, Option.some.injEq] at hx
    · subst hx
      exact ⟨rfl, rfl⟩
    · exact fun _ => rfl
  have h4 : Cleared id f s4 := ⟨unseen_computeAdd unseen_later (.refl f), hend.1⟩
  have h5 : Cleared id f s5 := h4.trans (holds_foldl (.refl s4) fun _ _ ht => unseen_fallbackArea unseen_later ht)
  have h6 : Cleared id f s6 := h5.trans (later_abortRecord (.refl s5))
  have h7 : Cleared id f s7 := by
    refine cleared_removalDue ?_
    rw [← hlid] at h6 ⊢
    exact cleared_onceGone (h6.trans (unseen_energyCharge unseen_later (.refl s6)))
  have hlast : Later f (if full ∧ l.queue = fFIXED0 ∧ cause ≠ 5 then queueFault fFIXED0 0x0302 s7 else s7) :=
    holds_ite (later_queueFault h7.1) h7.1
  exact ⟨hf.trans hlast, hend.later hlast⟩

theorem later_runAbort {seg tile cause used bseg : Nat} (h : Later s₀ s) : Later s₀ (runAbort id seg tile cause used bseg s) := by
  cases hl : instOf s id with
  | none =>
    unfold runAbort
    rw [hl]
    exact h
  | some l =>
    cases hr : l.run with
    | none =>
      unfold runAbort
      rw [hl]
      dsimp only
      rw [hr]
      exact h
    | some r => exact h.trans (runAbort_ends seg tile cause used bseg hl hr).1

theorem later_streakAbort {fid cause : Nat} (h : Later s₀ s) : Later s₀ (streakAbort fid cause s) := by
  unfold streakAbort
  extract_lets i k put s1 s2 s3
  have hput (k : Streak) : Later s₀ (put k s) := h.of_eq rfl rfl
  exact holds_ite h (holds_ite (holds_ite (later_queueFault (hput _)) (hput _)) (holds_ite
    (holds_ite (later_queueFault (hput _)) (hput _)) (holds_ite (holds_ite (later_queueFault (hput _)) (hput _)) h)))

theorem later_segAbort {seg tile cause used bseg : Nat} (h : Later s₀ s) : Later s₀ (segAbort id seg tile cause used bseg s) := by
  unfold segAbort
  split
  · exact h
  · exact later_streakAbort (later_runAbort h)

theorem segAbort_ends {l : Inst} {r : Run} (seg tile cause used bseg : Nat) (hl : instOf s id = some l) (hr : l.run = some r) :
    RunEnded id cause (segAbort id seg tile cause used bseg s) := by
  unfold segAbort
  rw [hl]
  exact (runAbort_ends seg tile cause used bseg hl hr).2.later (later_streakAbort (.refl _))

end

end Sys2Proof.Machine
end

section
/-! PROOFS. Segments and the points of lists on the tiles (R183, R193, R230, R254, R257, R261, R262). -/

namespace Sys2Proof.Machine

section
variable {s u : State} {t : Nat}

/-! ### SEGMENT_START -/

theorem tileOf_tileMod (ht : t < s.tiles.length) (f : Tile → Tile) : tileOf (tileMod t f s) t = f (tileOf s t) := tileOf_modify ht f

theorem tileMod_others (f : Tile → Tile) {k : Nat} (hk : k ≠ t) : (tileMod t f s).tiles[k]? = s.tiles[k]? := by
  simp [tileMod, Ne.symm hk]

theorem tileOf_tileMod_other (f : Tile → Tile) {k : Nat} (hk : k ≠ t) : tileOf (tileMod t f s) k = tileOf s k := by
  have hothers := tileMod_others (s := s) f hk
  simp only [tileOf, List.getD_eq_getElem?_getD, hothers]

/-- Settles O23. -/
theorem segmentStartLoadsTheTile : Obligations.SegmentStartLoadsTheTile := by
  intro t id seg s l hsound hl hpanic hidle hnext
  obtain ⟨-, -, -, -, -, hlen⟩ := hsound
  have ht : t.val < s.tiles.length := by rw [hlen]; exact t.isLt
  have hexec : exec (.segmentStart t id seg) s = .next (segStart l seg.val t.val s) := by
    rw [exec_segmentStart, execSegmentStart, hl]
    simp only [hpanic, hidle, hnext, Option.isNone_none, and_self, if_true]
  have hown : tileOf (segStart l seg.val t.val s) t.val = _ := tileOf_tileMod ht _
  exact ⟨_, hexec, rfl, fun k hk => tileMod_others _ hk, congrArg Tile.seg hown, congrArg Tile.waiting hown, congrArg Tile.flags hown,
    congrArg Tile.acc hown, congrArg Tile.crc hown⟩

/-! ### A tile at work for a list -/

/-- A tile works on a segment of an installed list. -/
def WorksOn (t : Nat) (g : TileSeg) (l : Inst) (s : State) : Prop := (tileOf s t).seg = some g ∧ instOf s g.listId = some l

variable {g : TileSeg} {l : Inst}

theorem worksOn_congr (h : WorksOn t g l s) (htiles : u.tiles = s.tiles) (hinst : u.lists.inst = s.lists.inst) : WorksOn t g l u := by
  unfold WorksOn tileOf instOf
  rw [htiles, hinst]
  exact h

theorem unseen_worksOn : Unseen (WorksOn t g l) where
  mem _ h := h
  mbs _ h := h
  lists hv h := worksOn_congr h rfl hv
  clerk h := h
  evt h := h
  msix h := h
  diag h := h
  pipe h := h
  rope h := h
  stage h := h
  est h := h
  ledger h := h
  boot h := h

theorem worksOn_wrote (h : WorksOn t g l s) (hw : TileWrote t s u) : WorksOn t g l u := by
  refine ⟨?_, ?_⟩
  · rw [hw.own]
    exact h.1
  · have hinst : u.lists.inst = s.lists.inst := by rw [hw.frame]; rfl
    unfold instOf
    rw [hinst]
    exact h.2

theorem worksOn_of_tileCur {e : Line} (h : tileCur s t = some (l, g, e)) : WorksOn t g l s := by
  obtain ⟨hg, -, hl, -⟩ := tileCur_parts h
  exact ⟨hg, hl⟩

theorem worksOn_cutWrites (ws : List (Nat × List Byte)) (h : WorksOn t g l s) : WorksOn t g l (cutWrites l t ws s) := by
  unfold cutWrites
  extract_lets p ls
  exact worksOn_wrote (s := p.1) h (opWrites_wrote ..)

theorem worksOn_cutCurrent (h : WorksOn t g l s) : WorksOn t g l (cutCurrent t s) := by
  unfold cutCurrent
  split
  · next l' g' e hcur =>
    obtain ⟨hg, -, hl, -⟩ := tileCur_parts hcur
    obtain ⟨hg0, hl0⟩ := h
    rw [hg0, Option.some.injEq] at hg
    subst hg
    rw [hl0, Option.some.injEq] at hl
    subst hl
    exact worksOn_cutWrites _ ⟨hg0, hl0⟩
  · exact h

theorem worksOn_usedFree (h : WorksOn t g l s) : WorksOn t g l (usedFree t s).1 := by
  unfold usedFree
  split
  · exact h
  · exact h

/-- R256: a general tile that stops ends its run with the cause, and is free. -/
theorem tileStop_ends {r : Run} (hfix : tileFixed t = false) (h : WorksOn t g l s) (hr : l.run = some r) (cause used : Nat) :
    (tileOf (tileStop t cause used s) t).seg = none ∧
      ∀ x, instOf (tileStop t cause used s) g.listId = some x → x.run = none ∧ x.lastAbort = cause := by
  obtain ⟨hg, hl⟩ := h
  have hstop : tileStop t cause used s = segAbort g.listId g.seg t cause used g.budget s := by
    unfold tileStop
    simp only [hg, hfix, Bool.false_eq_true, if_false]
  rw [hstop]
  obtain ⟨hno, hend⟩ := segAbort_ends g.seg t cause used g.budget hl hr
  refine ⟨?_, hend⟩
  rcases (later_segAbort (id := g.listId) (seg := g.seg) (tile := t) (cause := cause) (used := used) (bseg := g.budget)
    (.refl s)).tile t with he | ⟨hfree, -⟩
  · rw [← he] at hg
    exact absurd rfl (hno t g hg)
  · exact hfree

theorem tileMemory_ends {r : Run} (hfix : tileFixed t = false) (h : WorksOn t g l s) (hr : l.run = some r) (a : Nat) (path : Bool) :
    (tileOf (tileMemory t a path s) t).seg = none ∧
      ∀ x, instOf (tileMemory t a path s) g.listId = some x → x.run = none ∧ x.lastAbort = 3 :=
  tileStop_ends hfix (worksOn_usedFree (unseen_uncorrectable unseen_worksOn h)) hr ..

theorem tileAccess_ends {r : Run} (hfix : tileFixed t = false) (h : WorksOn t g l s) (hr : l.run = some r) (a : Nat) (path : Bool) :
    (tileOf (tileAccess t a path s) t).seg = none ∧
      ∀ x, instOf (tileAccess t a path s) g.listId = some x → x.run = none ∧ x.lastAbort = 4 :=
  tileStop_ends hfix (worksOn_usedFree (unseen_blocked unseen_worksOn h)) hr ..

theorem tileCounts_of_live (h : tileLive s t = true) : tileCounts s t = true := by
  unfold tileLive at h
  unfold tileCounts
  cases hseg : (tileOf s t).seg with
  | none => simp [hseg] at h
  | some g =>
    cases hwait : (tileOf s t).waiting with
    | none => rfl
    | some w => cases w <;> simp_all

/-- Settles O27. -/
theorem abortsEndTheRun : Obligations.AbortsEndTheRun := by
  intro t s l g r _ hfix hg hlive hl hr
  have hworks : WorksOn t.val g l s := ⟨hg, hl⟩
  refine ⟨?_, fun a path => ?_, fun a path => ?_⟩
  · refine ⟨_, ?_, tileStop_ends hfix (worksOn_cutCurrent hworks) hr 1 g.budget⟩
    rw [exec_budgetAbort, execBudgetAbort, tileCounts_of_live hlive]
    simp only [hg, Bool.not_true, Bool.false_eq_true, if_false]
  · refine ⟨_, ?_, tileMemory_ends hfix (unseen_markDamaged unseen_worksOn (addr := tileAddr t.val a.toNat) hworks) hr (tileAddr t.val a.toNat) path⟩
    rw [exec_memoryAbort, execMemoryAbort, hlive]
    rfl
  · refine ⟨_, ?_, tileAccess_ends hfix (worksOn_cutCurrent hworks) hr (tileAddr t.val a.toNat) path⟩
    rw [exec_accessAbort, execAccessAbort, hlive]
    rfl

/-! ### SIGNAL, SYNC and HALT -/

variable {e : Line}

/-- The tile of a point that has cost its cycles. -/
def tileCosted (t n : Nat) (e : Line) (x : Tile) : Tile :=
  { x with seg := x.seg.map fun g => { g with used := g.used + n }
           crc := if tileFixed t then crcFold x.crc (wordBytes (e.getD 0 0)) else x.crc }

theorem tileOf_pointCost (ht : t < s.tiles.length) (n : Nat) : tileOf (pointCost t n e s) t = tileCosted t n e (tileOf s t) :=
  tileOf_tileMod (s := perfAdd (tileEngine t) n s) ht (tileCosted t n e)

theorem pointCost_length (n : Nat) : (pointCost t n e s).tiles.length = s.tiles.length := by simp [pointCost, tileMod, perfAdd]

theorem pointCmd_general {opc : Nat} (pass : Inst → TileSeg → State → State) (hcur : tileCur s t = some (l, g, e)) (hop : opcOf e = opc)
    (hn : ¬ (if opc = 0x0D then g.budget < g.used + cmdCycles s t e else g.budget ≤ g.used + cmdCycles s t e))
    (hfix : tileFixed t = false) :
    pointCmd opc t e s pass = .next (pass l { g with used := g.used + cmdCycles s t e } (pointCost t (cmdCycles s t e) e s)) := by
  rw [pointCmd, hcur]
  simp only [hop, ne_eq, not_true_eq_false, or_self, if_false, if_neg hn, hfix, Bool.false_eq_true]

theorem pointCmd_fixed {opc : Nat} (pass : Inst → TileSeg → State → State) (hcur : tileCur s t = some (l, g, e)) (hop : opcOf e = opc)
    (hn : g.used + cmdCycles s t e < g.budget) (hfix : tileFixed t = true) :
    ∃ u, pointCmd opc t e s pass = .next u ∧ (tileOf u t).waiting = some .point ∧ u.lists = s.lists := by
  have ht := lt_tiles_of_seg (tileCur_parts hcur).1
  have hn' : ¬ (if opc = 0x0D then g.budget < g.used + cmdCycles s t e else g.budget ≤ g.used + cmdCycles s t e) := by
    split <;> omega
  refine ⟨tileMod t (fun x => { x with waiting := some .point }) (pointCost t (cmdCycles s t e) e s), ?_, ?_, rfl⟩
  · rw [pointCmd, hcur]
    simp only [hop, ne_eq, not_true_eq_false, or_self, if_false, if_neg hn', hfix, if_true]
  · exact congrArg Tile.waiting (tileOf_tileMod (by rw [pointCost_length]; exact ht) _)

theorem flagSet_flags (f : Nat) (vec : Option Nat) (s : State) : (flagSet f vec s).lists.flags = setBit s.lists.flags f true := by
  unfold flagSet
  extract_lets x s1 x1 s2 x2
  have h2 : s2.lists = s1.lists := by
    simp only [s2]
    split <;> rfl
  have h1 : s2.lists.flags = setBit s.lists.flags f true := by rw [h2]
  split
  · split
    · exact h1
    · rw [msixDue_lists]
      exact h1
  · exact h1

/-- A property of the tiles alone. -/
theorem unseen_tiles (l : List Tile) : Unseen (fun u => u.tiles = l) where
  mem _ h := h
  mbs _ h := h
  lists _ h := h
  clerk h := h
  evt h := h
  msix h := h
  diag h := h
  pipe h := h
  rope h := h
  stage h := h
  est h := h
  ledger h := h
  boot h := h

theorem flagSet_tiles (f : Nat) (vec : Option Nat) (s : State) : (flagSet f vec s).tiles = s.tiles :=
  unseen_flagSet (unseen_tiles s.tiles) rfl

theorem signalPass_tile (ht : t < s.tiles.length) : (tileOf (signalPass l g t e s) t).seg = some { g with cmd := g.cmd + 1 } := by
  unfold signalPass
  extract_lets p x s1 w s2
  have h2 : s2.tiles = s.tiles := by
    simp only [s2]
    split
    · exact flagSet_tiles ..
    · rfl
  exact congrArg Tile.seg (tileOf_tileMod (by rw [h2]; exact ht) _)

theorem signalPass_flags : (signalPass l g t e s).lists.flags =
    if allArrived l g (arrive l.id g.seg g.cmd t s.lists.signals) then setBit s.lists.flags (fld (e.getD 0 0) 0 6) true
    else s.lists.flags := by
  unfold signalPass
  extract_lets p x s1 w s2
  show s2.lists.flags = _
  simp only [s2]
  refine (apply_ite (fun u : State => u.lists.flags) _ _ _).trans ?_
  rw [flagSet_flags]
  rfl

theorem tileOf_syncPass (ht : t < s.tiles.length) : tileOf (syncPass l g t e s) t =
    { tileOf s t with waiting := some (if fld (e.getD 0 0) 16 8 = 0 then .barrier else .flag (fld (e.getD 0 0) 0 6)) } := by
  by_cases hb : fld (e.getD 0 0) 16 8 = 0
  · simp only [syncPass, if_pos hb]
    exact tileOf_tileMod ht _
  · simp only [syncPass, if_neg hb]
    exact tileOf_tileMod ht _

/-! ### HALT -/

theorem later_tileFreed (t : Nat) (c : Nat × Nat) : Later s (tileMod t (fun x => { x with seg := none, waiting := none, count := c }) s) := by
  refine ⟨fun k => ?_, fun _ x hx => ⟨x, hx, rfl, fun h => ⟨h, rfl⟩⟩, fun _ _ _ h => h⟩
  by_cases hk : k = t
  · subst hk
    by_cases ht : k < s.tiles.length
    · rw [tileOf_tileMod ht]
      exact .inr ⟨rfl, rfl⟩
    · left
      unfold tileMod
      rw [tileOf_modify_outside ht]
  · exact .inl (tileOf_tileMod_other _ hk)

theorem later_inView {r : Seer} {f : State → State} (hf : ∀ {w : State}, Later w w → Later w (f w)) : Later s (inView r f s) := by
  have h1 : Later s (seeAs r s) := unseen_seeAs unseen_later (.refl s)
  exact (h1.trans (hf (.refl _))).of_eq rfl rfl

theorem later_runCommit (id : Nat) : Later s (runCommit id s) := by
  unfold runCommit
  split
  · exact .refl s
  · next l hl =>
    split
    · exact .refl s
    · next r hr =>
      extract_lets s1 v s2 s3
      have hlid := id_of_instOf hl
      have h1 : Cleared id s s1 := cleared_runClear (.refl s) rfl fun _ => .inl rfl
      have h2 : Cleared id s s2 := h1.trans (holds_foldl (.refl s1) fun _ _ ht => unseen_seenWords unseen_later ht)
      have h3 : Cleared id s s3 := by
        refine h2.trans (later_instSet id ?_ ?_ ?_ (.refl s2))
        · exact fun _ => rfl
        · exact fun _ => rfl
        · exact fun x _ _ => ⟨rfl, rfl⟩
      rw [← hlid] at h3 ⊢
      exact (cleared_removalDue (cleared_onceGone (h3.trans (unseen_energyCharge unseen_later (.refl s3))))).1

theorem later_vetoLatch (c : Nat) : Later s (vetoLatch c s) :=
  (Later.refl s).of_eq (vetoLatch_tiles ..) (congrArg Lists.inst (vetoLatch_lists ..))

theorem later_mismatchAbort (q : Nat) : Later s (mismatchAbort q g t s) := by
  unfold mismatchAbort
  extract_lets s1
  have h1 : Later s s1 := unseen_computeAdd unseen_later (later_segAbort (.refl s))
  exact holds_ite (unseen_listRecord unseen_later (later_queueFault (h1.trans (later_vetoLatch 1)))) h1

theorem later_builtinAbort (a : Nat) : Later s (builtinAbort l g t a s) := by
  unfold builtinAbort
  extract_lets s1
  have h1 : Later s s1 := unseen_uncorrectable unseen_later (.refl s)
  exact holds_ite (h1.trans (later_mismatchAbort _)) (later_segAbort h1)

theorem later_segHalted : Later s (segHalted l g t e s) := by
  unfold segHalted
  split
  · exact .refl s
  · exact later_builtinAbort _
  · extract_lets done p n s1 s2 w f
    have h1 : Later s s1 := by
      refine later_instSet l.id ?_ ?_ ?_ (.refl s)
      · exact fun _ => rfl
      · exact fun _ => rfl
      · exact fun x _ hr => ⟨by rw [hr]; rfl, rfl⟩
    have h2 : Later s s2 := by
      refine holds_ite ?_ h1
      refine (((unseen_seenJoin unseen_later h1).trans (later_inView ?_)).trans (later_runCommit _))
      exact fun hw => unseen_builtinRun unseen_later hw
    exact holds_ite (unseen_flagSet unseen_later (unseen_seenJoin unseen_later (unseen_seenFrom unseen_later h2))) h2

/-- The tile at a HALT, before the HALT enters its run. -/
def haltFreed (g : TileSeg) (t : Nat) (s : State) : State :=
  tileMod t (fun x => { x with seg := none, waiting := none, count := (g.budget, g.used) }) s

theorem later_haltFreed : Later (haltFreed g t s) (haltPass l g t e s) := by
  unfold haltPass
  extract_lets fl s1 s2 x s3
  have h2 : Later (haltFreed g t s) s2 := by
    refine later_instSet l.id ?_ ?_ ?_ (.refl s1)
    · exact fun _ => rfl
    · exact fun _ => rfl
    · exact fun x _ hr => ⟨by rw [hr]; rfl, rfl⟩
  have h3 : Later (haltFreed g t s) s3 := h2.of_eq rfl rfl
  exact holds_ite (h3.trans later_segHalted) h3

theorem later_haltPass : Later s (haltPass l g t e s) := (later_tileFreed t _).trans later_haltFreed

theorem haltPass_frees (ht : t < s.tiles.length) :
    (tileOf (haltPass l g t e s) t).seg = none ∧ (tileOf (haltPass l g t e s) t).waiting = none := by
  have hfree : tileOf (haltFreed g t s) t = _ := tileOf_tileMod ht _
  exact ⟨later_haltFreed.freed (congrArg Tile.seg hfree), later_haltFreed.freed_waiting (congrArg Tile.waiting hfree)⟩

/-! ### SYNC_RELEASE -/

theorem tileOf_cmdPass (ht : t < s.tiles.length) (n : Nat) :
    tileOf (cmdPass t n s) t = { tileOf s t with seg := (tileOf s t).seg.map fun g => { g with cmd := g.cmd + 1, used := g.used + n } } :=
  tileOf_tileMod (s := perfAdd (tileEngine t) n s) ht _

/-- A tile whose wait has ended goes on. -/
theorem waitEnded_tile (ht : t < s.tiles.length) (hg : (tileOf s t).seg = some g) (n : Nat) :
    let u := cmdPass t n (tileMod t (fun x => { x with waiting := none }) s)
    (tileOf u t).waiting = none ∧ (tileOf u t).seg = some { g with cmd := g.cmd + 1, used := g.used + n } := by
  intro u
  have hu : tileOf u t = _ := tileOf_cmdPass (by simpa [tileMod] using ht) n
  rw [hu, tileOf_tileMod ht]
  exact ⟨rfl, by simp [hg]⟩

theorem syncRelease_flag {ti : Fin 48} {wait f : Nat} (hg : (tileOf s ti.val).seg = some g)
    (hw : (tileOf s ti.val).waiting = some (.flag f)) (hl : instOf s g.listId = some l) :
    (s.lists.flags.getLsbD f = true → g.used + wait < g.budget →
      ∃ u, exec (.syncRelease ti wait) s = .next u ∧ (tileOf u ti.val).waiting = none ∧
        (tileOf u ti.val).seg = some { g with cmd := g.cmd + 1, used := g.used + wait } ∧ u.lists = s.lists ∧
        u.mem.cells = s.mem.cells) ∧
    (s.lists.flags.getLsbD f = false → exec (.syncRelease ti wait) s = .next s) := by
  rw [exec_syncRelease, execSyncRelease]
  simp only [hg, hw, hl]
  refine ⟨fun hf hn => ⟨cmdPass ti.val wait (tileMod ti.val (fun x => { x with waiting := none }) (seenJoin (.flag f) (.tile ti.val) s)),
    ?_, ?_⟩, fun hf => ?_⟩
  · rw [if_neg (by simp [syncMet, hf]), if_neg (Nat.not_le.2 hn)]
    rfl
  · obtain ⟨hwait, hseg⟩ := waitEnded_tile (s := seenJoin (.flag f) (.tile ti.val) s) (lt_tiles_of_seg hg) hg wait
    exact ⟨hwait, hseg, rfl, rfl⟩
  · rw [if_pos (by simp [syncMet, hf])]

/-- Settles O24. -/
theorem tilePoints : Obligations.TilePoints := by
  refine ⟨fun t e s l g hcur => ⟨fun hfix => ⟨fun hop hn => ?_, fun hop hn => ?_, fun hop hn => ?_⟩, fun hfix hn =>
    ⟨fun hop => pointCmd_fixed (fun l g s => signalPass l g t.val e s) hcur hop hn hfix,
      fun hop => pointCmd_fixed (fun l g s => syncPass l g t.val e s) hcur hop hn hfix,
      fun hop => pointCmd_fixed (fun l g s => haltPass l g t.val e s) hcur hop hn hfix⟩⟩, fun t wait f s l g hg hw hl => syncRelease_flag hg hw hl⟩
  all_goals
    obtain ⟨hg, hwait, -, -⟩ := tileCur_parts hcur
    have ht := lt_tiles_of_seg hg
    have ht' : t.val < (pointCost t.val (cmdCycles s t.val e) e s).tiles.length := by rw [pointCost_length]; exact ht
  · refine ⟨_, pointCmd_general (fun l g s => signalPass l g t.val e s) hcur hop (Nat.not_le.2 hn) hfix, signalPass_tile ht', ?_, ?_⟩
    · intro harr
      exact signalPass_flags.trans (if_pos harr)
    · intro harr
      exact signalPass_flags.trans (if_neg (Bool.eq_false_iff.1 harr))
  · refine ⟨_, pointCmd_general (fun l g s => syncPass l g t.val e s) hcur hop (Nat.not_le.2 hn) hfix, ?_, ?_⟩
    · rw [tileOf_syncPass ht', tileOf_pointCost ht]
      simp [tileCosted, hg]
    · rw [tileOf_syncPass ht']
  · exact ⟨_, pointCmd_general (fun l g s => haltPass l g t.val e s) hcur hop (Nat.not_lt.2 hn) hfix, haltPass_frees ht'⟩

end

end Sys2Proof.Machine
end

section
/-! PROOFS. The comparison of a fixed pair (R254, R266, R267). -/

namespace Sys2Proof.Machine

section
variable {s u : State} {t n : Nat} {g : TileSeg} {l : Inst}

/-! ### What an abort with MISMATCH leaves of the functions and the vetoes -/

/-- The functions' records and the vetoes stay as they were. -/
def FuncsKept (s u : State) : Prop := u.funcs = s.funcs ∧ u.pair.vetoes = s.pair.vetoes

variable {s₀ : State}

theorem unseen_funcsKept : Unseen (FuncsKept s₀) where
  mem _ h := h
  mbs _ h := h
  lists _ h := h
  clerk h := h
  evt h := h
  msix h := h
  diag h := h
  pipe h := h
  rope h := h
  stage h := h
  est h := h
  ledger h := h
  boot h := h

theorem funcsKept_listDrop {id : Nat} (h : FuncsKept s₀ s) : FuncsKept s₀ (listDrop id s) := by
  unfold listDrop
  split
  · exact h
  · exact h

theorem funcsKept_removalDue {id : Nat} (h : FuncsKept s₀ s) : FuncsKept s₀ (removalDue id s) := by
  unfold removalDue
  split
  · split
    · exact unseen_answer unseen_funcsKept (funcsKept_listDrop h)
    · exact h
  · exact h

theorem funcsKept_onceGone {seg cause : Nat} (h : FuncsKept s₀ s) : FuncsKept s₀ (onceGone l seg cause s) := by
  unfold onceGone
  split
  · extract_lets w
    have hw : FuncsKept s₀ w := unseen_listRecord unseen_funcsKept (funcsKept_listDrop h)
    exact holds_ite (unseen_answer unseen_funcsKept hw) hw
  · exact h

theorem funcsKept_runStop {id : Nat} (h : FuncsKept s₀ s) : FuncsKept s₀ (runStop id s) := by
  unfold runStop
  split
  · extract_lets f p
    exact holds_ite (funcsKept_removalDue h) h
  · exact h

theorem funcsKept_abortRecord {seg tile cause used : Nat} (h : FuncsKept s₀ s) : FuncsKept s₀ (abortRecord l seg tile cause used s) := by
  unfold abortRecord
  extract_lets due n
  exact holds_ite (unseen_listRecord unseen_funcsKept h) h

theorem funcsKept_mismatch {id seg tile used bseg : Nat} (hl : instOf s id = some l) (hq : l.queue = fFIXED0) :
    FuncsKept s (segAbort id seg tile 5 used bseg s) := by
  have hstreak (w : State) : streakAbort l.queue 5 w = w := by
    unfold streakAbort
    exact if_pos hq
  unfold segAbort
  rw [hl]
  dsimp only
  rw [hstreak]
  unfold runAbort
  cases hr : l.run with
  | none =>
    simp only [hl, hr]
    exact ⟨rfl, rfl⟩
  | some r =>
    simp -zeta only [hl, hr]
    extract_lets due fl pk stop w r' m f s4 full s5 s6 s7
    have h4 : FuncsKept s s4 := unseen_computeAdd unseen_funcsKept ⟨rfl, rfl⟩
    have h5 : FuncsKept s s5 := holds_foldl h4 fun _ _ ht => unseen_fallbackArea unseen_funcsKept ht
    have h7 : FuncsKept s s7 :=
      funcsKept_removalDue (funcsKept_onceGone (unseen_energyCharge unseen_funcsKept (funcsKept_abortRecord h5)))
    rw [if_neg (by simp)]
    exact h7

/-- R274: what a queue that is RUNNING or STOPPED shows once it has been faulted. -/
theorem queueFault_faults {q cause : Nat} (hs : s.funcs.length = 27) (hq : q ∈ fnIds) (hstate : fnState s q = .running) :
    let u := queueFault q cause s
    fnState u q = .faulted ∧ (fnRec u q).faultCause = BitVec.ofNat 16 cause ∧ u.pair.vetoes = s.pair.vetoes := by
  intro u
  have hu : u = answer (.funcStop q) .fault q [] (queueStopRuns q (fnFault q cause s)) := by
    simp only [u, queueFault, queueFaulted]
    rw [if_neg (by simp [hstate])]
  have hk : FuncsKept (fnFault q cause s) u := by
    rw [hu]
    exact unseen_answer unseen_funcsKept (holds_foldl ⟨rfl, rfl⟩ fun _ _ ht => funcsKept_runStop ht)
  obtain ⟨hfuncs, hvetoes⟩ := hk
  have hrec := fnRec_fnSet (x := .faulted) hs hq (by rw [hstate]; decide) cause
  rw [fnState, fnRec_congr hfuncs, fnFault, hrec]
  refine ⟨rfl, rfl, hvetoes.trans ?_⟩
  rw [fnFault, fnSet_pair]

theorem getLsbD_setBit_true {w : Nat} (v : BitVec w) {i : Nat} (hi : i < w) : (setBit v i true).getLsbD i = true := by
  simp [setBit, hi]

theorem dropReq_vetoes (s : State) : (dropReq s).pair.vetoes = s.pair.vetoes := by
  unfold dropReq
  split
  · rw [msixDue_pair]
  · rfl

theorem vetoLatch_latches {c : Nat} (hc : c < 16) (s : State) : (vetoLatch c s).pair.vetoes.getLsbD c = true := by
  unfold vetoLatch
  split
  · assumption
  · rw [dropReq_vetoes, emit_pair]
    exact getLsbD_setBit_true _ hc

/-! ### The wait for the Assayer -/

/-- A state that differs from another in one tile's count of cycles alone. -/
def Waited (t : Nat) (g : TileSeg) (s u : State) : Prop :=
  ∃ k ts, u = { s with tiles := ts } ∧ (∀ i, i ≠ t → ts.getD i {} = tileOf s i) ∧ ts.getD t {} = { tileOf s t with seg := some { g with used := k } }

theorem pointWait_waited (hg : (tileOf s t).seg = some g) (hn : g.used + n < g.budget) : Waited t g s (pointWait t n s) := by
  have hsame : Waited t g s s := ⟨g.used, s.tiles, rfl, fun _ _ => rfl, by rw [← hg]; rfl⟩
  unfold pointWait
  simp only [hg]
  split
  · exact hsame
  · rw [if_neg (Nat.not_le.2 hn)]
    exact ⟨g.used + n, _, rfl, fun i hi => tileOf_tileMod_other _ hi, tileOf_tileMod (lt_tiles_of_seg hg) _⟩

/-- At its HALT a tile has ended its count. -/
theorem pointWait_halt (hg : (tileOf s t).seg = some g) (hw : (tileOf s t).waiting = some .point) (hl : instOf s g.listId = some l)
    (hop : opcOf (l.cmds.getD g.cmd []) = 0x0D) (n : Nat) : pointWait t n s = s := by
  have hcount : tileCounts s t = false := by
    unfold tileCounts
    simp only [hg, hw, hl, hop, ne_eq, not_true_eq_false, decide_false]
  unfold pointWait
  simp only [hg, hcount, Bool.not_false, or_true, if_true]

theorem pairWait_point (hw : (tileOf s t).waiting = some .point) : pairWait s t = some .point := by
  rw [pairWait, hw]

theorem pairComparison_point {p : Fin 2} {waits : Nat × Nat} (h1 : (tileOf s (pairTiles p.val).1).waiting = some .point)
    (h2 : (tileOf s (pairTiles p.val).2).waiting = some .point) :
    exec (.pairComparison p ⟨.halt, waits⟩) s =
      .next (pairCompare p.val (pointWait (pairTiles p.val).2 waits.2 (pointWait (pairTiles p.val).1 waits.1 s))) := by
  rw [exec_pairComparison, execPairComparison]
  exact if_pos ⟨pairWait_point h1, pairWait_point h2⟩

/-! ### What the comparison decides -/

theorem pointPass_halt (hg : (tileOf s t).seg = some g) (hl : instOf s g.listId = some l) (hop : opcOf (l.cmds.getD g.cmd []) = 0x0D) :
    pointPass t s = haltPass l g t (l.cmds.getD g.cmd []) s := by
  unfold pointPass
  simp only [hg, hl, hop]

/-- The HALT of one member and then of the other frees both. -/
theorem pointPass_halts {t' : Nat} {b : TileSeg} (hg : (tileOf s t).seg = some g) (hb : (tileOf s t').seg = some b)
    (hl : instOf s g.listId = some l) (hop : opcOf (l.cmds.getD g.cmd []) = 0x0D) (hid : g.listId = b.listId) (hcmd : g.cmd = b.cmd) :
    (tileOf (pointPass t' (pointPass t s)) t).seg = none ∧ (tileOf (pointPass t' (pointPass t s)) t').seg = none := by
  rw [pointPass_halt hg hl hop]
  have hlater : Later s (haltPass l g t (l.cmds.getD g.cmd []) s) := later_haltPass
  have hfree := (haltPass_frees (l := l) (g := g) (e := l.cmds.getD g.cmd []) (lt_tiles_of_seg hg)).1
  generalize haltPass l g t (l.cmds.getD g.cmd []) s = w at hlater hfree
  rcases hlater.tile t' with hsame | ⟨hgone, -⟩
  · have hb' : (tileOf w t').seg = some b := by rw [hsame, hb]
    obtain ⟨l', hl'⟩ : ∃ l', instOf w b.listId = some l' := by
      cases hi : instOf w b.listId with
      | some l' => exact ⟨l', rfl⟩
      | none =>
        have hnone := hlater.stays t' b hb' hi
        rw [← hid, hl] at hnone
        cases hnone
    obtain ⟨y, hy, hcmds, -⟩ := hlater.inst _ _ hl'
    rw [← hid, hl, Option.some.injEq] at hy
    subst hy
    rw [pointPass_halt hb' hl' (by rw [hcmds, ← hcmd]; exact hop)]
    exact ⟨later_haltPass.freed hfree, (haltPass_frees (lt_tiles_of_seg hb')).1⟩
  · have hskip : pointPass t' w = w := by
      unfold pointPass
      simp only [hgone]
    rw [hskip]
    exact ⟨hfree, hgone⟩

/-- R267: a mismatch in FIXED.Q0 latches veto 1 and faults the queue. -/
theorem pairMismatch_faults (hs : s.funcs.length = 27) (hg : (tileOf s t).seg = some g) (hl : instOf s g.listId = some l)
    (hq : l.queue = fFIXED0) (hrun : fnState s fFIXED0 = .running) :
    let u := pairMismatch t s
    fnState u fFIXED0 = .faulted ∧ (fnRec u fFIXED0).faultCause = 0x0301 ∧ u.pair.vetoes.getLsbD 1 = true := by
  intro u
  have hqueue : tileQueue s t = fFIXED0 := by
    unfold tileQueue
    simp only [hg, hl, Option.map_some, Option.getD_some, hq]
  have hu : u = mismatchAbort fFIXED0 g t s := by
    simp only [u, pairMismatch, hg, hqueue]
  rw [hu]
  unfold mismatchAbort
  extract_lets w
  rw [if_pos rfl]
  have hw : FuncsKept s w := unseen_computeAdd unseen_funcsKept (funcsKept_mismatch hl hq)
  have hfuncs : (vetoLatch 1 w).funcs = s.funcs := (vetoLatch_funcs ..).trans hw.1
  obtain ⟨hstate, hcause, hvetoes⟩ := queueFault_faults (s := vetoLatch 1 w) (q := fFIXED0) (cause := 0x0301)
    (by rw [hfuncs]; exact hs) (by decide) ((fnState_congr hfuncs _).trans hrun)
  have hk : FuncsKept (queueFault fFIXED0 0x0301 (vetoLatch 1 w))
      (listRecord 3 0x0106 fFIXED0 g.listId g.seg 5 [] (queueFault fFIXED0 0x0301 (vetoLatch 1 w))) :=
    unseen_listRecord unseen_funcsKept ⟨rfl, rfl⟩
  rw [fnState_congr hk.1, fnRec_congr hk.1, hk.2, hvetoes]
  exact ⟨hstate, hcause, vetoLatch_latches (by decide) w⟩

theorem pairTiles_ne (p : Nat) : (pairTiles p).1 ≠ (pairTiles p).2 := by
  unfold pairTiles
  split <;> decide

/-- Settles O25. -/
theorem pairComparisonDecides : Obligations.PairComparisonDecides := by
  intro p waits s l a b hsound hslow hna hnb ha hb hwa hwb hl
  have hne := pairTiles_ne p.val
  refine ⟨fun hid hseg hcmd hcrc hop => ⟨_, pairComparison_point hwa hwb, ?_⟩, fun hcrc hq hrun => ⟨_, pairComparison_point hwa hwb, ?_⟩⟩
  · rw [pointWait_halt ha hwa hl hop, pointWait_halt hb hwb (by rw [← hid]; exact hl) (by rw [← hcmd]; exact hop)]
    have hpass : pairCompare p.val s = pointPass (pairTiles p.val).2 (pointPass (pairTiles p.val).1 (crcKeep p.val s)) := by
      unfold pairCompare
      simp only [pairWait_point hwa, pairWait_point hwb]
      exact if_pos ⟨by simp only [tileAt, ha, hb, Option.map_some, hid, hseg, hcmd], by simp [crcSame, hcrc, hslow]⟩
    rw [hpass]
    exact pointPass_halts (s := crcKeep p.val s) ha hb hl hop hid hcmd
  · obtain ⟨k, ts, hw, hothers, hown⟩ := pointWait_waited ha hna
    generalize pointWait (pairTiles p.val).1 waits.1 s = w at hw
    have hown' : tileOf w (pairTiles p.val).1 = _ := (congrArg (fun x => tileOf x (pairTiles p.val).1) hw).trans hown
    have hb' : tileOf w (pairTiles p.val).2 = tileOf s (pairTiles p.val).2 :=
      (congrArg (fun x => tileOf x (pairTiles p.val).2) hw).trans (hothers _ hne.symm)
    obtain ⟨k', ts', hv, hothers', hown''⟩ := pointWait_waited (s := w) (t := (pairTiles p.val).2) (n := waits.2) (by rw [hb', hb]) hnb
    generalize pointWait (pairTiles p.val).2 waits.2 w = v at hv
    have h1 : tileOf v (pairTiles p.val).1 = { tileOf s (pairTiles p.val).1 with seg := some { a with used := k } } :=
      ((congrArg (fun x => tileOf x (pairTiles p.val).1) hv).trans (hothers' _ hne)).trans hown'
    have h2 : tileOf v (pairTiles p.val).2 = { tileOf s (pairTiles p.val).2 with seg := some { b with used := k' } } :=
      ((congrArg (fun x => tileOf x (pairTiles p.val).2) hv).trans hown'').trans (by rw [hb'])
    have hfuncs : v.funcs = s.funcs := by rw [hv, hw]
    have hinst : v.lists.inst = s.lists.inst := by rw [hv, hw]
    have hdiffer : pairCompare p.val v = pairMismatch (pairTiles p.val).1 (crcKeep p.val v) := by
      unfold pairCompare
      simp only [pairWait_point (s := v) (t := (pairTiles p.val).1) (by rw [h1]; exact hwa),
        pairWait_point (s := v) (t := (pairTiles p.val).2) (by rw [h2]; exact hwb)]
      refine if_neg fun h => hcrc ?_
      have hsame := h.2
      simp only [crcSame, h1, h2, Bool.and_eq_true, decide_eq_true_eq] at hsame
      exact hsame.1
    rw [hdiffer]
    obtain ⟨-, -, -, hlen, -⟩ := hsound
    refine pairMismatch_faults (s := crcKeep p.val v) (g := { a with used := k }) (l := l) (by rw [show (crcKeep p.val v).funcs = v.funcs from rfl, hfuncs]; exact hlen)
      (congrArg Tile.seg h1) ?_ hq ((fnState_congr (t := s) hfuncs _).trans hrun)
    show List.find? _ v.lists.inst = _
    rw [hinst]
    exact hl

end

end Sys2Proof.Machine
end

section
/-! PROOFS. Remote accesses (R187, R189, R249, R254). -/

namespace Sys2Proof.Machine

section
variable {s u : State} {t : Nat} {g : TileSeg} {l : Inst} {e : Line}

/-! ### What a record writes -/

/-- A record goes to the ring in host memory or to the queue, or is counted as dropped; nothing else changes. -/
theorem evtPlace_parts (r : Line) (s : State) : ∃ evt host n, evtPlace r s =
    { s with evt := evt, mem := { s.mem with host := host }, diag := { s.diag with host := n } } := by
  unfold evtPlace
  split
  · split
    · exact ⟨_, _, s.diag.host, rfl⟩
    · exact ⟨_, s.mem.host, _, rfl⟩
  · split
    · exact ⟨_, s.mem.host, s.diag.host, rfl⟩
    · exact ⟨_, s.mem.host, _, rfl⟩

theorem emit_parts (a b c : Nat) (d : List Word) (s : State) : ∃ evt host n, emit a b c d s =
    { s with evt := evt, mem := { s.mem with host := host }, diag := { s.diag with host := n } } := by
  unfold emit
  extract_lets r w
  split
  · exact ⟨_, s.mem.host, s.diag.host, rfl⟩
  · obtain ⟨evt, host, n, h⟩ := evtPlace_parts r w
    exact ⟨evt, host, n, h⟩

/-! ### A tile begins a remote access -/

theorem opcode_remote {opc : Nat} (hop : opcOf e = opc) : ¬ (e ≠ e ∨ opcOf e ≠ opc) := by simp [hop]

theorem remoteCmd_fails {opc : Nat} {ti : Fin 48} {r : Run} (hfix : tileFixed ti.val = false) (hcur : tileCur s ti.val = some (l, g, e))
    (hdam : cmdDamage (seeAs (.tile ti.val) s) l ti.val e = none) (hn : g.used + cmdCycles s ti.val e < g.budget)
    (hrope : fnRunning s fROPE = false) (hop : opcOf e = opc) (hr : l.run = some r) :
    ∃ u, remoteCmd opc ti e s = .next u ∧ (tileOf u ti.val).seg = none ∧
      ∀ x, instOf u g.listId = some x → x.run = none ∧ x.lastAbort = 4 := by
  refine ⟨remoteFail ti.val 4 e s, ?_, ?_⟩
  · rw [remoteCmd, hcur]
    simp only [if_neg (opcode_remote hop), hdam, if_neg (Nat.not_le.2 hn), hrope, Bool.not_false, if_true]
  · exact tileStop_ends hfix (worksOn_usedFree (unseen_remoteFailed unseen_worksOn (worksOn_of_tileCur hcur))) hr ..

theorem tileOf_actAdd (ht : t < s.tiles.length) (n : List Nat) : tileOf (actAdd t n s) t =
    { tileOf s t with seg := (tileOf s t).seg.map fun g => { g with acts := (g.acts.zip n).map fun p => p.1 + p.2 } } :=
  tileOf_tileMod ht _

/-- A remote access has begun: its activity is counted, its request may have gone out, and the tile waits after `n` cycles. -/
def remoteBegun (t n : Nat) (e : Line) (acts : List Nat) (bytes : Nat) (rope : Rope) (s : State) : State :=
  tileMod t (fun x => { x with seg := x.seg.map fun g => { g with used := g.used + n }, waiting := some (.remote e) })
    (perfAdd (tileEngine t) n { actAdd t acts (perfAdd 5 bytes s) with rope := rope })

theorem remoteBegun_tile (hg : (tileOf s t).seg = some g) (n : Nat) (acts : List Nat) (bytes : Nat) (rope : Rope) :
    let u := remoteBegun t n e acts bytes rope s
    (tileOf u t).waiting = some (.remote e) ∧
      (tileOf u t).seg = some { g with used := g.used + n, acts := (g.acts.zip acts).map fun p => p.1 + p.2 } ∧ u.mem = s.mem := by
  intro u
  have ht := lt_tiles_of_seg hg
  have hact : tileOf { actAdd t acts (perfAdd 5 bytes s) with rope := rope } t = _ := tileOf_actAdd (s := perfAdd 5 bytes s) ht acts
  have hu : tileOf u t = _ := tileOf_tileMod (s := perfAdd (tileEngine t) n { actAdd t acts (perfAdd 5 bytes s) with rope := rope })
    (by simpa [perfAdd, actAdd, tileMod] using ht) _
  rw [hu]
  refine ⟨rfl, ?_, rfl⟩
  show Option.map _ (tileOf { actAdd t acts (perfAdd 5 bytes s) with rope := rope } t).seg = _
  rw [hact, show tileOf (perfAdd 5 bytes s) t = tileOf s t from rfl, hg]
  rfl

theorem remoteCmd_begins {opc : Nat} {ti : Fin 48} (hfix : tileFixed ti.val = false) (hcur : tileCur s ti.val = some (l, g, e))
    (hdam : cmdDamage (seeAs (.tile ti.val) s) l ti.val e = none) (hn : g.used + cmdCycles s ti.val e < g.budget)
    (hrope : fnRunning s fROPE = true) (hop : opcOf e = opc) :
    ∃ u, remoteCmd opc ti e s = .next u ∧ (tileOf u ti.val).waiting = some (.remote e) ∧
      (tileOf u ti.val).seg = some { g with
        used := g.used + cmdCycles s ti.val e
        acts := (g.acts.zip (cmdActivity (seeAs (.tile ti.val) s) l ti.val e)).map fun p => p.1 + p.2 } ∧ u.mem = s.mem := by
  obtain ⟨hg, -, -, -⟩ := tileCur_parts hcur
  have hbegun : ∃ bytes rope, remoteCmd opc ti e s =
      .next (remoteBegun ti.val (cmdCycles s ti.val e) e (cmdActivity (seeAs (.tile ti.val) s) l ti.val e) bytes rope s) := by
    rw [remoteCmd, hcur]
    simp only [if_neg (opcode_remote hop), hdam, if_neg (Nat.not_le.2 hn), hrope, Bool.not_true, Bool.false_eq_true, if_false, hfix,
      and_false, false_and]
    split
    · exact ⟨_, s.rope, rfl⟩
    · exact ⟨_, _, rfl⟩
  obtain ⟨bytes, rope, hexec⟩ := hbegun
  exact ⟨_, hexec, remoteBegun_tile hg ..⟩

/-! ### Its response -/

theorem remoteEnd_goes_on (hg : (tileOf s t).seg = some g) {n : Nat} (hn : g.used + n < g.budget) (ws : List (Nat × List Byte)) :
    let u := remoteEnd l g t n ws s
    (tileOf u t).waiting = none ∧ (tileOf u t).seg = some { g with cmd := g.cmd + 1, used := g.used + n } ∧
      u.mem = (opWrites l t ws s).mem := by
  intro u
  have hw : TileWrote t s (opWrites l t ws s) := opWrites_wrote ..
  have hu : u = cmdPass t n (tileMod t (fun x => { x with waiting := none }) (opWrites l t ws s)) := if_neg (Nat.not_le.2 hn)
  obtain ⟨hwait, hseg⟩ := waitEnded_tile (s := opWrites l t ws s) (g := g) (by rw [hw.length]; exact lt_tiles_of_seg hg)
    (by rw [hw.own]; exact hg) n
  rw [hu]
  exact ⟨hwait, hseg, rfl⟩

theorem remoteOf_waiting (hw : (tileOf s t).waiting = some (.remote e)) : remoteOf s t = some e := by
  rw [remoteOf, hw]

theorem execRemoteResponse_of {ti : Fin 48} {a : RemoteAnswer} (hrole : s.clerk.ropeRole ≠ 1) (ha : a.crcFails = 0)
    (hg : (tileOf s ti.val).seg = some g) (hw : (tileOf s ti.val).waiting = some (.remote e)) (hl : instOf s g.listId = some l) :
    (a.reply = .acknowledged → opcOf e = 0x0B → exec (.remoteResponse ti a) s = .next (remoteEnd l g ti.val a.wait [] s)) ∧
    (∀ ws, a.reply = .data ws → opcOf e = 0x0C →
      exec (.remoteResponse ti a) s = .next (remoteEnd l g ti.val a.wait [(addrAt e 1, getBytes e ws)] s)) := by
  rw [exec_remoteResponse, execRemoteResponse]
  simp only [if_neg hrole, ha, ne_eq, not_true_eq_false, if_false, hg, remoteOf_waiting hw, hl]
  refine ⟨fun hr hop => ?_, fun ws hr hop => ?_⟩
  · simp only [hr, hop, if_true]
  · simp only [hr, hop, if_true]

/-! ### The requests of another member -/

theorem remoteFailed_parts (func tile reader addr member : Nat) (s : State) : ∃ evt host diag,
    remoteFailed func tile reader addr member s = { s with evt := evt, mem := { s.mem with host := host }, diag := diag } := by
  obtain ⟨evt, host, n, h⟩ := emit_parts 1 0 0x0014 (memData func tile reader 5 addr member 1)
    { s with diag := { s.diag with memory := bump s.diag.memory 11 1 } }
  exact ⟨evt, host, _, h⟩

theorem uncorrectable_parts (func tile reader addr : Nat) (s : State) : ∃ evt host diag,
    uncorrectable func tile reader addr s = { s with evt := evt, mem := { s.mem with host := host }, diag := diag } := by
  obtain ⟨evt, host, n, h⟩ := emit_parts 2 0 0x0010 (memData func tile reader (regionNum addr) addr 0 1)
    { s with diag := { s.diag with memory := bump s.diag.memory (2 * regionNum addr + 1) 1 } }
  exact ⟨evt, host, _, h⟩

theorem readCount_parts (a n : Nat) (s : State) : ∃ p, readCount a n s = { s with diag := { s.diag with perf := p } } := by
  unfold readCount
  split
  · exact ⟨_, rfl⟩
  · exact ⟨s.diag.perf, rfl⟩

theorem devWrite_parts (who : Seer) (a : Nat) (bs : List Byte) (s : State) : ∃ p, devWrite who a bs s =
    { s with mem := (seenBytes who a bs s).mem, diag := { s.diag with perf := p } } := by
  unfold devWrite
  split
  · exact ⟨_, rfl⟩
  · exact ⟨s.diag.perf, rfl⟩

section
variable {m : BitVec 11} {off : BitVec 40} {rope : RopeSide}

/-- The answer that a refusal sends, with the memory that the module keeps. -/
theorem refused_keeps (a : Nat) : ∃ u, reply rope m .refused (remoteFailed 0 0xFF 5 a m.toNat s) = u ∧ u.mem.cells = s.mem.cells ∧
    u.mem.writes = s.mem.writes ∧ u.rope = { s.rope with replied := some (replyRope s (ropeB? rope), m, .refused) } := by
  obtain ⟨evt, host, diag, h⟩ := remoteFailed_parts 0 0xFF 5 a m.toNat s
  rw [h]
  exact ⟨_, rfl, rfl, rfl, rfl⟩

theorem remoteWrite_stores (hon : onRope s = true) (hrole : s.clerk.ropeRole ≠ 1) {ws : List Word}
    (hin : inWindow s off.toNat (4 * ws.length) = true) (hwr : s.rope.cfg.remoteWr = true) :
    let a := s.rope.cfg.winBase + off.toNat
    let seen := if coherent a (bytesOf ws).length then [.member m.toNat, .host] else [.member m.toNat]
    ∃ u, exec (.remoteRequest m off ⟨.write ws, rope, 0⟩) s = .next u ∧ u.mem = (pendWords seen a ws s).mem ∧
      u.rope = { s.rope with replied := some (replyRope s (ropeB? rope), m, .acknowledged) } ∧
      u = { s with mem := u.mem, rope := u.rope, diag := { s.diag with perf := u.diag.perf } } := by
  intro a seen
  obtain ⟨p, hw⟩ := devWrite_parts (.member m.toNat) a (bytesOf ws) s
  refine ⟨reply rope m .acknowledged (perfAdd 7 (4 * ws.length) (devWrite (.member m.toNat) a (bytesOf ws) s)), ?_, ?_⟩
  · rw [exec_remoteRequest, execRemoteRequest]
    simp [hon, hrole, hin, hwr]
    rfl
  · rw [hw]
    exact ⟨rfl, rfl, rfl⟩

theorem remoteWrite_refused (hon : onRope s = true) (hrole : s.clerk.ropeRole ≠ 1) {ws : List Word}
    (hbad : inWindow s off.toNat (4 * ws.length) = false ∨ s.rope.cfg.remoteWr = false) :
    ∃ u, exec (.remoteRequest m off ⟨.write ws, rope, 0⟩) s = .next u ∧ u.mem.cells = s.mem.cells ∧ u.mem.writes = s.mem.writes ∧
      u.rope = { s.rope with replied := some (replyRope s (ropeB? rope), m, .refused) } := by
  obtain ⟨u, hu, hkeeps⟩ := refused_keeps (s := s) (m := m) (rope := rope) (s.rope.cfg.winBase + off.toNat)
  refine ⟨u, ?_, hkeeps⟩
  rw [exec_remoteRequest, execRemoteRequest, ← hu]
  rcases hbad with h | h <;> simp [hon, hrole, h]

theorem remoteRead_answers (hon : onRope s = true) (hrole : s.clerk.ropeRole ≠ 1) {n : Nat} (hin : inWindow s off.toNat n = true)
    (hdam : damagedIn (seeAs (.member m.toNat) s) (s.rope.cfg.winBase + off.toNat) n = none) :
    let ws := memWords (seeAs (.member m.toNat) s) (s.rope.cfg.winBase + off.toNat) (n / 4)
    ∃ u, exec (.remoteRequest m off ⟨.read n, rope, 0⟩) s = .next u ∧ u.mem = s.mem ∧
      u.rope = { s.rope with replied := some (replyRope s (ropeB? rope), m, .data ws) } := by
  intro ws
  obtain ⟨p, hp⟩ := readCount_parts (s.rope.cfg.winBase + off.toNat) n s
  refine ⟨reply rope m (.data ws) (perfAdd 7 n (readCount (s.rope.cfg.winBase + off.toNat) n s)), ?_, ?_⟩
  · rw [exec_remoteRequest, execRemoteRequest]
    simp [hon, hrole, hin, hdam]
    rfl
  · rw [hp]
    exact ⟨rfl, rfl⟩

theorem remoteRead_keeps (hon : onRope s = true) (hrole : s.clerk.ropeRole ≠ 1) (n : Nat) :
    ∃ u, exec (.remoteRequest m off ⟨.read n, rope, 0⟩) s = .next u ∧ u.mem.cells = s.mem.cells ∧ u.mem.writes = s.mem.writes := by
  cases hin : inWindow s off.toNat n with
  | false =>
    obtain ⟨u, hu, hcells, hwrites, -⟩ := refused_keeps (s := s) (m := m) (rope := rope) (s.rope.cfg.winBase + off.toNat)
    refine ⟨u, ?_, hcells, hwrites⟩
    rw [exec_remoteRequest, execRemoteRequest, ← hu]
    simp [hon, hrole, hin]
  | true =>
    cases hdam : damagedIn (seeAs (.member m.toNat) s) (s.rope.cfg.winBase + off.toNat) n with
    | none =>
      obtain ⟨u, hu, hmem, -⟩ := remoteRead_answers (rope := rope) hon hrole hin hdam
      exact ⟨u, hu, by rw [hmem], by rw [hmem]⟩
    | some d =>
      obtain ⟨evt, host, diag, h⟩ := uncorrectable_parts 0 0xFF 5 d s
      refine ⟨reply rope m .memoryError (uncorrectable 0 0xFF 5 d s), ?_, ?_⟩
      · rw [exec_remoteRequest, execRemoteRequest]
        simp [hon, hrole, hin, hdam]
      · rw [h]
        exact ⟨rfl, rfl⟩

theorem remoteRequest_lost (hon : onRope s = true) (hrole : s.clerk.ropeRole ≠ 1) (op : RemoteOp) {k : Nat} (hk : k ≠ 0) :
    exec (.remoteRequest m off ⟨op, rope, k⟩) s = .next (crcFail (portIn rope) k s) := by
  rw [exec_remoteRequest, execRemoteRequest]
  simp [hon, hrole, hk]

end

/-- Settles O26. -/
theorem remoteAccess : Obligations.RemoteAccess := by
  refine ⟨fun t e s l g hfix => ⟨fun hcur hdam hn hrope => ⟨fun hop => remoteCmd_begins hfix hcur hdam hn hrope hop,
      fun hop => remoteCmd_begins hfix hcur hdam hn hrope hop⟩,
    fun hcur hdam hn hrope hop r hr _ => remoteCmd_fails hfix hcur hdam hn hrope hop hr, fun hg hw hl => ⟨?_, ?_, ?_⟩⟩, ?_, ?_⟩
  · intro ws wait rope hrole hop hn
    obtain ⟨hwait, hseg, hmem⟩ := remoteEnd_goes_on (l := l) hg hn [(addrAt e 1, getBytes e ws)]
    exact ⟨_, (execRemoteResponse_of hrole rfl hg hw hl).2 ws rfl hop, hwait, hseg, hmem⟩
  · intro wait rope hrole hop hn
    obtain ⟨hwait, hseg, hmem⟩ := remoteEnd_goes_on (l := l) hg hn []
    exact ⟨_, (execRemoteResponse_of hrole rfl hg hw hl).1 rfl hop, hwait, hseg, hmem⟩
  · intro why r hr _
    refine ⟨remoteFail t.val 4 e s, ?_, tileStop_ends hfix (worksOn_usedFree (unseen_remoteFailed unseen_worksOn ⟨hg, hl⟩)) hr ..⟩
    rw [exec_remoteAccessTimeout, execRemoteAccessTimeout, remoteOf_waiting hw]
  · intro a m off t b s hrole
    refine ⟨?_, ?_⟩
    · rw [exec_remoteRequest, execRemoteRequest]
      simp [hrole]
    · rw [exec_remoteResponse, execRemoteResponse, if_pos hrole]
  · intro m off ws n rope s hon hrole back
    exact ⟨remoteWrite_stores hon hrole, remoteWrite_refused hon hrole, remoteRead_answers hon hrole, remoteRead_keeps hon hrole n,
      fun op k hk => remoteRequest_lost hon hrole op hk⟩

end

end Sys2Proof.Machine
end

section
/-! PROOFS. Command lists (R275 to R278). -/

namespace Sys2Proof.Machine

section
variable {s u : State} {o : Nat} {acts : List Nat} {r : Req} {k : Seer}

/-! ### What a reader sees through a doorbell -/

theorem seeAs_host {host : List Host.Cell} (h : u.mem = { s.mem with host := host }) :
    (seeAs k u).mem = { (seeAs k s).mem with host := host } := by
  unfold seeAs
  rw [h]
  generalize s.mem.writes.filter _ = l
  induction l generalizing s u with
  | nil => exact h
  | cons w l ih =>
    refine ih ?_
    simp only [writeLand]
    split
    · simp only [memDamage, h]
    · simp only [memWrite, h]

/-- A doorbell changes nothing that a reader of device memory sees. -/
theorem seeAs_rung (o : Nat) (acts : List Nat) (r : Req) (k : Seer) (s : State) :
    ∃ mbs evt log logCount hostLoss holdLeft holdExpired host dh dc, seeAs k (rung o acts r s) = { seeAs k s with
      mbs := mbs, evt := evt, clerk := { s.clerk with log := log, logCount := logCount }
      link := { s.link with hostLoss := hostLoss, holdLeft := holdLeft, holdExpired := holdExpired }
      mem := { (seeAs k s).mem with host := host }, diag := { s.diag with host := dh, clerk := dc } } := by
  obtain ⟨mbs, evt, log, logCount, hostLoss, holdLeft, holdExpired, host, dh, dc, h⟩ := rung_parts o acts r s
  refine ⟨mbs, evt, log, logCount, hostLoss, holdLeft, holdExpired, host, dh, dc, ?_⟩
  have hmem : (seeAs k (rung o acts r s)).mem = { (seeAs k s).mem with host := host } := seeAs_host (by rw [h])
  rw [seeAs_frame k (rung o acts r s), hmem, h, seeAs_frame k s]

theorem memWords_rung (o : Nat) (acts : List Nat) (r : Req) (k : Seer) (s : State) (a n : Nat) :
    memWords (seeAs k (rung o acts r s)) a n = memWords (seeAs k s) a n := by
  obtain ⟨_, _, _, _, _, _, _, _, _, _, h⟩ := seeAs_rung o acts r k s
  rw [h]
  rfl

theorem damagedIn_rung (o : Nat) (acts : List Nat) (r : Req) (k : Seer) (s : State) (a n : Nat) :
    damagedIn (seeAs k (rung o acts r s)) a n = damagedIn (seeAs k s) a n := by
  obtain ⟨_, _, _, _, _, _, _, _, _, _, h⟩ := seeAs_rung o acts r k s
  rw [h]
  rfl

theorem clerkRead_none {a n : Nat} (h : damagedIn (seeAs .clerk s) a n = none) : clerkRead s a n = none := by
  rw [clerkRead, h]
  rfl

theorem instOf_rung (id : Nat) : instOf (rung o acts r s) id = instOf s id := by unfold instOf; rw [rung_lists]

theorem fnRunning_rung (f : Nat) : fnRunning (rung o acts r s) f = fnRunning s f := by unfold fnRunning; rw [fnState_rung]

theorem policyFlag_rung (b : Nat) : policyFlag (rung o acts r s) b = policyFlag s b := by unfold policyFlag; rw [rung_boot]

/-! ### LIST_SUBMIT -/

/-- The list that LIST_SUBMIT installs from an image. -/
def submitted (s : State) (img : List Word) : Inst := { instFrom (nextId s) 0 none img with from_ := s.clk.stroke + 1 }

theorem submitted_rung (img : List Word) : submitted (rung o acts r s) img = submitted s img := by
  unfold submitted nextId instOf
  rw [rung_lists, rung_clk]

theorem statusNews_frame (id : Nat) (bs : List Nat) (s : State) :
    ∃ w, bs.foldl (fun t b => statusNew id b t) s = { s with mem := { s.mem with writes := w } } := by
  induction bs generalizing s with
  | nil => exact ⟨s.mem.writes, rfl⟩
  | cons b bs ih =>
    obtain ⟨w, h⟩ := ih (statusNew id b s)
    exact ⟨w, h⟩

theorem listInstall_parts (l : Inst) (s : State) : ∃ w, listInstall l s = { s with
    lists := { s.lists with inst := s.lists.inst ++ [l], lastId := l.id }
    claims := (claimAll l.queue (l.setsFlags.map (0x400 + ·)) s).claims
    mem := { s.mem with writes := w } } := statusNews_frame l.id (l.areas.flatMap l.bases) _

/-- An image that passes the checks and finds room is installed. -/
theorem submitImage_installs {n : Nat} {img : List Word} (hhead : headerCheck n img = none) (hqueue : queueCheck s (headerOf img).fid = none)
    (hsigned : policyFlag s 1 = true → listSigned s img = true) (hbody : bodyCheck s 0 [] img = none)
    (hroom : (submitShort s (submitted s img)).any = false) :
    submitImage n img s = (listInstall (submitted s img) s, okR [w32 (submitted s img).id,
      if fnRunning s (submitted s img).queue && !(submitted s img).dormant then lo32 (firstRun s (submitted s img)) else 0]) := by
  have hpolicy : (policyFlag s 1 && !listSigned s img) = false := by
    cases hp : policyFlag s 1 with
    | false => rfl
    | true => rw [hsigned hp]; rfl
  unfold submitted at hroom
  unfold submitImage
  simp only [firstErr, hhead, hqueue, hpolicy, Bool.false_eq_true, if_false, hbody, hroom]
  rfl

theorem bodyCheck_rung (o : Nat) (acts : List Nat) (r : Req) (s : State) (img : List Word) :
    bodyCheck (rung o acts r s) 0 [] img = bodyCheck s 0 [] img := by
  have hconf : claimConflict (rung o acts r s) = claimConflict s := by
    funext o l
    exact claimConflict_claims (rung_claims ..) ..
  have hranges : rangesBad (rung o acts r s) 0 [] img = rangesBad s 0 [] img := by
    obtain ⟨_, _, _, _, _, _, _, _, _, _, h⟩ := rung_parts o acts r s
    rw [h]
    rfl
  have hfallback : fallbackOk (rung o acts r s) = fallbackOk s := by
    obtain ⟨_, _, _, _, _, _, _, _, _, _, h⟩ := rung_parts o acts r s
    rw [h]
    rfl
  unfold bodyCheck
  rw [hconf, hranges, hfallback, fnRunning_rung, rung_rope]

theorem submitChecks_rung (o : Nat) (acts : List Nat) (r : Req) (s : State) (img : List Word) :
    queueCheck (rung o acts r s) = queueCheck s ∧ listSigned (rung o acts r s) img = listSigned s img ∧
      submitShort (rung o acts r s) = submitShort s ∧
      firstRun (rung o acts r s) = firstRun s := by
  obtain ⟨_, _, _, _, _, _, _, _, _, _, h⟩ := rung_parts o acts r s
  rw [h]
  exact ⟨rfl, rfl, rfl, rfl⟩

theorem submitImage_rung {n : Nat} {img : List Word} (hhead : headerCheck n img = none)
    (hqueue : queueCheck s (headerOf img).fid = none) (hsigned : policyFlag s 1 = true → listSigned s img = true)
    (hbody : bodyCheck s 0 [] img = none) (hroom : (submitShort s (submitted s img)).any = false) :
    submitImage n img (rung o acts r s) = (listInstall (submitted s img) (rung o acts r s), okR [w32 (submitted s img).id,
      if fnRunning s (submitted s img).queue && !(submitted s img).dormant then lo32 (firstRun s (submitted s img)) else 0]) := by
  obtain ⟨hq, hs, hr, hf⟩ := submitChecks_rung o acts r s img
  rw [submitImage_installs hhead (by rw [hq]; exact hqueue) (by rw [policyFlag_rung, hs]; exact hsigned) (by rw [bodyCheck_rung]; exact hbody)
    (by rw [submitted_rung, hr]; exact hroom), submitted_rung, fnRunning_rung, hf]

/-- The end of a LIST_SUBMIT whose image has been read. -/
theorem listSubmit_installs {n : Nat} {ws img : List Word} (hs : Ready s) (hh : High r 4)
    (hread : listSubmitBody r (.words ws) (rung 0x0301 (submitActs s r (.words ws)) r s) =
      submitImage n img (rung 0x0301 (submitActs s r (.words ws)) r s))
    (hhead : headerCheck n img = none) (hqueue : queueCheck s (headerOf img).fid = none)
    (hsigned : policyFlag s 1 = true → listSigned s img = true) (hbody : bodyCheck s 0 [] img = none)
    (hroom : (submitShort s (submitted s img)).any = false) :
    let l := submitted s img
    ∃ t, exec (.listSubmit r (.words ws)) s = .next t ∧
      Answered t r .ok 0 [w32 l.id, if fnRunning s l.queue && !l.dormant then lo32 (firstRun s l) else 0] ∧
      t.lists.inst = s.lists.inst ++ [l] ∧ t.lists.lastId = l.id ∧ t.funcs = s.funcs ∧ t.tiles = s.tiles ∧
      t.mem.cells = s.mem.cells := by
  intro l
  obtain ⟨w, hinst⟩ := listInstall_parts l (rung 0x0301 (submitActs s r (.words ws)) r s)
  rw [exec_listSubmit, execListSubmit]
  refine mailbox_ends hs (taken_high hh rfl rfl rfl (by decide))
    (hread.trans (submitImage_rung hhead hqueue hsigned hbody hroom)) (by rw [hinst]) fun t hans hserved => ?_
  have hserved' : Served (listInstall l (rung 0x0301 (submitActs s r (.words ws)) r s)) t := hserved
  rw [hinst] at hserved'
  have hlists : t.lists = _ := hserved'.lists
  have hcells : t.mem.cells = (rung 0x0301 (submitActs s r (.words ws)) r s).mem.cells := by
    rw [hserved'.mem]
  refine ⟨hans, ?_, ?_, ?_, ?_, ?_⟩
  · rw [hlists, rung_lists]
  · rw [hlists]
  · exact hserved'.funcs.trans (rung_funcs s 0x0301 (submitActs s r (.words ws)) r)
  · exact hserved'.tiles.trans (rung_tiles s 0x0301 (submitActs s r (.words ws)) r)
  · exact hcells.trans (by rw [(served_rung ..).mem])

theorem headerCheck_length {n : Nat} {img : List Word} (h : headerCheck n img = none) : n % 64 = 0 := by
  unfold headerCheck at h
  extract_lets h' w0 at h
  split at h
  · cases h
  · split at h
    · cases h
    · next hn =>
      rw [not_not] at hn
      omega

/-- The body of a LIST_SUBMIT whose image lies in the well. -/
theorem listSubmitBody_well {desc : HostRead} (hsrc : bit (r.w 2) 0 = true) (hres : fld (r.w 2) 1 31 = 0)
    (haddr : wide (r.w 3) (r.w 4) % 64 = 0) (hhigh : fld (r.w 4) 16 16 = 0) (hlo : 192 ≤ (r.w 5).toNat) (hhi : (r.w 5).toNat ≤ 1048576)
    (hplace : wellImageOk (wide (r.w 3) (r.w 4)) (r.w 5).toNat = true) (hn : (r.w 5).toNat % 64 = 0)
    (hdam : damagedIn (seeAs .clerk s) (wide (r.w 3) (r.w 4)) (r.w 5).toNat = none) :
    listSubmitBody r desc s = submitImage (r.w 5).toNat (memWords (seeAs .clerk s) (wide (r.w 3) (r.w 4)) ((r.w 5).toNat / 4)) s := by
  have hwords : submitWords s r desc = memWords (seeAs .clerk s) (wide (r.w 3) (r.w 4)) ((r.w 5).toNat / 4) := by
    unfold submitWords
    rw [if_pos hsrc, if_pos ⟨hhi, hplace⟩]
    congr 1
    omega
  unfold listSubmitBody
  rw [guardE_none (by simp [rangeBad, firstBad, hres, hhigh])]
  dsimp only
  rw [if_pos hsrc, if_neg (by simp [haddr]), if_neg (by omega), if_neg (by simp [hplace]), clerkRead_none hdam, hwords]

/-- The body of a LIST_SUBMIT whose image the host has sent. -/
theorem listSubmitBody_host {ws : List Word} (hsrc : bit (r.w 2) 0 = false) (hres : fld (r.w 2) 1 31 = 0)
    (haddr : wide (r.w 3) (r.w 4) % 64 = 0) (hn : (r.w 5).toNat % 64 = 0) (hlo : 64 ≤ (r.w 5).toNat) (hhi : (r.w 5).toNat ≤ 65536) :
    listSubmitBody r (.words ws) s = submitImage (r.w 5).toNat (fit ((r.w 5).toNat / 4) 0 ws) s := by
  have hread : descRead (wide (r.w 3) (r.w 4)) (r.w 5).toNat 3 (.words ws) = .ok (fit ((r.w 5).toNat / 4) 0 ws) := by
    unfold descRead
    rw [if_neg (by simp [haddr]), if_neg (by omega)]
  unfold listSubmitBody
  rw [guardE_none (by simp [rangeBad, firstBad, hres, hsrc])]
  dsimp only
  rw [if_neg (by simp [hsrc]), hread]

/-- Settles O28. -/
theorem listSubmitInstalls : Obligations.ListSubmitInstalls := by
  intro r ws s hs hh addr n img l hres haddr hwell hhost hhead hqueue hsigned hbody hroom
  refine listSubmit_installs hs hh (n := n) (img := img) ?_ hhead hqueue hsigned hbody hroom
  cases hsrc : bit (r.w 2) 0 with
  | true =>
    obtain ⟨hhigh, hlo, hhi, hplace, hdam⟩ := hwell hsrc
    refine (listSubmitBody_well hsrc hres haddr hhigh hlo hhi hplace (headerCheck_length hhead) ?_).trans ?_
    · rw [damagedIn_rung]
      exact hdam
    · simp only [img, hsrc, if_true, memWords_rung]
      rfl
  | false =>
    obtain ⟨hn, hlo, hhi⟩ := hhost hsrc
    refine (listSubmitBody_host hsrc hres haddr hn hlo hhi).trans ?_
    simp only [img, hsrc, Bool.false_eq_true, if_false]
    rfl

end

end Sys2Proof.Machine
end

section
/-! PROOFS. LIST_REMOVE, LIST_QUERY and SCHED_QUERY (R276 to R278). -/

namespace Sys2Proof.Machine

section
variable {s : State} {r : Req} {l : Inst}

/-! ### Commands that the module takes, in the four forms of an answer -/

section
variable {u b : State} {c : Cmd} {body : State → State × Answer} {w : List Word}

theorem asks_of {q : State → Answer} (hs : Ready s) (ht : Taken c r) (hq : q (rung c.op c.acts r s) = okR w) :
    ∃ t, mailbox c r (asks q) s = .next t ∧ Answered t r .ok 0 w ∧ Served s t :=
  mailbox_asks hs c r q w ht.known ht.onMb ht.short ht.length hq

theorem does_of (hs : Ready s) (ht : Taken c r) (hb : body (rung c.op c.acts r s) = (b, okR w)) (hbs : b.mbs = (rung c.op c.acts r s).mbs)
    (hserved : Served u b) : ∃ t, mailbox c r body s = .next t ∧ Answered t r .ok 0 w ∧ Served u t :=
  mailbox_ends hs ht hb hbs fun _ hans h => ⟨hans, hserved.trans h⟩

theorem awaits_of {x : Waiting} (hs : Ready s) (ht : Taken c r) (hb : body (rung c.op c.acts r s) = (b, .later x))
    (hbs : b.mbs = (rung c.op c.acts r s).mbs) (hserved : Served u b) :
    ∃ t, mailbox c r body s = .next t ∧ Waits t r x ∧ Served u t :=
  mailbox_goes_on hs ht hb hbs fun _ hwaits h => ⟨hwaits, hserved.trans h⟩

theorem refuses_of {k : Code} {d : Nat} (hs : Ready s) (ht : Taken c r)
    (hb : body (rung c.op c.acts r s) = (rung c.op c.acts r s, .now k d [])) :
    ∃ t, mailbox c r body s = .next t ∧ Answered t r k d [] ∧ Served s t :=
  mailbox_ends hs ht hb rfl fun _ hans h => ⟨hans, (served_rung ..).trans h⟩

end

theorem instOf_listDrop_self (id : Nat) (s : State) : instOf (listDrop id s) id = none := by
  obtain ⟨f, -, h⟩ := instOf_listDrop id s
  rw [h, if_pos rfl]

/-- A change of the installed lists, on both sides of a doorbell. -/
theorem served_instSet (id : Nat) (f : Inst → Inst) (o : Nat) (acts : List Nat) (r : Req) (s : State) :
    Served (instSet id f s) (instSet id f (rung o acts r s)) :=
  (served_rung o acts r s).set_lists (by rw [rung_lists])

theorem instOf_served {s t : State} (h : Served s t) (id : Nat) : instOf t id = instOf s id := by unfold instOf; rw [h.lists]

theorem fnRunning_served {s t : State} (h : Served s t) (f : Nat) : fnRunning t f = fnRunning s f := by
  unfold fnRunning; rw [h.fnState]

/-- LIST_REMOVE of a list that no other one names, and that is in no FIXED.Q0 that runs. -/
theorem listRemoveBad_none {t : State} (hserved : Served s t) (hres : fld (r.w 2) 16 16 = 0) (hl : instOf s (fld (r.w 2) 0 16) = some l)
    (hfall : ∀ x ∈ s.lists.inst, x.fallback ≠ l.id) (hq : ¬ (fnRunning s l.queue = true ∧ queueNo l.queue = 0)) :
    listRemoveBad t r = none := by
  have hid := id_of_instOf hl
  unfold listRemoveBad
  simp only [hres, ne_eq, not_true_eq_false, if_false, instOf_served hserved, hl, fnRunning_served hserved, hserved.lists]
  have hany : (s.lists.inst.any fun x => decide (x.fallback = fld (r.w 2) 0 16)) = false := by
    rw [List.any_eq_false]
    intro x hx
    rw [← hid]
    simpa using hfall x hx
  simp only [hany, Bool.false_eq_true, if_false, if_neg hq]
  rfl

theorem listRemoveBody_now {t : State} (hbad : listRemoveBad t r = none) (hl : instOf t (fld (r.w 2) 0 16) = some l)
    (hrun : ¬ (l.run.isSome = true ∧ fnRunning t l.queue = true)) : listRemoveBody r t = (listDrop l.id t, okR []) := by
  have hid := id_of_instOf hl
  unfold listRemoveBody
  rw [guardE_none hbad]
  simp only [hl, if_neg hrun, hid]

theorem listRemoveBody_later {t : State} (hbad : listRemoveBad t r = none) (hl : instOf t (fld (r.w 2) 0 16) = some l)
    (hrun : l.run.isSome = true ∧ fnRunning t l.queue = true) :
    listRemoveBody r t = (instSet l.id (fun x => { x with removing := true }) t, .later (.listRemove l.id)) := by
  have hid := id_of_instOf hl
  unfold listRemoveBody
  rw [guardE_none hbad]
  simp only [hl, if_pos hrun, hid]

theorem listQueryBody_does {t : State} (hres : fld (r.w 2) 16 16 = 0) (hl : instOf t (fld (r.w 2) 0 16) = some l) :
    listQueryBody r t = (instSet l.id (fun x => { x with sticky := 0 }) t, okR (listWords l)) := by
  have hid := id_of_instOf hl
  unfold listQueryBody
  simp only [hl, hres, ne_eq, not_true_eq_false, if_false, hid]

theorem schedWords_rung (o : Nat) (acts : List Nat) (r : Req) (s : State) (e : Nat) : schedWords (rung o acts r s) e = schedWords s e := by
  obtain ⟨_, _, _, _, _, _, _, _, _, _, h⟩ := rung_parts o acts r s
  rw [h]
  rfl

/-- Settles O29. -/
theorem listCommands : Obligations.ListCommands := by
  intro r s hs hh
  have hremove := served_rung 0x0302 (queueActs s r) r s
  refine ⟨fun l hres hl hfall hq => ⟨fun hrun => ?_, fun hrun => ?_⟩, fun l hres hl => ?_, fun hres he => ?_⟩
  · rw [exec_listRemove, execListRemove]
    refine mailbox_ends hs (taken_high hh rfl rfl rfl (by decide))
      (listRemoveBody_now (listRemoveBad_none hremove hres hl hfall hq) ((instOf_served hremove _).trans hl)
        (by rw [fnRunning_served hremove]; exact hrun)) (listDrop_mbs ..) fun t hans ht => ⟨hans, ?_⟩
    rw [instOf_served ht, instOf_listDrop_self]
  · rw [Awaits, exec_listRemove, execListRemove]
    exact awaits_of hs (taken_high hh rfl rfl rfl (by decide))
      (listRemoveBody_later (listRemoveBad_none hremove hres hl hfall hq) ((instOf_served hremove _).trans hl)
        (by rw [fnRunning_served hremove]; exact hrun)) rfl (served_instSet ..)
  · rw [Does, exec_listQuery, execListQuery]
    exact does_of hs (taken_high hh rfl rfl rfl (by decide)) (listQueryBody_does hres ((instOf_rung _).trans hl)) rfl (served_instSet ..)
  · rw [Asks, exec_schedQuery, execSchedQuery]
    refine asks_of hs (taken_high hh rfl rfl rfl (by decide)) ?_
    dsimp only
    rw [if_neg (by omega), schedWords_rung]

end

end Sys2Proof.Machine
end

section
/-! PROOFS. Packages and buckets (R310 to R314). -/

namespace Sys2Proof.Machine

section
variable {s u : State} {r : Req} {o : Nat} {acts : List Nat}

/-! ### MODEL_LOAD of a built-in package -/

/-- No command waits on an idle module whose doorbell rings. -/
theorem waitingActs_rung (hs : Ready s) (f : Nat) : waitingActs (rung o acts r s) f = none := by
  unfold waitingActs
  rw [List.find?_eq_none]
  intro n _
  have hidle := ready_idle hs n
  simp only [rung, mbStart, hostLossEnd_mbs, mbPost, List.getD_eq_getElem?_getD, List.getElem?_modify] at hidle ⊢
  cases hm : s.mbs[n]? with
  | none => simp
  | some m =>
    by_cases hn : r.mb.val = n
    · simp [hn]
    · simp [hn, hm] at hidle ⊢
      simp [hidle]

theorem waitingActs_ready (hs : Ready s) (f : Nat) : waitingActs s f = none := by
  unfold waitingActs
  rw [List.find?_eq_none]
  intro n _
  have hidle := ready_idle hs n
  simp only [hidle, Bool.false_eq_true, not_false_eq_true]

theorem pkgQueues_rung (hs : Ready s) (ls : List Inst) : pkgQueues (rung o acts r s) ls = pkgQueues s ls := by
  unfold pkgQueues
  simp only [waitingActs_rung hs, waitingActs_ready hs, (submitChecks_rung o acts r s []).1]

theorem measure_frame (type id : Nat) (info digest : List Word) (s : State) :
    ∃ b, measure type id info digest s = { s with boot := b } := by
  unfold measure
  extract_lets w
  have hw : ∃ b, w = { s with boot := b } := by
    simp only [w]
    split
    · exact ⟨_, rfl⟩
    · exact ⟨s.boot, rfl⟩
  obtain ⟨b, hb⟩ := hw
  rw [hb]
  exact ⟨_, rfl⟩

/-- What installing lists changes: the lists, the claims of their flags and the writes of their status lines. -/
def Installed (s u : State) : Prop :=
  ∃ lists claims w, u = { s with lists := lists, claims := claims, mem := { s.mem with writes := w } }

theorem Installed.trans {v : State} (h1 : Installed s u) (h2 : Installed u v) : Installed s v := by
  obtain ⟨l1, c1, w1, rfl⟩ := h1
  obtain ⟨l2, c2, w2, rfl⟩ := h2
  exact ⟨l2, c2, w2, rfl⟩

theorem installed_refl (s : State) : Installed s s := ⟨s.lists, s.claims, s.mem.writes, rfl⟩

theorem listInstall_installed (l : Inst) (s : State) : Installed s (listInstall l s) := by
  obtain ⟨w, hw⟩ := listInstall_parts l s
  exact ⟨_, _, w, hw⟩

theorem foldl_installed {α β : Type} {f : State × β → α → State × β} (hf : ∀ p x, Installed p.1 (f p x).1) (l : List α) (p : State × β) :
    Installed p.1 (l.foldl f p).1 := by
  induction l generalizing p with
  | nil => exact installed_refl p.1
  | cons x l ih => exact (hf p x).trans (ih (f p x))

theorem installAll_installed (s : State) (ls : List Inst) : Installed s (installAll s ls).1 :=
  foldl_installed (fun _ _ => listInstall_installed ..) ls (s, [])

/-- A package without sections installs its lists, and enters the packages. -/
theorem pkgInstall_frame {p : PkgIn} (hsects : p.sects = []) (s : State) : ∃ lists claims w q b,
    (pkgInstall p [] s).1 = { s with
      lists := lists, claims := claims, mem := { s.mem with writes := w }
      pipe := { s.pipe with pkgs := s.pipe.pkgs ++ [q] }, boot := b } ∧ q.modelId = p.modelId := by
  unfold pkgInstall
  rw [hsects]
  obtain ⟨lists, claims, w, hinst⟩ := installAll_installed s (orderOf (namesOwn s p.lists) (·.dormant) p.lists)
  simp only [List.zip_nil_left, List.foldl_nil, hinst]
  obtain ⟨b, hb⟩ := measure_frame 6 p.modelId [w32 p.variant, strokeLo s, strokeHi s] (digestOf p.bytes) { s with
      lists := lists, claims := claims, mem := { s.mem with writes := w }
      pipe := { s.pipe with pkgs := s.pipe.pkgs ++ [{
        modelId := p.modelId, role := p.role, variant := p.variant
        listIds := (installAll s (orderOf (namesOwn s p.lists) (·.dormant) p.lists)).2, sections := [], inputs := p.inputs
        minHist := p.minHist, rAbs := p.rAbs, rRel := p.rRel, young := false, stand := false
        anchor := anchorOf p s, digest := digestOf p.bytes }] } }
  exact ⟨lists, claims, w, _, b, hb, rfl⟩

theorem pkgShort_rung {p : PkgIn} (hsects : p.sects = []) : pkgShort (rung o acts r s) p [] = pkgShort s p [] := by
  unfold pkgShort
  rw [hsects, List.zip_nil_left]
  obtain ⟨_, _, _, _, _, _, _, _, _, _, h⟩ := rung_parts o acts r s
  rw [h]
  rfl

theorem pkgPresent_rung (p : PkgIn) : pkgPresent (rung o acts r s) p = pkgPresent s p := by unfold pkgPresent; rw [rung_pipe]

theorem pkgPolicySigned_rung (ws : List Word) : pkgPolicySigned (rung o acts r s) ws = pkgPolicySigned s ws := by
  obtain ⟨_, _, _, _, _, _, _, _, _, _, h⟩ := rung_parts o acts r s
  rw [h]
  rfl

/-- The checks of a built-in package, and its load. -/
theorem loadBuiltin_loads {id variant : Nat} (hs : Ready s) (hqueues : pkgQueues s (builtinPkg id variant).lists = none)
    (hsigned : policyFlag s 0 = true → pkgPolicySigned s (builtinPkg id variant).bytes = true)
    (hpresent : pkgPresent s (builtinPkg id variant) = none)
    (hclaims : claimConflict s fFIXED0 ((builtinPkg id variant).lists.flatMap fun l => l.setsFlags.map (0x400 + ·)) = none)
    (hroom : (pkgShort s (builtinPkg id variant) []).any = false) :
    let p := builtinPkg id variant
    loadBuiltin id variant (rung o acts r s) = ((pkgInstall p [] (rung o acts r s)).1,
      okR [w32 p.modelId, packW [(p.lists.length, 0), (if p.role = 1 then sfcOf p.lists else 0, 8)]]) := by
  intro p
  unfold loadBuiltin
  dsimp only
  rw [policyFlag_rung, pkgQueues_rung hs, pkgPolicySigned_rung, pkgPresent_rung, claimConflict_claims (rung_claims ..), hqueues, hpresent,
    hclaims, if_neg (by rintro ⟨hp, -, hn⟩; rw [hsigned hp] at hn; cases hn)]
  refine (guardE_none rfl).trans ?_
  unfold pkgLoad
  dsimp only
  rw [pkgShort_rung rfl, if_neg (by simp [hroom])]
  rfl

theorem pkgOf_append (s : State) (q : Pkg) :
    (pkgOf { s with pipe := { s.pipe with pkgs := s.pipe.pkgs ++ [q] } } q.modelId).isSome = true := by
  unfold pkgOf
  simp

theorem modelLoad_loads (hs : Ready s) (hh : High r 4) (d : HostRead) (hbad : modelLoadBad r = none) (hsrc : fld (r.w 2) 0 2 = 2)
    (hqueues : pkgQueues s (builtinPkg (fld (r.w 2) 8 8) (fld (r.w 2) 16 2)).lists = none)
    (hsigned : policyFlag s 0 = true → pkgPolicySigned s (builtinPkg (fld (r.w 2) 8 8) (fld (r.w 2) 16 2)).bytes = true)
    (hpresent : pkgPresent s (builtinPkg (fld (r.w 2) 8 8) (fld (r.w 2) 16 2)) = none)
    (hclaims : claimConflict s fFIXED0
      ((builtinPkg (fld (r.w 2) 8 8) (fld (r.w 2) 16 2)).lists.flatMap fun l => l.setsFlags.map (0x400 + ·)) = none)
    (hroom : (pkgShort s (builtinPkg (fld (r.w 2) 8 8) (fld (r.w 2) 16 2)) []).any = false) :
    let p := builtinPkg (fld (r.w 2) 8 8) (fld (r.w 2) 16 2)
    ∃ t, exec (.modelLoad r d) s = .next t ∧
      Answered t r .ok 0 [w32 p.modelId, packW [(p.lists.length, 0), (if p.role = 1 then sfcOf p.lists else 0, 8)]] ∧
      (pkgOf t p.modelId).isSome = true ∧ t.funcs = s.funcs := by
  intro p
  obtain ⟨lists, claims, w, q, b, hframe, hq⟩ := pkgInstall_frame (p := p) rfl (rung 0x0310 (modelLoadActs r) r s)
  rw [exec_modelLoad, execModelLoad]
  refine mailbox_ends hs (taken_high hh rfl rfl rfl (by decide)) (b := (pkgInstall p [] (rung 0x0310 (modelLoadActs r) r s)).1)
    ((guardE_none hbad).trans ?_) (by rw [hframe]) fun t hans ht => ⟨hans, ?_, ?_⟩
  · simp only [hsrc]
    exact loadBuiltin_loads hs hqueues hsigned hpresent hclaims hroom
  · have hpkgs : t.pipe = _ := ht.pipe
    rw [hframe] at hpkgs
    unfold pkgOf
    rw [hpkgs, ← hq]
    exact pkgOf_append _ q
  · have hfuncs := ht.funcs
    rw [hframe] at hfuncs
    exact hfuncs.trans (rung_funcs s 0x0310 (modelLoadActs r) r)

/-! ### MODEL_UNLOAD and MODEL_QUERY -/

/-- A state whose lists no longer run: each installed list of some IDs has no run that counts. -/
def Idle (ids : List Nat) (s : State) : Prop :=
  ∀ i ∈ ids, ∀ l, instOf s i = some l → l.run = none ∨ fnRunning s l.queue = false

/-- Between two states some lists have gone; no run has begun. -/
def Gone (s u : State) : Prop := (∃ lists claims, u = { s with lists := lists, claims := claims }) ∧
  ∀ n x, instOf u n = some x → ∃ y, instOf s n = some y ∧ x.run = y.run ∧ x.queue = y.queue

theorem Gone.trans {v : State} (h1 : Gone s u) (h2 : Gone u v) : Gone s v := by
  obtain ⟨⟨l1, c1, rfl⟩, hi1⟩ := h1
  obtain ⟨⟨l2, c2, rfl⟩, hi2⟩ := h2
  refine ⟨⟨l2, c2, rfl⟩, fun n x hx => ?_⟩
  obtain ⟨y, hy, hry, hqy⟩ := hi2 n x hx
  obtain ⟨z, hz, hrz, hqz⟩ := hi1 n y hy
  exact ⟨z, hz, hry.trans hrz, hqy.trans hqz⟩

theorem gone_refl (s : State) : Gone s s := ⟨⟨s.lists, s.claims, rfl⟩, fun _ x hx => ⟨x, hx, rfl, rfl⟩⟩

theorem Gone.fnRunning (h : Gone s u) (f : Nat) : fnRunning u f = fnRunning s f := by
  obtain ⟨⟨l, c, rfl⟩, -⟩ := h
  rfl

theorem listDrop_gone (id : Nat) (s : State) : Gone s (listDrop id s) := by
  refine ⟨?_, fun n x hx => ?_⟩
  · unfold listDrop
    split
    · exact ⟨s.lists, s.claims, rfl⟩
    · exact ⟨_, _, rfl⟩
  · obtain ⟨f, hf, h⟩ := instOf_listDrop id s
    rw [h] at hx
    split at hx
    · cases hx
    · obtain ⟨y, hy, rfl⟩ := Option.map_eq_some_iff.1 hx
      obtain ⟨-, hrun, hqueue, -⟩ := hf y
      exact ⟨y, hy, hrun, hqueue⟩

/-- A list without a run that counts goes. -/
theorem unloadList_gone {id : Nat} (hidle : ∀ l, instOf s id = some l → l.run = none ∨ fnRunning s l.queue = false) :
    Gone s (unloadList s id) ∧ instOf (unloadList s id) id = none := by
  unfold unloadList
  cases hl : instOf s id with
  | none => exact ⟨gone_refl s, hl⟩
  | some l =>
    dsimp only
    rw [if_neg (by rcases hidle l hl with h | h <;> simp [h])]
    exact ⟨listDrop_gone id s, instOf_listDrop_self id s⟩

/-- The lists of a package of which none runs all go. -/
theorem unloadLists_gone {ids : List Nat} (hidle : Idle ids s) :
    Gone s (ids.foldl unloadList s) ∧ ∀ i ∈ ids, instOf (ids.foldl unloadList s) i = none := by
  induction ids generalizing s with
  | nil => exact ⟨gone_refl s, by simp⟩
  | cons i ids ih =>
    obtain ⟨hgone, hnone⟩ := unloadList_gone (hidle i (by simp))
    have hidle' : Idle ids (unloadList s i) := fun j hj l hl => by
      obtain ⟨y, hy, hrun, hqueue⟩ := hgone.2 j l hl
      rw [hgone.fnRunning, hrun, hqueue]
      exact hidle j (by simp [hj]) y hy
    obtain ⟨hrest, hall⟩ := ih hidle'
    refine ⟨hgone.trans hrest, fun j hj => ?_⟩
    rcases List.mem_cons.1 hj with rfl | hj'
    · cases hx : instOf (ids.foldl unloadList (unloadList s j)) j with
      | none => exact hx
      | some x =>
        obtain ⟨y, hy, -, -⟩ := hrest.2 j x hx
        rw [hnone] at hy
        cases hy
    · exact hall j hj'

theorem forecastClear_frame (s : State) : ∃ w, forecastClear s = { s with mem := { s.mem with writes := w } } := by
  unfold forecastClear
  generalize [aForecast, mirrorBase aForecast, aStep, mirrorBase aStep, aFcCopy] = bs
  induction bs generalizing s with
  | nil => exact ⟨s.mem.writes, rfl⟩
  | cons b bs ih =>
    obtain ⟨w, h⟩ := ih (areaClear b s)
    exact ⟨w, h⟩

/-- A package of which no list is installed any more leaves the packages. -/
theorem unloadDone_drops {id : Nat} {p : Pkg} (hp : pkgOf s id = some p) (hnone : ∀ i ∈ p.listIds, instOf s i = none) :
    pkgOf (unloadDone id s) id = none ∧ (unloadDone id s).mbs = s.mbs := by
  have hany : (p.listIds.any fun i => (instOf s i).isSome) = false := by
    rw [List.any_eq_false]
    intro i hi
    simp [hnone i hi]
  unfold unloadDone
  simp -zeta only [hp, hany, Bool.false_eq_true, if_false]
  extract_lets x t v
  have hv : v.pipe = t.pipe ∧ v.mbs = s.mbs := by
    simp only [v]
    split
    · obtain ⟨w, hw⟩ := forecastClear_frame t
      rw [hw]
      exact ⟨rfl, rfl⟩
    · exact ⟨rfl, rfl⟩
  obtain ⟨b, hb⟩ := measure_frame 7 id [w32 p.variant, strokeLo v, strokeHi v] p.digest v
  rw [hb]
  refine ⟨?_, hv.2⟩
  show List.find? _ v.pipe.pkgs = none
  rw [hv.1, List.find?_eq_none]
  intro q hq
  simpa using (List.mem_filter.1 hq).2

/-- The body of a MODEL_UNLOAD of a package whose lists do not run. -/
theorem modelUnloadBody_drops {p : Pkg} (hbad : modelUnloadBad s r = none) (hp : pkgOf s (fld (r.w 2) 0 16) = some p)
    (hidle : Idle p.listIds s) :
    ∃ b, modelUnloadBody r s = (b, okR []) ∧ pkgOf b p.modelId = none ∧ b.mbs = s.mbs := by
  have hid : p.modelId = fld (r.w 2) 0 16 := by simpa using List.find?_some hp
  obtain ⟨hgone, hnone⟩ := unloadLists_gone hidle
  have hany : (p.listIds.any fun i => (instOf (p.listIds.foldl unloadList s) i).isSome) = false := by
    rw [List.any_eq_false]
    intro i hi
    simp [hnone i hi]
  obtain ⟨⟨lists, claims, hframe⟩, -⟩ := hgone
  have hp' : pkgOf (p.listIds.foldl unloadList s) (fld (r.w 2) 0 16) = some p := by
    rw [hframe]
    exact hp
  obtain ⟨hdrop, hmbs⟩ := unloadDone_drops hp' hnone
  refine ⟨_, ?_, ?_, hmbs.trans (by rw [hframe])⟩
  · unfold modelUnloadBody
    rw [guardE_none hbad]
    simp only [hp, hany, Bool.false_eq_true, if_false]
  · rw [hid]
    exact hdrop

theorem pkgOf_rung (id : Nat) : pkgOf (rung o acts r s) id = pkgOf s id := by unfold pkgOf; rw [rung_pipe]

theorem modelUnloadBad_rung : modelUnloadBad (rung o acts r s) r = modelUnloadBad s r := by
  unfold modelUnloadBad
  have hinst : instOf (rung o acts r s) = instOf s := funext fun i => instOf_rung i
  rw [pkgOf_rung, hinst, rung_lists]
  simp only [fnRunning_rung]

theorem modelWords_rung (p : Pkg) : modelWords (rung o acts r s) p = modelWords s p := by
  obtain ⟨_, _, _, _, _, _, _, _, _, _, h⟩ := rung_parts o acts r s
  rw [h]
  rfl

/-- Settles O30. -/
theorem packageCommands : Obligations.PackageCommands := by
  intro r d s hs
  refine ⟨fun hh hbad hsrc hqueues hsigned hpresent hclaims hroom => modelLoad_loads hs hh d hbad hsrc hqueues hsigned hpresent hclaims hroom,
    fun p hh hbad hp hruns => ?_, fun p hh hres hp => ?_⟩
  · obtain ⟨b, hb, hdrop, hmbs⟩ := modelUnloadBody_drops (s := rung 0x0311 (unloadActs s r) r s) (r := r)
      (modelUnloadBad_rung.trans hbad) ((pkgOf_rung _).trans hp) (fun i hi l hl => by
        rw [instOf_rung] at hl
        rw [fnRunning_rung]
        exact hruns l (List.mem_filterMap.2 ⟨i, hi, hl⟩))
    rw [exec_modelUnload, execModelUnload]
    refine mailbox_ends hs (taken_high hh rfl rfl rfl (by decide)) hb hmbs fun t hans ht => ⟨hans, ?_⟩
    unfold pkgOf at hdrop ⊢
    rw [ht.pipe]
    exact hdrop
  · rw [Asks, exec_modelQuery, execModelQuery]
    refine asks_of hs (taken_high hh rfl rfl rfl (by decide)) ?_
    dsimp only
    rw [if_neg (by simp [hres]), pkgOf_rung, hp]
    dsimp only
    rw [modelWords_rung]

end

end Sys2Proof.Machine
end

section
/-! PROOFS. Buckets (R313, R314). -/

namespace Sys2Proof.Machine

section
variable {s : State} {r : Req} {o : Nat} {acts : List Nat}

theorem bucketOf_rung (st : Nat) : bucketOf (rung o acts r s) st = bucketOf s st := by unfold bucketOf; rw [rung_pipe]

theorem bucketSetBad_rung : bucketSetBad (rung o acts r s) r = bucketSetBad s r := by
  unfold bucketSetBad
  simp only [bucketOf_rung, rung_pipe]

theorem bucketOf_served {t : State} (h : Served s t) (st : Nat) : bucketOf t st = bucketOf s st := by unfold bucketOf; rw [h.pipe]

/-- The buckets without one stream. -/
theorem bucketOf_filter (st n : Nat) :
    bucketOf { s with pipe := { s.pipe with buckets := s.pipe.buckets.filter fun b => b.stream ≠ st } } n =
      if n = st then none else bucketOf s n := by
  unfold bucketOf
  dsimp only
  split
  · next hn =>
    rw [List.find?_eq_none]
    intro b hb
    have := (List.mem_filter.1 hb).2
    simp only [ne_eq, decide_eq_true_eq, hn] at this ⊢
    exact this
  · next hn =>
    rw [List.find?_filter]
    congr 1
    funext b
    grind

theorem firstErr_none_mem {es : List (Option Answer)} (h : firstErr es = none) : ∀ e ∈ es, e = none := by
  induction es with
  | nil => simp
  | cons e es ih =>
    cases e with
    | none => exact List.forall_mem_cons.2 ⟨rfl, ih h⟩
    | some a => cases h

/-- BUCKET_SET takes no stream that has a bucket. -/
theorem bucketOf_none_of_bad (hl : fld (r.w 2) 8 5 ≠ 0) (hbad : bucketSetBad s r = none) : bucketOf s (fld (r.w 2) 0 8) = none := by
  unfold bucketSetBad at hbad
  have h := firstErr_none_mem hbad _ (List.mem_cons_of_mem _ List.mem_cons_self)
  rw [if_neg hl] at h
  by_contra hne
  rw [if_pos (Option.isSome_iff_ne_none.2 hne)] at h
  cases h

/-- A new bucket where there is room for it. -/
def bucketFresh (st l d a : Nat) : Bucket :=
  { stream := st, base := a, log2len := l, decim := d, written := 0, lastStroke := 0, epochN := 0, gaps := 0, sum := 0, count := 0,
    missing := 0 }

theorem bucketNew_places {st l d a : Nat}
    (ha : placeIn 4096 (bucketBytes st l) (some s.free) (freeAligned 4096 poolLo poolHi (poolUsed s)) = some a) :
    ∃ w, bucketNew st l d s = ({ s with
      mem := { s.mem with writes := w }, free := s.free + 1
      pipe := { s.pipe with buckets := s.pipe.buckets ++ [bucketFresh st l d a] } }, okR [lo32 a, hi32 a]) := by
  unfold bucketNew
  simp only [takeFree, ha]
  exact ⟨_, rfl⟩

/-! ### Queries of damaged memory -/

/-- R193: a query that meets a damaged word answers E_FAULT, records it and changes no byte. -/
theorem faults_of {c : Cmd} {body : State → State × Answer} {d : Nat} (hs : Ready s) (ht : Taken c r)
    (hb : body (rung c.op c.acts r s) = (uncorrectable 0 0xFF 6 d (rung c.op c.acts r s), errR .fault 0)) :
    ∃ t, mailbox c r body s = .next t ∧ Answered t r .fault 0 [] ∧ t.mem.cells = s.mem.cells := by
  obtain ⟨evt, host, diag, hparts⟩ := uncorrectable_parts 0 0xFF 6 d (rung c.op c.acts r s)
  refine mailbox_ends hs ht hb (by rw [hparts]) fun t hans hserved => ⟨hans, ?_⟩
  rw [hparts] at hserved
  rw [hserved.mem, (served_rung c.op c.acts r s).mem]

theorem clerkRead_some {a n : Nat} (h : (damagedIn (seeAs .clerk s) a n).isSome = true) :
    ∃ d, clerkRead (rung o acts r s) a n = some (uncorrectable 0 0xFF 6 d (rung o acts r s)) := by
  obtain ⟨d, hd⟩ := Option.isSome_iff_exists.1 h
  exact ⟨d, by rw [clerkRead, damagedIn_rung, hd]; rfl⟩

theorem clerkRead_rung_none {a n : Nat} (h : damagedIn (seeAs .clerk s) a n = none) : clerkRead (rung o acts r s) a n = none :=
  clerkRead_none (by rw [damagedIn_rung]; exact h)

/-! ### BUCKET_SET and BUCKET_QUERY -/

theorem bucketSet_removes (hs : Ready s) (hh : High r 1) (hl : fld (r.w 2) 8 5 = 0) (hbad : bucketSetBad s r = none) :
    ∃ t ws, exec (.bucketSet r) s = .next t ∧ Answered t r .ok 0 ws ∧ bucketOf t (fld (r.w 2) 0 8) = none ∧
      ∀ st : Nat, st ≠ fld (r.w 2) 0 8 → bucketOf t st = bucketOf s st := by
  rw [exec_bucketSet, execBucketSet]
  refine Exists.imp (fun t ht => ⟨_, ht⟩) (mailbox_ends hs (taken_high hh rfl rfl rfl (by decide))
    ((guardE_none (bucketSetBad_rung.trans hbad)).trans (if_pos hl)) rfl fun t hans hserved => ⟨hans, ?_⟩)
  have hof (n : Nat) : bucketOf t n = if n = fld (r.w 2) 0 8 then none else bucketOf s n := by
    rw [bucketOf_served hserved, ← bucketOf_rung (s := s) (o := 0x0313) (acts := []) (r := r)]
    exact bucketOf_filter _ n
  exact ⟨(hof _).trans (if_pos rfl), fun st hst => (hof st).trans (if_neg hst)⟩

theorem poolUsed_rung : poolUsed (rung o acts r s) = poolUsed s := by unfold poolUsed allSections; rw [rung_pipe]

theorem bucketSet_adds {a : Nat} (hs : Ready s) (hh : High r 1) (hl : fld (r.w 2) 8 5 ≠ 0) (hbad : bucketSetBad s r = none)
    (ha : placeIn 4096 (bucketBytes (fld (r.w 2) 0 8) (fld (r.w 2) 8 5)) (some s.free) (freeAligned 4096 poolLo poolHi (poolUsed s)) = some a) :
    ∃ t b, exec (.bucketSet r) s = .next t ∧ Answered t r .ok 0 [lo32 a, hi32 a] ∧
      bucketOf t (fld (r.w 2) 0 8) = some b ∧ b.base = a ∧ b.log2len = fld (r.w 2) 8 5 ∧ b.decim = fld (r.w 2) 16 12 ∧
      b.written = 0 ∧ t.mem.cells = s.mem.cells := by
  obtain ⟨w, hnew⟩ := bucketNew_places (s := rung 0x0313 [] r s) (st := fld (r.w 2) 0 8) (l := fld (r.w 2) 8 5) (d := fld (r.w 2) 16 12)
    (a := a) (by rw [rung_free, poolUsed_rung]; exact ha)
  rw [exec_bucketSet, execBucketSet]
  refine Exists.imp (fun t ht => ⟨bucketFresh (fld (r.w 2) 0 8) (fld (r.w 2) 8 5) (fld (r.w 2) 16 12) a, ht⟩) ?_
  refine mailbox_ends hs (taken_high hh rfl rfl rfl (by decide))
    ((guardE_none (bucketSetBad_rung.trans hbad)).trans ((if_neg hl).trans hnew)) rfl fun t hans hserved =>
      ⟨hans, ?_, rfl, rfl, rfl, rfl, ?_⟩
  · have hnone := bucketOf_none_of_bad hl hbad
    unfold bucketOf at hnone ⊢
    rw [hserved.pipe]
    dsimp only
    rw [rung_pipe, List.find?_append, hnone]
    simp [bucketFresh]
  · rw [hserved.mem]
    dsimp only
    rw [(served_rung 0x0313 [] r s).mem]

theorem bucketQuery_answers (hs : Ready s) (hh : High r 1) (hres : fld (r.w 2) 8 24 = 0) (hst : isStream (fld (r.w 2) 0 8) = true) :
    (∀ b : Bucket, bucketOf s (fld (r.w 2) 0 8) = some b →
      (damagedIn (seeAs .clerk s) b.base 64 = none →
        Asks (.bucketQuery r) r s ([lo32 b.base, hi32 b.base] ++ memWords (seeAs .clerk s) b.base 16)) ∧
      ((damagedIn (seeAs .clerk s) b.base 64).isSome = true →
        ∃ t, exec (.bucketQuery r) s = .next t ∧ Answered t r .fault 0 [] ∧ t.mem.cells = s.mem.cells)) ∧
    (bucketOf s (fld (r.w 2) 0 8) = none → Asks (.bucketQuery r) r s (List.replicate 18 0)) := by
  have hok : ¬ (fld (r.w 2) 8 24 ≠ 0 ∨ isStream (fld (r.w 2) 0 8) = false) := by simp [hres, hst]
  simp only [Asks, exec_bucketQuery, execBucketQuery]
  refine ⟨fun b hb => ⟨fun hdam => ?_, fun hdam => ?_⟩, fun hnone => ?_⟩
  · refine does_of hs (taken_high hh rfl rfl rfl (by decide)) (b := rung 0x0314 [] r s) ?_ rfl (served_rung ..)
    rw [if_neg hok, bucketOf_rung, hb]
    dsimp only
    rw [clerkRead_rung_none hdam, memWords_rung]
  · obtain ⟨d, hd⟩ := clerkRead_some (o := 0x0314) (acts := []) (r := r) hdam
    refine faults_of (d := d) hs (taken_high hh rfl rfl rfl (by decide)) ?_
    rw [if_neg hok, bucketOf_rung, hb]
    dsimp only
    rw [hd]
  · refine does_of hs (taken_high hh rfl rfl rfl (by decide)) (b := rung 0x0314 [] r s) ?_ rfl (served_rung ..)
    rw [if_neg hok, bucketOf_rung, hnone]

/-- Settles O31. -/
theorem bucketCommands : Obligations.BucketCommands := by
  intro r s hs hh
  exact ⟨fun hl hbad => bucketSet_removes hs hh hl hbad, fun a hl hbad ha _ => bucketSet_adds hs hh hl hbad ha,
    fun hres hst => bucketQuery_answers hs hh hres hst⟩

end

end Sys2Proof.Machine
end

section
/-! PROOFS. The commands of the smoothing pipeline (R315 to R317, R493). -/

namespace Sys2Proof.Machine

section
variable {s : State} {r : Req} {o : Nat} {acts : List Nat}

/-! ### APPLY_AT -/

theorem applyAt_rung (w : Word) : applyAt (rung o acts r s) w = applyAt s w := by unfold applyAt strokeLo now; rw [rung_clk]

theorem fnLive_rung (f : Nat) : fnLive (rung o acts r s) f = fnLive s f := by
  unfold fnLive fnFaulted
  rw [fnRunning_rung, fnState_rung]

theorem ropeRole_rung : (rung o acts r s).clerk.ropeRole = s.clerk.ropeRole := by rw [(served_rung o acts r s).clerk]

theorem headsRope_rung : headsRope (rung o acts r s) = headsRope s := by
  unfold headsRope onRope
  rw [fnRunning_rung, ropeRole_rung, rung_rope, rung_pair]

theorem standaloneStandby_rung : standaloneStandby (rung o acts r s) = standaloneStandby s := by
  unfold standaloneStandby
  rw [fnLive_rung, ropeRole_rung, rung_pair]

/-! ### TARGET_SET and CAP_SET -/

theorem runBad_running {f : Nat} (h : fnState s f = .running) : runBad s f = none := by rw [runBad, h]

theorem runBad_not_running {f : Nat} (h : fnState s f ≠ .running) (hf : fnState s f ≠ .faulted) : runBad s f = some (errR .state 0) := by
  unfold runBad
  cases hx : fnState s f with
  | off => rfl
  | stopped => rfl
  | running => exact absurd hx h
  | faulted => exact absurd hx hf

/-- The checks of TARGET_SET, one by one. -/
theorem targetSetBad_none (hrun : fnState s fFIXED0 = .running) (hres : fld (r.w 2) 2 30 = 0) (hscope : fld (r.w 2) 0 2 ≠ 3)
    (hlo : 0 ≤ (r.w 3).toInt) (hhi : fld (r.w 2) 0 2 = 0 → (r.w 3).toInt ≤ 16000000) (hzero : fld (r.w 2) 0 2 = 2 → (r.w 3).toInt = 0)
    (hrole : targetRoleOk s (fld (r.w 2) 0 2) = true) (hsilent : standaloneStandby s = true → s.pair.silentRope = false) :
    targetSetBad s r = none := by
  unfold targetSetBad
  have hstandby : (standaloneStandby s && s.pair.silentRope) = false := by
    cases h : standaloneStandby s with
    | false => rfl
    | true => rw [hsilent h]; rfl
  have hrange : (decide ((r.w 3).toInt < 0) || (decide (fld (r.w 2) 0 2 = 0) && decide (16000000 < (r.w 3).toInt)) ||
      (decide (fld (r.w 2) 0 2 = 2) && decide ((r.w 3).toInt ≠ 0))) = false := by
    simp only [Bool.or_eq_false_iff, Bool.and_eq_false_iff, decide_eq_false_iff_not, not_lt]
    refine ⟨⟨hlo, ?_⟩, ?_⟩
    · by_cases h : fld (r.w 2) 0 2 = 0
      · exact .inr (hhi h)
      · exact .inl h
    · by_cases h : fld (r.w 2) 0 2 = 2
      · exact .inr (by simp [hzero h])
      · exact .inl h
  simp only [runBad_running hrun, hrole, hstandby, hrange, hres, hscope, rangeBad, firstBad, firstErr, ne_eq, not_true_eq_false,
    decide_false, Bool.or_self, Bool.false_eq_true, if_false, if_true, Option.map_none]

theorem targetRoleOk_of (hscope : fld (r.w 2) 0 2 ≠ 3) (h0 : fld (r.w 2) 0 2 = 0 → s.clerk.ropeRole = 1)
    (h1 : fld (r.w 2) 0 2 = 1 → headsRope s = true) (h2 : fld (r.w 2) 0 2 = 2 → s.clerk.ropeRole = 1 ∨ headsRope s = true) :
    targetRoleOk s (fld (r.w 2) 0 2) = true := by
  have hlt : fld (r.w 2) 0 2 < 4 := by unfold fld; omega
  unfold targetRoleOk
  dsimp only
  split
  · next h => exact h1 h
  · split
    · next h => simp [h0 h]
    · rcases h2 (by omega) with h | h <;> simp [h]

theorem targetSetBad_rung : targetSetBad (rung o acts r s) r = targetSetBad s r := by
  have hrun : runBad (rung o acts r s) fFIXED0 = runBad s fFIXED0 := by unfold runBad; rw [fnState_rung]
  have hrole : targetRoleOk (rung o acts r s) = targetRoleOk s := by unfold targetRoleOk; simp only [headsRope_rung, ropeRole_rung]
  have hroleR : roleR (rung o acts r s) = roleR s := by unfold roleR; rw [ropeRole_rung, rung_pair]
  unfold targetSetBad
  rw [hrun, hrole, hroleR, standaloneStandby_rung, rung_pair]

/-- The target that TARGET_SET holds. -/
def targetHeld (s : State) (r : Req) : TargetPend :=
  { scope := fld (r.w 2) 0 2, value := (r.w 3).toInt, ramp := (r.w 4).toNat, at_ := BitVec.ofNat 64 (applyAt s (r.w 5)) }

/-- A state that holds a target; a standalone standby passes it on. -/
def targetTaken (s : State) (p : TargetPend) (u : State) : State :=
  { u with pipe := { u.pipe with pend := some p }
           pair := if standaloneStandby s then { u.pair with mirrorOut := [forwarded s p] } else u.pair }

theorem served_targetTaken (p : TargetPend) : Served (targetTaken s p s) (targetTaken s p (rung o acts r s)) := by
  have h1 := (served_rung o acts r s).set_pipe (congrArg (fun x : Pipe => { x with pend := some p }) (rung_pipe s o acts r))
  exact h1.set_pair (congrArg (fun x : Pair => if standaloneStandby s then { x with mirrorOut := [forwarded s p] } else x)
    (rung_pair s o acts r))

theorem targetSet_takes (hs : Ready s) (hh : High r 4) (hbad : targetSetBad s r = none) :
    Does (.targetSet r) r s (targetTaken s (targetHeld s r) s) [BitVec.ofNat 32 (applyAt s (r.w 5))] := by
  rw [Does, exec_targetSet, execTargetSet]
  refine does_of hs (taken_high hh rfl rfl rfl (by decide)) (b := targetTaken s (targetHeld s r) (rung 0x0315 [fFIXED0] r s))
    ((guardE_none (targetSetBad_rung.trans hbad)).trans ?_) rfl (served_targetTaken _)
  dsimp only
  rw [applyAt_rung]
  have hstandby : standaloneStandby { rung 0x0315 [fFIXED0] r s with
      pipe := { (rung 0x0315 [fFIXED0] r s).pipe with pend := some (targetHeld s r) } } = standaloneStandby s :=
    standaloneStandby_rung (s := s) (o := 0x0315) (acts := [fFIXED0]) (r := r)
  have hforward : forwarded { rung 0x0315 [fFIXED0] r s with
      pipe := { (rung 0x0315 [fFIXED0] r s).pipe with pend := some (targetHeld s r) } } (targetHeld s r) = forwarded s (targetHeld s r) := by
    unfold forwarded
    dsimp only
    rw [rung_pipe]
  unfold targetTaken
  unfold targetHeld at hstandby hforward ⊢
  rw [hstandby, hforward]
  split <;> rfl

theorem targetSet_refused (hs : Ready s) (hh : High r 4) (hrun : fnState s fFIXED0 ≠ .running) (hf : fnState s fFIXED0 ≠ .faulted) :
    Refuses (.targetSet r) r s .state 0 := by
  rw [Refuses, exec_targetSet, execTargetSet]
  refine refuses_of hs (taken_high hh rfl rfl rfl (by decide)) (guardE_some (targetSetBad_rung.trans ?_))
  unfold targetSetBad
  rw [runBad_not_running hrun hf]
  rfl

theorem capSet_takes (hs : Ready s) (hh : High r 2) (hv : (r.w 2).toNat ≤ 16000000 ∨ r.w 2 = 0xFFFFFFFF) :
    Does (.capSet r) r s { s with pipe := { s.pipe with
      capPend := some (if r.w 2 = 0xFFFFFFFF then none else some (r.w 2).toNat, BitVec.ofNat 64 (applyAt s (r.w 3))) } }
      [BitVec.ofNat 32 (applyAt s (r.w 3))] := by
  rw [Does, exec_capSet, execCapSet]
  refine does_of hs (taken_high hh rfl rfl rfl (by decide)) (b := { rung 0x0904 [] r s with pipe := { (rung 0x0904 [] r s).pipe with
      capPend := some (if r.w 2 = 0xFFFFFFFF then none else some (r.w 2).toNat, BitVec.ofNat 64 (applyAt s (r.w 3))) } })
    ((guardE_none ?_).trans ?_) rfl ((served_rung ..).set_pipe (by rw [rung_pipe]))
  · rcases hv with h | h
    · simp [rangeBad, firstBad, h]
    · simp [rangeBad, firstBad, h]
  · dsimp only
    rw [applyAt_rung]
    rfl

theorem capSet_refused (hs : Ready s) (hh : High r 2) (hv : 16000000 < (r.w 2).toNat) (hne : r.w 2 ≠ 0xFFFFFFFF) :
    Refuses (.capSet r) r s .range 2 := by
  rw [Refuses, exec_capSet, execCapSet]
  refine refuses_of hs (taken_high hh rfl rfl rfl (by decide)) (guardE_some ?_)
  rw [decide_eq_true hv, decide_eq_true hne]
  rfl

/-! ### PIPE_CONFIG and PIPE_QUERY -/

/-- The configuration that PIPE_CONFIG takes. -/
def pipeCfgOf (r : Req) : PipeCfg :=
  { fcStep := fld (r.w 2) 16 9, primeSlew := fld (r.w 2) 0 16, meanLog2 := fld (r.w 3) 0 5, marginW := r.w 4
    lead := (List.range 24).map fun n => fld (r.w (6 + n / 2)) (16 * (n % 2)) 16 }

theorem pipeConfig_takes (hs : Ready s) (hh : High r 16) (hbad : pipeConfigBad s r = none) :
    Does (.pipeConfig r) r s { s with pipe := { s.pipe with cfg := pipeCfgOf r } } [] := by
  have hrung : pipeConfigBad (rung 0x0316 [fFIXED0] r s) r = pipeConfigBad s r := by
    unfold pipeConfigBad
    simp only [fnState_rung]
  rw [Does, exec_pipeConfig, execPipeConfig]
  exact does_of hs (taken_high hh rfl rfl rfl (by decide)) (b := { rung 0x0316 [fFIXED0] r s with
      pipe := { (rung 0x0316 [fFIXED0] r s).pipe with cfg := pipeCfgOf r } })
    (guardE_none (hrung.trans hbad)) rfl ((served_rung ..).set_pipe (by rw [rung_pipe]))

theorem areaDamage_rung (base size : Nat) :
    areaDamage (seeAs .clerk (rung o acts r s)) base size = areaDamage (seeAs .clerk s) base size := by
  obtain ⟨_, _, _, _, _, _, _, _, _, _, h⟩ := seeAs_rung o acts r .clerk s
  rw [h]
  rfl

theorem areaWords_rung (base size : Nat) :
    validOf (rung o acts r s) base = validOf s base ∧ copyWords (rung o acts r s) base size = copyWords s base size := by
  obtain ⟨_, _, _, _, _, _, _, _, _, _, h⟩ := rung_parts o acts r s
  rw [h]
  exact ⟨rfl, rfl⟩

section
variable {c : Cmd} {base size : Nat} {f : List Word → Answer}

/-- A query of an area whose words read. -/
theorem area_answers {w : List Word} (hs : Ready s) (ht : Taken c r) (hdam : areaDamage (seeAs .clerk s) base size = none)
    (hf : f (if validOf s base then copyWords s base size else List.replicate (size / 4) 0) = okR w) :
    ∃ t, mailbox c r (areaAnswer base size f) s = .next t ∧ Answered t r .ok 0 w ∧ Served s t := by
  refine does_of hs ht (b := rung c.op c.acts r s) ?_ rfl (served_rung ..)
  obtain ⟨hvalid, hwords⟩ := areaWords_rung (s := s) (o := c.op) (acts := c.acts) (r := r) base size
  unfold areaAnswer
  rw [areaDamage_rung, hdam]
  dsimp only
  rw [hvalid, hwords, hf]

/-- A query of an area of which a word does not read (R193). -/
theorem area_faults (hs : Ready s) (ht : Taken c r) (hdam : (areaDamage (seeAs .clerk s) base size).isSome = true) :
    ∃ t, mailbox c r (areaAnswer base size f) s = .next t ∧ Answered t r .fault 0 [] ∧ t.mem.cells = s.mem.cells := by
  obtain ⟨d, hd⟩ := Option.isSome_iff_exists.1 hdam
  refine faults_of (d := d) hs ht ?_
  unfold areaAnswer
  rw [areaDamage_rung, hd]

end

/-- Settles O32. -/
theorem pipelineCommands : Obligations.PipelineCommands := by
  intro r s hs stroke scope
  refine ⟨fun hh hrun hres hscope hlo hhi hzero h0 h1 h2 hsilent => ?_, fun hh => targetSet_refused hs hh, fun hh => capSet_takes hs hh,
    fun hh => capSet_refused hs hh, fun hh h0 h1 hr2 hlo hhi hslew hr3 hm hm' hr5 => ?_, fun hh hdam => ?_, fun hh hdam => ?_⟩
  · exact targetSet_takes hs hh (targetSetBad_none hrun hres hscope hlo hhi hzero (targetRoleOk_of hscope h0 h1 h2) hsilent)
  · refine pipeConfig_takes hs hh ?_
    have hq : fQueue 0 1 = 0x11 := rfl
    unfold pipeConfigBad
    have hstep : ¬ (fld (r.w 2) 16 9 = 0 ∨ 256 < fld (r.w 2) 16 9) := by omega
    have hmean : ¬ (fld (r.w 3) 0 5 < 10 ∨ 24 < fld (r.w 3) 0 5) := by omega
    simp only [hq, h0, h1, hr2, hr3, hr5, hslew, hstep, hmean, rangeBad, firstBad, firstErr, List.find?_cons, List.find?_nil, ne_eq,
      not_true_eq_false, decide_false, Bool.or_self, Bool.false_eq_true, if_false, Option.map_none]
  · rw [Asks, exec_pipeQuery, execPipeQuery]
    exact area_answers hs (taken_high hh rfl rfl rfl (by decide)) hdam rfl
  · rw [exec_pipeQuery, execPipeQuery]
    exact area_faults hs (taken_high hh rfl rfl rfl (by decide)) hdam

end

end Sys2Proof.Machine
end

section
/-! PROOFS. ROLE_SET and the commands of the rope (R346 to R351). -/

namespace Sys2Proof.Machine

section
variable {s : State} {r : Req} {o : Nat} {acts : List Nat}

theorem served_ropeRole {t : State} (h : Served s t) (n : Nat) :
    Served { s with clerk := { s.clerk with ropeRole := n } } { t with clerk := { t.clerk with ropeRole := n } } := by
  have hclerk := h.clerk
  unfold Served at h ⊢
  dsimp only
  rw [hclerk]
  tauto

theorem roleSet_takes (hs : Ready s) (hh : High r 1) (hres : fld (r.w 2) 2 30 = 0) (hstate : fnState s fROPE = .off ∨ fnState s fROPE = .stopped)
    (hssc : s.clk.sscPpm ≠ 0 → fld (r.w 2) 0 2 ≠ 1 ∧ fld (r.w 2) 0 2 ≠ 2) :
    Does (.roleSet r) r s { s with clerk := { s.clerk with ropeRole := fld (r.w 2) 0 2 } } [] := by
  have hlive : fnLive s fROPE = false := by
    unfold fnLive fnRunning fnFaulted
    rcases hstate with h | h <;> simp [h]
  have hwave : ¬ (s.clk.sscPpm ≠ 0 ∧ (fld (r.w 2) 0 2 = 1 ∨ fld (r.w 2) 0 2 = 2)) := by
    rintro ⟨h, hn⟩
    obtain ⟨h1, h2⟩ := hssc h
    rcases hn with hn | hn
    · exact h1 hn
    · exact h2 hn
  rw [Does, exec_roleSet, execRoleSet]
  refine does_of hs (taken_high hh rfl rfl rfl (by decide)) (b := { rung 0x0501 [fROPE] r s with
      clerk := { (rung 0x0501 [fROPE] r s).clerk with ropeRole := fld (r.w 2) 0 2 } })
    ((guardE_none ?_).trans rfl) rfl (served_ropeRole (served_rung ..) _)
  rw [fnLive_rung, hlive, rung_clk, if_neg hwave]
  simp [rangeBad, firstBad, hres, firstErr]

/-- The configuration that ROPE_CONFIG takes. -/
def ropeCfgOf (r : Req) : RopeCfg :=
  { ropeId := r.w 2, members := fld (r.w 3) 0 12, addr := fld (r.w 3) 16 12, addrSet := true
    winBase := fld (r.w 4) 12 20 * 4096 + fld (r.w 5) 0 8 * 2 ^ 32, winPages := (r.w 6).toNat, remoteWr := bit (r.w 4) 0
    lossHold := (r.w 7).toNat }

theorem cfgBad_stopped {f : Nat} (h : fnState s f = .stopped) : cfgBad (rung o acts r s) f = none := by
  rw [cfgBad, fnState_rung, h]

theorem ropeConfig_takes (hs : Ready s) (hh : High r 6) (hstate : fnState s fROPE = .stopped) (hbad : ropeConfigBad r = none) :
    Does (.ropeConfig r) r s { s with rope := { s.rope with cfg := ropeCfgOf r } } [] := by
  rw [Does, exec_ropeConfig, execRopeConfig]
  refine does_of hs (taken_high hh rfl rfl rfl (by decide)) (b := { rung 0x0502 [fROPE] r s with
      rope := { (rung 0x0502 [fROPE] r s).rope with cfg := ropeCfgOf r } })
    ((guardE_none ?_).trans rfl) rfl ((served_rung ..).set_rope (by rw [rung_rope]))
  rw [cfgBad_stopped hstate, hbad]
  rfl

theorem ropeWords_rung : ropeWords (rung o acts r s) = ropeWords s := by
  obtain ⟨_, _, _, _, _, _, _, _, _, _, h⟩ := rung_parts o acts r s
  rw [h]
  rfl

theorem portWords_rung (p : Nat) : portWords (rung o acts r s) p = portWords s p := by
  obtain ⟨_, _, _, _, _, _, _, _, _, _, h⟩ := rung_parts o acts r s
  rw [h]
  rfl

/-! ### ROPE_CMIS -/

theorem ropeCmisBad_rung : ropeCmisBad (rung o acts r s) r = ropeCmisBad s r := by
  unfold ropeCmisBad
  simp only [fnRunning_rung, claimConflict_claims (rung_claims s o acts r)]

theorem cmisReply_rung (n : Nat) (reply : CmisReply) : cmisReply (rung o acts r s) n reply = cmisReply s n reply := by
  unfold cmisReply gateOn cmisRuns
  rw [rung_clk]

theorem served_cmisWrite (port bank page off data : Nat) :
    Served (cmisWrite port bank page off data s) (cmisWrite port bank page off data (rung o acts r s)) := by
  have h := served_rung o acts r s
  unfold cmisWrite gateOn
  rw [rung_clk]
  split
  · exact h
  · exact h.set_rope (by rw [rung_rope])

theorem cmisWrite_mbs (port bank page off data : Nat) (s : State) : (cmisWrite port bank page off data s).mbs = s.mbs := by
  unfold cmisWrite
  split <;> rfl

theorem ropeCmis_reads (hs : Ready s) (hh : High r 2) (hbad : ropeCmisBad s r = none) {reply : CmisReply} {bs : List Byte}
    (hreply : cmisReply s (fld (r.w 3) 0 8) reply = .bytes bs) :
    (bit (r.w 2) 31 = false → Asks (.ropeCmis r reply) r s (wordsOf (fit (fld (r.w 3) 0 8) 0 bs))) ∧
    (bit (r.w 2) 31 = true → Does (.ropeCmis r reply) r s (cmisWrite (fld (r.w 2) 24 2) (fld (r.w 2) 16 8) (fld (r.w 2) 8 8)
      (fld (r.w 2) 0 8) (fld (r.w 3) 8 8) s) []) := by
  simp only [Asks, Does, exec_ropeCmis, execRopeCmis]
  refine ⟨fun hwr => ?_, fun hwr => ?_⟩
  · refine does_of hs (taken_high hh rfl rfl rfl (by decide)) (b := rung 0x0505 [fROPE] r s)
      ((guardE_none (ropeCmisBad_rung.trans hbad)).trans ?_) rfl (served_rung ..)
    rw [cmisReply_rung, hreply]
    dsimp only
    rw [if_neg (by simp [hwr])]
  · refine does_of hs (taken_high hh rfl rfl rfl (by decide))
      (b := cmisWrite (fld (r.w 2) 24 2) (fld (r.w 2) 16 8) (fld (r.w 2) 8 8) (fld (r.w 2) 0 8) (fld (r.w 3) 8 8) (rung 0x0505 [fROPE] r s))
      ((guardE_none (ropeCmisBad_rung.trans hbad)).trans ?_) (cmisWrite_mbs ..) (served_cmisWrite ..)
    rw [cmisReply_rung, hreply]
    dsimp only
    rw [if_pos hwr]

theorem ropeCmis_noAnswer (hs : Ready s) (hh : High r 2) (hbad : ropeCmisBad s r = none) {reply : CmisReply}
    (hreply : cmisReply s (fld (r.w 3) 0 8) reply = .noAnswer) : Refuses (.ropeCmis r reply) r s .timeout 0 := by
  rw [Refuses, exec_ropeCmis, execRopeCmis]
  refine mailbox_ends hs (taken_high hh rfl rfl rfl (by decide))
    (b := ropeRecord 1 0x0509 (fld (r.w 2) 24 2) (portRope (fld (r.w 2) 24 2)) 0 (rung 0x0505 [fROPE] r s))
    ((guardE_none (ropeCmisBad_rung.trans hbad)).trans ?_) (emit_mbs ..) fun t hans h =>
      ⟨hans, ((served_rung ..).trans (served_emit ..)).trans h⟩
  rw [cmisReply_rung, hreply]
  rfl

/-! ### ROPE_READ -/

/-- The checks of ROPE_READ, before it looks for a frame. -/
def RopeReadOk (s : State) (r : Req) : Prop :=
  1 ≤ fld (r.w 2) 16 16 ∧ fld (r.w 2) 16 16 ≤ 63 ∧ headsRope s = true ∧ fld (r.w 2) 0 16 + fld (r.w 2) 16 16 ≤ 19 + s.rope.cfg.members

/-- The lines of a frame that ROPE_READ answers. -/
def frameLines (r : Req) (fr : List Word) : List Word :=
  [fr.getD 1 0, fr.getD 2 0] ++ fit (16 * fld (r.w 2) 16 16) 0 (fr.drop (16 * fld (r.w 2) 0 16))

theorem ropeRead_answers {ws : List Word} (hs : Ready s) (hh : High r 1) (hok : RopeReadOk s r)
    (hframe : (s.rope.seen = true ∧ damagedIn (seeAs .clerk s) (currentCopy (seeAs .clerk s) (aPublished + 0x40000) (64 * s.rope.landedLines))
        (64 * s.rope.landedLines) = none ∧ ws = copyWords (seeAs .clerk s) (aPublished + 0x40000) (64 * s.rope.landedLines)) ∨
      s.rope.seen = false ∧ ∃ k, s.rope.arriving.getLast? = some (k, ws)) :
    Asks (.ropeRead r) r s (frameLines r ws) := by
  obtain ⟨hlo, hhi, hhead, hlen⟩ := hok
  rw [Asks, exec_ropeRead, execRopeRead]
  refine does_of hs (taken_high hh rfl rfl rfl (by decide)) (b := rung 0x0506 [] r s) ?_ rfl (served_rung ..)
  dsimp only
  rw [if_neg (by omega), headsRope_rung, hhead, if_neg (by simp), rung_rope, if_neg (by omega)]
  rcases hframe with ⟨hseen, hdam, hws⟩ | ⟨hseen, k, hlast⟩
  · rw [if_pos hseen]
    have hcopy : currentCopy (seeAs .clerk (rung 0x0506 [] r s)) (aPublished + 0x40000) (64 * s.rope.landedLines) =
        currentCopy (seeAs .clerk s) (aPublished + 0x40000) (64 * s.rope.landedLines) := by
      obtain ⟨_, _, _, _, _, _, _, _, _, _, h⟩ := seeAs_rung 0x0506 [] r .clerk s
      rw [h]
      rfl
    have hwords : copyWords (seeAs .clerk (rung 0x0506 [] r s)) (aPublished + 0x40000) (64 * s.rope.landedLines) = ws := by
      unfold copyWords
      rw [hcopy, memWords_rung]
      exact hws.symm
    rw [hcopy, clerkRead_rung_none hdam, hwords]
    rfl
  · rw [if_neg (by simp [hseen]), hlast]
    rfl

theorem length_frameLines (r : Req) (ws : List Word) : (frameLines r ws).length = 2 + 16 * fld (r.w 2) 16 16 := by
  simp [frameLines, length_fit]
  omega

/-- Settles O33. -/
theorem ropeCommands : Obligations.RopeCommands := by
  intro r s hs
  refine ⟨fun hh hres hstate hssc => roleSet_takes hs hh hres hstate hssc, fun hh hstate hbad => ropeConfig_takes hs hh hstate hbad,
    fun hh => ?_, fun hh hres => ?_, fun reply bs hh hbad hreply => ropeCmis_reads hs hh hbad hreply,
    fun reply hh hbad hreply => ropeCmis_noAnswer hs hh hbad hreply, ?_, ?_⟩
  · rw [Asks, exec_ropeQuery, execRopeQuery]
    exact asks_of hs (taken_high hh rfl rfl rfl (by decide)) (congrArg okR ropeWords_rung)
  · rw [Asks, exec_ropePortQuery, execRopePortQuery]
    refine asks_of hs (taken_high hh rfl rfl rfl (by decide)) ?_
    dsimp only
    rw [if_neg (by simp [hres]), portWords_rung]
  · intro x hh hlo hhi hhead hlen hseen hlast
    exact ropeRead_answers hs hh ⟨hlo, hhi, hhead, hlen⟩ (.inr ⟨hseen, x.1, hlast⟩)
  · intro hh hlo hhi hhead hlen hseen hdam
    obtain ⟨t, hexec, hans, hserved⟩ := ropeRead_answers hs hh ⟨hlo, hhi, hhead, hlen⟩ (.inl ⟨hseen, hdam, rfl⟩)
    exact ⟨t, _, hexec, hans, length_frameLines r _, hserved⟩

end

end Sys2Proof.Machine
end

section
/-! PROOFS. The links of a rope, its bypasses, its cables and the hold of a member that has lost its head (R321 to R343). -/

namespace Sys2Proof.Machine

section
variable {s : State} {p : Nat} {f g : Port → Port}

@[simp] theorem ropeRecord_rope (sev code port : Nat) (b : Bool) (n : Nat) (s : State) :
    (ropeRecord sev code port b n s).rope = s.rope := emit_rope ..
@[simp] theorem ropeRecord_funcs (sev code port : Nat) (b : Bool) (n : Nat) (s : State) :
    (ropeRecord sev code port b n s).funcs = s.funcs := emit_funcs ..
@[simp] theorem ropeRecord_pipe (sev code port : Nat) (b : Bool) (n : Nat) (s : State) :
    (ropeRecord sev code port b n s).pipe = s.pipe := emit_pipe ..

theorem portOf_congr {t : State} (h : t.rope.ports = s.rope.ports) (p : Nat) : portOf t p = portOf s p := by simp only [portOf, h]

/-- A port that the module has reads as its edit left it. -/
theorem portOf_portMod (hp : p < s.rope.ports.length) : portOf (portMod p f s) p = f (portOf s p) := by
  simp [portOf, portMod, ropeMod, hp]

/-- An edit counts for what it makes of the port that is there. -/
theorem portMod_congr (h : f (portOf s p) = g (portOf s p)) : portMod p f s = portMod p g s := by
  by_cases hp : p < s.rope.ports.length
  · have hfg : s.rope.ports.modify p f = s.rope.ports.modify p g := by
      simp only [portOf, List.getD_eq_getElem _ _ hp] at h
      rw [List.modify_eq_set, List.modify_eq_set, List.getElem?_eq_getElem hp, Option.getD_some, h]
    simp only [portMod, ropeMod, hfg]
  · have hfg : s.rope.ports.modify p f = s.rope.ports.modify p g := by
      rw [List.modify_eq_self (by omega), List.modify_eq_self (by omega)]
    simp only [portMod, ropeMod, hfg]

@[simp] theorem portMod_funcs (p : Nat) (f : Port → Port) (s : State) : (portMod p f s).funcs = s.funcs := rfl
@[simp] theorem portMod_starting (p : Nat) (f : Port → Port) (s : State) : (portMod p f s).rope.starting = s.rope.starting := rfl

/-- A wrap that begins is noted, and the rest of the rope's state stays (R336). -/
theorem wrapStart_rope (p : Nat) (s : State) : ∃ a b, (wrapStart p s).rope = { s.rope with wrapA := a, wrapB := b } := by
  unfold wrapStart
  split
  · refine holds_ite (P := fun t => ∃ a b, t.rope = { s.rope with wrapA := a, wrapB := b }) ⟨_, _, rfl⟩ ?_
    rw [ropeRecord_rope]
    cases portRope p
    · exact ⟨true, _, rfl⟩
    · exact ⟨_, true, rfl⟩
  · exact ⟨_, _, rfl⟩

theorem wrapStart_ports (p : Nat) (s : State) : (wrapStart p s).rope.ports = s.rope.ports := by
  obtain ⟨a, b, h⟩ := wrapStart_rope p s
  rw [h]

theorem wrapStart_funcs (p : Nat) (s : State) : (wrapStart p s).funcs = s.funcs := by
  unfold wrapStart
  split
  · exact holds_ite (P := fun t => t.funcs = s.funcs) rfl (ropeRecord_funcs ..)
  · rfl

/-- What a link that fails leaves of its port (R321, R323). -/
theorem linkFail_port (h : (portOf s p).link = .up) (hp : p < s.rope.ports.length) :
    ((portOf (linkFail p s) p).link = .training ∨ (portOf (linkFail p s) p).link = .heldDown) ∧ (portOf (linkFail p s) p).lanes = 0 ∧
      (portOf (linkFail p s) p).fails = satAdd 65535 (portOf s p).fails 1 := by
  unfold linkFail
  extract_lets x recent n s1
  rw [if_neg (not_not.2 h), portOf_congr (wrapStart_ports ..), portOf_congr (s := s1) (by rw [ropeRecord_rope]), portOf_portMod hp]
  refine ⟨?_, rfl, rfl⟩
  dsimp only
  split
  · exact .inr rfl
  · exact .inl rfl

theorem linkFail_down (h : (portOf s p).link ≠ .up) : linkFail p s = s := by
  unfold linkFail
  exact if_pos h


/-- The wraps that START finds leave START's wait and the functions as they are. -/
theorem wrapsAtStart_keeps (t : State) : (wrapsAtStart t).rope.starting = t.rope.starting ∧ (wrapsAtStart t).funcs = t.funcs := by
  unfold wrapsAtStart
  refine holds_foldl (P := fun u => u.rope.starting = t.rope.starting ∧ u.funcs = t.funcs) ⟨rfl, rfl⟩ fun u q hu => ?_
  split
  · exact hu
  · obtain ⟨a, b, h⟩ := wrapStart_rope q u
    exact ⟨(congrArg Rope.starting h).trans hu.1, (wrapStart_funcs q u).trans hu.2⟩

/-- When START has ended well ROPE runs, and nothing of it waits (R326). -/
theorem ropeStarted_runs (hs : s.funcs.length = 27) :
    (ropeStarted s).rope.starting = .no ∧ fnState (ropeStarted s) fROPE = .running := by
  unfold ropeStarted
  extract_lets s1
  obtain ⟨hst, hfn⟩ := wrapsAtStart_keeps (fnSet fROPE .running 0 s1)
  constructor
  · rw [answer_rope, hst, fnSet_rope]
    rfl
  · exact (fnState_congr ((answer_funcs ..).trans hfn) fROPE).trans (fnState_fnSet (s := s1) hs (by decide) _ _)

theorem islandEnter_starting (s : State) : (islandEnter s).rope.starting = s.rope.starting := by
  unfold islandEnter
  split
  · rfl
  · rw [ropeRecord_rope]; rfl

theorem islandEnter_funcs (s : State) : (islandEnter s).funcs = s.funcs := by
  unfold islandEnter
  split
  · rfl
  · rw [ropeRecord_funcs]; rfl

end

/-- A link that trains comes UP (R321). -/
theorem linkUp_trains {s : State} {port : Fin 4} {ps : Nat} (hl : s.rope.ports.length = 4) (hst : s.rope.starting ≠ .openA)
    (htr : (portOf s port.val).link = .training) :
    ∃ t, exec (.linkUp ⟨port, ps⟩) s = .next t ∧ (portOf t port.val).link = .up ∧ (portOf t port.val).lanes = 0xF ∧
      (portOf t port.val).delay = ps ∧ t.funcs = s.funcs := by
  rw [exec_linkUp, execLinkUp]
  dsimp only
  rw [if_neg (not_not.2 htr), if_neg (by rw [ropeRecord_rope]; exact fun h => hst h.1)]
  have hport := portOf_portMod (p := port.val) (s := s) (f := fun y => { y with link := .up, lanes := 0xF, delay := ps }) (by omega)
  refine ⟨_, rfl, ?_, ?_, ?_, ropeRecord_funcs ..⟩ <;>
    rw [portOf_congr (congrArg Rope.ports (ropeRecord_rope ..)), hport]

/-- A poll of a cable that answers keeps its temperature, and the first one whether its application is the rope's (R343). -/
theorem cmisPoll_answers {s : State} {port : Fin 4} {c : CmisPoll} (hr : fnState s fROPE = .running) (hc : cmisRuns s = true)
    (ha : c.answered = true) (hl : c.lossOfLock = false) (happ : (portOf s port.val).asked = false → c.app = true) :
    exec (.cmisPoll port c) s = .next (portMod port.val
      (fun y => { y with asked := true, cmisOk := !y.asked || y.cmisOk, temp := c.temp }) s) := by
  rw [exec_cmisPoll, execCmisPoll]
  have hrun : fnRunning s fROPE = true := decide_eq_true hr
  have hrec : (!(portOf s port.val).asked && !c.app) = false := by
    cases hk : (portOf s port.val).asked
    · rw [happ hk]; rfl
    · rfl
  simp only [hrun, hc, ha, hl, hrec, Bool.true_or, Bool.not_true, Bool.or_false, Bool.false_eq_true, if_false, if_true, Bool.and_false,
    Bool.true_and]
  refine congrArg Host.Outcome.next (portMod_congr ?_)
  cases hk : (portOf s port.val).asked
  · simp [happ hk]
  · simp

/-- A cable whose first poll brings no answer, or another application, is not the rope's (R343). -/
theorem cmisPoll_refuses {s : State} {port : Fin 4} {c : CmisPoll} (hlen : s.rope.ports.length = 4) (hr : fnState s fROPE = .running)
    (hc : cmisRuns s = true) (hbad : c.answered = false ∨ c.app = false) (hask : (portOf s port.val).asked = false)
    (hl : c.lossOfLock = false) :
    ∃ t, exec (.cmisPoll port c) s = .next t ∧ (portOf t port.val).asked = true ∧ (portOf t port.val).cmisOk = false ∧
      t.funcs = s.funcs := by
  rw [exec_cmisPoll, execCmisPoll]
  have hrun : fnRunning s fROPE = true := decide_eq_true hr
  have hrec : (!c.answered || !c.app) = true := by rcases hbad with h | h <;> simp [h]
  have hok : (c.answered && c.app) = false := by rcases hbad with h | h <;> simp [h]
  simp only [hrun, hc, hl, hask, hrec, hok, Bool.true_or, Bool.not_true, Bool.or_false, Bool.false_eq_true, if_false, if_true,
    Bool.and_false, Bool.true_and, Bool.not_false]
  refine ⟨_, rfl, ?_, ?_, ropeRecord_funcs ..⟩ <;>
    rw [portOf_congr (congrArg Rope.ports (ropeRecord_rope ..)), portOf_portMod (by omega)]

/-- START's first wait opens the second rope and goes on to the wait for a frame (R326). -/
theorem startWait_opens {s : State} (h : s.rope.starting = .openA) :
    ∃ t, exec (.ropeStartWaitExpired false) s = .next t ∧ t.rope.openB = true ∧ t.rope.starting = .waitFrame ∧ t.funcs = s.funcs := by
  rw [exec_ropeStartWaitExpired, execRopeStartWaitExpired, h]
  exact ⟨_, rfl, rfl, rfl, rfl⟩

/-- START's second wait ends with ROPE running (R326). -/
theorem startWait_ends {s : State} (h : s.rope.starting = .waitFrame) (hs : Sound s) :
    ∃ t, exec (.ropeStartWaitExpired true) s = .next t ∧ t.rope.starting = .no ∧ fnState t fROPE = .running := by
  obtain ⟨-, -, -, hf, -⟩ := hs
  rw [exec_ropeStartWaitExpired, execRopeStartWaitExpired, h]
  obtain ⟨hno, hrun⟩ := ropeStarted_runs hf
  simp -zeta only [Bool.not_true, Bool.false_eq_true, if_false]
  extract_lets t
  refine ⟨_, rfl, ?_⟩
  split
  · exact ⟨(islandEnter_starting t).trans hno, (fnState_congr (islandEnter_funcs t) fROPE).trans hrun⟩
  · exact ⟨hno, hrun⟩

/-- A worker whose head is silent past its hold has no target and no ramp left (R333). -/
theorem lossHold_expires {s : State} (hr : fnState s fROPE = .running) (hrole : s.clerk.ropeRole = 3)
    (hexp : s.rope.lossExpired = false) (hdue : s.rope.lastSlot.toNat + s.rope.cfg.lossHold ≤ s.clk.stroke.toNat) :
    ∃ t, exec .ropeLossHoldExpired s = .next t ∧ t.rope.lossExpired = true ∧ t.pipe.target.targeted = false ∧
      t.pipe.target.ramp = none := by
  have hlive : fnLive s fROPE = true := by simp [fnLive, fnRunning, hr]
  rw [exec_ropeLossHoldExpired, execRopeLossHoldExpired]
  dsimp only
  rw [if_pos ⟨hlive, hrole, hexp, hdue⟩]
  refine ⟨_, rfl, ?_, ?_, ?_⟩ <;> simp [ropeMod]

/-- Settles O34. -/
theorem ropeLinkEvents : Obligations.RopeLinkEvents := by
  unfold Obligations.RopeLinkEvents
  intro port ps s hlen
  refine ⟨fun hst htr => linkUp_trains hlen hst htr, fun h => if_pos h, fun hup => ⟨_, rfl, linkFail_port hup (by omega)⟩,
    fun h => congrArg Host.Outcome.next (linkFail_down h), fun h => if_pos h, fun c hr hc => ⟨cmisPoll_answers hr hc, fun hbad hask hl =>
      cmisPoll_refuses hlen hr hc hbad hask hl⟩, startWait_opens, fun h _ hs => startWait_ends h hs, lossHold_expires⟩

end Sys2Proof.Machine
end

section
/-! PROOFS. The frames of a rope: what a member takes of one, and what a head's returning copies leave (R333, R334). -/

namespace Sys2Proof.Machine

section
variable {s t : State} {p : Nat} {b : Bool} {h : Line} {fs : List FuncRec}

/-- Counting a frame's damaged lines touches the port alone (R319). -/
theorem crcCount_parts (p : Nat) (ls : List RopeLine) (s : State) :
    ∃ ps, crcCount p ls s = { s with rope := { s.rope with ports := ps } } := by
  unfold crcCount crcFail
  split
  · exact ⟨_, rfl⟩
  · exact ⟨_, rfl⟩

/-- The header of a frame has been taken as `frameNote` leaves it, and no function's state is another (R333). -/
def FrameNoted (h : Line) (fs : List FuncRec) (t : State) : Prop :=
  t.rope.header = h ∧ t.rope.live = hLive h ∧ t.rope.lastFrame = BitVec.ofNat 64 (hStroke h) ∧ t.rope.frameNow = true ∧
    t.funcs = fs

theorem frameNoted_frameNote (p : Nat) (hf : t.funcs = fs) : FrameNoted h fs (frameNote p h t) := ⟨rfl, rfl, rfl, rfl, hf⟩

theorem frameNoted_slotTake (l : Line) (ht : FrameNoted h fs t) : FrameNoted h fs (slotTake l t) := holds_ite ht ht

theorem frameNoted_contribNote (k : Stroke) (ht : FrameNoted h fs t) : FrameNoted h fs (contribNote b k t) := by
  cases b <;> exact ht

theorem frameNoted_ropeSend (ls : List Line) (ht : FrameNoted h fs t) : FrameNoted h fs (ropeSend b ls t) := by
  unfold ropeSend
  extract_lets wrap ls'
  cases (b ^^ wrap) <;> exact ht

theorem islandLeave_funcs (p : Nat) (s : State) : (islandLeave p s).funcs = s.funcs :=
  holds_ite (P := fun t => t.funcs = s.funcs) (ropeRecord_funcs ..) rfl

theorem epochChange_funcs (s : State) : (epochChange s).funcs = s.funcs := by
  unfold epochChange
  exact holds_foldl (P := fun t => t.funcs = s.funcs) rfl fun t x ht => (emit_funcs ..).trans ht

theorem strokeAdopt_funcs (h : Line) (s : State) : (strokeAdopt h s).funcs = s.funcs := by
  unfold strokeAdopt
  extract_lets n old s1
  refine holds_ite (P := fun t => t.funcs = s.funcs) rfl ((epochChange_funcs _).trans ?_)
  exact emit_funcs ..

theorem frameAlign_funcs (p : Nat) (h : Line) (s : State) : (frameAlign p h s).funcs = s.funcs := by
  unfold frameAlign
  refine holds_ite (P := fun t => t.funcs = s.funcs) ((strokeAdopt_funcs ..).trans (islandLeave_funcs ..)) ?_
  exact holds_ite (P := fun t => t.funcs = s.funcs) (strokeAdopt_funcs ..) rfl

/-- A member whose slot the frame does not hold already takes the header (R333). -/
theorem memberFrame_notes {ps : Nat} {ls : List RopeLine} (hslot : slotTaken s ls = false) : FrameNoted h s.funcs (memberFrame b ps h ls s) := by
  unfold memberFrame
  extract_lets port first s1 out s2 s3
  rw [if_neg (by simp [hslot])]
  have h1 : FrameNoted h s.funcs s1 := frameNoted_frameNote _ (frameAlign_funcs ..)
  have h2 : FrameNoted h s.funcs s2 := by
    unfold s2
    split
    · exact holds_ite (frameNoted_slotTake _ h1) h1
    · exact h1
  exact frameNoted_ropeSend _ (holds_ite (frameNoted_contribNote _ h2) h2)

/-- A frame of the member's own rope that fits its configuration is taken (R333). -/
theorem runFrame_notes {ps : Nat} {ls : List RopeLine} (hth : timingHead s = false) (hrope : hRope h = s.rope.cfg.ropeId)
    (hdiv : hDiv h = s.clk.strokeDiv) (hmem : hMembers h = s.rope.cfg.members) (hslot : slotTaken s ls = false) :
    FrameNoted h s.funcs (runFrame b ps h ls s) := by
  unfold runFrame
  rw [if_neg (by simp [hth]), if_neg (not_not.2 hrope), if_neg (by rintro (h | h); exacts [h hdiv, h hmem])]
  exact memberFrame_notes hslot

/-- A member's frame of its own rope, as the wait-free receipt takes it (R333). -/
theorem strokeFrameReceived_notes {side : RopeSide} {l : RopeLine} {rest : List RopeLine} {delay fwd : Nat} (hon : onRope s = true)
    (hth : timingHead s = false) (hst : s.rope.starting = .no) (hcrc : l.crcOk = true) (hmark : fld (l.words.getD 0 0) 24 8 = 0xA5)
    (hrope : hRope l.words = s.rope.cfg.ropeId) (hdiv : hDiv l.words = s.clk.strokeDiv)
    (hmem : hMembers l.words = s.rope.cfg.members) (hslot : slotTaken s (l :: rest) = false) :
    ∃ t, exec (.strokeFrameReceived side (l :: rest) delay fwd) s = .next t ∧ FrameNoted l.words s.funcs t := by
  rw [exec_strokeFrameReceived, execStrokeFrameReceived]
  extract_lets s1
  obtain ⟨ps, hs1⟩ : ∃ ps, s1 = { s with rope := { s.rope with ports := ps } } := by
    obtain ⟨ps, hps⟩ := crcCount_parts (if ropeB? side then 2 else 0) (l :: rest) s
    exact ⟨_, by rw [show s1 = portMod (if ropeB? side then 2 else 0) _ (crcCount (if ropeB? side then 2 else 0) (l :: rest) s) from rfl, hps]; rfl⟩
  clear_value s1
  have hth1 : timingHead s1 = false := by rw [hs1]; exact hth
  have hrope1 : hRope l.words = s1.rope.cfg.ropeId := by rw [hs1]; exact hrope
  have hdiv1 : hDiv l.words = s1.clk.strokeDiv := by rw [hs1]; exact hdiv
  have hmem1 : hMembers l.words = s1.rope.cfg.members := by rw [hs1]; exact hmem
  have hslot1 : slotTaken s1 (l :: rest) = false := by rw [hs1]; exact hslot
  have hfs : s1.funcs = s.funcs := by rw [hs1]
  rw [if_neg (by simp [hon])]
  dsimp only
  rw [if_neg (by simp only [hcrc, hmark, hst]; simp), if_neg (by simp [hst])]
  exact ⟨_, rfl, hfs ▸ runFrame_notes hth1 hrope1 hdiv1 hmem1 hslot1⟩

end

section
variable {s t : State} {b : Bool} {k : Stroke}

/-- The state that one side of the rope shows. -/
def sideState (b : Bool) (s : State) : RopeSt := if b then s.rope.stateB else s.rope.stateA

/-- No copy of stroke `k` is out on one side. -/
def SideIn (b : Bool) (k : Stroke) (s : State) : Prop := ∀ x ∈ s.rope.flight, x.stroke = k → (if b then x.outB else x.outA) = false

theorem sideState_ropeStSet (b : Bool) (x : RopeSt) (s : State) : sideState b (ropeStSet b x s) = x := by
  by_cases h : sideState b s = x
  · rw [ropeStSet, if_pos (show (if b then s.rope.stateB else s.rope.stateA) = x from h)]
    exact h
  · rw [ropeStSet, if_neg (show ¬(if b then s.rope.stateB else s.rope.stateA) = x from h), sideState, ropeRecord_rope]
    cases b <;> rfl

/-- A missed frame is counted and recorded, and no flight and no rope state is another (R334). -/
theorem frameMissed_parts (s : State) : (frameMissed s).rope.flight = s.rope.flight ∧ sideState b (frameMissed s) = sideState b s := by
  unfold frameMissed
  extract_lets s1 due
  refine holds_ite (P := fun t => t.rope.flight = s.rope.flight ∧ sideState b t = sideState b s) ?_ ⟨rfl, rfl⟩
  rw [sideState, ropeRecord_rope]
  exact ⟨rfl, rfl⟩

/-- When a copy is done it is out no more, and the rope's state stays (R334). -/
theorem flightDone_in (b : Bool) (k : Stroke) (s : State) : SideIn b k (flightDone b k s) ∧ sideState b (flightDone b k s) = sideState b s := by
  unfold flightDone
  extract_lets gone fs lost s1
  have h1 : SideIn b k s1 := by
    intro x hx hk
    obtain ⟨y, -, rfl⟩ := List.mem_map.1 (List.mem_of_mem_filter hx)
    cases b <;> simp only [gone, Bool.false_eq_true, if_false, if_true] at hk ⊢ <;> split at hk <;> simp_all
  refine holds_ite (P := fun t => SideIn b k t ∧ sideState b t = sideState b s) ?_ ⟨h1, rfl⟩
  obtain ⟨hf, hst⟩ := frameMissed_parts (b := b) s1
  exact ⟨fun x hx => h1 x (hf ▸ hx), hst⟩

theorem frameLand_sides (b : Bool) (h : Line) (ls : List RopeLine) (s : State) : sideState b (frameLand h ls s) = sideState b s :=
  holds_ite (P := fun t => sideState b t = sideState b s) rfl rfl

/-- The copy that has come back is out no more, and its side shows how it came (R334). -/
theorem copyBack_sides (b : Bool) (h : Line) (ls : List RopeLine) (s : State) :
    sideState (hB h) (copyBack b h ls s) = (if hWrapped h then .wrapped else .whole) ∧
      SideIn (hB h) (BitVec.ofNat 64 (hStroke h)) (copyBack b h ls s) := by
  unfold copyBack
  extract_lets port s1 k s2 done whole ok s3
  obtain ⟨hin, hst⟩ := flightDone_in (hB h) k (if ok then frameLand h ls s3 else s3)
  have h3 : sideState (hB h) s3 = sideState (hB h) s2 := by
    refine holds_ite (P := fun t => sideState (hB h) (frameNote port h t) = sideState (hB h) s2) rfl ?_
    simp only [sideState, frameNote, ropeMod, ropeRecord_rope]
  have h4 : sideState (hB h) (if ok then frameLand h ls s3 else s3) = sideState (hB h) s3 :=
    holds_ite (P := fun t => sideState (hB h) t = sideState (hB h) s3) (frameLand_sides ..) rfl
  exact ⟨hst.trans (h4.trans (h3.trans (sideState_ropeStSet ..))), hin⟩

/-- A head's copy that returns while it is out is taken (R334). -/
theorem frameCopyReturn_sides {s : State} {side : RopeSide} {l : RopeLine} {rest : List RopeLine} {f : Flight}
    (hla : launches s = true) (hst : s.rope.starting = .no) (hcrc : l.crcOk = true) (hf : f ∈ s.rope.flight)
    (hk : f.stroke = BitVec.ofNat 64 (hStroke l.words)) (hlt : hStroke l.words < 2 ^ 64)
    (hout : (if hB l.words then f.outB else f.outA) = true) (hrope : hRope l.words = s.rope.cfg.ropeId)
    (haddr : hAddr l.words = s.rope.cfg.addr) :
    ∃ t, exec (.frameCopyReturn side (l :: rest)) s = .next t ∧
      sideState (hB l.words) t = (if hWrapped l.words then .wrapped else .whole) ∧ SideIn (hB l.words) f.stroke t := by
  rw [exec_frameCopyReturn, execFrameCopyReturn]
  extract_lets s1
  obtain ⟨ps, hs1⟩ : ∃ ps, s1 = { s with rope := { s.rope with ports := ps } } :=
    crcCount_parts (if ropeB? side then 2 else 0) (l :: rest) s
  have hst1 : s1.rope.starting = .no := by rw [hs1]; exact hst
  have hrope1 : hRope l.words = s1.rope.cfg.ropeId := by rw [hs1]; exact hrope
  have haddr1 : hAddr l.words = s1.rope.cfg.addr := by rw [hs1]; exact haddr
  have hflight : s1.rope.flight = s.rope.flight := by rw [hs1]
  have hany : (s1.rope.flight.any fun x =>
      decide (x.stroke.toNat = hStroke l.words) && (if hB l.words then x.outB else x.outA)) = true := by
    refine List.any_eq_true.2 ⟨f, hflight ▸ hf, ?_⟩
    rw [hout, hk, BitVec.toNat_ofNat, Nat.mod_eq_of_lt hlt]
    simp
  clear_value s1
  rw [if_neg (by simp [hla])]
  dsimp only
  rw [if_neg (by rw [hany]; simp [hcrc, hrope1, haddr1]), if_neg (by simp [hst1])]
  exact ⟨_, rfl, hk ▸ copyBack_sides ..⟩

/-- A head's copy that does not return leaves its side BROKEN (R334). -/
theorem frameCopyTimeout_sides {s : State} {side : RopeSide} {f : Flight}
    (hf : s.rope.flight.find? (fun x => if ropeB? side then x.outB else x.outA) = some f) :
    ∃ t, exec (.frameCopyTimeout side) s = .next t ∧ sideState (ropeB? side) t = .broken ∧ SideIn (ropeB? side) f.stroke t := by
  rw [exec_frameCopyTimeout, execFrameCopyTimeout, hf]
  obtain ⟨hin, hst⟩ := flightDone_in (ropeB? side) f.stroke (ropeStSet (ropeB? side) .broken s)
  exact ⟨_, rfl, hst.trans (sideState_ropeStSet ..), hin⟩

end

/-- Settles O35. -/
theorem ropeFrames : Obligations.RopeFrames := by
  unfold Obligations.RopeFrames
  refine fun side s => ⟨fun l rest delay fwd hon hth hst hcrc hmark hrope hdiv hmem hslot =>
    strokeFrameReceived_notes hon hth hst hcrc hmark hrope hdiv hmem hslot, fun l rest f hla hst hcrc hf hk hlt hout hrope haddr =>
    frameCopyReturn_sides hla hst hcrc hf hk hlt hout hrope haddr, fun f hf => frameCopyTimeout_sides hf⟩

end Sys2Proof.Machine
end

section
/-! PROOFS. The commands of STAGE and of its loop (R387 to R392). -/

namespace Sys2Proof.Machine

section
variable {s : State} {r : Req} {o : Nat} {acts : List Nat}

theorem authority_rung : authority (rung o acts r s) = authority s := by
  obtain ⟨_, _, _, _, _, _, _, _, _, _, h⟩ := rung_parts o acts r s
  rw [h]
  rfl

theorem stageWords_rung : stageWords (rung o acts r s) = stageWords s := by
  obtain ⟨_, _, _, _, _, _, _, _, _, _, h⟩ := rung_parts o acts r s
  rw [h]
  rfl

theorem loopOpening_stage : (loopOpening (rung o acts r s)).stage = (loopOpening s).stage := by
  obtain ⟨_, _, _, _, _, _, _, _, _, _, h⟩ := rung_parts o acts r s
  rw [h]
  unfold loopOpening
  dsimp only
  split <;> rfl

theorem softStart_stage : (softStart (rung o acts r s)).stage = (softStart s).stage := by
  obtain ⟨_, _, _, _, _, _, _, _, _, _, h⟩ := rung_parts o acts r s
  rw [h]
  rfl

theorem stageModeBad_rung : stageModeBad (rung o acts r s) r = stageModeBad s r := by
  simp only [stageModeBad, runBad, fnState_rung, rung_stage, authority_rung]

/-- Opening the loop changes STAGE alone. -/
theorem loopOpening_parts (s : State) : loopOpening s = { s with stage := (loopOpening s).stage } := by
  unfold loopOpening
  split <;> rfl

/-- A command that passes its check edits STAGE alone. -/
theorem stage_does {c : Cmd} {e : State → Option Answer} {f : Stage → Stage} (hs : Ready s) (ht : Taken c r)
    (hbad : e (rung c.op c.acts r s) = none) :
    ∃ t, mailbox c r (fun s => guardE (e s) s fun s => (stMod f s, okR [])) s = .next t ∧ Answered t r .ok 0 [] ∧
      Served { s with stage := f s.stage } t :=
  does_of hs ht (b := { rung c.op c.acts r s with stage := f (rung c.op c.acts r s).stage }) ((guardE_none hbad).trans rfl) rfl
    ((served_rung ..).set_stage (by rw [rung_stage]))

/-- A command that its check refuses changes nothing. -/
theorem guard_refuses {c : Cmd} {e : State → Option Answer} {go : State → State × Answer} {k : Code} {d : Nat} (hs : Ready s)
    (ht : Taken c r) (hbad : e (rung c.op c.acts r s) = some (errR k d)) :
    ∃ t, mailbox c r (fun s => guardE (e s) s go) s = .next t ∧ Answered t r k d [] ∧ Served s t :=
  refuses_of hs ht (guardE_some hbad)

theorem stageConfig_takes (hs : Ready s) (hl : Low r 31) (hst : fnState s fSTAGE = .stopped) (hbad : stageConfigBad r = none) :
    Does (.stageConfig r) r s { s with stage := { s.stage with cfg := stageCfgOf r } } [] := by
  rw [Does, exec_stageConfig, execStageConfig]
  refine stage_does (e := fun s => firstErr [cfgBad s fSTAGE, stageConfigBad r]) hs (taken_low hl rfl rfl rfl (by decide)) ?_
  dsimp only
  rw [cfgBad_stopped hst, hbad]
  rfl

theorem loopCoef_takes (hs : Ready s) (hl : Low r 5) (hst : fnState s fSTAGE = .stopped ∨ fnState s fSTAGE = .running ∧ s.stage.loop = .open_)
    (h2 : fIn (r.w 2) 0 1 = true) (h3 : fIn (r.w 3) 0 1 = true) (h4 : fIn (r.w 4) 0 1000 = true) (h5 : fIn (r.w 5) 0 1000 = true)
    (h6 : fIn (r.w 6) 0 1000 = true) :
    Does (.loopCoef r) r s { s with stage := { s.stage with
      coefs := { kpI := r.w 2, kiI := r.w 3, kiS := r.w 4, kpV := r.w 5, kiV := r.w 6 } } } [] := by
  rw [Does, exec_loopCoef, execLoopCoef]
  refine stage_does (e := fun s => loopCoefBad s r) hs (taken_low hl rfl rfl rfl (by decide)) ?_
  have hrange : rangeBad [(!fIn (r.w 2) 0 1, 2), (!fIn (r.w 3) 0 1, 3), (!fIn (r.w 4) 0 1000, 4), (!fIn (r.w 5) 0 1000, 5),
      (!fIn (r.w 6) 0 1000, 6)] = none := by rw [h2, h3, h4, h5, h6]; rfl
  rw [loopCoefBad, fnState_rung, rung_stage, hrange]
  rcases hst with h | ⟨h, hopen⟩
  · rw [h]; rfl
  · rw [h, hopen]; rfl

theorem loopOpen_body (hrun : fnState s fSTAGE = .running) (hv : s.stage.modeV = false) :
    firstErr [runBad (rung 0x0603 [fSTAGE] r s) fSTAGE,
      if (rung 0x0603 [fSTAGE] r s).stage.modeV then some (errR .state 2) else none] = none := by
  rw [runBad_running (by rw [fnState_rung]; exact hrun), rung_stage, hv]
  rfl

section
variable (hs : Ready s) (hl : Low r 0) (hrun : fnState s fSTAGE = .running)
include hs hl hrun

/-- LOOP_OPEN of a loop that must be ramped down waits (R389). -/
theorem loopOpen_waits (hv : s.stage.modeV = false) (h : (loopOpening s).stage.loop = .opening) :
    Awaits (.loopOpen r) r s (loopOpening s) .loopOpen := by
  rw [Awaits, exec_loopOpen, execLoopOpen]
  refine awaits_of hs (taken_low hl rfl rfl rfl (by decide)) (b := loopOpening (rung 0x0603 [fSTAGE] r s))
    ((guardE_none (loopOpen_body hrun hv)).trans ?_) (loopOpening_mbs _) ?_
  · dsimp only
    rw [loopOpening_stage, if_pos h]
  · rw [loopOpening_parts s, loopOpening_parts (rung ..)]
    exact (served_rung ..).set_stage loopOpening_stage

/-- LOOP_OPEN of a loop that carries nothing completes (R389). -/
theorem loopOpen_completes (hv : s.stage.modeV = false) (h : (loopOpening s).stage.loop ≠ .opening) :
    Does (.loopOpen r) r s (loopOpening s) [] := by
  rw [Does, exec_loopOpen, execLoopOpen]
  refine does_of hs (taken_low hl rfl rfl rfl (by decide)) (b := loopOpening (rung 0x0603 [fSTAGE] r s))
    ((guardE_none (loopOpen_body hrun hv)).trans ?_) (loopOpening_mbs _) ?_
  · dsimp only
    rw [loopOpening_stage, if_neg h]
  · rw [loopOpening_parts s, loopOpening_parts (rung ..)]
    exact (served_rung ..).set_stage loopOpening_stage

/-- LOOP_OPEN in voltage mode is refused (R389). -/
theorem loopOpen_modeV (hv : s.stage.modeV = true) : Refuses (.loopOpen r) r s .state 2 := by
  rw [Refuses, exec_loopOpen, execLoopOpen]
  refine guard_refuses (e := fun s => firstErr [runBad s fSTAGE, if s.stage.modeV then some (errR .state 2) else none]) hs
    (taken_low hl rfl rfl rfl (by decide)) ?_
  dsimp only
  rw [runBad_running (by rw [fnState_rung]; exact hrun), rung_stage, hv]
  rfl

/-- LOOP_CLOSE of an open loop, with authority, begins a soft start (R390). -/
theorem loopClose_starts (hopen : s.stage.loop = .open_) (ha : authority s = true) (hk : coefsOk s.stage.coefs = true) :
    Does (.loopClose r) r s (softStart s) [] := by
  rw [Does, exec_loopClose, execLoopClose]
  refine does_of hs (taken_low hl rfl rfl rfl (by decide)) (b := softStart (rung 0x0604 [fSTAGE] r s))
    ((guardE_none ?_).trans rfl) rfl ((served_rung ..).set_stage softStart_stage)
  have hrun' : fnRunning (rung 0x0604 [fSTAGE] r s) fSTAGE = true := by rw [fnRunning_rung]; exact decide_eq_true hrun
  rw [loopCloseBad, hrun', rung_stage, hopen, authority_rung, ha, hk]
  rfl

theorem loopClose_noAuthority (hopen : s.stage.loop = .open_) (ha : authority s = false) : Refuses (.loopClose r) r s .notAuthority 0 := by
  rw [Refuses, exec_loopClose, execLoopClose]
  refine guard_refuses hs (taken_low hl rfl rfl rfl (by decide)) ?_
  have hrun' : fnRunning (rung 0x0604 [fSTAGE] r s) fSTAGE = true := by rw [fnRunning_rung]; exact decide_eq_true hrun
  dsimp only
  rw [loopCloseBad, hrun', rung_stage, hopen, authority_rung, ha]
  rfl

end

theorem loopClose_notOpen (hs : Ready s) (hl : Low r 0) (h : fnState s fSTAGE ≠ .running ∨ s.stage.loop ≠ .open_) :
    Refuses (.loopClose r) r s .state 1 := by
  rw [Refuses, exec_loopClose, execLoopClose]
  refine guard_refuses hs (taken_low hl rfl rfl rfl (by decide)) ?_
  dsimp only
  rw [loopCloseBad, fnRunning_rung, rung_stage, if_neg (by simp only [fnRunning, decide_eq_true_eq]; tauto)]
  rfl

theorem stageMode_takes (hs : Ready s) (hl : Low r 2) (hbad : stageModeBad s r = none) :
    Does (.stageMode r) r s { s with stage := { s.stage with
      modeReq := some (fld (r.w 2) 0 2), cfg := { s.stage.cfg with vHold := if r.w 3 = 0 then s.stage.cfg.vHold else r.w 3 } } } [] := by
  rw [Does, exec_stageMode, execStageMode]
  exact stage_does (e := fun s => stageModeBad s r) hs (taken_low hl rfl rfl rfl (by decide)) (stageModeBad_rung.trans hbad)

theorem stageQuery_answers (hs : Ready s) (hl : Low r 0) : Asks (.stageQuery r) r s (stageWords s) := by
  rw [Asks, exec_stageQuery, execStageQuery]
  exact asks_of hs (taken_low hl rfl rfl rfl (by decide)) (congrArg okR stageWords_rung)

/-- STAGE_CONFIG of a STAGE that is not STOPPED is refused as its state has it (R387). -/
theorem stageConfig_refused {k : Code} {d : Nat} (hs : Ready s) (hl : Low r 31) (h : cfgBad s fSTAGE = some (errR k d)) :
    Refuses (.stageConfig r) r s k d := by
  rw [Refuses, exec_stageConfig, execStageConfig]
  refine guard_refuses (e := fun s => firstErr [cfgBad s fSTAGE, stageConfigBad r]) hs (taken_low hl rfl rfl rfl (by decide)) ?_
  have hbad : cfgBad (rung 0x0601 [fSTAGE] r s) fSTAGE = some (errR k d) := by rw [← h, cfgBad, cfgBad, fnState_rung]
  dsimp only
  rw [hbad]
  rfl

end

/-- Settles O36. -/
theorem stageCommands : Obligations.StageCommands := by
  unfold Obligations.StageCommands
  refine ⟨fun r s hs => ⟨stageConfig_takes hs, loopCoef_takes hs, fun hl hrun hv => ⟨fun h => ?_, fun h => ?_, fun h => ?_, fun h => ?_⟩,
    fun hl hrun hopen ha hk => ⟨loopClose_starts hs hl hrun hopen ha hk, rfl, rfl⟩, stageMode_takes hs, stageQuery_answers hs⟩,
    fun r s hs => ⟨loopClose_noAuthority hs, loopClose_notOpen hs, loopOpen_modeV hs, fun hl h => stageConfig_refused hs hl (by rw [cfgBad, h]),
      fun hl h => stageConfig_refused hs hl (by rw [cfgBad, h]; rfl)⟩⟩
  · have hop : (loopOpening s).stage.loop = .opening := by rw [loopOpening, h]; rfl
    exact ⟨loopOpen_waits hs hl hrun hv hop, hop⟩
  · have hst : loopOpening s = { s with stage := { stIdle s.stage with loop := .open_ } } := by
      rcases h with h | h <;> (rw [loopOpening, h]; rfl)
    exact hst ▸ loopOpen_completes hs hl hrun hv (by rw [hst]; exact nofun)
  · have hst : loopOpening s = s := by rw [loopOpening, h]
    have hdoes := loopOpen_completes hs hl hrun hv (by rw [hst, h]; exact nofun)
    rwa [hst] at hdoes
  · have hst : loopOpening s = s := by rw [loopOpening, h]
    have hwaits := loopOpen_waits hs hl hrun hv (by rw [hst, h])
    rwa [hst] at hwaits

end Sys2Proof.Machine
end

section
/-! PROOFS. The trace units of the converter (R386, R393, R394). -/

namespace Sys2Proof.Machine

section
variable {s : State} {r : Req} {o d : Nat} {acts : List Nat}

theorem Served.cells {t : State} (h : Served s t) : t.mem.cells = s.mem.cells := by rw [h.mem]
theorem Served.writes {t : State} (h : Served s t) : t.mem.writes = s.mem.writes := by rw [h.mem]

theorem traceArmBad_rung : traceArmBad (rung o acts r s) r = traceArmBad s r := by
  obtain ⟨_, _, _, _, _, _, _, _, _, _, h⟩ := rung_parts o acts r s
  have hconf : claimConflict (rung o acts r s) = claimConflict s := by
    funext o' l
    exact claimConflict_claims (rung_claims ..) ..
  simp only [traceArmBad, hconf]
  rw [h]
  rfl

theorem traceOn_rung : traceOn (rung o acts r s) d = traceOn s d := gateOn_rung ..

/-- The unit whose trace is set reads as it was set. -/
theorem traceOf_set {x : Trace} {t : State} (hd : d < s.traces.length) (h : t.traces = s.traces.set d x) : traceOf t d = x := by
  rw [traceOf, h, List.getD_eq_getElem _ _ (by rw [List.length_set]; exact hd), List.getElem_set_self]

/-- The last resource that a claim names is its owner's. -/
theorem claimOwner_claimAll (owner res : Nat) (pre : List Nat) (s : State) :
    claimOwner (claimAll owner (pre ++ [res]) s) res = some owner := by
  rw [claimAll, List.foldl_append]
  exact claimOwner_claimInsert res owner { s with claims := pre.foldl (fun l r => claimInsert r owner l) s.claims }

theorem fld_bit_lt (w : Word) (i : Nat) : fld w i 1 < 2 := Nat.mod_lt _ (by decide)

/-- A new capture as TRACE_ARM's operands give it (R386). -/
def traceArmed (r : Req) (s : State) : Trace :=
  traceSeen s { traceOf s (fld (r.w 2) 28 1) with
    st := .armed, trig := fld (r.w 2) 24 4, markSel := fld (r.w 2) 22 2, rising := bit (r.w 2) 21, decim := fld (r.w 2) 8 8,
    probeEng := fld (r.w 3) 29 3, probe := fld (r.w 3) 26 3, pre := fld (r.w 3) 0 15, thresh := r.w 4,
    points := [], count := 0, skip := 0, left := 0, probeNow := 0, probeWas := 0 }

/-- What TRACE_ARM claims: the marker that triggers, and the unit's buffer. -/
def traceArmClaims (r : Req) (s : State) : State :=
  claimAll (traceOwner (fld (r.w 2) 28 1))
    ((if fld (r.w 2) 24 4 = 1 then [20 + fld (r.w 2) 22 2] else []) ++ [0x200 + fld (r.w 2) 28 1]) s

theorem traceArm_takes (hs : Ready s) (hl : Low r 3) (hlen : s.traces.length = 2) (hbad : traceArmBad s r = none) :
    ∃ t, exec (.traceArm r) s = .next t ∧ Answered t r .ok 0 [] ∧
      claimOwner t (0x200 + fld (r.w 2) 28 1) = some (0x30 + fld (r.w 2) 28 1) ∧
      (traceOf t (fld (r.w 2) 28 1)).st = .armed ∧ (traceOf t (fld (r.w 2) 28 1)).count = 0 ∧
      (traceOf t (fld (r.w 2) 28 1)).pre = fld (r.w 3) 0 15 ∧ (traceOf t (fld (r.w 2) 28 1)).decim = fld (r.w 2) 8 8 ∧
      t.stage = s.stage ∧ t.mem.cells = s.mem.cells := by
  rw [exec_traceArm, execTraceArm]
  refine mailbox_ends hs (taken_low hl rfl rfl rfl (by decide))
    (b := traceArmClaims r (traceSet (fld (r.w 2) 28 1) (traceArmed r (rung 0x0607 [] r s)) (rung 0x0607 [] r s)))
    ((guardE_none (traceArmBad_rung.trans hbad)).trans rfl) rfl fun t hans ht => ?_
  have htr : t.traces = s.traces.set (fld (r.w 2) 28 1) (traceArmed r (rung 0x0607 [] r s)) := by
    rw [ht.traces, ← rung_traces s 0x0607 [] r]
    rfl
  have hd : fld (r.w 2) 28 1 < s.traces.length := by rw [hlen]; exact fld_bit_lt ..
  rw [traceOf_set hd htr]
  refine ⟨hans, ?_, rfl, rfl, rfl, rfl, ?_, ?_⟩
  · rw [claimOwner, ht.claims]
    exact claimOwner_claimAll ..
  · rw [ht.stage]
    exact rung_stage s 0x0607 [] r
  · exact ht.cells.trans (served_rung 0x0607 [] r s).cells

theorem traceDisarm_ends (hs : Ready s) (hl : Low r 1) (hlen : s.traces.length = 2) (hres : fld (r.w 2) 1 31 = 0) :
    ∃ t, exec (.traceDisarm r) s = .next t ∧ Answered t r .ok 0 [] ∧ Served { s with traces := t.traces, claims := t.claims } t ∧
      (traceOn s (fld (r.w 2) 0 1) = true → (traceOf t (fld (r.w 2) 0 1)).busy = false) ∧
      (traceOn s (fld (r.w 2) 0 1) = false → t.traces = s.traces ∧ t.claims = s.claims) ∧
      t.mem.cells = s.mem.cells ∧ t.mem.writes = s.mem.writes := by
  have hd : fld (r.w 2) 0 1 < s.traces.length := by rw [hlen]; exact fld_bit_lt ..
  have hrange : rangeBad [(decide (fld (r.w 2) 1 31 ≠ 0), 2)] = none := by rw [hres]; rfl
  have htrace : traceOf (rung 0x0608 [] r s) (fld (r.w 2) 0 1) = traceOf s (fld (r.w 2) 0 1) := by simp only [traceOf, rung_traces]
  rw [exec_traceDisarm, execTraceDisarm]
  by_cases hb : (traceOn s (fld (r.w 2) 0 1) && (traceOf s (fld (r.w 2) 0 1)).busy) = true
  · refine mailbox_ends hs (taken_low hl rfl rfl rfl (by decide))
      (b := claimRelease (traceOwner (fld (r.w 2) 0 1)) (traceSet (fld (r.w 2) 0 1)
        { traceOf (rung 0x0608 [] r s) (fld (r.w 2) 0 1) with st := .idle } (rung 0x0608 [] r s)))
      ((guardE_none hrange).trans (if_pos (by rw [traceOn_rung, htrace]; exact hb))) rfl fun t hans ht => ?_
    have htr : t.traces = s.traces.set (fld (r.w 2) 0 1) { traceOf (rung 0x0608 [] r s) (fld (r.w 2) 0 1) with st := .idle } := by
      rw [ht.traces, ← rung_traces s 0x0608 [] r]
      rfl
    refine ⟨hans, ?_, fun _ => by rw [traceOf_set hd htr]; rfl, fun hoff => by simp [hoff] at hb, ?_, ?_⟩
    · exact (((served_rung ..).set_traces ht.traces.symm).set_claims ht.claims.symm).trans ht
    · exact ht.cells.trans (served_rung 0x0608 [] r s).cells
    · exact ht.writes.trans (served_rung 0x0608 [] r s).writes
  · refine mailbox_ends hs (taken_low hl rfl rfl rfl (by decide)) (b := rung 0x0608 [] r s)
      ((guardE_none hrange).trans (if_neg (by rw [traceOn_rung, htrace]; exact hb))) rfl fun t hans ht => ?_
    have hserved := (served_rung (s := s) ..).trans ht
    refine ⟨hans, ?_, fun hon => ?_, fun _ => ⟨hserved.traces, hserved.claims⟩, ?_, ?_⟩
    · rw [hserved.traces, hserved.claims]
      exact hserved
    · rw [show traceOf t (fld (r.w 2) 0 1) = traceOf s (fld (r.w 2) 0 1) by simp only [traceOf, hserved.traces]]
      simpa [hon] using hb
    · exact hserved.cells
    · exact hserved.writes

theorem traceQuery_answers (hs : Ready s) (hl : Low r 1) (hres : fld (r.w 2) 1 31 = 0) :
    Asks (.traceQuery r) r s (if traceOn s (fld (r.w 2) 0 1) then
      [w32 (traceOf s (fld (r.w 2) 0 1)).st.num, w32 (traceOf s (fld (r.w 2) 0 1)).count] else [0, 0]) := by
  rw [Asks, exec_traceQuery, execTraceQuery]
  refine asks_of hs (taken_low hl rfl rfl rfl (by decide)) ?_
  dsimp only
  rw [if_neg (not_not.2 hres), traceOn_rung, traceOf, rung_traces, ← traceOf]
  cases traceOn s (fld (r.w 2) 0 1) <;> rfl

/-- A trace unit whose clock is gated neither triggers nor copies (R65). -/
theorem trace_gated (die : Fin 2) (h : traceOn s die.val = false) :
    exec (.traceTrigger die) s = .next s ∧ exec (.traceCopied die) s = .next s :=
  ⟨if_neg (by simp [h]), if_neg (by simp [h])⟩

theorem seenWords_keep (who : Seer) (a : Nat) (ws : List Word) (s : State) :
    (seenWords who a ws s).claims = s.claims ∧ (seenWords who a ws s).traces = s.traces := ⟨rfl, rfl⟩

/-- The copy of the buffers goes to memory, and leaves claims and traces (R393). -/
theorem traceBuffers_keep (t : Trace) (base : Nat) (s : State) :
    (traceBuffers t base s).claims = s.claims ∧ (traceBuffers t base s).traces = s.traces :=
  holds_foldl (P := fun u => u.claims = s.claims ∧ u.traces = s.traces) ⟨rfl, rfl⟩ fun _ _ hu =>
    ⟨(seenWords_keep ..).1.trans hu.1, (seenWords_keep ..).2.trans hu.2⟩

/-- The copied capture has its next number, and its unit holds no claim (R393). -/
theorem traceFree_parts {v : State} {x : Trace} (hd : d < s.traces.length) (hclaims : v.claims = s.claims)
    (htraces : v.traces = s.traces) :
    traceOf (stRecord 0 0x0607 d (claimRelease (traceOwner d) (traceSet d x v))) d = x ∧
      (stRecord 0 0x0607 d (claimRelease (traceOwner d) (traceSet d x v))).claims = s.claims.filter (fun c => c.2 ≠ 0x30 + d) := by
  constructor
  · exact traceOf_set hd (by rw [stRecord, emit_traces, ← htraces]; rfl)
  · rw [stRecord, emit_claims, ← hclaims]
    rfl

theorem traceCopied_copies (die : Fin 2) (hlen : s.traces.length = 2) (hon : traceOn s die.val = true)
    (hst : (traceOf s die.val).st = .triggered) (hleft : (traceOf s die.val).left = 0) :
    ∃ t, exec (.traceCopied die) s = .next t ∧ (traceOf t die.val).st = .copied ∧
      (traceOf t die.val).seq = (traceOf s die.val).seq + 1 ∧ t.claims = s.claims.filter (fun c => c.2 ≠ 0x30 + die.val) := by
  obtain ⟨hclaims, htraces⟩ := traceBuffers_keep (traceOf s die.val) (traceBase die.val) s
  have hfree := @traceFree_parts s die.val
  rw [exec_traceCopied, execTraceCopied]
  extract_lets n u v w
  rw [if_pos ⟨hon, hst, hleft⟩]
  obtain ⟨htrace, hclaims⟩ := hfree (v := v) (x := { traceOf s die.val with st := .copied, seq := n }) (by rw [hlen]; exact die.isLt)
    ((seenWords_keep ..).1.trans hclaims) ((seenWords_keep ..).2.trans htraces)
  exact ⟨_, rfl, congrArg Trace.st htrace, congrArg Trace.seq htrace, hclaims⟩

theorem traceTrigger_fires (die : Fin 2) (hlen : s.traces.length = 2) (hon : traceOn s die.val = true)
    (hfire : traceFires s (traceOf s die.val) = true) (hst : (traceOf s die.val).st = .armed)
    (hpre : (traceOf s die.val).pre ≤ (traceOf s die.val).count) :
    ∃ t, exec (.traceTrigger die) s = .next t ∧ t = { s with traces := t.traces } ∧ (traceOf t die.val).st = .triggered ∧
      (traceOf t die.val).left = 16384 - (traceOf s die.val).pre ∧ (traceOf t die.val).trigStroke = s.clk.stroke := by
  rw [exec_traceTrigger, execTraceTrigger]
  rw [if_pos ⟨hon, hst, hpre, hfire⟩]
  refine ⟨_, rfl, rfl, ?_⟩
  rw [traceOf_set (by rw [hlen]; exact die.isLt) rfl]
  exact ⟨rfl, rfl, rfl⟩

end

/-- Settles O37. -/
theorem traceCommands : Obligations.TraceCommands := by
  unfold Obligations.TraceCommands
  refine fun r s hs hlen => ⟨fun hl => traceArm_takes hs hl hlen, fun hl => traceDisarm_ends hs hl hlen, traceQuery_answers hs, trace_gated,
    fun die => traceTrigger_fires die hlen, fun die => traceCopied_copies die hlen⟩

end Sys2Proof.Machine
end

section
/-! PROOFS. A sample boundary while the engines are idle (R358, R359). -/

namespace Sys2Proof.Machine

section
variable {s t : State} {m : Smp}

/-- An idle converter on its way from `s` through the sample `m`: the computed duty has loaded, and the sums still wait for the sample. -/
structure Sampled (m : Smp) (s t : State) : Prop where
  sample : t.stage.sample = s.stage.sample
  sums : t.stage.sums = s.stage.sums
  duty : t.stage.duty = s.stage.dutyNext
  vbus : t.stage.vbus = m.vbus
  vstack : t.stage.vstack = m.vst
  loop : t.stage.loop = .idle
  ovLatch : t.stage.ovLatch = false
  funcs : t.funcs = s.funcs
  cells : t.mem.cells = s.mem.cells
  writes : t.mem.writes = s.mem.writes

theorem Sampled.record (h : Sampled m s t) (sev code detail : Nat) : Sampled m s (stRecord sev code detail t) := by
  obtain ⟨_, _, _, he⟩ := emit_parts (s := t) sev fSTAGE code [strokeLo t, w32 detail]
  rw [stRecord, he]
  exact ⟨h.sample, h.sums, h.duty, h.vbus, h.vstack, h.loop, h.ovLatch, h.funcs, h.cells, h.writes⟩

/-- An edit of STAGE that leaves what the sample has brought. -/
theorem Sampled.stMod {f : Stage → Stage} (h : Sampled m s t) (h1 : (f t.stage).sample = t.stage.sample) (h2 : (f t.stage).sums = t.stage.sums)
    (h3 : (f t.stage).duty = t.stage.duty) (h4 : (f t.stage).vbus = t.stage.vbus) (h5 : (f t.stage).vstack = t.stage.vstack)
    (h6 : (f t.stage).loop = t.stage.loop) (h7 : (f t.stage).ovLatch = t.stage.ovLatch) : Sampled m s (stMod f t) :=
  ⟨h1.trans h.sample, h2.trans h.sums, h3.trans h.duty, h4.trans h.vbus, h5.trans h.vstack, h6.trans h.loop, h7.trans h.ovLatch, h.funcs,
    h.cells, h.writes⟩

/-- Taking up a profile and finding its entry leave what an idle sample starts from (R357). -/
theorem takeUp_parts (s : State) : ∃ a b c d, refFound (takeUpProfile s) = { s with stage := { s.stage with
    takeUp := a, shadow := b, profile := c, refStarved := d } } := by
  have hfound (u : State) : ∃ d, refFound u = { u with stage := { u.stage with refStarved := d } } := by
    unfold refFound
    split <;> exact ⟨_, rfl⟩
  have htake : ∃ a b c, takeUpProfile s = { s with stage := { s.stage with takeUp := a, shadow := b, profile := c } } := by
    unfold takeUpProfile
    generalize profileOf (memWords (writesLand s) s.stage.refStage 80) = p
    split <;> exact ⟨_, _, _, rfl⟩
  obtain ⟨a, b, c, htake⟩ := htake
  obtain ⟨d, hd⟩ := hfound (takeUpProfile s)
  exact ⟨a, b, c, d, by rw [hd, htake]⟩

theorem sampled_begin (hi : s.stage.loop = .idle) (ho : s.stage.ovLatch = false) : Sampled m s (sampleBegin m s) := by
  obtain ⟨a, b, c, d, h⟩ := takeUp_parts s
  unfold sampleBegin
  rw [h]
  exact ⟨rfl, rfl, rfl, rfl, rfl, hi, ho, rfl, rfl, rfl⟩

theorem loopMismatch_idle {check : LoopCheck} (h : Sampled m s t) : loopMismatch check t = t :=
  if_neg (by simp [h.loop, h.ovLatch])

theorem abortRecorded_idle {was : State} (h : Sampled m s was) : abortRecorded m was t = t :=
  if_neg (by simp [h.loop])

theorem Sampled.foldBack (h : Sampled m s t) : Sampled m s (foldBack m t) := by
  unfold Machine.foldBack
  extract_lets old a lim half t1
  have h1 : Sampled m s t1 := h.stMod rfl rfl rfl rfl rfl rfl rfl
  clear_value t1
  split
  · refine holds_ite ?_ h1
    exact (h1.stMod rfl rfl rfl rfl rfl rfl rfl).record ..
  · split
    · exact (h1.stMod rfl rfl rfl rfl rfl rfl rfl).record ..
    · exact h1

theorem fastLimit_idle (h : t.stage.loop = .idle) : fastLimit m t = t := by rw [fastLimit, h]

theorem Sampled.modeStep (h : Sampled m s t) : Sampled m s (modeStep t) := by
  unfold Machine.modeStep
  extract_lets t1 x
  have h1 : Sampled m s t1 := h.stMod rfl rfl rfl rfl rfl rfl rfl
  have hx : x.loop = .idle := h1.loop
  clear_value t1
  refine holds_ite (holds_ite ((h1.stMod rfl rfl rfl rfl rfl rfl rfl).record ..) h1) ?_
  rw [if_pos (by rw [hx]; decide)]
  exact h1.stMod rfl rfl rfl rfl rfl rfl rfl

theorem Sampled.engines (h : Sampled m s t) : Sampled m s (enginesStep m t) ∧ (enginesStep m t).stage.dutyNext = 0 := by
  unfold enginesStep
  extract_lets x
  have hx : x.loop = .idle := h.loop
  rw [if_neg (by rw [hx]; decide), if_neg (by rw [hx]; decide)]
  exact ⟨h.stMod rfl rfl rfl rfl rfl rfl rfl, rfl⟩

/-- A trace unit's point changes that unit alone (R393). -/
theorem traceSample_parts (d : Nat) (point : List Word) (s : State) : ∃ l, traceSample d point s = { s with traces := l } := by
  unfold traceSample
  extract_lets t1 t2 t3
  split_ifs <;> exact ⟨_, rfl⟩

/-- A sample of an idle converter (R358). -/
theorem sampleBoundary_idle {codes : LoopCodes} {check : LoopCheck} {tripped : List Bool} (hclk : loopClock s = true)
    (hlt : s.stage.sample < s.clk.loopDiv) (hi : s.stage.loop = .idle) (ho : s.stage.ovLatch = false) :
    ∃ t, exec (.sampleBoundary codes check tripped) s = .next t ∧ t.stage.sample = s.stage.sample + 1 ∧
      t.stage.sums.n = s.stage.sums.n + 1 ∧ t.stage.duty = s.stage.dutyNext ∧ t.stage.dutyNext = 0 ∧
      t.stage.vbus = (sampleOf s codes tripped).vbus ∧ t.stage.vstack = (sampleOf s codes tripped).vst ∧
      t.funcs = s.funcs ∧ t.mem.cells = s.mem.cells ∧ t.mem.writes = s.mem.writes := by
  rw [exec_sampleBoundary, execSampleBoundary]
  rw [if_neg (by simp [hclk, hlt])]
  extract_lets m d b s1 s2
  have hb : Sampled m s b := sampled_begin hi ho
  have hmid : abortRecorded m b (loopMismatch check b) = b := by rw [loopMismatch_idle hb, abortRecorded_idle hb]
  have hfold : Sampled m s (foldBack m b) := hb.foldBack
  obtain ⟨h1, hnext⟩ : Sampled m s s1 ∧ s1.stage.dutyNext = 0 := by
    unfold s1
    rw [hmid, fastLimit_idle hfold.loop]
    exact (hfold.stMod (f := fun x => { x with
      uvPending := fnRunning (foldBack m b) fSTAGE && x.cfg.uvEn && eLt x.vbus x.cfg.uvLevel }) rfl rfl rfl rfl rfl rfl rfl).modeStep.engines
  obtain ⟨l, h2⟩ : ∃ l, s2 = { s1 with traces := l } := by
    obtain ⟨l0, h0⟩ := traceSample_parts 0 (probes 0 d m s1) s1
    obtain ⟨l1, h1⟩ := traceSample_parts 1 (probes 1 d m s1) (traceSample 0 (probes 0 d m s1) s1)
    exact ⟨l1, h1.trans (by rw [h0])⟩
  clear_value s1 s2
  subst h2
  exact ⟨_, rfl, congrArg (· + 1) h1.sample, congrArg (fun u => u.n + 1) h1.sums, h1.duty, hnext, h1.vbus, h1.vstack, h1.funcs, h1.cells,
    h1.writes⟩

end

/-- Settles O38. -/
theorem sampleBoundary : Obligations.SampleBoundary := by
  unfold Obligations.SampleBoundary
  refine fun codes check tripped s => ⟨sampleBoundary_idle, fun h => if_pos ?_⟩
  rcases h with h | h
  · simp [h]
  · simp [h]

end Sys2Proof.Machine
end

section
/-! PROOFS. The timed steps of the converter and its protection (R363 to R376, R384, R389). -/

namespace Sys2Proof.Machine

section
variable {s : State}

theorem voltageModeExit_ends (hv : s.stage.modeV = true) (hm : s.stage.modeSel = 0) (hg : gridIn s = false)
    (hz : s.stage.cfg.modeExitMs * 100000 ≤ s.stage.zeroRun * sampleTicks s) :
    ∃ t, exec .voltageModeExit s = .next t ∧ t.stage = { s.stage with modeV := false, iApp := s.stage.iStkEst, zeroRun := 0, lowBus := 0 } := by
  rw [exec_voltageModeExit, execVoltageModeExit, if_pos ⟨hv, hm, hg, hz⟩]
  exact ⟨_, rfl, emit_stage ..⟩

theorem refStarved_falls (hl : s.stage.loop = .closed) (hv : s.stage.modeV = false) (hr : s.stage.refStarved = false)
    (ha : refAt s (nextSample s) = .none) :
    ∃ t, exec .refStarved s = .next t ∧ t.stage = { s.stage with refStarved := true, iRefEntry := 0 } := by
  rw [exec_refStarved, execRefStarved, if_pos ⟨hl, hv, hr, ha⟩]
  exact ⟨_, rfl, emit_stage ..⟩

theorem loopOpenParked_parks (hl : s.stage.loop = .opening) (hz : (f32 s.stage.iApp).isZero = true) (hst : s.stage.stopAfterOpen = false) :
    ∃ t, exec .loopOpenParked s = .next t ∧ t.stage = { stIdle s.stage with loop := .open_ } ∧ t.stage.parked = true ∧
      t.stage.oring = false := by
  rw [exec_loopOpenParked, execLoopOpenParked, if_pos ⟨hl, hz⟩]
  dsimp only
  rw [if_neg (by simp [hst])]
  have h : (answer .loopOpen .ok 0 [] (stMod (fun x => { stIdle x with loop := .open_ }) s)).stage = { stIdle s.stage with loop := .open_ } :=
    answer_stage ..
  exact ⟨_, rfl, h, by rw [h]; rfl, by rw [h]; rfl⟩

/-- A fault of a running STAGE parks it, and moves no other function (R374). -/
theorem stageFault_faults (hs : s.funcs.length = 27) (h : fnState s fSTAGE = .running) (cause : Nat) :
    fnState (stageFault cause s) fSTAGE = .faulted ∧ (fnRec (stageFault cause s) fSTAGE).faultCause = BitVec.ofNat 16 cause ∧
      (stageFault cause s).stage = stIdle s.stage ∧ OthersKeep s (stageFault cause s) fSTAGE := by
  have hrun : fnRunning s fSTAGE = true := decide_eq_true h
  have hfuncs : (stageFault cause s).funcs = (fnSet fSTAGE .faulted cause (stMod stIdle s)).funcs := by
    simp only [stageFault, hrun, if_true, answer_funcs, fnFault]
  have hrec := fnRec_fnSet (s := stMod stIdle s) hs (by decide : fSTAGE ∈ fnIds) (x := .faulted)
    (fun hf => nomatch h.symm.trans hf) cause
  refine ⟨?_, ?_, ?_, ?_⟩
  · rw [fnState, fnRec_congr hfuncs, hrec]
  · rw [fnRec_congr hfuncs, hrec]
    rfl
  · simp only [stageFault, hrun, if_true, answer_stage, fnFault, fnSet_stage]
    rfl
  · exact othersKeep_congr (othersKeep_fnSet (by decide) .faulted cause (stMod stIdle s)) hfuncs

end

/-- Settles O39. -/
theorem stageTimedSteps : Obligations.StageTimedSteps := by
  unfold Obligations.StageTimedSteps
  refine fun s => ⟨fun hc hl ho => if_pos ⟨hc, hl, ho⟩, fun hc hl ho => if_pos ⟨hc, hl, ho⟩, fun h => ⟨if_neg ?_, if_neg ?_⟩,
    fun hc hl => ⟨_, if_pos ⟨hc, hl⟩, rfl, rfl, rfl, rfl, rfl, rfl, rfl⟩, fun h => if_neg ?_, voltageModeExit_ends, refStarved_falls,
    loopOpenParked_parks⟩
  all_goals
    rintro ⟨hc, hl⟩
    rcases h with h | h
    · simp [h] at hc
    · simp [h] at hl

/-- The state with the level of one fault input. -/
def faultInSet (pin : Fin 4) (s : State) : State := { s with stage := { s.stage with faultIn := s.stage.faultIn.set pin.val true } }

/-- A fault input with an action is recorded where STAGE runs or is faulted, and then acts (R384). -/
theorem faultIn_acts {s : State} (pin : Fin 4) (hlife : s.power.life = .up) (h : fnState s fSTAGE = .running ∨ fnState s fSTAGE = .faulted)
    (ha : finAction s.stage.cfg pin.val ≠ 0) :
    ∃ u, Served (faultInSet pin s) u ∧ exec (.faultInAsserted pin) s =
      if finAction s.stage.cfg pin.val = 2 then .next (stageStopped u)
      else if finAction s.stage.cfg pin.val = 3 then .next (stageFault 0x0607 u) else .next u := by
  rw [exec_faultInAsserted, execFaultInAsserted]
  have hfn : fnRunning (faultInSet pin s) fSTAGE = true ∨ fnFaulted (faultInSet pin s) fSTAGE = true := by
    simp only [fnRunning, fnFaulted, decide_eq_true_eq]
    exact h
  exact ⟨_, served_emit .., if_pos ⟨hlife, hfn, ha⟩⟩

theorem faultIn_faults {s : State} (hs : s.funcs.length = 27) (pin : Fin 4) (hlife : s.power.life = .up)
    (h : fnState s fSTAGE = .running) (ha : finAction s.stage.cfg pin.val = 3) :
    ∃ t, exec (.faultInAsserted pin) s = .next t ∧ fnState t fSTAGE = .faulted ∧ (fnRec t fSTAGE).faultCause = 0x0607 ∧
      t.stage.parked = true ∧ t.stage.faultIn = s.stage.faultIn.set pin.val true := by
  obtain ⟨u, hu, hexec⟩ := faultIn_acts pin hlife (.inl h) (by omega)
  rw [if_neg (by omega), if_pos ha] at hexec
  obtain ⟨hstate, hcause, hstage, -⟩ := stageFault_faults (s := u) (by rw [hu.funcs]; exact hs) ((hu.fnState _).trans h) 0x0607
  refine ⟨_, hexec, hstate, hcause, ?_, ?_⟩
  · rw [hstage]; rfl
  · rw [hstage, hu.stage]; rfl

/-- A fault input of a FAULTED STAGE is kept and recorded, and nothing else happens (R384). -/
theorem faultIn_recorded {s : State} (pin : Fin 4) (hlife : s.power.life = .up)
    (h : fnState s fSTAGE = .faulted) (ha : finAction s.stage.cfg pin.val ≠ 0) :
    ∃ t, exec (.faultInAsserted pin) s = .next t ∧
      Served { s with stage := { s.stage with faultIn := s.stage.faultIn.set pin.val true } } t := by
  obtain ⟨u, hu, hexec⟩ := faultIn_acts pin hlife (.inr h) ha
  have hrun : ¬fnRunning u fSTAGE = true := by
    rw [fnRunning, hu.fnState, show fnState (faultInSet pin s) fSTAGE = .faulted from h]
    decide
  rw [stageStopped, stageFault, if_neg hrun, if_neg hrun, ite_self, ite_self] at hexec
  exact ⟨u, hexec, hu⟩

/-- Settles O40. -/
theorem stageProtection : Obligations.StageProtection := by
  unfold Obligations.StageProtection
  rintro s ⟨-, -, -, hs, -⟩
  refine ⟨fun trip hp he => if_neg (by simp [hp, he]), fun h => ?_, fun h hen hpend => ?_, faultIn_faults hs, faultIn_recorded,
    fun pin h => if_neg ?_, fun pin => rfl, fun h => ⟨if_neg ?_, if_neg ?_⟩⟩
  · obtain ⟨hstate, hcause, hstage, hothers⟩ := stageFault_faults hs h 0x0603
    have hrun : fnRunning s fSTAGE = true := decide_eq_true h
    rw [exec_ovLatch, execOvLatch, if_pos hrun]
    refine ⟨_, rfl, hstate, hcause, rfl, rfl, ?_, hothers⟩
    exact congrArg Stage.oring hstage
  · obtain ⟨hstate, hcause, hstage, hothers⟩ := stageFault_faults hs h 0x0604
    rw [exec_uvTrip, execUvTrip, if_pos ⟨decide_eq_true h, hen, hpend⟩]
    exact ⟨_, rfl, hstate, hcause, congrArg Stage.parked hstage, congrArg Stage.oring hstage, hothers⟩
  · rintro ⟨hlife, hfn, ha⟩
    simp only [fnRunning, fnFaulted, decide_eq_true_eq] at hfn
    change fnState s fSTAGE = .running ∨ fnState s fSTAGE = .faulted at hfn
    rcases h with h | h | h | h
    · exact h hlife
    · simp [h] at hfn
    · simp [h] at hfn
    · exact ha h
  · simp [fnRunning, h]
  · simp [fnRunning, h]

end Sys2Proof.Machine
end

section
/-! PROOFS. The commands of the stack chains (R421 to R425). -/

namespace Sys2Proof.Machine

section
variable {s t : State} {r : Req} {o : Nat} {acts : List Nat} {b : Bool}

theorem chainOf_congr (ha : t.chainA = s.chainA) (hb : t.chainB = s.chainB) (b : Bool) : chainOf t b = chainOf s b := by
  rw [chainOf, ha, hb, chainOf]

theorem chainOf_rung : chainOf (rung o acts r s) b = chainOf s b := chainOf_congr (rung_chainA ..) (rung_chainB ..) b

theorem chainOf_chMod (b : Bool) (f : Chain → Chain) (s : State) : chainOf (chMod b f s) b = f (chainOf s b) := by cases b <;> rfl
theorem chainOf_chMod_other (b : Bool) (f : Chain → Chain) (s : State) : chainOf (chMod b f s) (!b) = chainOf s (!b) := by cases b <;> rfl

/-- While no mailbox waits, no chain starts (R403). -/
theorem chStarting_rung (hs : Ready s) : chStarting (rung o acts r s) b = chStarting s b := by
  have hidle : waitingMb (fun x => decide (x = .funcStart (chainFn b))) s = none := by
    rw [waitingMb, List.find?_eq_none]
    intro n _
    rw [ready_idle hs n]
    exact Bool.false_ne_true
  rw [chStarting, unawaited_rung hs o acts r (.funcStart (chainFn b)) nofun, chStarting, hidle]

theorem chainWords_rung (hs : Ready s) : chainWords (rung o acts r s) b = chainWords s b := by
  have htx : chTransmits (rung o acts r s) b = chTransmits s b := by
    simp only [chTransmits, fnRunning_rung, rung_pair, chStarting_rung hs]
  have hreq : balRequest (rung o acts r s) b = balRequest s b := by
    simp only [balRequest, chainOf_rung, (areaWords_rung aEstArea 448).1, (areaWords_rung aEstArea 448).2]
  simp only [chainWords, chainOf_rung, fnState_rung, htx, hreq, holdLeftS, ticksNow, rung_clk]

theorem chainBalBad_rung : chainBalBad (rung o acts r s) r = chainBalBad s r := by
  simp only [chainBalBad, chainOf_rung, runBad, fnState_rung]

/-- An edit of one chain, on a state that the request alone has touched. -/
theorem Served.chMod (h : Served s t) (f : Chain → Chain) : Served (chMod b f s) (chMod b f t) := by
  cases b
  · exact h.set_chainA (by rw [h.chainA])
  · exact h.set_chainB (by rw [h.chainB])

/-- A command that passes its check edits one chain. -/
theorem chain_does {c : Cmd} {e : State → Option Answer} {f : State → Chain → Chain} (hs : Ready s) (ht : Taken c r)
    (hbad : e (rung c.op c.acts r s) = none) (hf : f (rung c.op c.acts r s) = f s) :
    ∃ t, mailbox c r (fun s => guardE (e s) s fun s => (Machine.chMod b (f s) s, okR [])) s = .next t ∧ Answered t r .ok 0 [] ∧
      Served (Machine.chMod b (f s) s) t := by
  refine does_of hs ht (b := Machine.chMod b (f s) (rung c.op c.acts r s)) ((guardE_none hbad).trans (by rw [hf])) ?_ ((served_rung ..).chMod _)
  cases b <;> rfl

theorem chainConfig_takes (hs : Ready s) (hh : High r 21) (hst : fnState s (chainFn (reqChain r)) = .stopped) (hbad : chainConfigBad r = none) :
    Does (.chainConfig r) r s (Machine.chMod (reqChain r) (fun c => { c with cfg := chainCfgOf r }) s) [] := by
  rw [Does, exec_chainConfig, execChainConfig]
  refine chain_does (e := fun s => firstErr [cfgBad s (chainFn (reqChain r)), chainConfigBad r]) (f := fun _ c => { c with cfg := chainCfgOf r })
    hs (taken_high hh rfl rfl rfl (by decide)) ?_ rfl
  dsimp only
  rw [cfgBad_stopped hst, hbad]
  rfl

theorem chainBal_takes (hs : Ready s) (hh : High r 17) (hbad : chainBalBad s r = none) :
    Does (.chainBal r) r s (Machine.chMod (reqChain r) (fun c => { c with
      bal := mask512 (fit 16 0 (r.payload.drop 1)), holdS := fld (r.w 2) 16 16, holdFrom := ticksNow s }) s) [] := by
  rw [Does, exec_chainBal, execChainBal]
  refine chain_does (e := fun s => chainBalBad s r)
    (f := fun s c => { c with bal := mask512 (fit 16 0 (r.payload.drop 1)), holdS := fld (r.w 2) 16 16, holdFrom := ticksNow s })
    hs (taken_high hh rfl rfl rfl (by decide)) (chainBalBad_rung.trans hbad) ?_
  simp only [ticksNow, rung_clk]

theorem chainQuery_answers (hs : Ready s) (hh : High r 1) (hres : fld (r.w 2) 1 31 = 0) :
    Asks (.chainQuery r) r s (chainWords s (reqChain r)) := by
  rw [Asks, exec_chainQuery, execChainQuery]
  refine asks_of hs (taken_high hh rfl rfl rfl (by decide)) ?_
  dsimp only
  rw [if_neg (not_not.2 hres), chainWords_rung hs]

/-- CHAIN_READ of a chain that has completed a sweep (R424). -/
theorem chainRead_answers {c : Sweep} (hs : Ready s) (hh : High r 1) (hres : r.w 2 &&& 0xFFC0E0FE = 0) (hn : 1 ≤ fld (r.w 2) 16 6)
    (hmn : fld (r.w 2) 8 5 + fld (r.w 2) 16 6 ≤ 32) (hlast : (chainOf s (reqChain r)).last = some c) :
    Asks (.chainRead r) r s ([lo32 c.latchStroke.toNat, hi32 c.latchStroke.toNat, sweepWord3 c] ++
      (List.range (fld (r.w 2) 16 6)).flatMap fun i => chainPos c (fld (r.w 2) 8 5 + i)) := by
  rw [Asks, exec_chainRead, execChainRead]
  refine asks_of hs (taken_high hh rfl rfl rfl (by decide)) ?_
  dsimp only
  rw [if_neg (by rintro (h | h | h); exacts [h hres, by omega, by omega]), chainOf_rung, hlast]
  exact if_neg (by omega)

theorem chainRead_none (hs : Ready s) (hh : High r 1) (hres : r.w 2 &&& 0xFFC0E0FE = 0) (hn : 1 ≤ fld (r.w 2) 16 6)
    (hn' : fld (r.w 2) 16 6 ≤ 32) (hlast : (chainOf s (reqChain r)).last = none) : Refuses (.chainRead r) r s .state 1 := by
  rw [Refuses, exec_chainRead, execChainRead]
  refine refuses_of hs (taken_high hh rfl rfl rfl (by decide)) ?_
  dsimp only [asks]
  rw [if_neg (by rintro (h | h | h); exacts [h hres, by omega, by omega]), chainOf_rung, hlast]
  rfl

theorem chainId_answers (hs : Ready s) (hh : High r 1) (hres : fld (r.w 2) 1 31 = 0) :
    Asks (.chainId r) r s ((chainOf s (reqChain r)).serials.flatMap fun x => [lo32 (x.getD 0).toNat, hi32 (x.getD 0).toNat]) := by
  rw [Asks, exec_chainId, execChainId]
  refine asks_of hs (taken_high hh rfl rfl rfl (by decide)) ?_
  dsimp only
  rw [if_neg (not_not.2 hres), chainOf_rung]

end

/-- Settles O41. -/
theorem chainCommands : Obligations.ChainCommands := by
  unfold Obligations.ChainCommands
  exact fun r s hs => ⟨chainConfig_takes hs, chainBal_takes hs, chainQuery_answers hs, fun _ => chainRead_answers hs, chainRead_none hs,
    fun hh hres => ⟨_, chainId_answers hs hh hres, rfl⟩⟩

end Sys2Proof.Machine
end

section
/-! PROOFS. The frames of a stack chain and the ends of its waits (R397 to R420). -/

namespace Sys2Proof.Machine

section
variable {s t : State} {b : Bool}

/-- From `s` one chain has changed, and its readings have not. -/
def ReadsOn (b : Bool) (s t : State) : Prop := ∃ c, t = chMod b (fun _ => c) s ∧ c.data = (chainOf s b).data

theorem readsOn_refl (b : Bool) (s : State) : ReadsOn b s s := ⟨chainOf s b, by cases b <;> rfl, rfl⟩

theorem readsOn_chMod {f : Chain → Chain} (h : ReadsOn b s t) (hf : ∀ c, (f c).data = c.data) : ReadsOn b s (chMod b f t) := by
  obtain ⟨c, rfl, hc⟩ := h
  exact ⟨f c, by cases b <;> rfl, (hf c).trans hc⟩

theorem readsOn_chSend {e : ChainEnd} {cmd addr : Nat} {l : List Byte} (h : ReadsOn b s t) : ReadsOn b s (chSend b e cmd addr l t) := by
  unfold chSend
  exact readsOn_chMod h fun _ => rfl

theorem readsOn_readSend {pos : Nat} {e : ChainEnd} {second : Bool} (h : ReadsOn b s t) : ReadsOn b s (readSend b pos e second t) := by
  unfold readSend chPhase
  exact readsOn_chMod (readsOn_chSend h) fun _ => rfl

theorem readsOn_balStep (h : ReadsOn b s t) : ReadsOn b s (balStep b t) := by
  unfold balStep chPhase balSend
  exact readsOn_chMod (readsOn_chSend (readsOn_chMod h fun _ => rfl)) fun _ => rfl

theorem readsOn_readDown {pos : Nat} (h : ReadsOn b s t) : ReadsOn b s (readDown b pos t) := by
  unfold readDown
  dsimp only
  split
  · exact readsOn_readSend h
  · exact readsOn_balStep (readsOn_chMod h fun _ => rfl)

theorem readsOn_readUp {pos : Nat} (h : ReadsOn b s t) : ReadsOn b s (readUp b pos t) := by
  unfold readUp
  dsimp only
  split
  · exact readsOn_readSend h
  · exact holds_ite (readsOn_balStep (readsOn_chMod h fun _ => rfl)) (readsOn_readDown h)

/-- What `ReadsOn` keeps. -/
theorem ReadsOn.parts (h : ReadsOn b s t) :
    (chainOf t b).data = (chainOf s b).data ∧ chainOf t (!b) = chainOf s (!b) ∧ t.funcs = s.funcs := by
  obtain ⟨c, rfl, hc⟩ := h
  exact ⟨(congrArg Chain.data (chainOf_chMod b _ s)).trans hc, chainOf_chMod_other .., by cases b <;> rfl⟩

/-- A position that has been read keeps its data, and no other chain and no function changes (R405). -/
theorem readOk_takes (b : Bool) (pos : Nat) (e : ChainEnd) (d : MonData) (s : State) :
    (chainOf (readOk b pos e d s) b).data = (chainOf s b).data.set pos (some d) ∧
      chainOf (readOk b pos e d s) (!b) = chainOf s (!b) ∧ (readOk b pos e d s).funcs = s.funcs := by
  have h : ReadsOn b (chMod b (fun c => { c with data := c.data.set pos (some d), single := c.single || decide (e = .hi) }) s)
      (readOk b pos e d s) := by
    cases e
    · exact readsOn_readUp (readsOn_refl ..)
    · exact readsOn_readDown (readsOn_refl ..)
  obtain ⟨hdata, hother, hfuncs⟩ := h.parts
  refine ⟨hdata.trans ?_, hother.trans (chainOf_chMod_other ..), hfuncs.trans ?_⟩
  · rw [chainOf_chMod]
  · cases b <;> rfl

theorem chainOf_chPhase (b : Bool) (p : ChainPhase) (s : State) : (chainOf (chPhase b p s) b).phase = p :=
  congrArg Chain.phase (chainOf_chMod b _ s)

/-- A first silence repeats the request at its position (R408). -/
theorem readFail_repeats (b : Bool) (pos : Nat) (e : ChainEnd) (s : State) :
    (chainOf (readFail b pos e false s) b).phase = .reading pos e true ∧
      (chainOf (readFail b pos e false s) b).timeouts = satAdd (2 ^ 32 - 1) (chainOf s b).timeouts 1 ∧
      chainOf (readFail b pos e false s) (!b) = chainOf s (!b) := by
  cases b <;> exact ⟨rfl, rfl, rfl⟩

/-- A settled sweep without a gap reads its first position from LO (R405). -/
theorem readBegin_first {p : Nat} (hgap : (chainOf s b).gapAt = none) (hp : (sweepPos (chainOf s b)).head? = some p) :
    (chainOf (readBegin b s) b).phase = .reading p .lo false := by
  unfold readBegin
  extract_lets c g
  have hc : chainOf (chMod b (fun c => { c with loEnd := g, hiStop := g, hiDone := false, gapNow := c.gapAt }) s) b =
      { chainOf s b with loEnd := g, hiStop := g, hiDone := false, gapNow := (chainOf s b).gapAt } := chainOf_chMod ..
  have hmem : p ∈ sweepPos (chainOf s b) := List.mem_of_mem_head? hp
  have hlt : p < (chainOf s b).cfg.nMon := List.mem_range.1 (List.mem_of_mem_filter hmem)
  have hg : g = (chainOf s b).cfg.nMon := by rw [show g = (chainOf s b).gapAt.getD _ from rfl, hgap]; rfl
  have hfind : (sweepPos (chainOf s b)).find? (fun p => decide (0 ≤ p) && decide (p < g)) = some p := by
    obtain ⟨l, hl⟩ := List.head?_eq_some_iff.1 hp
    rw [hl, List.find?_cons_of_pos (by simpa [hg] using hlt)]
  unfold readUp
  rw [hc]
  dsimp only [sweepPos] at hfind ⊢
  rw [hfind]
  exact chainOf_chPhase ..

/-- An orderly STOP of a chain ends (R419). -/
theorem chStopped_stops (hs : s.funcs.length = 27) :
    (chainOf (chStopped b s) b).phase = .idle ∧ fnState (chStopped b s) (chainFn b) = .stopped := by
  unfold chStopped
  constructor
  · rw [chainOf_congr (s := chPhase b .idle s) (by rw [answer_chainA, fnSet_chainA]) (by rw [answer_chainB, fnSet_chainB])]
    exact chainOf_chPhase ..
  · refine (fnState_congr (answer_funcs ..) _).trans (fnState_fnSet (s := chPhase b .idle s) ?_ ?_ _ _)
    · cases b <;> exact hs
    · cases b <;> decide

end

/-- The frames of a chain and their silence (R399, R405, R408). -/
theorem chainFrame_events (c : ChainSel) (e : ChainEnd) (bytes : List Byte) (s : State) :
    let b := chainB? c
    (fnState s (chainFn b) = .running → chTransmits s b = false → chainFrame bytes = none →
      exec (.chainFrameReceived c e bytes) s =
        .next (chMod b (fun c => { c with crcErr := satAdd (2 ^ 32 - 1) c.crcErr 1 }) s)) ∧
    (∀ (f : ChainFrame) (pos : Nat) (second : Bool), chTransmits s b = true → chainDrifts s = false → chainFrame bytes = some f →
      (chainOf s b).phase = .reading pos e second → f.cmd = 0x85 → f.addr = pos → f.num 0 1 = (chainOf s b).sweepId.toNat →
      ∃ t, exec (.chainFrameReceived c e bytes) s = .next t ∧ (chainOf t b).data = (chainOf s b).data.set pos (some f.mon) ∧
        chainOf t (!b) = chainOf s (!b) ∧ t.funcs = s.funcs) ∧
    (∀ pos : Nat, chTransmits s b = true → (chainOf s b).phase = .reading pos e false →
      ∃ t, exec (.readCellsTimeout c) s = .next t ∧ (chainOf t b).phase = .reading pos e true ∧
        (chainOf t b).timeouts = satAdd (2 ^ 32 - 1) (chainOf s b).timeouts 1 ∧ chainOf t (!b) = chainOf s (!b)) ∧
    (fnState s (chainFn b) ≠ .running → chStarting s b = false → exec (.chainFrameReceived c e bytes) s = .next s) := by
  intro b
  have hb : chainB? c = b := rfl
  clear_value b
  refine ⟨fun hrun htx hframe => ?_, fun f pos second htx hdrift hframe hphase hcmd haddr hid => ?_, fun pos htx hphase => ?_,
    fun hrun hstart => ?_⟩
  · have hr : fnRunning s (chainFn b) = true := decide_eq_true hrun
    rw [exec_chainFrameReceived, execChainFrameReceived, hb]
    rw [if_neg (by simp [hr]), hframe, ite_self]
    refine congrArg Host.Outcome.next (if_pos ?_)
    have htx' : chTransmits (chMod b (fun c => { c with crcErr := satAdd (2 ^ 32 - 1) c.crcErr 1 }) s) b = chTransmits s b := by
      cases b <;> rfl
    rw [htx', htx]
    rfl
  · have hr : (!fnRunning s (chainFn b) && !chStarting s b) = false := by
      simp only [chTransmits, Bool.and_eq_true, Bool.or_eq_true] at htx
      rcases htx.2 with h | h <;> simp [h]
    rw [exec_chainFrameReceived, execChainFrameReceived, hb]
    rw [if_neg (by simp [hr]), if_neg (by simp [hdrift]), hframe]
    dsimp only
    rw [if_pos htx, chMaster, hphase]
    dsimp only
    rw [if_pos ⟨rfl, hcmd, haddr⟩, if_pos hid]
    exact ⟨_, rfl, readOk_takes ..⟩
  · rw [exec_readCellsTimeout, execReadCellsTimeout, hb]
    rw [if_neg (by simp [htx]), hphase]
    exact ⟨_, rfl, readFail_repeats ..⟩
  · have hr : fnRunning s (chainFn b) = false := decide_eq_false hrun
    rw [exec_chainFrameReceived, execChainFrameReceived, hb, hr, hstart]
    rfl

/-- The waits of a chain (R403, R405, R411, R413, R419). -/
theorem chainWait_events (c : ChainSel) (s : State) :
    let b := chainB? c
    (∀ p : Nat, chTransmits s b = true → (chainOf s b).phase = .settle → (chainOf s b).gapAt = none →
      (sweepPos (chainOf s b)).head? = some p →
      ∃ t, exec (.chainSettleWaitEnd c) s = .next t ∧ (chainOf t b).phase = .reading p .lo false) ∧
    (chTransmits s b = true → (chainOf s b).phase = .enumLo → ∃ t, exec (.enumHiTimeout c) s = .next t ∧ (chainOf t b).phase = .configLo) ∧
    (chTransmits s b = true → (chainOf s b).phase = .configLo →
      ∃ t, exec (.enumHiTimeout c) s = .next t ∧ (chainOf t b).phase = .readId 0 .lo false) ∧
    (chTransmits s b = true → (chainOf s b).phase = .balLo →
      ∃ t, exec (.balSetHiTimeout c) s = .next t ∧ (chainOf t b).phase = .idle ∧ (chainOf t b).complete = true) ∧
    (chTransmits s b = true → (chainOf s b).phase = .stopBal → fnState s (chainFn b) = .running → Sound s →
      ∃ t, exec (.balSetHiTimeout c) s = .next t ∧ (chainOf t b).phase = .idle ∧ fnState t (chainFn b) = .stopped) ∧
    (chTransmits s b = false → exec (.readCellsTimeout c) s = .next s ∧ exec (.enumHiTimeout c) s = .next s ∧
      exec (.balSetHiTimeout c) s = .next s) ∧
    ((chainOf s b).holdS ≠ 0 →
      ∃ t, exec (.balanceHoldExpired c) s = .next t ∧ (chainOf t b).bal = 0 ∧ (chainOf t b).holdS = 0 ∧
        chainOf t (!b) = chainOf s (!b)) ∧
    ((chainOf s b).holdS = 0 → exec (.balanceHoldExpired c) s = .next s) := by
  intro b
  have hb : chainB? c = b := rfl
  clear_value b
  refine ⟨fun p htx hphase hgap hp => ?_, fun htx hphase => ?_, fun htx hphase => ?_,
    fun htx hphase => ?_, fun htx hphase _ hs => ?_, fun htx => ⟨?_, ?_, ?_⟩, fun hhold => ?_, fun hhold => ?_⟩
  · rw [exec_chainSettleWaitEnd, execChainSettleWaitEnd, hb, if_pos ⟨htx, hphase⟩]
    exact ⟨_, rfl, readBegin_first hgap hp⟩
  · rw [exec_enumHiTimeout, execEnumHiTimeout, hb]
    rw [if_neg (by simp [htx]), hphase]
    exact ⟨_, rfl, chainOf_chPhase ..⟩
  · rw [exec_enumHiTimeout, execEnumHiTimeout, hb]
    rw [if_neg (by simp [htx]), hphase]
    exact ⟨_, rfl, chainOf_chPhase ..⟩
  · rw [exec_balSetHiTimeout, execBalSetHiTimeout, hb]
    rw [if_neg (by simp [htx]), hphase]
    exact ⟨_, rfl, congrArg Chain.phase (chainOf_chMod ..), congrArg Chain.complete (chainOf_chMod ..)⟩
  · obtain ⟨-, -, -, hf, -⟩ := hs
    rw [exec_balSetHiTimeout, execBalSetHiTimeout, hb]
    rw [if_neg (by simp [htx]), hphase]
    refine ⟨_, rfl, chStopped_stops ?_⟩
    obtain ⟨-, -, hfuncs⟩ := (readsOn_chSend (readsOn_refl b s) : ReadsOn b s (balSend b .hi 0 s)).parts
    exact (congrArg List.length hfuncs).trans hf
  · rw [exec_readCellsTimeout, execReadCellsTimeout, hb, htx]
    rfl
  · rw [exec_enumHiTimeout, execEnumHiTimeout, hb, htx]
    rfl
  · rw [exec_balSetHiTimeout, execBalSetHiTimeout, hb, htx]
    rfl
  · have hchain (b' : Bool) : chainOf (chRecord b 0 0x0709 0 (chMod b (fun c => { c with bal := 0, holdS := 0 }) s)) b' =
        chainOf (chMod b (fun c => { c with bal := 0, holdS := 0 }) s) b' := chainOf_congr (emit_chainA ..) (emit_chainB ..) b'
    rw [exec_balanceHoldExpired, execBalanceHoldExpired, hb, if_neg hhold]
    refine ⟨_, rfl, ?_, ?_, ?_⟩
    · exact (congrArg Chain.bal (hchain b)).trans (congrArg Chain.bal (chainOf_chMod ..))
    · exact (congrArg Chain.holdS (hchain b)).trans (congrArg Chain.holdS (chainOf_chMod ..))
    · exact (hchain _).trans (chainOf_chMod_other ..)
  · rw [exec_balanceHoldExpired, execBalanceHoldExpired, hb, if_pos hhold]

/-- Settles O42. -/
theorem chainEvents : Obligations.ChainEvents := ⟨chainFrame_events, chainWait_events⟩

end Sys2Proof.Machine
end

section
/-! PROOFS. The commands of the estimator (R454 to R460), and the writes of its records (R445). -/

namespace Sys2Proof.Machine

section
variable {s t : State} {r : Req} {o : Nat} {acts : List Nat}

/-! ### A write of NOR on a state that a request has touched -/

theorem Served.set_diagClerk (h : Served s t) {x y : List Nat} :
    Served { s with diag := { s.diag with clerk := x } } { t with diag := { t.diag with clerk := y } } := by
  obtain ⟨h1, h2, h3, h4, h5, h6, h7, h8, h9, h10, h11, h12, h13, h14, h15, h16, h17, h18, h19, h20, h21, h22, h23, h24⟩ := h
  refine ⟨h1, h2, h3, h4, h5, h6, h7, h8, h9, h10, h11, h12, h13, h14, h15, h16, h17, h18, h19, h20, h21, h22, ?_, h24⟩
  rw [h23]

theorem Served.estMod (h : Served s t) (f : Est → Est) : Served (estMod f s) (estMod f t) := h.set_est (by rw [h.est])

theorem Served.norMod (h : Served s t) (kind : Nat) (f : NorKind → NorKind) : Served (norMod kind f s) (norMod kind f t) := by
  unfold Machine.norMod
  split
  · exact h.set_boot (by rw [h.boot])
  · exact h.estMod _

/-- The regions of the records are never locked (R445). -/
theorem norRefuses_region (s : State) (erase : Bool) (kind : Nat) : norRefuses s erase (norRegion kind) = false := by
  unfold norRefuses norRegion
  split <;> simp

theorem norOp_region (s : State) (erase : Bool) (kind n : Nat) (go : State → State) :
    norOp erase (norRegion kind) n go s = go { s with diag := { s.diag with clerk := bump s.diag.clerk (if erase then 6 else 5) n } } := by
  rw [norOp, if_neg (by rw [norRefuses_region]; exact Bool.false_ne_true)]

theorem Served.norErase (h : Served s t) (kind : Nat) (policy : List Word) : Served (norErase kind policy s) (norErase kind policy t) := by
  unfold Machine.norErase
  rw [norOp_region, norOp_region]
  exact (h.set_diagClerk.norMod kind _).estMod _

/-- The next write begins on a state that a request has touched as it would without it. -/
theorem Served.norNext (h : Served s t) (hp : policiesWaiting t = policiesWaiting s) : Served (norNext s) (norNext t) := by
  have hstop : norStop t = norStop s := by rw [norStop, h.power, norStop]
  unfold Machine.norNext
  rw [h.est, hstop, hp]
  split_ifs
  · exact h
  · exact (h.estMod _).norErase 0 []
  · exact (h.estMod _).norErase 1 []
  · cases policiesWaiting s with
    | nil => exact h
    | cons p l => exact h.norErase 2 p

/-- No policy waits where every command in progress is in its body. -/
theorem policiesWaiting_nil (h : ∀ n b, (s.mbs.getD n {}).busy = some b → b.waits = .body) : policiesWaiting s = [] := by
  rw [policiesWaiting, List.filterMap_eq_nil_iff]
  intro m hm
  obtain ⟨n, hn, rfl⟩ := List.mem_iff_getElem.1 hm
  have hn' := h n
  rw [List.getD_eq_getElem _ _ hn] at hn'
  cases hb : s.mbs[n].busy with
  | none => rfl
  | some b =>
    obtain ⟨op, tag, acts, waits, logIdx⟩ := b
    cases hn' _ hb
    rfl

theorem policiesWaiting_ready (hs : Ready s) : policiesWaiting s = [] :=
  policiesWaiting_nil fun n _ hb => by rw [ready_idle hs n] at hb; exact nomatch hb

theorem policiesWaiting_rung (hs : Ready s) : policiesWaiting (rung o acts r s) = [] := by
  refine policiesWaiting_nil fun n b hb => ?_
  have hidle := ready_idle hs n
  simp only [rung, mbStart, hostLossEnd_mbs, mbPost, List.getD_eq_getElem?_getD, List.getElem?_modify] at hidle hb
  cases hn : s.mbs[n]? with
  | none => simp [hn] at hb
  | some m =>
    rw [hn] at hidle hb
    by_cases hr : r.mb.val = n
    · simp [hr] at hb
      rw [← hb]
    · simp only [Option.getD_some] at hidle
      simp [hr, hidle] at hb

theorem served_lifeDue (hs : Ready s) : Served (lifeDue s) (lifeDue (rung o acts r s)) := by
  refine ((served_rung ..).estMod _).norNext ?_
  rw [show policiesWaiting (estMod _ (rung o acts r s)) = policiesWaiting (rung o acts r s) from rfl, policiesWaiting_rung hs]
  exact (policiesWaiting_ready hs).symm

/-! ### The commands -/

theorem estAnchorBad_rung : estAnchorBad (rung o acts r s) = estAnchorBad s := by
  obtain ⟨_, _, _, _, _, _, _, _, _, _, h⟩ := rung_parts o acts r s
  rw [h]
  rfl

theorem estWords_rung (a : List Word) : estWords (rung o acts r s) a = estWords s a := by
  obtain ⟨_, _, _, _, _, _, _, _, _, _, h⟩ := rung_parts o acts r s
  rw [h]
  rfl

theorem cellWords_rung (i : Nat) : cellWords (rung o acts r s) i = cellWords s i := by
  obtain ⟨_, _, _, _, _, _, _, _, _, _, h⟩ := rung_parts o acts r s
  rw [h]
  rfl

/-- A command that passes its check edits the estimator alone. -/
theorem est_does {c : Cmd} {e : State → Option Answer} {f : Est → Est} (hs : Ready s) (ht : Taken c r)
    (hbad : e (rung c.op c.acts r s) = none) :
    ∃ t, mailbox c r (fun s => guardE (e s) s fun s => (Machine.estMod f s, okR [])) s = .next t ∧ Answered t r .ok 0 [] ∧
      Served { s with est := f s.est } t :=
  does_of hs ht (b := Machine.estMod f (rung c.op c.acts r s)) ((guardE_none hbad).trans rfl) rfl ((served_rung ..).estMod f)

/-- The configuration that EST_CONFIG's operands give (R454). -/
def estCfgOf (r : Req) : EstCfg :=
  { strings := (List.range (fld (r.w 2) 0 4)).map fun i =>
      { chainB := bit (r.w (3 + i)) 25, first := fld (r.w (3 + i)) 16 9, count := fld (r.w (3 + i)) 0 7 }
    qNom := r.w 11, iRest := r.w 12, curErr := r.w 13,
    shareErr := r.w 14, driftPh := r.w 15, floor_ := fld (r.w 16) 16 16, ceil_ := fld (r.w 16) 0 16,
    restS := fld (r.w 17) 16 16, timeoutS := fld (r.w 17) 0 16, taperS := fld (r.w 18) 16 16,
    balDelta := fld (r.w 18) 0 16, taperLo := r.w 19, taperHi := r.w 20, uStart := fld (r.w 21) 16 16,
    capReset := bit (r.w 21) 0 }

theorem estConfig_takes (hs : Ready s) (hh : High r 20) (hst : fnState s fEST = .stopped) (hbad : estConfigBad r = none) :
    Does (.estConfig r) r s { s with est := { s.est with cfg := estCfgOf r } } [] := by
  rw [Does, exec_estConfig, execEstConfig]
  refine est_does (e := fun s => firstErr [cfgBad s fEST, estConfigBad r]) (f := fun e => { e with cfg := estCfgOf r }) hs
    (taken_high hh rfl rfl rfl (by decide)) ?_
  dsimp only
  rw [cfgBad_stopped hst, hbad]
  rfl

theorem estModel_takes (hs : Ready s) (hh : High r 156) (hst : fnState s fEST = .stopped) (hbad : estModelBad r = none) :
    Does (.estModel r) r s { s with est := { s.est with model := fit 156 0 r.payload } } [] := by
  rw [Does, exec_estModel, execEstModel]
  refine est_does (e := fun s => firstErr [cfgBad s fEST, estModelBad r]) hs (taken_high hh rfl rfl rfl (by decide)) ?_
  dsimp only
  rw [cfgBad_stopped hst, hbad]
  rfl

theorem estQuery_answers (hs : Ready s) (hh : High r 0) (hdam : areaDamage (seeAs .clerk s) aEstArea 448 = none) :
    Asks (.estQuery r) r s (estWords s (if validOf s aEstArea then copyWords s aEstArea 448 else List.replicate 112 0)) := by
  rw [Asks, exec_estQuery, execEstQuery]
  refine does_of hs (taken_high hh rfl rfl rfl (by decide)) (b := rung 0x0803 [] r s) ?_ rfl (served_rung ..)
  obtain ⟨hvalid, hwords⟩ := areaWords_rung (s := s) (o := 0x0803) (acts := []) (r := r) aEstArea 448
  dsimp only [areaAnswer]
  rw [areaDamage_rung, hdam]
  dsimp only
  rw [hvalid, hwords, estWords_rung]

theorem estQuery_faults (hs : Ready s) (hh : High r 0) (hdam : (areaDamage (seeAs .clerk s) aEstArea 448).isSome = true) :
    ∃ t, exec (.estQuery r) s = .next t ∧ Answered t r .fault 0 [] ∧ t.mem.cells = s.mem.cells := by
  obtain ⟨d, hd⟩ := Option.isSome_iff_exists.1 hdam
  rw [exec_estQuery, execEstQuery]
  refine faults_of (d := d) hs (taken_high hh rfl rfl rfl (by decide)) ?_
  dsimp only [areaAnswer]
  rw [areaDamage_rung, hd]

theorem estRead_answers (hs : Ready s) (hh : High r 1) (hres : r.w 2 &&& 0xFC00FE00 = 0) (hn : fld (r.w 2) 0 9 ≠ 0)
    (hlen : fld (r.w 2) 16 10 + fld (r.w 2) 0 9 ≤ 1024) :
    Asks (.estRead r) r s ((List.range (fld (r.w 2) 0 9)).flatMap fun i => cellWords s (fld (r.w 2) 16 10 + i)) := by
  rw [Asks, exec_estRead, execEstRead]
  refine asks_of hs (taken_high hh rfl rfl rfl (by decide)) ?_
  dsimp only
  rw [if_neg (by rintro (h | h); exacts [h hres, hn h]), if_neg (by omega)]
  simp only [cellWords_rung]

theorem estAnchor_asks (hs : Ready s) (hh : High r 0) (hbad : estAnchorBad s = none) :
    Does (.estAnchor r) r s { s with est := { s.est with anchorReq := true } } [] := by
  rw [Does, exec_estAnchor, execEstAnchor]
  exact est_does (e := fun s => estAnchorBad s) hs (taken_high hh rfl rfl rfl (by decide)) (estAnchorBad_rung.trans hbad)

theorem estLifeRead_answers (hs : Ready s) (hh : High r 0) : Asks (.estLifeRead r) r s (lifeWords s) := by
  rw [Asks, exec_estLifeRead, execEstLifeRead]
  refine asks_of hs (taken_high hh rfl rfl rfl (by decide)) ?_
  simp only [lifeWords, rung_est]

theorem estSave_waits (hs : Ready s) (hh : High r 0) (hrun : fnState s fEST = .running) :
    Awaits (.estSave r) r s (lifeDue s) .estSave := by
  rw [Awaits, exec_estSave, execEstSave]
  refine awaits_of hs (taken_high hh rfl rfl rfl (by decide)) (b := lifeDue (rung 0x0807 [fEST] r s))
    (guardE_none (runBad_running (by rw [fnState_rung]; exact hrun))) (norNext_keeps _).2 (served_lifeDue hs)

end

/-- Settles O43. -/
theorem estimatorCommands : Obligations.EstimatorCommands := by
  unfold Obligations.EstimatorCommands
  refine fun r s hs => ⟨fun hh hst hbad => ?_, estModel_takes hs, estQuery_answers hs, estQuery_faults hs, estRead_answers hs,
    fun hh _ hbad => estAnchor_asks hs hh hbad, estLifeRead_answers hs, estSave_waits hs⟩
  obtain ⟨t, hexec, hans, hserved⟩ := estConfig_takes hs hh hst hbad
  have hest := hserved.est
  refine ⟨t, hexec, hans, by rw [hest]; exact hserved, ?_, ?_, ?_, ?_, ?_, ?_⟩
  all_goals rw [hest]
  · simp [estCfgOf]
  all_goals rfl

end Sys2Proof.Machine
end

section
/-! PROOFS. The records of the estimator in NOR: the entry that commits one, and what later writes leave of it (R445, R446). -/

namespace Sys2Proof.Machine

section
variable {k k' k'' : NorKind} {r : NorRec} {kind : Nat}

/-- The newer of a candidate and an entry. -/
def newer (a : Option NorEntry) (e : NorEntry) : Option NorEntry := match a with
  | some b => if b.seq < e.seq then some e else a
  | none => some e

theorem newestEntry_eq (k : NorKind) : newestEntry k = (k.log.flatten.filter (·.holds k)).foldl newer none := rfl

/-- What a search for the newest entry finds: an entry of the list or the one that it started from, none older than any. -/
theorem foldl_newer (l : List NorEntry) (a : Option NorEntry) :
    (l.foldl newer a = none → a = none ∧ l = []) ∧
    ∀ f, l.foldl newer a = some f → (f ∈ l ∨ a = some f) ∧ (∀ e ∈ l, e.seq ≤ f.seq) ∧ ∀ b, a = some b → b.seq ≤ f.seq := by
  induction l generalizing a with
  | nil =>
    refine ⟨fun h => ⟨h, rfl⟩, fun f h => ⟨.inr h, nofun, fun b hb => ?_⟩⟩
    cases hb.symm.trans h
    exact le_rfl
  | cons x l ih =>
    obtain ⟨hnone, hsome⟩ := ih (newer a x)
    have hx : ∃ y, newer a x = some y ∧ (y = x ∨ a = some y) ∧ x.seq ≤ y.seq ∧ ∀ b, a = some b → b.seq ≤ y.seq := by
      cases a with
      | none => exact ⟨x, rfl, .inl rfl, le_rfl, nofun⟩
      | some b =>
        by_cases hlt : b.seq < x.seq
        · exact ⟨x, if_pos hlt, .inl rfl, le_rfl, fun c hc => by cases hc; omega⟩
        · exact ⟨b, if_neg hlt, .inr rfl, by omega, fun c hc => by cases hc; omega⟩
    obtain ⟨y, hy, hfrom, hge, hall⟩ := hx
    refine ⟨fun h => ?_, fun f h => ?_⟩
    · have hacc := (hnone h).1
      rw [hy] at hacc
      exact nomatch hacc
    · obtain ⟨hmem, hmax, hacc⟩ := hsome f h
      have hyf := hacc y hy
      refine ⟨?_, fun e he => ?_, fun b hb => (hall b hb).trans hyf⟩
      · rcases hmem with hm | hm
        · exact .inl (.tail _ hm)
        · cases hy.symm.trans hm
          rcases hfrom with rfl | hfrom
          · exact .inl (.head _)
          · exact .inr hfrom
      · rcases List.mem_cons.1 he with rfl | he
        · exact hge.trans hyf
        · exact hmax e he

/-- An entry that counts is not newer than the newest, which counts too (R446). -/
theorem newestEntry_max {e : NorEntry} (he : e ∈ k.log.flatten) (hh : e.holds k = true) :
    ∃ f, newestEntry k = some f ∧ f ∈ k.log.flatten ∧ f.holds k = true ∧ e.seq ≤ f.seq := by
  have hmem : e ∈ k.log.flatten.filter (·.holds k) := List.mem_filter.2 ⟨he, hh⟩
  obtain ⟨hnone, hsome⟩ := foldl_newer (k.log.flatten.filter (·.holds k)) none
  rw [newestEntry_eq]
  cases hf : (k.log.flatten.filter (·.holds k)).foldl newer none with
  | none =>
    rw [(hnone hf).2] at hmem
    exact nomatch hmem
  | some f =>
    obtain ⟨hfrom, hmax, -⟩ := hsome f hf
    obtain ⟨hin, hholds⟩ := List.mem_filter.1 (hfrom.resolve_right nofun)
    exact ⟨f, rfl, hin, hholds, hmax e hmem⟩

theorem seq_le_recSeq {e : NorEntry} (he : e ∈ k.log.flatten) (hh : e.holds k = true) : e.seq ≤ recSeq k := by
  obtain ⟨f, hf, -, -, hle⟩ := newestEntry_max he hh
  rw [recSeq, hf]
  exact hle

theorem spareSlot_le (k : NorKind) : spareSlot k ≤ 1 := by
  unfold spareSlot
  split <;> omega

/-- The commit entry of a copy. -/
def commitEntry (kind : Nat) (r : NorRec) (k : NorKind) : NorEntry :=
  let e : NorEntry := { kind := kind, seq := recSeq k + 1, slot := spareSlot k, bytes := 4 * r.copy.length, copyCrc := r.crc, ownCrc := 0 }
  { e with ownCrc := e.crc }

/-- What programming a copy and its entry leaves (R445 step 4). -/
theorem norProgram_parts (kind : Nat) (r : NorRec) (k : NorKind) :
    ∃ n, n ≤ 1 ∧ norProgram kind r k =
      { copies := [if 0 = spareSlot k then some r else k.copies.getD 0 none, if 1 = spareSlot k then some r else k.copies.getD 1 none]
        log := [k.log.getD 0 [] ++ (if 0 = n then [commitEntry kind r k] else []),
          k.log.getD 1 [] ++ (if 1 = n then [commitEntry kind r k] else [])]
        sector := n } := by
  refine ⟨_, ?_, rfl⟩
  split <;> omega

theorem getD_programmed (i : Nat) (kind : Nat) (r : NorRec) (k : NorKind) (hi : i ≤ 1) :
    (norProgram kind r k).copies.getD i none = if i = spareSlot k then some r else k.copies.getD i none := by
  obtain ⟨n, -, h⟩ := norProgram_parts kind r k
  rw [h]
  interval_cases i <;> rfl

/-- `k'` is `k`, or `k` with the sector erased that is not written (R446). -/
def Advanced (k k' : NorKind) : Prop := k' = k ∨ k' = { k with log := k.log.set (1 - k.sector) [] }

/-- `k'` is `k`, or `k` with its spare copy erased (R445 step 1). -/
def Spared (k k' : NorKind) : Prop := k' = k ∨ k' = { k with copies := k.copies.set (spareSlot k) none }

theorem Spared.log (h : Spared k k') : k'.log = k.log := by
  rcases h with rfl | rfl <;> rfl

/-- A record has been committed: a slot of `new` holds it, and an entry that counts names it with the next SEQ. -/
def Commits (old new : NorKind) (r : NorRec) : Prop :=
  ∃ e ∈ new.log.flatten, e.seq = recSeq old + 1 ∧ e.holds new = true ∧ new.copies.getD e.slot none = some r

theorem holds_of_copy {e : NorEntry} (h : k.copies.getD e.slot none = some r) (hown : e.ownCrc = e.crc) (hcrc : r.crc = e.copyCrc) :
    e.holds k = true := by
  unfold NorEntry.holds
  rw [h]
  simp [hown, hcrc]

/-- An entry's copy decides alone whether it counts. -/
theorem holds_congr {e : NorEntry} (h : k'.copies.getD e.slot none = k.copies.getD e.slot none) : e.holds k' = e.holds k := by
  unfold NorEntry.holds
  rw [h]

theorem copy_of_holds {e : NorEntry} (h : e.holds k = true) : ∃ r, k.copies.getD e.slot none = some r := by
  unfold NorEntry.holds at h
  cases hc : k.copies.getD e.slot none with
  | none => rw [hc] at h; simp at h
  | some r => exact ⟨r, rfl⟩

/-- A commit stands when the log's other sector is erased behind it. -/
theorem program_advanced (h : Advanced (norProgram kind r k) k') :
    commitEntry kind r k ∈ k'.log.flatten ∧ k'.copies = (norProgram kind r k).copies ∧
      ∀ f ∈ k'.log.flatten, f = commitEntry kind r k ∨ f ∈ k.log.flatten := by
  obtain ⟨n, hn, hp⟩ := norProgram_parts kind r k
  have hold (i : Nat) (f : NorEntry) (hf : f ∈ k.log.getD i []) : f ∈ k.log.flatten := by
    by_cases hi : i < k.log.length
    · rw [List.getD_eq_getElem _ _ hi] at hf
      exact List.mem_flatten.2 ⟨_, List.getElem_mem hi, hf⟩
    · rw [List.getD_eq_default _ _ (by omega)] at hf
      exact nomatch hf
  have hfrom (f : NorEntry) (hf : f ∈ k.log.getD 0 [] ∨ f ∈ k.log.getD 1 [] ∨ f = commitEntry kind r k) :
      f = commitEntry kind r k ∨ f ∈ k.log.flatten := by
    rcases hf with hf | hf | hf
    exacts [.inr (hold 0 f hf), .inr (hold 1 f hf), .inl hf]
  rw [hp] at h ⊢
  rcases h with rfl | rfl
  · refine ⟨?_, rfl, fun f hf => hfrom f ?_⟩
    · interval_cases n <;> simp
    · interval_cases n <;> simp at hf <;> tauto
  · refine ⟨?_, rfl, fun f hf => hfrom f ?_⟩
    · interval_cases n <;> simp
    · interval_cases n <;> simp at hf <;> tauto

/-- R445, R446: a programmed record is committed, also where the spare copy is erased at once for the next one. -/
theorem commits_of_program (ha : Advanced (norProgram kind r k) k') (hs : Spared k' k'') : Commits k k'' r := by
  obtain ⟨hmem, hcopies, hlog⟩ := program_advanced ha
  set e := commitEntry kind r k with he
  have hcopy : k'.copies.getD e.slot none = some r := by
    rw [hcopies, show e.slot = spareSlot k from rfl, getD_programmed _ _ _ _ (spareSlot_le k), if_pos rfl]
  have hholds : e.holds k' = true := holds_of_copy hcopy rfl rfl
  obtain ⟨f, hnew, hf, hfh, hle⟩ := newestEntry_max hmem hholds
  have hslot : f.slot = spareSlot k := by
    by_contra hne
    obtain ⟨q, hq⟩ := copy_of_holds hfh
    have hlt : f.slot ≤ 1 := by
      by_contra hbig
      obtain ⟨n, -, hp⟩ := norProgram_parts kind r k
      rw [hcopies, hp, List.getD_eq_default _ _ (by simp; omega)] at hq
      exact nomatch hq
    have hfk : f.holds k = true := by
      rw [← hfh]
      exact (holds_congr (by rw [hcopies, getD_programmed _ _ _ _ hlt, if_neg hne])).symm
    rcases hlog f hf with rfl | hf
    · exact hne rfl
    · have hmax := seq_le_recSeq hf hfk
      have hseq : e.seq = recSeq k + 1 := rfl
      omega
  have hcopy' : k''.copies.getD e.slot none = some r := by
    rcases hs with rfl | rfl
    · exact hcopy
    · have hspare : spareSlot k' ≠ e.slot := by
        have hle := spareSlot_le k
        rw [spareSlot, hnew]
        dsimp only
        rw [hslot, show e.slot = spareSlot k from rfl]
        omega
      rw [← hcopy]
      simp [List.getD_eq_getElem?_getD, List.getElem?_set_ne hspare]
  exact ⟨e, hs.log ▸ hmem, rfl, holds_of_copy hcopy' rfl rfl, hcopy'⟩

end

end Sys2Proof.Machine
end

section
/-! PROOFS. The estimator's own events: histograms, saves, record writes, the anchor hold and the commit timeout (R442 to R452). -/

namespace Sys2Proof.Machine

section
variable {s : State}

/-! ### What the steps around a record write leave of the records -/

/-- The records of EST as `u` has them, but for a spare copy that has been erased. -/
def RecordsSpared (u t : State) : Prop := Spared u.est.norCap t.est.norCap ∧ Spared u.est.norLife t.est.norLife

/-- The records of EST as `u` has them. -/
def RecordsKept (u t : State) : Prop := t.est.norCap = u.est.norCap ∧ t.est.norLife = u.est.norLife

theorem RecordsSpared.of_kept {u v t : State} (h : RecordsSpared u v) (hk : RecordsKept v t) : RecordsSpared u t := by
  obtain ⟨hcap, hlife⟩ := hk
  exact ⟨by rw [hcap]; exact h.1, by rw [hlife]; exact h.2⟩

theorem norErase_spares (kind : Nat) (p : List Word) (s : State) : RecordsSpared s (norErase kind p s) := by
  unfold norErase
  rw [norOp_region]
  by_cases h2 : kind = 2
  · subst h2
    exact ⟨.inl rfl, .inl rfl⟩
  · by_cases h0 : kind = 0
    · subst h0
      exact ⟨.inr rfl, .inl rfl⟩
    · simp only [norMod, if_neg h2, if_neg h0]
      exact ⟨.inl rfl, .inr rfl⟩

theorem norNext_spares (s : State) : RecordsSpared s (norNext s) := by
  unfold norNext
  split_ifs
  · exact ⟨.inl rfl, .inl rfl⟩
  · exact norErase_spares 0 [] (estMod (fun e => { e with duCap := false }) s)
  · exact norErase_spares 1 [] (estMod (fun e => { e with duLife := false }) s)
  · split
    · exact norErase_spares ..
    · exact ⟨.inl rfl, .inl rfl⟩

theorem estRecord_est (sev code : Nat) (more : List Word) (s : State) : (estRecord sev code more s).est = s.est := emit_est ..

theorem disqualify_kept (n reason : Nat) (s : State) : RecordsKept s (disqualify n reason s) := by
  unfold disqualify
  refine holds_ite (P := RecordsKept s) ?_ ⟨rfl, rfl⟩
  rw [RecordsKept, estRecord_est]
  exact ⟨rfl, rfl⟩

theorem disqualifyAll_kept (reason : Nat) (s : State) : RecordsKept s (disqualifyAll reason s) := by
  unfold disqualifyAll
  exact holds_foldl (P := RecordsKept s) ⟨rfl, rfl⟩ fun t n ht =>
    ⟨(disqualify_kept n reason t).1.trans ht.1, (disqualify_kept n reason t).2.trans ht.2⟩

theorem estStopDone_kept (s : State) : RecordsKept s (estStopDone s) := by
  unfold estStopDone
  refine holds_ite (P := RecordsKept s) ?_ ⟨rfl, rfl⟩
  rw [RecordsKept, answer_est, fnSet_est]
  exact disqualifyAll_kept 6 s

theorem norGone_spares (s : State) : RecordsSpared s (norGone s) := (norNext_spares s).of_kept (estStopDone_kept _)

theorem norAdvance_cap (u : State) :
    Advanced u.est.norCap (norAdvance 0 u).est.norCap ∧ (norAdvance 0 u).est.norLife = u.est.norLife := by
  unfold norAdvance
  dsimp only
  rw [norOp_region]
  exact holds_ite (P := fun t => Advanced u.est.norCap t.est.norCap ∧ t.est.norLife = u.est.norLife) ⟨.inl rfl, rfl⟩ ⟨.inr rfl, rfl⟩

theorem norAdvance_life (u : State) :
    Advanced u.est.norLife (norAdvance 1 u).est.norLife ∧ (norAdvance 1 u).est.norCap = u.est.norCap := by
  unfold norAdvance
  dsimp only
  rw [norOp_region]
  exact holds_ite (P := fun t => Advanced u.est.norLife t.est.norLife ∧ t.est.norCap = u.est.norCap) ⟨.inl rfl, rfl⟩ ⟨.inr rfl, rfl⟩

/-- What storing a record leaves (R445 step 4, R446). -/
theorem norStore_parts (w : NorWrite) (r : NorRec) (s : State) :
    (w.kind = 0 → Advanced (norProgram 0 r s.est.norCap) (norStore w r s).est.norCap ∧ (norStore w r s).est.norLife = s.est.norLife) ∧
    (w.kind = 1 → Advanced (norProgram 1 r s.est.norLife) (norStore w r s).est.norLife ∧ (norStore w r s).est.norCap = s.est.norCap) := by
  unfold norStore
  rw [norOp_region]
  refine ⟨fun hk => ?_, fun hk => ?_⟩
  · rw [hk]
    exact norAdvance_cap (norMod 0 (norProgram 0 r) _)
  · rw [hk]
    exact norAdvance_life (norMod 1 (norProgram 1 r) _)

/-- A copy that reads back is committed (R445). -/
theorem norCommitted_commits (w : NorWrite) (s : State) :
    (w.kind = 0 → Commits s.est.norCap (norCommitted w s).est.norCap (recNow 0 s) ∧
      (norCommitted w s).est.norLife.log = s.est.norLife.log) ∧
    (w.kind = 1 → Commits s.est.norLife (norCommitted w s).est.norLife (recNow 1 s) ∧
      (norCommitted w s).est.norCap.log = s.est.norCap.log) := by
  unfold norCommitted
  extract_lets s1
  obtain ⟨hcap, hlife⟩ := norStore_parts w (recNow w.kind s1) s1
  refine ⟨fun hk => ?_, fun hk => ?_⟩
  · obtain ⟨hadv, hkeep⟩ := hcap hk
    rw [if_neg (by omega), if_pos hk]
    obtain ⟨hc, hl⟩ := norGone_spares (norStore w (recNow w.kind s1) s1)
    refine ⟨commits_of_program (kind := 0) (r := recNow 0 s) ?_ hc, hl.log.trans (congrArg NorKind.log hkeep)⟩
    rw [hk] at hadv ⊢
    exact hadv
  · obtain ⟨hadv, hkeep⟩ := hlife hk
    rw [if_neg (by omega), if_neg (by omega)]
    obtain ⟨hc, hl⟩ := norGone_spares (answer .estSave .ok 0 []
      (estMod (fun e => { e with saveS := e.runS }) (norStore w (recNow w.kind s1) s1)))
    rw [answer_est] at hc hl
    refine ⟨commits_of_program (kind := 1) (r := recNow 1 s) ?_ hl, hc.log.trans (congrArg NorKind.log hkeep)⟩
    rw [hk] at hadv ⊢
    exact hadv

/-- A copy that has failed twice is given up with no entry (R445). -/
theorem norFailed_logs (w : NorWrite) (s : State) :
    (norFailed w s).est.norCap.log = s.est.norCap.log ∧ (norFailed w s).est.norLife.log = s.est.norLife.log := by
  unfold norFailed
  extract_lets s1
  have h : RecordsKept s (if w.kind = 2 then answer (.policySet w.policy) (failCode s1).2 0 [] (failCode s1).1
      else if w.kind = 1 then answer .estSave .fault fEST [] (estRecord 2 0x0806 [w32 w.kind] s1) else estRecord 2 0x0806 [w32 w.kind] s1) := by
    have hrec : RecordsKept s (estRecord 2 0x0806 [w32 w.kind] s1) := by
      rw [RecordsKept, estRecord_est]
      exact ⟨rfl, rfl⟩
    refine holds_ite (P := RecordsKept s) ?_ (holds_ite (P := RecordsKept s) ?_ hrec)
    · rw [RecordsKept, answer_est]
      exact ⟨rfl, rfl⟩
    · rw [RecordsKept, answer_est]
      exact hrec
  obtain ⟨hc, hl⟩ := norGone_spares (if w.kind = 2 then answer (.policySet w.policy) (failCode s1).2 0 [] (failCode s1).1
      else if w.kind = 1 then answer .estSave .fault fEST [] (estRecord 2 0x0806 [w32 w.kind] s1) else estRecord 2 0x0806 [w32 w.kind] s1)
  exact ⟨hc.log.trans (congrArg NorKind.log h.1), hl.log.trans (congrArg NorKind.log h.2)⟩

/-! ### The events -/

theorem lifetimeTick_counts (hrun : fnState s fEST = .running) :
    ∃ h c : Nat, h < 256 ∧ c < 16 ∧ h % 16 = min 15 (16 * s.est.socStack).floor.toNat ∧
      exec .lifetimeHistogramTick s = .next { s with est := { s.est with
        runS := s.est.runS + 1
        life := (s.est.life.set (14 + h) (s.est.life.getD (14 + h) 0 + 1)).set (270 + c) (s.est.life.getD (270 + c) 0 + 1) } } := by
  have hr : fnRunning s fEST = true := decide_eq_true hrun
  rw [exec_lifetimeHistogramTick, execLifetimeHistogramTick, hr]
  extract_lets soc tb t q c i inc
  have hsoc : soc ≤ 15 := by simp only [soc]; omega
  have ht : t ≤ 15 := by simp only [t]; omega
  have hi : i ≤ 15 := by simp only [i]; omega
  refine ⟨16 * t + soc, i, by omega, by omega, by omega, ?_⟩
  rw [if_neg (show ¬(!true) = true by decide)]
  refine congrArg Host.Outcome.next ?_
  have hbins : (inc (273 + i) (inc (17 + 16 * t + soc) s)) = { s with est := { s.est with
      life := (s.est.life.set (14 + (16 * t + soc)) (s.est.life.getD (14 + (16 * t + soc)) 0 + 1)).set (270 + i)
        (s.est.life.getD (270 + i) 0 + 1) } } := by
    simp only [inc, lifePut, lifeGet, estMod, show 17 + 16 * t + soc - 3 = 14 + (16 * t + soc) by omega,
      show 273 + i - 3 = 270 + i by omega, List.getD_eq_getElem?_getD,
      List.getElem?_set_ne (show 14 + (16 * t + soc) ≠ 270 + i by omega)]
  rw [hbins]
  rfl

/-- A write of the lifetime record begins with the erasure of its spare copy (R445 step 1). -/
theorem norErase_life (s : State) : norErase 1 [] s = { s with
    est := { s.est with
      norLife := { s.est.norLife with copies := s.est.norLife.copies.set (spareSlot s.est.norLife) none }
      writing := some { kind := 1, phase := .erasing, retry := false } }
    diag := { s.diag with clerk := bump s.diag.clerk 6 1 } } := by
  rw [norErase, norOp_region]
  rfl

theorem lifetimeSave_begins (hrun : fnState s fEST = .running) (hw : s.est.writing = none) (hcap : s.est.duCap = false)
    (hstop : norStop s = false) :
    ∃ t, exec .lifetimeSaveTimer s = .next t ∧ t = { s with
      est := { s.est with
        duLife := false
        norLife := { s.est.norLife with copies := s.est.norLife.copies.set (spareSlot s.est.norLife) none }
        writing := some { kind := 1, phase := .erasing, retry := false } }
      diag := { s.diag with clerk := t.diag.clerk } } := by
  rw [exec_lifetimeSaveTimer, execLifetimeSaveTimer, if_pos (show fnRunning s fEST = true from decide_eq_true hrun)]
  have hdue : lifeDue s = norErase 1 [] { s with est := { s.est with duLife := false } } := by
    unfold lifeDue norNext
    rw [if_neg (by rw [show norStop (estMod _ s) = norStop s from rfl, hstop]; simp [estMod, hw]),
      if_neg (by simp [estMod, hcap]), if_pos (show (estMod (fun e => { e with duLife := true }) s).est.duLife = true from rfl)]
    rfl
  rw [hdue, norErase_life]
  exact ⟨_, rfl, rfl⟩

theorem lifetimeSave_waits (hrun : fnState s fEST = .running) (hstop : norStop s = true) :
    exec .lifetimeSaveTimer s = .next { s with est := { s.est with duLife := true } } := by
  rw [exec_lifetimeSaveTimer, execLifetimeSaveTimer, if_pos (show fnRunning s fEST = true from decide_eq_true hrun), lifeDue, norNext]
  refine congrArg Host.Outcome.next (if_pos ?_)
  rw [show norStop (estMod _ s) = norStop s from rfl, hstop, Bool.or_true]

theorem estCommit_faults (hs : s.funcs.length = 27) (hrun : fnState s fEST = .running) (hlate : s.est.lastCommit.toNat + 256 ≤ now s) :
    ∃ t, exec .estCommitTimeout s = .next t ∧ fnState t fEST = .faulted ∧ (fnRec t fEST).faultCause = 0x0801 ∧ OthersKeep s t fEST := by
  have hrun' : fnRunning s fEST = true := decide_eq_true hrun
  rw [exec_estCommitTimeout, execEstCommitTimeout, if_pos ⟨hrun', hlate⟩]
  set u := disqualifyAll 6 (holdEnd false s) with hu
  have hfuncs : u.funcs = s.funcs :=
    holds_foldl (P := fun t => t.funcs = s.funcs) (holdEnd_funcs ..) fun t n ht => (disqualify_funcs ..).trans ht
  have hrec := fnRec_fnSet (s := u) (by rw [hfuncs]; exact hs) (by decide : fEST ∈ fnIds) (x := .faulted)
    (fun hf => nomatch (((fnState_congr hfuncs fEST).trans hrun).symm.trans hf)) 0x0801
  have hfuncs' (w w' : Waiting) (c c' : Code) (d d' : Nat) : (answer w c d [] (answer w' c' d' [] (fnFault fEST 0x0801 u))).funcs =
      (fnSet fEST .faulted 0x0801 u).funcs := by rw [answer_funcs, answer_funcs, fnFault]
  refine ⟨_, rfl, ?_, ?_, ?_⟩
  · rw [fnState, fnRec_congr (hfuncs' ..), hrec]
  · rw [fnRec_congr (hfuncs' ..), hrec]
    rfl
  · refine othersKeep_congr (fun g hg hne => ?_) (hfuncs' ..)
    exact (othersKeep_fnSet (by decide) .faulted 0x0801 u g hg hne).trans (fnState_congr hfuncs g)

end

/-- Settles O44. -/
theorem estimatorEvents : Obligations.EstimatorEvents := by
  unfold Obligations.EstimatorEvents
  rintro s ⟨-, -, -, hs, -⟩
  refine ⟨lifetimeTick_counts, lifetimeSave_begins, lifetimeSave_waits, fun h => ⟨if_pos (by simp [fnRunning, h]), if_neg (by simp [fnRunning, h]), if_neg (by simp [fnRunning, h])⟩,
    fun w hw hph => ?_, fun w ok hw hph hgood => ?_, fun w hw hph hgood => ⟨?_, fun hretry => ?_, fun hretry => ?_⟩,
    fun h => ⟨_, if_pos h, ?_⟩, fun h => if_neg (by simp [h]), estCommit_faults hs⟩
  · rw [exec_norEraseComplete, execNorEraseComplete, hw]
    exact ⟨_, if_pos hph, rfl, rfl, rfl⟩
  · rw [exec_norWriteResume, execNorWriteResume, hw]
    exact if_pos (.inr hgood)
  · rw [exec_norWriteResume, execNorWriteResume, hw]
    obtain ⟨hcap, hlife⟩ := norCommitted_commits w s
    exact ⟨_, (if_neg (by simp [hph, hgood])).trans (if_pos rfl), hcap, hlife⟩
  · rw [exec_norWriteResume, execNorWriteResume, hw]
    dsimp only
    rw [if_neg (by simp [hph, hgood]), if_neg Bool.false_ne_true, norOp_region, hretry]
    exact ⟨_, rfl, rfl⟩
  · rw [exec_norWriteResume, execNorWriteResume, hw]
    dsimp only
    rw [if_neg (by simp [hph, hgood]), if_neg Bool.false_ne_true, norOp_region, hretry]
    exact ⟨_, rfl, norFailed_logs w _⟩
  · rw [holdEnd, if_pos (by simp [h])]
    exact served_emit ..

end Sys2Proof.Machine
end

section
/-! PROOFS. Temperatures, throttling, rails, PLLs and dividers (R59, R60, R462 to R472, R490 to R492). -/

namespace Sys2Proof.Machine

section
variable {s t : State} {r : Req} {o : Nat} {acts : List Nat}

/-! ### The commands -/

theorem thermalConfig_takes (hs : Ready s) (hh : High r 1) (hres : r.w 2 &&& 0xFFFF00E8 = 0) (hlo : 60 ≤ fld (r.w 2) 9 7)
    (hhi : fld (r.w 2) 9 7 ≤ 100) (hf : fld (r.w 2) 0 3 ≠ 0) (hnoc : bit (r.w 2) 8 = true → s.clk.nocSel ≠ 1) :
    Does (.thermalConfig r) r s { s with therm := { s.therm with
      next := some (fld (r.w 2) 9 7, bit (r.w 2) 8, bit (r.w 2) 4, fld (r.w 2) 0 3) } } [] := by
  rw [Does, exec_thermalConfig, execThermalConfig]
  refine does_of hs (taken_high hh rfl rfl rfl (by decide)) (b := { rung 0x0901 [] r s with
      therm := { (rung 0x0901 [] r s).therm with next := some (fld (r.w 2) 9 7, bit (r.w 2) 8, bit (r.w 2) 4, fld (r.w 2) 0 3) } })
    ((guardE_none ?_).trans rfl) rfl ((served_rung ..).set_therm (by rw [rung_therm]))
  have hrange : ¬(fld (r.w 2) 9 7 < 60 ∨ 100 < fld (r.w 2) 9 7) := by omega
  have hboost : (bit (r.w 2) 8 && decide (s.clk.nocSel = 1)) = false := by
    cases hb : bit (r.w 2) 8
    · rfl
    · simpa using hnoc hb
  simp only [rung_clk, hres, hrange, hf, hboost]
  rfl

theorem thermalWords_rung : thermalWords (rung o acts r s) = thermalWords s := by
  obtain ⟨_, _, _, _, _, _, _, _, _, _, h⟩ := rung_parts o acts r s
  rw [h]
  rfl

theorem thermalQuery_answers (hs : Ready s) (hh : High r 0) : Asks (.thermalQuery r) r s (thermalWords s) := by
  rw [Asks, exec_thermalQuery, execThermalQuery]
  exact asks_of hs (taken_high hh rfl rfl rfl (by decide)) (congrArg okR thermalWords_rung)

theorem powerQuery_answers (hs : Ready s) (hh : High r 0) :
    Asks (.powerQuery r) r s ((List.range 9).map fun i => Config.powerFigure s.clk.stroke (3 + i)) := by
  rw [Asks, exec_powerQuery, execPowerQuery]
  refine asks_of hs (taken_high hh rfl rfl rfl (by decide)) ?_
  simp only [rung_clk]

/-! ### A conversion (R462, R465) -/

/-- The sensors' conversions of `s` stand, with its shutdown, its vetoes and its functions. -/
def ConvKept (s t : State) : Prop :=
  t.therm.conv = s.therm.conv ∧ t.therm.shutdown = s.therm.shutdown ∧ t.pair = s.pair ∧ t.funcs = s.funcs

theorem ConvKept.record (h : ConvKept s t) (sev code : Nat) (w : Word) : ConvKept s (thermRecord sev code w t) := by
  obtain ⟨hconv, hshut, hpair, hfuncs⟩ := h
  exact ⟨by rw [thermRecord, emit_therm, hconv], by rw [thermRecord, emit_therm, hshut], by rw [thermRecord, emit_pair, hpair],
    by rw [thermRecord, emit_funcs, hfuncs]⟩

theorem convKept_brokenStep (n : Nat) (b : Bool) (s : State) : ConvKept s (brokenStep n b s) := by
  unfold brokenStep
  refine holds_ite (P := ConvKept s) ⟨rfl, rfl, rfl, rfl⟩ (ConvKept.record ?_ ..)
  exact ⟨rfl, rfl, rfl, rfl⟩

theorem convKept_alarmStep (n : Nat) (s : State) : ConvKept s (alarmStep n s) := by
  unfold alarmStep
  extract_lets temp on
  have hset (b : Bool) : ConvKept s (thMod (fun x => { x with alarms := x.alarms.set n b }) s) := ⟨rfl, rfl, rfl, rfl⟩
  exact holds_ite (P := ConvKept s) ⟨rfl, rfl, rfl, rfl⟩
    (holds_ite (P := ConvKept s) ((hset true).record ..) (holds_ite (P := ConvKept s) (hset false) ⟨rfl, rfl, rfl, rfl⟩))

theorem ConvKept.trans {u : State} (h : ConvKept s t) (k : ConvKept t u) : ConvKept s u := by
  obtain ⟨h1, h2, h3, h4⟩ := h
  obtain ⟨k1, k2, k3, k4⟩ := k
  exact ⟨k1.trans h1, k2.trans h2, k3.trans h3, k4.trans h4⟩

theorem convOf_congr (h : t.therm.conv = s.therm.conv) (n : Nat) : convOf t n = convOf s n := by rw [convOf, h, convOf]
theorem dieTemp_congr (h : t.therm.conv = s.therm.conv) (n : Nat) : dieTemp t n = dieTemp s n := by
  unfold dieTemp
  rw [convOf_congr h]

/-- A die at 115 °C latches the shutdown and veto 0x07 (R465). -/
theorem shutdownStep_latches {n : Nat} (hsd : s.therm.shutdown = none) (hhot : 1840 ≤ dieTemp s n) :
    (shutdownStep n s).therm.shutdown = some (n, dieTemp s n) ∧ (shutdownStep n s).pair.vetoes.getLsbD 7 = true ∧
      (shutdownStep n s).therm.conv = s.therm.conv ∧ (shutdownStep n s).funcs = s.funcs := by
  unfold shutdownStep
  extract_lets temp sent s1 s2 s3
  rw [if_neg (by rw [hsd]; simp; exact hhot)]
  have h3 : s3.therm.shutdown = some (n, dieTemp s n) ∧ s3.pair.vetoes.getLsbD 7 = true ∧ s3.therm.conv = s.therm.conv ∧
      s3.funcs = s.funcs := by
    refine ⟨?_, ?_, ?_, ?_⟩
    · rw [show s3.therm = s1.therm by simp only [s3, s2, thermRecord, emit_therm, vetoLatch_therm]]; rfl
    · rw [show s3.pair = s2.pair by simp only [s3, thermRecord, emit_pair]]
      exact vetoLatch_latches (by decide) s1
    · rw [show s3.therm = s1.therm by simp only [s3, s2, thermRecord, emit_therm, vetoLatch_therm]]; rfl
    · rw [show s3.funcs = s1.funcs by simp only [s3, s2, thermRecord, emit_funcs, vetoLatch_funcs]]; rfl
  split
  · exact h3
  · rw [msixDue_therm, msixDue_pair, msixDue_funcs]
    exact h3

/-- Otherwise nothing is latched. -/
theorem shutdownStep_idle {n : Nat} (h : s.therm.shutdown ≠ none ∨ dieTemp s n < 1840) : shutdownStep n s = s := by
  refine if_pos ?_
  rcases h with h | h
  · simp [Option.isSome_iff_ne_none.2 h]
  · simp [h]

/-- A conversion (R462). -/
theorem temperatureConversion_enters (hlen : s.therm.conv.length = 5) (n : Fin 5) (v : Option Int) (hlife : s.power.life = .up) :
    ∃ t, exec (.temperatureConversion n v) s = .next t ∧ convOf t n.val = (convIn v :: convOf s n.val).take 3 ∧
      (∀ m : Fin 5, m ≠ n → convOf t m.val = convOf s m.val) ∧
      (s.therm.shutdown = none → 1840 ≤ dieTemp t n.val →
        t.therm.shutdown = some (n.val, dieTemp t n.val) ∧ t.pair.vetoes.getLsbD 7 = true) ∧
      (dieTemp t n.val < 1840 → t.therm.shutdown = s.therm.shutdown ∧ t.pair = s.pair) ∧ t.funcs = s.funcs := by
  rw [exec_temperatureConversion, execTemperatureConversion, if_neg (not_not.2 hlife)]
  extract_lets n' v' s1
  have hn : n' = n.val := rfl
  have hv : v' = convIn v := rfl
  have hs1 : s1 = thMod (fun x => { x with conv := x.conv.set n.val ((convIn v :: convOf s n.val).take 3) }) s := rfl
  clear_value s1 n' v'
  subst hn hv
  set s2 := alarmStep n.val (brokenStep n.val (convIn v).isNone s1)
  obtain ⟨hconv, hshut, hpair, hfuncs⟩ : ConvKept s1 s2 := (convKept_brokenStep ..).trans (convKept_alarmStep ..)
  replace hfuncs : s2.funcs = s.funcs := hfuncs.trans (by rw [hs1]; rfl)
  replace hshut : s2.therm.shutdown = s.therm.shutdown := hshut.trans (by rw [hs1]; rfl)
  replace hpair : s2.pair = s.pair := hpair.trans (by rw [hs1]; rfl)
  have hall : (shutdownStep n.val s2).therm.conv = s1.therm.conv ∧ (shutdownStep n.val s2).funcs = s.funcs := by
    by_cases hl : s2.therm.shutdown = none ∧ 1840 ≤ dieTemp s2 n.val
    · obtain ⟨-, -, h1, h2⟩ := shutdownStep_latches hl.1 hl.2
      exact ⟨h1.trans hconv, h2.trans hfuncs⟩
    · rw [shutdownStep_idle (by by_contra hc; push Not at hc; exact hl hc)]
      exact ⟨hconv, hfuncs⟩
  have hdie : dieTemp (shutdownStep n.val s2) n.val = dieTemp s2 n.val := dieTemp_congr (hall.1.trans hconv.symm) _
  have hlt : n.val < s.therm.conv.length := by rw [hlen]; exact n.isLt
  refine ⟨_, rfl, ?_, fun m hm => ?_, fun hsd hhot => ?_, fun hcool => ?_, hall.2⟩
  · rw [convOf_congr hall.1]
    simp [convOf, hs1, thMod, hlt]
  · rw [convOf_congr hall.1]
    have hne : n.val ≠ m.val := fun h => hm (Fin.ext h.symm)
    simp [convOf, hs1, thMod, hne]
  · rw [hdie] at hhot ⊢
    obtain ⟨h1, h2, -, -⟩ := shutdownStep_latches (hshut.trans hsd) hhot
    exact ⟨h1, h2⟩
  · rw [hdie] at hcool
    rw [shutdownStep_idle (.inr hcool)]
    exact ⟨hshut, hpair⟩

/-! ### The evaluation of the throttle (R469, R490) -/

/-- An evaluation under way: the accepted configuration is in force, and PT is `pt`. -/
def Evaluated (c : Nat × Bool × Bool × Nat) (pt : Nat) (s t : State) : Prop :=
  t.therm.next = none ∧ t.therm.tThrottle = c.1 ∧ t.therm.fMax = c.2.2.2 ∧ t.therm.pt = pt ∧ t.funcs = s.funcs ∧
    t.mem.cells = s.mem.cells

variable {c : Nat × Bool × Bool × Nat} {pt : Nat}

theorem Evaluated.record (h : Evaluated c pt s t) (sev code : Nat) (w : Word) : Evaluated c pt s (thermRecord sev code w t) := by
  obtain ⟨_, _, _, he⟩ := emit_parts (s := t) sev 0 code [strokeLo t, w]
  rw [thermRecord, he]
  exact h

theorem evaluated_thermalApply (s : State) : Evaluated (thermCfg s.therm) s.therm.pt s (thermalApply s) ∧ (thermalApply s).therm.conv = s.therm.conv ∧
    (thermalApply s).therm.coolFor = s.therm.coolFor := by
  unfold thermalApply thermCfg
  cases h : s.therm.next with
  | none => exact ⟨⟨h, rfl, rfl, rfl, rfl, rfl⟩, rfl, rfl⟩
  | some x => exact ⟨⟨rfl, rfl, rfl, rfl, rfl, rfl⟩, rfl, rfl⟩

theorem evaluated_throttleStep (h : Evaluated c pt s t) : ∃ us since,
    Evaluated c (ptNext t.therm (hotDie t) (heldFor us (decide (hotDie t < 16 * (t.therm.tThrottle : Int) - 80)) t.therm.coolFor) since) s
      (throttleStep t) := by
  obtain ⟨h1, h2, h3, h4, h5, h6⟩ := h
  refine ⟨evalUs t, t.therm.sinceMove + evalUs t, ?_⟩
  unfold throttleStep
  extract_lets x us hot cool pt' moved t1
  have h1 : Evaluated c pt' s t1 := ⟨h1, h2, h3, rfl, h5, h6⟩
  exact holds_ite (h1.record ..) h1

theorem Evaluated.boostStep (h : Evaluated c pt s t) (m : Bool) : Evaluated c pt s (boostStep m t) := by
  unfold Machine.boostStep
  extract_lets x hot held ends new t1
  exact holds_ite h (Evaluated.record (t := t1) h ..)

theorem moveStart_therm (p : Nat × Nat) (t : State) : Evaluated c pt s t → Evaluated c pt s (moveStart p t) := by
  intro h
  unfold moveStart
  extract_lets up t1
  have h1 : Evaluated c pt s t1 := holds_foldl h fun _ _ hu => hu
  exact h1

theorem Evaluated.planAsk (h : Evaluated c pt s t) (p : Nat × Nat) : Evaluated c pt s (planAsk p t) := by
  unfold Machine.planAsk
  extract_lets t1
  refine holds_ite h (holds_ite (P := Evaluated c pt s) h ?_)
  unfold planStart
  exact holds_ite (P := Evaluated c pt s) h (holds_ite (P := Evaluated c pt s) h (moveStart_therm p t1 h))

theorem throttleEvaluation_evaluates (hlife : s.power.life = .up) (hopen : s.clerk.mbOpen = true) (hrec : s.boot.recovery = false) :
    ∃ t, exec .throttleEvaluation s = .next t ∧ t.therm.next = none ∧ t.funcs = s.funcs ∧ t.mem.cells = s.mem.cells ∧
      t.therm.tThrottle = (thermCfg s.therm).1 ∧ t.therm.fMax = (thermCfg s.therm).2.2.2 ∧
      (16 * ((thermCfg s.therm).1 : Int) ≤ hotDie s → t.therm.pt = min 7 (s.therm.pt + 1)) ∧
      (hotDie s < 16 * ((thermCfg s.therm).1 : Int) → s.therm.coolFor = none → t.therm.pt = s.therm.pt) := by
  rw [exec_throttleEvaluation, execThrottleEvaluation, if_neg (by simp [hlife, hopen, hrec])]
  extract_lets s1 pt0 s2 s3
  obtain ⟨h1, hconv, hcool⟩ := evaluated_thermalApply s
  have hhot : hotDie s1 = hotDie s := by
    unfold hotDie
    rw [dieTemp_congr hconv, dieTemp_congr hconv]
  obtain ⟨us, since, h2⟩ := evaluated_throttleStep h1
  obtain ⟨hnext, hthr, hmax, hpt, hfuncs, hcells⟩ := (h2.boostStep (decide (s2.therm.pt ≠ pt0))).planAsk
    (planOf s3.therm (pointInForce s3.therm))
  obtain ⟨-, hthr1, -, hpt1, -, -⟩ := h1
  refine ⟨_, rfl, hnext, hfuncs, hcells, hthr, hmax, fun hge => hpt.trans ?_, fun hlt hnone => hpt.trans ?_⟩
  · rw [ptNext, if_pos (by rw [hthr1]; exact hhot ▸ hge), hpt1]
  · rw [ptNext, if_neg (by rw [hthr1]; exact not_le.2 (hhot ▸ hlt)), hcool, hnone, hpt1]
    have hlong (b : Bool) : heldLong 100000 (heldFor us b none) = false := by cases b <;> rfl
    rw [hlong, Bool.false_and, if_neg Bool.false_ne_true]

/-! ### Rails, PLLs and dividers (R59, R60, R472) -/

theorem moveReady_parts (s : State) : ∃ f, moveReady s = { s with therm := { s.therm with fNext := f } } := by
  unfold moveReady
  split
  · exact ⟨_, rfl⟩
  · split <;> exact ⟨_, rfl⟩

theorem railSettled_settles {p : Nat × Nat} (hm : s.therm.moving = some p) (hr : s.therm.railsUp = false) :
    ∃ t, exec .railSettled s = .next t ∧ t = { s with therm := t.therm } ∧ t.therm.railsUp = true ∧
      (s.therm.switched = true → t.therm.moving = none) ∧ (s.therm.switched = false → t.therm.moving = some p) := by
  rw [exec_railSettled, execRailSettled, if_neg (by simp [hm, hr])]
  obtain ⟨f, hf⟩ := moveReady_parts (thMod (fun x => { x with railsUp := true }) s)
  cases hsw : s.therm.switched
  · refine ⟨_, congrArg Host.Outcome.next (if_neg (by simp [thMod, hsw])), ?_, ?_, nofun, fun _ => ?_⟩ <;> rw [hf]
    · rfl
    · rfl
    · exact hm
  · exact ⟨_, congrArg Host.Outcome.next (if_pos hsw), rfl, rfl, fun _ => rfl, nofun⟩

/-- A PLL that locks lets the later ones start, and changes no function and no memory (R59). -/
theorem pllLock_locks (hlen : s.clk.plls.length = 17) (p : Fin 17) (hlife : s.power.life = .up)
    (hst : (s.clk.plls.getD p.val {}).started = true) (hlk : (s.clk.plls.getD p.val {}).locked = false) :
    ∃ t, exec (.pllLockCount p) s = .next t ∧ (t.clk.plls.getD p.val {}).locked = true ∧ t.funcs = s.funcs ∧ t.mem = s.mem ∧
      (p.val = 0 → (t.clk.plls.getD 1 {}).started = true ∧ (t.clk.plls.getD 2 {}).started = true) := by
  rw [exec_pllLockCount, execPllLockCount, if_neg (by simp only [hst, hlk, hlife]; simp)]
  extract_lets c0 s1 lk s2 b0 s3 up
  have hp : p.val < s.clk.plls.length := by rw [hlen]; exact p.isLt
  have h1 : (s1.clk.plls.getD p.val {}).locked = true := by
    simp only [s1, List.getD_eq_getElem?_getD, List.getElem?_set_self hp]
    rfl
  have h2 : (s2.clk.plls.getD p.val {}).locked = true ∧ s2.funcs = s.funcs ∧ s2.mem = s.mem ∧
      (p.val = 0 → (s2.clk.plls.getD 1 {}).started = true ∧ (s2.clk.plls.getD 2 {}).started = true) := by
    by_cases h0 : p.val = 0
    · have hs2 : s2 = pllStart 1 (pllStart 2 s1) := if_pos h0
      rw [hs2]
      refine ⟨?_, rfl, rfl, fun _ => ⟨?_, ?_⟩⟩
      · rw [h0] at h1 ⊢
        simpa [pllStart] using h1
      · simp [pllStart, s1, c0, hlen]
      · simp [pllStart, s1, c0, hlen]
    · have hs2 : s2 = s1 := if_neg h0
      rw [hs2]
      exact ⟨h1, rfl, rfl, fun h => absurd h h0⟩
  clear_value s2
  have h3 : s3.clk = s2.clk ∧ s3.funcs = s2.funcs ∧ s3.mem = s2.mem :=
    holds_ite (P := fun t => t.clk = s2.clk ∧ t.funcs = s2.funcs ∧ t.mem = s2.mem) ⟨rfl, rfl, rfl⟩ ⟨rfl, rfl, rfl⟩
  clear_value s3
  obtain ⟨f, hf⟩ := moveReady_parts (thMod (fun x => { x with pllUp := true }) s3)
  obtain ⟨h3c, h3f, h3m⟩ : (if up then moveReady (thMod (fun x => { x with pllUp := true }) s3) else s3).clk = s2.clk ∧
      (if up then moveReady (thMod (fun x => { x with pllUp := true }) s3) else s3).funcs = s2.funcs ∧
      (if up then moveReady (thMod (fun x => { x with pllUp := true }) s3) else s3).mem = s2.mem := by
    refine holds_ite (P := fun t => t.clk = s2.clk ∧ t.funcs = s2.funcs ∧ t.mem = s2.mem) ?_ h3
    rw [hf]
    exact h3
  exact ⟨_, rfl, h3c ▸ h2.1, h3f.trans h2.2.1, h3m.trans h2.2.2.1, h3c ▸ h2.2.2.2⟩

/-- A domain's divider, its target and whether its source is being switched. -/
def ratioOf (s : State) (d : Nat) : Nat × Nat × Bool :=
  let x := s.clk.domains.getD d {}
  (x.divider, x.target, x.switching)

theorem ratioOf_domMod {f : Domain → Domain} (hf : ∀ x : Domain, (f x).divider = x.divider ∧ (f x).target = x.target ∧
    (f x).switching = x.switching) (e d : Nat) (s : State) : ratioOf (domMod e f s) d = ratioOf s d := by
  unfold ratioOf domMod
  simp only [List.getD_eq_getElem?_getD, List.getElem?_modify]
  cases s.clk.domains[d]? with
  | none => rfl
  | some x =>
    obtain ⟨h1, h2, h3⟩ := hf x
    by_cases he : e = d
    · simp [he, h1, h2, h3]
    · simp [he]

/-- The end of a switch of the tiles' clock leaves dividers, targets, functions and memory (R472). -/
theorem switchDone_ratios (s : State) (d : Nat) :
    ratioOf (switchDone s) d = ratioOf s d ∧ (switchDone s).funcs = s.funcs ∧ (switchDone s).mem = s.mem := by
  unfold switchDone
  cases s.therm.moving with
  | none => exact ⟨rfl, rfl, rfl⟩
  | some p =>
    extract_lets s1
    have h1 : ratioOf s1 d = ratioOf s d ∧ s1.funcs = s.funcs ∧ s1.mem = s.mem :=
      holds_foldl (P := fun t => ratioOf t d = ratioOf s d ∧ t.funcs = s.funcs ∧ t.mem = s.mem) ⟨rfl, rfl, rfl⟩ fun t e ht =>
        ⟨(ratioOf_domMod (f := fun x => { x with mult := none }) (fun _ => ⟨rfl, rfl, rfl⟩) e d t).trans ht.1, ht.2⟩
    exact holds_ite (P := fun t => ratioOf t d = ratioOf s d ∧ t.funcs = s.funcs ∧ t.mem = s.mem) h1 h1

theorem ratiosAnswer_parts (b : Bool) (s : State) :
    (ratiosAnswer b s).clk = s.clk ∧ (ratiosAnswer b s).funcs = s.funcs ∧ (ratiosAnswer b s).mem = s.mem := by
  unfold ratiosAnswer answerAll
  refine holds_ite (P := fun t => t.clk = s.clk ∧ t.funcs = s.funcs ∧ t.mem = s.mem) ?_ ⟨rfl, rfl, rfl⟩
  refine holds_foldl (P := fun t => t.clk = s.clk ∧ t.funcs = s.funcs ∧ t.mem = s.mem) ⟨rfl, rfl, rfl⟩ fun t n ht => ?_
  split
  · refine holds_ite (P := fun t => t.clk = s.clk ∧ t.funcs = s.funcs ∧ t.mem = s.mem) ?_ ht
    rw [complete_clk, complete_funcs, complete_mem]
    exact ht
  · exact ht

/-- The edit that a divider's step makes (R60). -/
def dividerMoved (d : Nat) (s : State) : State :=
  let x := s.clk.domains.getD d {}
  if x.divider < x.target then measureBlur (domMod d (fun x => { x with divider := x.divider + 1 }) s)
  else if x.target < x.divider then measureBlur (domMod d (fun x => { x with divider := x.divider - 1 }) s)
  else if x.switching then domMod d (fun x => { x with switching := false, target := domGoal s d }) s
  else s

theorem domain_domMod {d : Nat} {f : Domain → Domain} (hd : d < s.clk.domains.length) :
    (domMod d f s).clk.domains.getD d {} = f (s.clk.domains.getD d {}) := by
  simp [domMod, hd]

/-- What follows a divider's step changes no divider and no target. -/
theorem dividerStep_tail (d : Fin 18) (s : State) : ∃ t, exec (.dividerStep d) s = .next t ∧
    ratioOf t d.val = ratioOf (dividerMoved d.val s) d.val ∧ t.funcs = s.funcs ∧ t.mem = s.mem ∧ (dividerMoved d.val s = s → t = s) := by
  set s1 := dividerMoved d.val s with hs1
  have hkept : s1.funcs = s.funcs ∧ s1.mem = s.mem :=
    holds_ite (P := fun t => t.funcs = s.funcs ∧ t.mem = s.mem) ⟨rfl, rfl⟩ (holds_ite (P := fun t => t.funcs = s.funcs ∧ t.mem = s.mem)
      ⟨rfl, rfl⟩ (holds_ite (P := fun t => t.funcs = s.funcs ∧ t.mem = s.mem) ⟨rfl, rfl⟩ ⟨rfl, rfl⟩))
  set s2 := if (!rampOver s && rampOver s1) = true then switchDone s1 else s1 with hs2
  have hexec : exec (.dividerStep d) s = .next (ratiosAnswer (ratiosDone s) s2) := rfl
  have h2 : ratioOf s2 d.val = ratioOf s1 d.val ∧ s2.funcs = s1.funcs ∧ s2.mem = s1.mem :=
    holds_ite (P := fun t => ratioOf t d.val = ratioOf s1 d.val ∧ t.funcs = s1.funcs ∧ t.mem = s1.mem) (switchDone_ratios s1 d.val)
      ⟨rfl, rfl, rfl⟩
  obtain ⟨hclk, hfuncs, hmem⟩ := ratiosAnswer_parts (ratiosDone s) s2
  refine ⟨_, hexec, ?_, hfuncs.trans (h2.2.1.trans hkept.1), hmem.trans (h2.2.2.trans hkept.2), fun h => ?_⟩
  · rw [← h2.1, ratioOf, hclk, ← ratioOf]
  · have h2' : s2 = s := by
      rw [hs2, h, if_neg (by simp)]
    rw [h2', ratiosAnswer, if_neg (by simp)]

theorem dividerStep_moves (hlen : s.clk.domains.length = 18) (d : Fin 18) :
    let x := s.clk.domains.getD d.val {}
    ∃ t, exec (.dividerStep d) s = .next t ∧ t.funcs = s.funcs ∧ t.mem = s.mem ∧
      (x.divider < x.target → (t.clk.domains.getD d.val {}).divider = x.divider + 1) ∧
      (x.target < x.divider → (t.clk.domains.getD d.val {}).divider = x.divider - 1) ∧
      (x.divider = x.target → x.switching = true → (t.clk.domains.getD d.val {}).target = domGoal s d.val ∧
        (t.clk.domains.getD d.val {}).switching = false) ∧
      (x.divider = x.target → x.switching = false → t = s) := by
  intro x
  have hd : d.val < s.clk.domains.length := by rw [hlen]; exact d.isLt
  obtain ⟨t, hexec, hratio, hfuncs, hmem, hsame⟩ := dividerStep_tail d s
  obtain ⟨hdiv, htgt, hsw⟩ : (t.clk.domains.getD d.val {}).divider = ((dividerMoved d.val s).clk.domains.getD d.val {}).divider ∧
      (t.clk.domains.getD d.val {}).target = ((dividerMoved d.val s).clk.domains.getD d.val {}).target ∧
      (t.clk.domains.getD d.val {}).switching = ((dividerMoved d.val s).clk.domains.getD d.val {}).switching := by
    simpa only [ratioOf, Prod.mk.injEq] using hratio
  refine ⟨t, hexec, hfuncs, hmem, fun hlt => ?_, fun hgt => ?_, fun heq hon => ?_, fun heq hoff => hsame ?_⟩
  · rw [hdiv, dividerMoved, if_pos hlt]
    exact congrArg Domain.divider (domain_domMod hd)
  · rw [hdiv, dividerMoved, if_neg (by simp only [x] at hgt; omega), if_pos hgt]
    exact congrArg Domain.divider (domain_domMod hd)
  · have hmoved : dividerMoved d.val s = domMod d.val (fun x => { x with switching := false, target := domGoal s d.val }) s := by
      rw [dividerMoved, if_neg (by simp only [x] at heq; omega), if_neg (by simp only [x] at heq; omega), if_pos hon]
    rw [htgt, hsw, hmoved, domain_domMod hd]
    exact ⟨rfl, rfl⟩
  · rw [dividerMoved, if_neg (by simp only [x] at heq; omega), if_neg (by simp only [x] at heq; omega),
      if_neg (by simp only [x] at hoff; rw [hoff]; exact Bool.false_ne_true)]

end

/-- Settles O45. -/
theorem thermalAndClocks : Obligations.ThermalAndClocks := by
  unfold Obligations.ThermalAndClocks
  refine ⟨fun r s hs => ⟨thermalConfig_takes hs, thermalQuery_answers hs, powerQuery_answers hs⟩, fun s hconv hplls hdoms =>
    ⟨temperatureConversion_enters hconv, fun n v h => if_pos h, throttleEvaluation_evaluates, fun h => if_pos (by simp [h]),
      fun p => railSettled_settles, fun h => if_pos (by simp [h]), pllLock_locks hplls, fun p h => if_pos ?_, dividerStep_moves hdoms⟩⟩
  rw [h, Bool.or_true, Bool.true_or]

end Sys2Proof.Machine
end

section
/-! PROOFS. The ledger: its commands (R480, R494 to R498) and a conversion (R476 to R479). -/

namespace Sys2Proof.Machine

section
variable {s t : State} {r : Req} {o : Nat} {acts : List Nat}

/-! ### Tags -/

theorem lcell_congr (h : t.ledger = s.ledger) (job : Word) (n : Nat) : lcell t job n = lcell s job n := by
  rw [lcell, h, lcell]

theorem tagNew_congr (h : t.ledger = s.ledger) (es : List TagEntry) : tagNew t es = tagNew s es := by
  simp only [tagNew, lcell_congr h]

theorem tagShort_congr (h : t.ledger = s.ledger) (es : List TagEntry) : tagShort t es = tagShort s es := by
  have hcells : hostCells t = hostCells s := by rw [hostCells, h, hostCells]
  have hjobs (new : List (Word × Nat)) : tagJobs t new = tagJobs s new := by rw [tagJobs, h, tagJobs]
  unfold tagShort
  dsimp only
  rw [tagNew_congr h, hcells, hjobs, h]

theorem isStandby_rung : isStandby (rung o acts r s) = isStandby s := by
  rw [isStandby, fnLive_rung, rung_pair, isStandby]

/-- A tag is taken on a state that a request has touched as it would be without it. -/
theorem Served.tagTake (h : Served s t) (e : TagEntry) : Served (tagTake e s) (tagTake e t) := by
  have happly : applyAt t e.at_ = applyAt s e.at_ := by
    unfold applyAt strokeLo now
    rw [h.clk]
  refine h.set_ledger ?_
  rw [tagNew_congr h.ledger, h.ledger, happly]
  simp only [tagJobs, h.ledger]

theorem Served.tagAll (h : Served s t) (es : List TagEntry) :
    Served (es.foldl (fun u e => Machine.tagTake e u) s) (es.foldl (fun u e => Machine.tagTake e u) t) := by
  induction es generalizing s t with
  | nil => exact h
  | cons e es ih => exact ih (h.tagTake e)

theorem tagAll_mbs (es : List TagEntry) (s : State) : (es.foldl (fun u e => Machine.tagTake e u) s).mbs = s.mbs :=
  holds_foldl (P := fun u => u.mbs = s.mbs) rfl fun _ _ h => h

/-- The checks of LEDGER_TAG before its entries. -/
theorem ledgerTag_ok (hrun : fnState s fLEDGER = .running) (hst : isStandby s = false) (hres : fld (r.w 2) 1 31 = 0) :
    firstErr [runBad (rung o acts r s) fLEDGER, if isStandby (rung o acts r s) then some (roleR (rung o acts r s)) else none,
      rangeBad [(decide (fld (r.w 2) 1 31 ≠ 0), 2)]] = none := by
  rw [runBad_running (by rw [fnState_rung]; exact hrun), isStandby_rung, hst, hres]
  rfl

/-- Entries that pass their checks are taken in their order (R494). -/
theorem tagAll_rung {es : List TagEntry} {bad : Option Answer} (hbad : bad = none) (hshort : tagShort s es = none) :
    Machine.tagAll es bad (rung o acts r s) = (es.foldl (fun t e => Machine.tagTake e t) (rung o acts r s),
      okR [w32 (applyAt s ((es.getLast?.map (·.at_)).getD 0))]) := by
  refine (guardE_none ?_).trans ?_
  · rw [hbad, tagShort_congr (rung_ledger ..), hshort]
    rfl
  · dsimp only
    rw [applyAt_rung]

section
variable (hs : Ready s) (hh : High r 4) (hrun : fnState s fLEDGER = .running) (hst : isStandby s = false) (hres : fld (r.w 2) 1 31 = 0)
include hs hh hrun hst hres

theorem ledgerTag_inline {desc : HostRead} (hbit : bit (r.w 2) 0 = false)
    (hbad : tagEntryBad { mask := r.w 3, job := r.w 4, at_ := r.w 5, zero := 0 } 3 4 5 = none)
    (hshort : tagShort s [{ mask := r.w 3, job := r.w 4, at_ := r.w 5, zero := 0 }] = none) :
    Does (.ledgerTag r desc) r s (Machine.tagTake { mask := r.w 3, job := r.w 4, at_ := r.w 5, zero := 0 } s) [w32 (applyAt s (r.w 5))] := by
  rw [Does, exec_ledgerTag, execLedgerTag]
  refine does_of hs (taken_high hh rfl rfl rfl (by decide))
    ((guardE_none (ledgerTag_ok hrun hst hres)).trans ?_) (tagAll_mbs [{ mask := r.w 3, job := r.w 4, at_ := r.w 5, zero := 0 }] _)
    ((served_rung ..).tagAll [{ mask := r.w 3, job := r.w 4, at_ := r.w 5, zero := 0 }])
  rw [if_neg (by simp [hbit])]
  exact tagAll_rung hbad hshort

theorem ledgerTag_host {desc : HostRead} {ws : List Word} (hbit : bit (r.w 2) 0 = true)
    (hread : descRead (wide (r.w 3) (r.w 4)) (r.w 5).toNat 3 desc = .ok ws)
    (hbad : (tagEntries ws).findSome? (fun e => tagEntryBad e 3 4 5) = none) (hshort : tagShort s (tagEntries ws) = none) :
    Does (.ledgerTag r desc) r s ((tagEntries ws).foldl (fun t e => Machine.tagTake e t) s)
      [w32 (applyAt s (((tagEntries ws).getLast?.map (·.at_)).getD 0))] := by
  rw [Does, exec_ledgerTag, execLedgerTag]
  refine does_of hs (taken_high hh rfl rfl rfl (by decide))
    ((guardE_none (ledgerTag_ok hrun hst hres)).trans ?_) (tagAll_mbs (tagEntries ws) _) ((served_rung ..).tagAll (tagEntries ws))
  rw [if_pos hbit, hread]
  exact tagAll_rung hbad hshort

end

/-! ### The other commands -/

theorem ledgerReadWords_rung (job : Word) (ints : Bool) :
    ledgerReadWords (rung o acts r s) job ints = ledgerReadWords s job ints := by
  obtain ⟨_, _, _, _, _, _, _, _, _, _, h⟩ := rung_parts o acts r s
  rw [h]
  rfl

theorem jobKnown_rung (job : Word) : jobKnown (rung o acts r s) job = jobKnown s job := by rw [jobKnown, rung_ledger, jobKnown]

theorem ledgerRead_answers (hs : Ready s) (hh : High r 2) (hon : fnState s fLEDGER ≠ .off) (hjob : jobKnown s (r.w 2) = true)
    (hres : fld (r.w 3) 1 31 = 0) : Asks (.ledgerRead r) r s (ledgerReadWords s (r.w 2) (bit (r.w 3) 0)) := by
  rw [Asks, exec_ledgerRead, execLedgerRead]
  refine asks_of hs (taken_high hh rfl rfl rfl (by decide)) ?_
  dsimp only
  rw [fnState_rung, if_neg hon, jobKnown_rung, hjob, hres, ledgerReadWords_rung]
  rfl

theorem ledgerCloseBad_rung (job : Word) : ledgerCloseBad (rung o acts r s) job = ledgerCloseBad s job := by
  obtain ⟨_, _, _, _, _, _, _, _, _, _, h⟩ := rung_parts o acts r s
  rw [h]
  rfl

/-- What closing a job makes of the ledger (R496). -/
def closeLedger (job : Word) (l : Ledger) : Ledger := (jobClose job { ledger := l }).ledger

theorem jobClose_parts (job : Word) (u : State) : jobClose job u = { u with ledger := closeLedger job u.ledger } := by
  unfold closeLedger jobClose
  cases isReserved job <;> rfl

/-- LEDGER_CLOSE answers a job's cells, and removes or zeroes them (R496). -/
theorem ledgerClose_closes (hs : Ready s) (hh : High r 1) (hbad : ledgerCloseBad s (r.w 2) = none) :
    Does (.ledgerClose r) r s { jobClose (r.w 2) s with
      pair := { (jobClose (r.w 2) s).pair with mirrorCloses := (jobClose (r.w 2) s).pair.mirrorCloses ++ [r.w 2] } }
      (ledgerReadWords s (r.w 2) true) := by
  rw [Does, exec_ledgerClose, execLedgerClose]
  refine does_of hs (taken_high hh rfl rfl rfl (by decide)) (b := { rung 0x0907 [fLEDGER] r s with
      ledger := closeLedger (r.w 2) (rung 0x0907 [fLEDGER] r s).ledger
      pair := { (rung 0x0907 [fLEDGER] r s).pair with mirrorCloses := (rung 0x0907 [fLEDGER] r s).pair.mirrorCloses ++ [r.w 2] } })
    ((guardE_none ((ledgerCloseBad_rung _).trans hbad)).trans ?_) rfl ?_
  · dsimp only
    rw [jobClose_parts, ledgerReadWords_rung]
  · rw [jobClose_parts (r.w 2) s]
    have hledger : Served { s with ledger := closeLedger (r.w 2) s.ledger }
        { rung 0x0907 [fLEDGER] r s with ledger := closeLedger (r.w 2) (rung 0x0907 [fLEDGER] r s).ledger } :=
      (served_rung ..).set_ledger (by rw [rung_ledger])
    exact hledger.set_pair (by rw [rung_pair])

/-- A closed job of the host's is known no more (R496). -/
theorem jobKnown_jobClose {job : Word} (h : isReserved job = false) : jobKnown (jobClose job s) job = false := by
  rw [jobClose, if_neg (by simp [h])]
  simp [jobKnown, ldMod]

theorem ledgerQuery_answers (hs : Ready s) (hh : High r 0) :
    Asks (.ledgerQuery r) r s ([w32 (fnState s fLEDGER).num, packW [(s.ledger.jobs.length, 16), (4096 - hostCells s, 0)], w32 s.ledger.lost,
      lo32 s.ledger.lastAdded.toNat, hi32 s.ledger.lastAdded.toNat] ++ fit 24 0 s.ledger.tags) := by
  rw [Asks, exec_ledgerQuery, execLedgerQuery]
  refine asks_of hs (taken_high hh rfl rfl rfl (by decide)) ?_
  simp only [fnState_rung, hostCells, rung_ledger]

/-- The ledger that JOB_ENERGY_QUERY leaves (R498). -/
def energyTaken (r : Req) (e : JobEnergy) (l : Ledger) : Ledger :=
  let l := if e.job = 0 then { l with overflow := 0, ovfArmed := true } else l
  if bit (r.w 3) 0 then { l with energy := l.energy.filter fun x => x.job ≠ r.w 2 } else l

theorem jobEnergyQuery_answers {e : JobEnergy} (hs : Ready s) (hh : High r 2)
    (he : s.ledger.energy.find? (fun e => e.job = r.w 2) = some e) (hres : fld (r.w 3) 1 31 = 0) :
    Does (.jobEnergyQuery r) r s { s with ledger := energyTaken r e s.ledger } (jobEnergyWords s e) := by
  rw [Does, exec_jobEnergyQuery, execJobEnergyQuery]
  refine does_of hs (taken_high hh rfl rfl rfl (by decide)) (b := { rung 0x0909 [] r s with
      ledger := energyTaken r e (rung 0x0909 [] r s).ledger }) ?_ rfl ((served_rung ..).set_ledger (by rw [rung_ledger]))
  have he' : (rung 0x0909 [] r s).ledger.energy.find? (fun e => e.job = r.w 2) = some e := by
    rw [rung_ledger]
    exact he
  rw [he']
  dsimp only
  rw [if_neg (not_not.2 hres)]
  refine Prod.ext ?_ ?_
  · unfold energyTaken
    dsimp only
    split_ifs <;> rfl
  · simp only [jobEnergyWords, rung_ledger]

end

/-- A conversion of the converter-control dies (R476 to R479). -/
theorem ledgerConversion_adds {vbus : BitVec 16} {iout : List (BitVec 16)} {ov : List Bool} {vbusOver : Bool} {s : State}
    (hclk : loopClock s = true) (hlt : s.ledger.convTick < s.clk.strokeDiv) :
    let full (beyond : Bool) (c : BitVec 16) : Int := if beyond then (if c.toInt < 0 then -32768 else 32767) else c.toInt
    ∃ t, exec (.ledgerConversion vbus iout ov vbusOver) s = .next t ∧
      t = { s with ledger := t.ledger, diag := { s.diag with overRange := t.diag.overRange } } ∧
      t.ledger = { s.ledger with sums := t.ledger.sums, convTick := s.ledger.convTick + 100 } ∧
      t.ledger.sums.length = s.ledger.sums.length ∧
      ∀ (n : Nat) (x : OutSum), s.ledger.sums[n]? = some x →
        t.ledger.sums[n]? = some (outAdd (min 100 (s.clk.strokeDiv - s.ledger.convTick)) (full vbusOver vbus)
          (full (ov.getD n false) (iout.getD n 0)) (ov.getD n false || vbusOver) x) := by
  intro full
  refine ⟨_, if_neg (by simp [hclk, hlt]), rfl, rfl, ?_, fun n x hx => ?_⟩
  · simp [ldMod]
  · simp [ldMod, hx, full]

/-- Settles O46. -/
theorem ledger : Obligations.Ledger := by
  unfold Obligations.Ledger
  refine ⟨fun r s hs => ⟨fun desc hh hrun hst hres hbit => ledgerTag_inline hs hh hrun hst hres hbit,
    fun desc ws hh hrun hst hres hbit hread => ledgerTag_host hs hh hrun hst hres hbit hread, ledgerRead_answers hs,
    fun hh hbad => ⟨ledgerClose_closes hs hh hbad, jobKnown_jobClose⟩, ledgerQuery_answers hs, fun e hh he hres => ?_⟩,
    fun vbus iout ov vbusOver s => ⟨ledgerConversion_adds, fun h => if_pos ?_⟩⟩
  · have hdoes := jobEnergyQuery_answers hs hh he hres
    refine ⟨fun hne => ?_, fun h0 => ?_⟩
    · rw [energyTaken, if_neg hne] at hdoes
      cases hb : bit (r.w 3) 0 <;> rw [hb] at hdoes <;> exact hdoes
    · rw [energyTaken, if_pos h0] at hdoes
      cases hb : bit (r.w 3) 0 <;> rw [hb] at hdoes <;> exact hdoes
  · rcases h with h | h
    · simp [h]
    · simp [h]

end Sys2Proof.Machine
end

section
/-! PROOFS. PAIR_CONFIG, PAIR_QUERY and PAIR_HANDOVER (R527 to R529). -/

namespace Sys2Proof.Machine

section
variable {s : State} {r : Req} {o : Nat} {acts : List Nat}

/-- The operands of PAIR_CONFIG are in range (R527). -/
def PairOperands (r : Req) : Prop :=
  fld (r.w 2) 7 5 = 0 ∧ (1 ≤ fld (r.w 2) 16 16 ∧ fld (r.w 2) 16 16 ≤ 1000) ∧ 2 ≤ fld (r.w 2) 12 4 ∧
    (1 ≤ fld (r.w 2) 0 7 ∧ fld (r.w 2) 0 7 ≤ 64) ∧ fld (r.w 3) 1 31 = 0 ∧ (1 ≤ (r.w 4).toNat ∧ (r.w 4).toNat ≤ 1000000) ∧
    (r.w 5).toNat ≤ 1000000

/-- The fields that PAIR_CONFIG's operands give (R527). -/
def pairCfgOf (r : Req) : PairCfg :=
  { tRelease := fld (r.w 2) 16 16, hbMiss := fld (r.w 2) 12 4, hbPeriod := fld (r.w 2) 0 7,
    autoStart := bit (r.w 3) 0, holdStrokes := (r.w 4).toNat, ramp := (r.w 5).toNat }

theorem pairConfig_takes (hs : Ready s) (hl : Low r 4) (hst : fnState s fPAIR = .stopped) (hop : PairOperands r) :
    Does (.pairConfig r) r s { s with pair := { s.pair with cfg := pairCfgOf r } } [] := by
  obtain ⟨hres, ⟨ht, ht'⟩, hm, ⟨hp, hp'⟩, hres', ⟨hh, hh'⟩, hr⟩ := hop
  rw [Does, exec_pairConfig, execPairConfig]
  refine does_of hs (taken_low hl rfl rfl rfl (by decide)) (b := { rung 0x0A01 [fPAIR] r s with
      pair := { (rung 0x0A01 [fPAIR] r s).pair with cfg := pairCfgOf r } })
    ((guardE_none ?_).trans rfl) rfl ((served_rung ..).set_pair (by rw [rung_pair]))
  have h1 : ¬(fld (r.w 2) 16 16 < 1 ∨ 1000 < fld (r.w 2) 16 16) := by omega
  have h2 : ¬(fld (r.w 2) 0 7 < 1 ∨ 64 < fld (r.w 2) 0 7) := by omega
  have h3 : ¬((r.w 4).toNat < 1 ∨ 1000000 < (r.w 4).toNat) := by omega
  rw [cfgBad_stopped hst]
  simp only [hres, hres', h1, h2, h3, Nat.not_lt.2 hm, Nat.not_lt.2 hr]
  rfl

/-- The doorbell ends a host loss (R162). -/
theorem rung_hostLoss : (rung o acts r s).link.hostLoss = false := by
  change (hostLossEnd (mbPost o r s)).link.hostLoss = false
  unfold hostLossEnd
  split
  · dsimp only
    rw [emit_link]
  · next h => simpa using h

theorem pairWords_rung : pairWords (rung o acts r s) = pairWords { s with link := { s.link with hostLoss := false } } := by
  have hloss := rung_hostLoss (s := s) (r := r) (o := o) (acts := acts)
  obtain ⟨_, _, _, _, loss, _, _, _, _, _, h⟩ := rung_parts o acts r s
  rw [h] at hloss ⊢
  subst hloss
  rfl

theorem pairQuery_answers (hs : Ready s) (hl : Low r 0) :
    Asks (.pairQuery r) r s (pairWords { s with link := { s.link with hostLoss := false } }) := by
  rw [Asks, exec_pairQuery, execPairQuery]
  exact asks_of hs (taken_low hl rfl rfl rfl (by decide)) (congrArg okR pairWords_rung)

theorem pairHandoverBad_rung : pairHandoverBad (rung o acts r s) = pairHandoverBad s := by
  obtain ⟨_, _, _, _, _, _, _, _, _, _, h⟩ := rung_parts o acts r s
  rw [h]
  rfl

/-- What the checks of PAIR_HANDOVER leave: the module is ACTIVE and in current mode (R529). -/
theorem pairHandover_state (h : pairHandoverBad s = none) : s.pair.pstate = .active ∧ s.stage.modeV = false := by
  unfold pairHandoverBad at h
  cases hrun : runBad s fPAIR with
  | some a => rw [hrun] at h; exact nomatch h
  | none =>
    by_cases hp : s.pair.pstate = .active
    · cases hr : partnerReady s
      · rw [hrun, if_pos hp, hr] at h
        exact nomatch h
      · cases hv : s.stage.modeV
        · exact ⟨hp, rfl⟩
        · rw [hrun, if_pos hp, hr, hv] at h
          exact nomatch h
    · rw [hrun, if_neg hp] at h
      exact nomatch h

/-- In current mode a handover opens the loop, and notes who has asked for it (R528). -/
theorem handoverOpen_parts (hv : s.stage.modeV = false) (cmd hands : Bool) : handoverOpen cmd hands s = { s with
    stage := (loopOpening s).stage, pair := { s.pair with handover := .opening cmd hands s.clk.stroke } } := by
  unfold handoverOpen
  rw [hv, if_neg Bool.false_ne_true, loopOpening_parts s]
  rfl

theorem pairHandover_waits (hs : Ready s) (hl : Low r 0) (hbad : pairHandoverBad s = none) :
    Awaits (.pairHandover r) r s (handoverOpen true true s) .handover ∧
      (handoverOpen true true s).pair.handover = .opening true true s.clk.stroke ∧ (handoverOpen true true s).pair.pstate = .active := by
  obtain ⟨hp, hv⟩ := pairHandover_state hbad
  refine ⟨?_, by rw [handoverOpen_parts hv], by rw [handoverOpen_parts hv]; exact hp⟩
  rw [Awaits, exec_pairHandover, execPairHandover]
  refine awaits_of hs (taken_low hl rfl rfl rfl (by decide)) (b := handoverOpen true true (rung 0x0A03 [fPAIR] r s))
    (guardE_none (pairHandoverBad_rung.trans hbad)) (handoverOpen_mbs ..) ?_
  rw [handoverOpen_parts hv, handoverOpen_parts (by rw [rung_stage]; exact hv)]
  have hstage : Served { s with stage := (loopOpening s).stage }
      { rung 0x0A03 [fPAIR] r s with stage := (loopOpening (rung 0x0A03 [fPAIR] r s)).stage } := (served_rung ..).set_stage loopOpening_stage
  exact hstage.set_pair (by rw [rung_pair, rung_clk])

end

/-- Settles O47. -/
theorem pairCommands : Obligations.PairCommands := by
  unfold Obligations.PairCommands
  exact fun r s hs => ⟨fun hl hst hres ht ht' hm hp hp' hres' hh hh' hr =>
    pairConfig_takes hs hl hst ⟨hres, ⟨ht, ht'⟩, hm, ⟨hp, hp'⟩, hres', ⟨hh, hh'⟩, hr⟩, pairQuery_answers hs, pairHandover_waits hs⟩

end Sys2Proof.Machine
end

section
/-! PROOFS. The events of the pair: the grant, beats, silence, the token veto and the reclaim (R39, R378, R504 to R513). -/

namespace Sys2Proof.Machine

section
variable {s t u : State}

/-! ### What the steps of a change of role leave as it was -/

@[simp] theorem pairRecord_pair (sev code : Nat) (d : Word) (s : State) : (pairRecord sev code d s).pair = s.pair := emit_pair ..
@[simp] theorem pairRecord_clk (sev code : Nat) (d : Word) (s : State) : (pairRecord sev code d s).clk = s.clk := emit_clk ..
@[simp] theorem pairRecord_funcs (sev code : Nat) (d : Word) (s : State) : (pairRecord sev code d s).funcs = s.funcs := emit_funcs ..

theorem stageGrantLost_parts (s : State) : (stageGrantLost s).pair = s.pair ∧ (stageGrantLost s).stage.parked = true ∧
    (stageGrantLost s).stage.oring = false := by
  unfold stageGrantLost
  extract_lets l u
  split
  · unfold stageStopped
    refine holds_ite (P := fun t => t.pair = s.pair ∧ t.stage.parked = true ∧ t.stage.oring = false) ?_ ?_
    · rw [answer_pair, answer_pair, answer_stage, answer_stage, fnSet_pair, fnSet_stage]
      exact ⟨(emit_pair ..).trans rfl, rfl, rfl⟩
    · rw [stRecord, emit_pair, emit_stage]
      exact ⟨rfl, rfl, rfl⟩
  · exact ⟨rfl, rfl, rfl⟩

theorem disqualify_parts (n reason : Nat) (s : State) : (disqualify n reason s).pair = s.pair ∧ (disqualify n reason s).stage = s.stage ∧
    (disqualify n reason s).est.anchor = s.est.anchor ∧ (disqualify n reason s).clk = s.clk := by
  unfold disqualify
  refine holds_ite (P := fun t => t.pair = s.pair ∧ t.stage = s.stage ∧ t.est.anchor = s.est.anchor ∧ t.clk = s.clk) ?_ ⟨rfl, rfl, rfl, rfl⟩
  rw [estRecord, emit_pair, emit_stage, emit_est, emit_clk]
  exact ⟨rfl, rfl, rfl, rfl⟩

theorem estRoleChange_parts (s : State) : (estRoleChange s).pair = s.pair ∧ (estRoleChange s).stage = s.stage ∧
    (estRoleChange s).est.anchor = s.est.anchor ∧ (estRoleChange s).clk = s.clk := by
  unfold estRoleChange disqualifyAll
  refine holds_ite (P := fun t => t.pair = s.pair ∧ t.stage = s.stage ∧ t.est.anchor = s.est.anchor ∧ t.clk = s.clk) ?_ ⟨rfl, rfl, rfl, rfl⟩
  refine holds_foldl (P := fun t => t.pair = s.pair ∧ t.stage = s.stage ∧ t.est.anchor = s.est.anchor ∧ t.clk = s.clk) ⟨rfl, rfl, rfl, rfl⟩
    fun t n ht => ?_
  obtain ⟨h1, h2, h3, h4⟩ := disqualify_parts n 5 t
  exact ⟨h1.trans ht.1, h2.trans ht.2.1, h3.trans ht.2.2.1, h4.trans ht.2.2.2⟩

theorem chainGrantLost_parts (b : Bool) (s : State) :
    (chainGrantLost b s).pair = s.pair ∧ (chainGrantLost b s).stage = s.stage := by
  have hmod (f : Chain → Chain) (v : State) : (chMod b f v).pair = v.pair ∧ (chMod b f v).stage = v.stage := by cases b <;> exact ⟨rfl, rfl⟩
  unfold chainGrantLost
  extract_lets f stop s1
  have h1 : s1.pair = s.pair ∧ s1.stage = s.stage := hmod _ s
  refine holds_ite (P := fun t => t.pair = s.pair ∧ t.stage = s.stage) ?_ (holds_ite (P := fun t => t.pair = s.pair ∧ t.stage = s.stage) ?_ h1)
  · rw [answer_pair, answer_stage, fnSet_pair, fnSet_stage, (hmod _ s1).1, (hmod _ s1).2]
    exact h1
  · unfold chStopped
    rw [answer_pair, answer_stage, fnSet_pair, fnSet_stage, chPhase, (hmod _ s1).1, (hmod _ s1).2]
    exact h1

theorem refSelect_pair (s : State) : (refSelect s).pair = s.pair := by
  unfold refSelect
  split
  · unfold refSwitch
    exact holds_ite (P := fun t => t.pair = s.pair) rfl (emit_pair ..)
  · rfl

theorem grantRecord_keeps (rise : Bool) (s : State) : (grantRecord rise s).pair = s.pair ∧ (grantRecord rise s).funcs = s.funcs := by
  have hrec (a b : Nat) (w : Word) : (pairRecord a b w s).pair = s.pair ∧ (pairRecord a b w s).funcs = s.funcs := ⟨by simp, by simp⟩
  unfold grantRecord
  split_ifs <;> first | exact ⟨rfl, rfl⟩ | exact hrec ..

theorem grantVector_keeps (s : State) : (grantVector s).pair = s.pair ∧ (grantVector s).funcs = s.funcs :=
  holds_ite (P := fun t => t.pair = s.pair ∧ t.funcs = s.funcs) ⟨msixDue_pair .., msixDue_funcs ..⟩ ⟨rfl, rfl⟩

/-! ### The grant (R39, R378) -/

theorem holdEnd_ends (taken : Bool) (s : State) : (holdEnd taken s).est.anchor = false ∧ (holdEnd taken s).pair = s.pair ∧
    (holdEnd taken s).stage = s.stage := by
  unfold holdEnd
  by_cases h : (s.est.anchorReq || s.est.anchor) = true
  · rw [if_pos h, estRecord_est, estRecord, emit_pair, emit_stage]
    exact ⟨rfl, rfl, rfl⟩
  · rw [if_neg h]
    simp only [Bool.or_eq_true, not_or, Bool.not_eq_true] at h
    exact ⟨h.2, rfl, rfl⟩

theorem grantLost_parks (hg : s.pair.gnt = true) : ∃ t, exec .grantLost s = .next t ∧ t.pair.gnt = false ∧ t.pair.gntBeats = 0 ∧
    t.stage.parked = true ∧ t.stage.oring = false ∧ t.est.anchor = false := by
  rw [exec_grantLost, execGrantLost, if_neg (by simp [hg])]
  extract_lets v
  obtain ⟨hpair, -⟩ := grantRecord_keeps false (grantVector (pairMod (fun p => { p with gnt := false, gntBeats := 0, unusedRec := false }) s))
  have hv : v.pair.gnt = false ∧ v.pair.gntBeats = 0 := by
    rw [show v.pair = _ from hpair, (grantVector_keeps _).1]
    exact ⟨rfl, rfl⟩
  clear_value v
  obtain ⟨hp1, hpark, horing⟩ := stageGrantLost_parts v
  obtain ⟨hp2, hs2⟩ := chainGrantLost_parts false (stageGrantLost v)
  obtain ⟨hp3, hs3⟩ := chainGrantLost_parts true (chainGrantLost false (stageGrantLost v))
  obtain ⟨ha, hp4, hs4⟩ := holdEnd_ends false (chainGrantLost true (chainGrantLost false (stageGrantLost v)))
  obtain ⟨hp5, hs5, he5, -⟩ := estRoleChange_parts (holdEnd false (chainGrantLost true (chainGrantLost false (stageGrantLost v))))
  refine ⟨_, rfl, ?_, ?_, ?_, ?_, he5.trans ha⟩
  · rw [hp5, hp4, hp3, hp2, hp1]; exact hv.1
  · rw [hp5, hp4, hp3, hp2, hp1]; exact hv.2
  · rw [hs5, hs4, hs3, hs2]; exact hpark
  · rw [hs5, hs4, hs3, hs2]; exact horing

theorem chainGrantRise_keeps (b : Bool) (s : State) : (chainGrantRise b s).pair = s.pair ∧ (chainGrantRise b s).funcs = s.funcs := by
  unfold chainGrantRise
  refine holds_ite (P := fun t => t.pair = s.pair ∧ t.funcs = s.funcs) ?_ ⟨rfl, rfl⟩
  have hmod (f : Chain → Chain) (v : State) : (chMod b f v).pair = v.pair ∧ (chMod b f v).funcs = v.funcs := by cases b <;> exact ⟨rfl, rfl⟩
  unfold bringUp chPhase chSend
  simp only [hmod, and_self]

theorem grantRise_notes (hg : s.pair.gnt = false) (hlife : s.power.life = .up) :
    ∃ t, exec .grantRise s = .next t ∧ t.pair.gnt = true ∧ t.pair.gntBeats = 0 ∧ t.funcs = s.funcs := by
  rw [exec_grantRise, execGrantRise, if_neg (by simp [hg]), if_neg (not_not.2 hlife)]
  extract_lets v
  obtain ⟨hpair, hfuncs⟩ := grantRecord_keeps true (grantVector (pairMod (fun p => { p with gnt := true, gntBeats := 0 }) s))
  have hv : v.pair.gnt = true ∧ v.pair.gntBeats = 0 ∧ v.funcs = s.funcs := by
    rw [show v.pair = _ from hpair, show v.funcs = _ from hfuncs, (grantVector_keeps _).1, (grantVector_keeps _).2]
    exact ⟨rfl, rfl, rfl⟩
  clear_value v
  obtain ⟨hp1, hf1⟩ := chainGrantRise_keeps false v
  obtain ⟨hp2, hf2⟩ := chainGrantRise_keeps true (chainGrantRise false v)
  refine ⟨_, rfl, ?_, ?_, ?_⟩
  · rw [(estRoleChange_parts _).1, hp2, hp1]; exact hv.1
  · rw [(estRoleChange_parts _).1, hp2, hp1]; exact hv.2.1
  · rw [estRoleChange_funcs, hf2, hf1]; exact hv.2.2

/-! ### Beats (R504, R506) -/

/-- What the pair knows of its partner's beats. -/
def beatPart (p : Pair) : Option Line × Nat × (Option Nat × Bool) × (Option Nat × Bool) :=
  (p.beat, p.beatAge, (p.sinceHb, p.silentHb), (p.sinceRope, p.silentRope))

theorem giveUp_beat (x : PState) (s : State) : beatPart (giveUp x s).pair = beatPart s.pair := by
  unfold giveUp
  extract_lets was v
  have hv : beatPart v.pair = beatPart s.pair := by
    unfold v pairLeave
    refine holds_ite (P := fun t => beatPart t.pair = beatPart s.pair) rfl (holds_ite (P := fun t => beatPart t.pair = beatPart s.pair) ?_ rfl)
    rw [msixDue_pair, emit_pair]
    rfl
  refine holds_ite (P := fun t => beatPart t.pair = beatPart s.pair) ?_ hv
  rw [refSelect_pair, (estRoleChange_parts _).1, (stageGrantLost_parts _).1]
  exact hv

theorem pairStopped_beat (s : State) : beatPart (pairStopped s).pair = beatPart s.pair := by
  unfold pairStopped
  extract_lets v
  rw [answer_pair]
  refine Eq.trans ?_ (giveUp_beat .standby s)
  show beatPart v.pair = _
  unfold v reqUpdate pairMod
  dsimp only
  rw [fnSet_pair]
  rfl

theorem handoverSeen_beat (b : Line) (s : State) : beatPart (handoverSeen b s).pair = beatPart s.pair := by
  unfold handoverSeen
  split
  · refine holds_ite (P := fun t => beatPart t.pair = beatPart s.pair) rfl ?_
    extract_lets v w
    have hw : beatPart w.pair = beatPart s.pair := holds_ite (P := fun t => beatPart t.pair = beatPart s.pair) ((giveUp_beat ..).trans rfl) rfl
    refine holds_ite (P := fun t => beatPart t.pair = beatPart s.pair) ?_ ((pairStopped_beat w).trans hw)
    rw [answer_pair]
    exact hw
  · rfl

theorem mismatchStep_beat (b : Line) (s : State) : beatPart (mismatchStep b s).pair = beatPart s.pair := by
  unfold mismatchStep
  extract_lets d rec_ v w
  have hrec (r : Bool) (t : State) (ht : beatPart t.pair = beatPart s.pair) : beatPart (rec_ r t).pair = beatPart s.pair := by
    rw [show (rec_ r t).pair = t.pair from pairRecord_pair ..]
    exact ht
  have hw : beatPart w.pair = beatPart s.pair := holds_ite (P := fun t => beatPart t.pair = beatPart s.pair) (hrec _ _ rfl) rfl
  exact holds_ite (P := fun t => beatPart t.pair = beatPart s.pair) (hrec _ _ hw) hw

theorem pathSet_hb (b : Bool) (s : State) : pathSet .hb b s = if s.pair.silentHb = b then s else
    pairRecord 2 0x0A03 (packW [(b2n false, 8), (b2n b, 0)]) (pairMod (fun p => { p with silentHb := b, alarmHb := b }) s) := rfl

theorem pathSet_rope (b : Bool) (s : State) : pathSet .rope b s = if s.pair.silentRope = b then s else
    pairRecord 2 0x0A03 (packW [(b2n true, 8), (b2n b, 0)]) (pairMod (fun p => { p with silentRope := b, alarmRope := b }) s) := rfl

/-- A path whose silence is set reads so, and the rest that the pair knows of beats stays (R506). -/
theorem pathSet_beat (path : HbPath) (b : Bool) (s : State) : beatPart (pathSet path b s).pair =
    beatPart (if path = .hb then { s.pair with silentHb := b } else { s.pair with silentRope := b }) := by
  cases path with
  | hb =>
    rw [pathSet_hb]
    by_cases h : s.pair.silentHb = b
    · rw [if_pos h, ← h]
      rfl
    · rw [if_neg h, pairRecord_pair]
      rfl
  | rope =>
    rw [pathSet_rope]
    by_cases h : s.pair.silentRope = b
    · rw [if_pos h, ← h]
      rfl
    · rw [if_neg h, pairRecord_pair]
      rfl

theorem pathSet_clk (path : HbPath) (b : Bool) (s : State) : (pathSet path b s).clk = s.clk ∧ (pathSet path b s).funcs = s.funcs ∧
    (pathSet path b s).mem.cells = s.mem.cells := by
  unfold pathSet
  extract_lets rope was v
  refine holds_ite (P := fun t => t.clk = s.clk ∧ t.funcs = s.funcs ∧ t.mem.cells = s.mem.cells) ⟨rfl, rfl, rfl⟩ ?_
  obtain ⟨_, _, _, he⟩ := emit_parts (s := v) 2 fPAIR 0x0A03 [strokeLo v, packW [(b2n rope, 8), (b2n b, 0)]]
  rw [pairRecord, he]
  exact ⟨rfl, rfl, rfl⟩

theorem beatReceived_kept {path : HbPath} {ws : Line} {crc : Bool} (hlife : s.power.life = .up) (hopen : pathOpen s path = true)
    (hok : beatOk s path ws crc = true) :
    ∃ t, exec (.beatReceived path ws crc) s = .next t ∧ t.pair.beat = some ws ∧ t.pair.beatAge = 0 ∧
      (path = .hb → t.pair.sinceHb = some 0 ∧ t.pair.silentHb = false) ∧
      (path = .rope → t.pair.sinceRope = some 0 ∧ t.pair.silentRope = false) := by
  rw [exec_beatReceived, execBeatReceived, if_neg (by simp [hlife, hopen]), if_neg (by simp [hok])]
  have hbeat : beatPart (handoverSeen ws (mismatchStep ws (pathSet path false (beatNote path ws s)))).pair =
      beatPart (if path = .hb then { (beatNote path ws s).pair with silentHb := false }
        else { (beatNote path ws s).pair with silentRope := false }) := by
    rw [handoverSeen_beat, mismatchStep_beat, pathSet_beat]
  set t := handoverSeen ws (mismatchStep ws (pathSet path false (beatNote path ws s)))
  refine ⟨t, rfl, ?_⟩
  cases path with
  | hb =>
    simp only [beatPart, Prod.mk.injEq] at hbeat
    obtain ⟨h1, h2, ⟨h3, h4⟩, -⟩ := hbeat
    exact ⟨h1, h2, fun _ => ⟨h3, h4⟩, nofun⟩
  | rope =>
    simp only [beatPart, Prod.mk.injEq] at hbeat
    obtain ⟨h1, h2, -, h3, h4⟩ := hbeat
    exact ⟨h1, h2, nofun, fun _ => ⟨h3, h4⟩⟩

end

end Sys2Proof.Machine
end

section
/-! PROOFS. A silent path, the token veto and the reclaim after a handover that no partner takes (R506, R508, R513). -/

namespace Sys2Proof.Machine

section
variable {s t u : State} {w w' : Waiting}

/-- A bad beat is counted; on a rope also as a line that has failed its CRC (R319, R504). -/
theorem beatReceived_bad {path : HbPath} {ws : Line} {crc : Bool} (hlife : s.power.life = .up) (hopen : pathOpen s path = true)
    (hbad : beatOk s path ws crc = false) :
    let u := if crc = true ∨ path = .hb then s else crcFail (partnerPort s) 1 s
    exec (.beatReceived path ws crc) s = .next { u with pair := { s.pair with bad := satAdd (2 ^ 32 - 1) s.pair.bad 1 } } := by
  intro u
  have hu : u.pair = s.pair := holds_ite (P := fun t => t.pair = s.pair) rfl rfl
  have h1 : ¬(decide (s.power.life ≠ .up) || !pathOpen s path) = true := by simp [hlife, hopen]
  have h2 : (!beatOk s path ws crc) = true := by simp [hbad]
  rw [exec_beatReceived, execBeatReceived, if_neg h1, if_pos h2, ← hu]
  rfl

theorem pathSilent_hb (hlife : s.power.life = .up) : ∃ t, exec (.pathSilent .hb) s = .next t ∧ t.clk.hbClock = false ∧
    t.pair.silentHb = true ∧ t.funcs = s.funcs ∧ t.mem.cells = s.mem.cells := by
  have hexec : exec (.pathSilent .hb) s = .next (pathSet .hb true { s with clk := { s.clk with hbClock := false } }) := by
    rw [exec_pathSilent, execPathSilent, if_neg (by simp [hlife])]
    rfl
  obtain ⟨hclk, hfuncs, hcells⟩ := pathSet_clk .hb true { s with clk := { s.clk with hbClock := false } }
  have hbeat := pathSet_beat .hb true { s with clk := { s.clk with hbClock := false } }
  simp only [beatPart, Prod.mk.injEq] at hbeat
  obtain ⟨-, -, ⟨-, hsilent⟩, -⟩ := hbeat
  exact ⟨_, hexec, by rw [hclk], hsilent, hfuncs, hcells⟩

theorem pathSilent_rope {n : Nat} (hlife : s.power.life = .up) (hn : s.pair.sinceRope = some n) (hdue : missLimit s ≤ n) :
    ∃ t, exec (.pathSilent .rope) s = .next t ∧ t.pair.silentRope = true ∧ t.clk = s.clk ∧ t.funcs = s.funcs := by
  have hexec : exec (.pathSilent .rope) s = .next (pathSet .rope true s) := by
    rw [exec_pathSilent, execPathSilent, sinceBeat, hn]
    simp [hlife, hdue]
  obtain ⟨hclk, hfuncs, -⟩ := pathSet_clk .rope true s
  have hbeat := pathSet_beat .rope true s
  simp only [beatPart, Prod.mk.injEq] at hbeat
  obtain ⟨-, -, -, -, hsilent⟩ := hbeat
  exact ⟨_, hexec, hsilent, hclk, hfuncs⟩

theorem pathSilent_early {n : Nat} (hn : s.pair.sinceRope = some n) (hdue : n < missLimit s) : exec (.pathSilent .rope) s = .next s := by
  rw [exec_pathSilent, execPathSilent, sinceBeat, hn]
  simp [hdue]

/-! ### A command that waits on, while others are answered -/

/-- The command that waits on `w` waits on in the same mailbox. -/
def WaitsOn (w : Waiting) (s t : State) : Prop :=
  waitingMb (fun x => decide (x = w)) t = waitingMb (fun x => decide (x = w)) s ∧
    ∀ n, waitingMb (fun x => decide (x = w)) s = some n → t.mbs[n]? = s.mbs[n]?

theorem waitsOn_of_mbs (h : t.mbs = s.mbs) : WaitsOn w s t := ⟨by rw [waitingMb, h, waitingMb], fun _ _ => by rw [h]⟩

theorem WaitsOn.trans (h : WaitsOn w s t) (k : WaitsOn w t u) : WaitsOn w s u :=
  ⟨k.1.trans h.1, fun n hn => (k.2 n (h.1.trans hn)).trans (h.2 n hn)⟩

theorem waits_of_waitingMb {n : Nat} (h : waitingMb (fun x => decide (x = w)) s = some n) :
    ∃ m b, s.mbs[n]? = some m ∧ m.busy = some b ∧ b.waits = w := by
  obtain ⟨m, hm, hbusy⟩ := busy_of_waitingMb h
  obtain ⟨b, hb⟩ := Option.isSome_iff_exists.1 hbusy
  have hn := List.find?_some h
  rw [List.getD_eq_getElem?_getD, hm, Option.getD_some, hb] at hn
  exact ⟨m, b, hm, hb, of_decide_eq_true hn⟩

/-- The mailbox that a completion changes, and no other. -/
theorem complete_other {n k : Nat} (hk : k ≠ n) (c : Code) (d : Nat) (l : List Word) (s : State) :
    (complete n c d l s).mbs[k]? = s.mbs[k]? := by
  unfold complete
  dsimp only
  split
  · rfl
  · split
    · rw [msixDue_mbs]
      exact List.getElem?_set_ne (Ne.symm hk)
    · exact List.getElem?_set_ne (Ne.symm hk)

theorem complete_idle {n : Nat} (h : Busy s n) (c : Code) (d : Nat) (l : List Word) :
    ((complete n c d l s).mbs.getD n {}).busy = none := by
  obtain ⟨_, _, m', _, _, hm', hidle, _⟩ := completed_complete h rfl c d l
  rw [List.getD_eq_getElem?_getD, hm']
  exact hidle

/-- An answer to another command leaves the one that waits. -/
theorem waitsOn_answer (hne : w' ≠ w) (c : Code) (d : Nat) (l : List Word) (s : State) : WaitsOn w s (answer w' c d l s) := by
  unfold answer
  cases h : waitingMb (fun x => decide (x = w')) s with
  | none => exact ⟨rfl, fun _ _ => rfl⟩
  | some k =>
    dsimp only
    obtain ⟨m, b, hm, hb, hw⟩ := waits_of_waitingMb h
    refine ⟨?_, fun n hn => complete_other (fun hnk => ?_) c d l s⟩
    · unfold waitingMb
      refine congrArg (List.find? · (List.range 4)) (funext fun n => ?_)
      by_cases hnk : n = k
      · rw [hnk, complete_idle (busy_of_waitingMb h), List.getD_eq_getElem?_getD, hm, Option.getD_some, hb]
        exact (decide_eq_false (fun hx => hne (hw.symm.trans hx))).symm
      · rw [List.getD_eq_getElem?_getD, List.getD_eq_getElem?_getD, complete_other hnk]
    · obtain ⟨m', b', hm', hb', hw'⟩ := waits_of_waitingMb hn
      rw [hnk, hm] at hm'
      cases hm'
      rw [hb] at hb'
      cases hb'
      exact hne (hw.symm.trans hw')

theorem waitsOn_stageGrantLost (h1 : Waiting.loopOpen ≠ w) (h2 : Waiting.funcStop fSTAGE ≠ w) (s : State) :
    WaitsOn w s (stageGrantLost s) := by
  unfold stageGrantLost
  extract_lets l v
  refine holds_ite (P := WaitsOn w s) ?_ (waitsOn_of_mbs rfl)
  unfold stageStopped
  refine holds_ite (P := WaitsOn w s) ?_ (waitsOn_of_mbs (stRecord_mbs ..))
  refine WaitsOn.trans (waitsOn_of_mbs ?_) ((waitsOn_answer h1 ..).trans (waitsOn_answer h2 ..))
  rw [fnSet_mbs]
  exact stRecord_mbs ..

theorem waitsOn_giveUp (h1 : Waiting.loopOpen ≠ w) (h2 : Waiting.funcStop fSTAGE ≠ w) (x : PState) (s : State) :
    WaitsOn w s (giveUp x s) := by
  unfold giveUp
  extract_lets was v
  have hv : v.mbs = s.mbs := by
    unfold v pairLeave
    refine holds_ite (P := fun t => t.mbs = s.mbs) rfl (holds_ite (P := fun t => t.mbs = s.mbs) ?_ rfl)
    rw [msixDue_mbs, emit_mbs]
  refine holds_ite (P := WaitsOn w s) ?_ (waitsOn_of_mbs hv)
  refine (waitsOn_of_mbs hv).trans ((waitsOn_stageGrantLost h1 h2 v).trans (waitsOn_of_mbs ?_))
  rw [refSelect_mbs, estRoleChange_mbs]

/-- The answer completes the command that waits for it (R96 step 4). -/
theorem WaitsOn.completed (h : WaitsOn w s t) {n : Nat} (hn : waitingMb (fun x => decide (x = w)) s = some n) (c : Code) (d : Nat)
    (l : List Word) : Completed s (answer w c d l t) n c d l := by
  have hw := h.1.trans hn
  unfold answer
  rw [hw]
  obtain ⟨m, b, m', hm, hrest⟩ := completed_complete (busy_of_waitingMb hw) rfl c d l
  exact ⟨m, b, m', (h.2 n hn).symm.trans hm, hrest⟩

/-! ### The reclaim (R513) -/

/-- What a change of role to another state leaves of the pair (R508). -/
theorem giveUp_state {x : PState} (s : State) : (giveUp x s).pair.pstate = x ∧ (giveUp x s).pair.handover = s.pair.handover := by
  unfold giveUp
  extract_lets was v
  have hv : v.pair.pstate = x ∧ v.pair.handover = s.pair.handover := by
    unfold v pairLeave
    by_cases hx : s.pair.pstate = x
    · rw [if_pos hx]
      exact ⟨hx, rfl⟩
    · rw [if_neg hx]
      refine holds_ite (P := fun t => t.pair.pstate = x ∧ t.pair.handover = s.pair.handover) ?_ ⟨rfl, rfl⟩
      rw [msixDue_pair, emit_pair]
      exact ⟨rfl, rfl⟩
  refine holds_ite (P := fun t => t.pair.pstate = x ∧ t.pair.handover = s.pair.handover) ?_ hv
  rw [refSelect_pair, (estRoleChange_parts _).1, (stageGrantLost_parts _).1]
  exact hv

theorem handoverReclaim_claims {cmd : Bool} {since begun : Stroke} (hh : s.pair.handover = .released cmd since begun)
    (hdue : 3 ≤ (s.clk.stroke - since).toNat) (hshow : shows s (fun b => decide (bPstate b = 1 ∨ bPstate b = 2)) = false)
    (hv : vetoed s = false) (hp : s.pair.pstate = .releasing) :
    ∃ t, exec .handoverReclaim s = .next t ∧ t.pair.handover = .no ∧ t.pair.pstate = .claiming ∧
      ∀ n, waitingMb (fun w => decide (w = if cmd then .handover else .funcStop fPAIR)) s = some n → Completed s t n .timeout 0 [] := by
  rw [exec_handoverReclaim, execHandoverReclaim, hh]
  dsimp only
  rw [if_neg (by rw [hshow, hv, hp, decide_eq_false (Nat.not_lt.2 hdue)]; decide)]
  set v := giveUp .claiming (pairMod (fun p => { p with handover := .no }) s) with hvdef
  have hwaits (w : Waiting) (h1 : Waiting.loopOpen ≠ w) (h2 : Waiting.funcStop fSTAGE ≠ w) :
      WaitsOn w s (reqUpdate (claim 14 (pairMod (fun p => { p with handover := .no }) s))) :=
    (waitsOn_of_mbs (t := pairMod (fun p => { p with handover := .no }) s) rfl).trans ((waitsOn_giveUp h1 h2 .claiming _).trans
      (waitsOn_of_mbs rfl))
  obtain ⟨hstate, hover⟩ := giveUp_state (x := .claiming) (pairMod (fun p => { p with handover := .no }) s)
  refine ⟨_, rfl, ?_, ?_, fun n hn => (hwaits _ ?_ ?_).completed hn ..⟩
  · rw [answer_pair]
    exact hover
  · rw [answer_pair]
    exact hstate
  · cases cmd <;> nofun
  · cases cmd <;> decide

end

/-- Settles O48. -/
theorem pairEvents : Obligations.PairEvents := by
  unfold Obligations.PairEvents
  refine fun s => ⟨grantLost_parks, fun h => if_pos (by simp [h]), grantRise_notes, fun h => if_pos h, fun path ws crc => beatReceived_kept,
    fun path ws crc hlife hopen hbad => ?_, fun path ws crc h => if_pos (by simp [h]), pathSilent_hb, fun n => pathSilent_rope,
    fun n => pathSilent_early, fun h => ?_, fun h => if_pos h, fun cmd since begun => handoverReclaim_claims, fun cmd since begun hh hearly => ?_⟩
  · exact beatReceived_bad hlife hopen hbad
  · exact ⟨_, if_neg (by omega), vetoLatch_latches (by decide) s, vetoLatch_funcs ..⟩
  · rw [exec_handoverReclaim, execHandoverReclaim, hh]
    exact if_pos (by rw [decide_eq_true hearly, Bool.true_or, Bool.true_or, Bool.true_or])

end Sys2Proof.Machine
end

section
/-! PROOFS. The mirror of a standby, its snapshot and the end of the hold after a host loss (R514 to R520). -/

namespace Sys2Proof.Machine

section
variable {s s₀ : State}

/-- What a snapshot leaves of the pair: the module's own part in it, and the lines that wait for the boundary. -/
def StandsBy (s₀ s : State) : Prop :=
  s.funcs = s₀.funcs ∧ s.pair.active = s₀.pair.active ∧ s.pair.pstate = s₀.pair.pstate ∧ s.pair.mirrorIn = s₀.pair.mirrorIn

theorem standsBy_unseen (s₀ : State) : Unseen (StandsBy s₀) :=
  ⟨fun _ h => h, fun _ h => h, fun _ h => h, fun h => h, fun h => h, fun h => h, fun h => h, fun h => h, fun h => h, fun h => h,
    fun h => h, fun h => h, fun h => h⟩

theorem standsBy_estApply (cells : List CellMirror) (open_ : List (Option CycleMirror)) (h : StandsBy s₀ s) :
    StandsBy s₀ (estApply cells open_ s) := by
  have hu := standsBy_unseen s₀
  unfold estApply
  refine holds_ite h (unseen_estMod hu (holds_ite (unseen_capacityDue hu ?_) ?_)) <;>
    exact holds_foldl (P := StandsBy s₀) h fun t x ht => unseen_cellPut hu ht

theorem standsBy_ldMod {f : Ledger → Ledger} (h : StandsBy s₀ s) : StandsBy s₀ (ldMod f s) := h

theorem standsBy_cellsFor (pairs : List (Word × Nat)) (h : StandsBy s₀ s) : StandsBy s₀ (cellsFor pairs s) :=
  holds_foldl (P := StandsBy s₀) h fun _ _ ht => holds_ite ht (standsBy_ldMod ht)

theorem standsBy_strokeAdd (jobs : List Word) (sums : List OutSum) (ssc : Option Nat) (h : StandsBy s₀ s) :
    StandsBy s₀ (strokeAdd jobs sums ssc s) :=
  holds_foldl (P := StandsBy s₀) h fun _ _ ht => standsBy_ldMod ht

theorem standsBy_jobClose (job : Word) (h : StandsBy s₀ s) : StandsBy s₀ (jobClose job s) := by
  rw [jobClose_parts]
  exact h

/-- A mirrored item leaves the module's part in the pair as it is. -/
theorem standsBy_itemApply (x : MirrorItem) (h : StandsBy s₀ s) : StandsBy s₀ (itemApply x s) := by
  have hu := standsBy_unseen s₀
  unfold itemApply
  cases x with
  | stateArea m i j status copy => exact h
  | estimator cells i open_ => exact standsBy_estApply cells open_ h
  | ledgerStroke k jobs sums ovr spread =>
    exact holds_ite h (standsBy_ldMod (standsBy_strokeAdd _ _ _ (standsBy_cellsFor _ h)))
  | ledgerTags tags pend => exact holds_ite h (standsBy_ldMod (standsBy_cellsFor _ h))
  | ledgerTable cells => exact holds_ite h (standsBy_ldMod h)
  | ledgerClose job => exact holds_ite (standsBy_jobClose job h) h
  | target rope v targeted ramp pend hold => exact holds_ite h h
  | allocation targets landed solved a b =>
    refine holds_ite h (holds_ite (P := fun u => StandsBy s₀ (ropeMod _ u)) ?_ h)
    exact hu.rope (unseen_seenWords hu (unseen_seenWords hu h))

theorem standsBy_itemsApply (k : Stroke) (items : List MirrorItem) (h : StandsBy s₀ s) : StandsBy s₀ (itemsApply k items s) :=
  (holds_foldl (P := StandsBy s₀) h fun _ x ht => standsBy_itemApply x ht : StandsBy s₀ (items.foldl (fun u x => itemApply x u) s))

/-- A mirrored state area is written into device memory alone. -/
theorem areaApply_writes {P : State → Prop} (hu : Unseen P) (m i j : Nat) (status : Line) (copy : List Byte) (h : P s) :
    P (areaApply m i j status copy s) := by
  unfold areaApply
  split
  · exact h
  · split
    · exact h
    · exact holds_ite h (holds_foldl (P := P) h fun _ _ ht => unseen_seenBytes hu (unseen_seenWords hu ht))

theorem areasApply_writes {P : State → Prop} (hu : Unseen P) (h : P s) : P (areasApply s) := by
  refine holds_foldl (P := P) h fun t x ht => ?_
  cases x with
  | stateArea m i j status copy => exact areaApply_writes hu m i j status copy ht
  | _ => exact ht

/-- What `areasApply` leaves: the pair whole. -/
theorem areasApply_pair (s : State) : (areasApply s).pair = s.pair :=
  areasApply_writes (P := fun u => u.pair = s.pair)
    ⟨fun _ h => h, fun _ h => h, fun _ h => h, fun h => h, fun h => h, fun h => h, fun h => h, fun h => h, fun h => h, fun h => h,
      fun h => h, fun h => h, fun h => h⟩ rfl

/-- PKG_MISMATCH and SYNC alone change, with a record (R515). -/
theorem syncUpdate_parts (s : State) : ∃ m y n, (syncUpdate s).pair = { s.pair with pkgMismatch := m, sync := y, snapshot := n } ∧
    (syncUpdate s).pipe = s.pipe ∧ (mirrorTaker s = true → pkgDiffers s = true → m = true ∧ y = false) := by
  unfold syncUpdate
  extract_lets s1 new was s2
  have hy : mirrorTaker s = true → pkgDiffers s = true → s1.pair.pkgMismatch = true ∧ new = false := by
    intro ht hd
    have hm : s1.pair.pkgMismatch = true := by
      unfold s1
      show (mirrorTaker s && (pkgDiffers s || _)) = true
      rw [ht, hd]
      rfl
    refine ⟨hm, ?_⟩
    unfold new
    rw [hm]
    simp
  have h1 : s1.pair = { s.pair with pkgMismatch := s1.pair.pkgMismatch } := rfl
  have h2 : s1.pipe = s.pipe := rfl
  clear_value s1
  clear_value new
  have h3 : s2.pair = { s.pair with pkgMismatch := s1.pair.pkgMismatch, sync := new, snapshot := s1.pair.snapshot && new } := by
    show { s1.pair with sync := new, snapshot := s1.pair.snapshot && new } = _
    rw [h1]
  refine ⟨_, new, s1.pair.snapshot && new, ?_, ?_, hy⟩
  · split
    · exact h3
    · exact (emit_pair ..).trans h3
  · split
    · exact h2
    · exact (emit_pipe ..).trans h2

theorem pkgDiffers_congr {s t : State} (hp : t.pair.pkgNeeds = s.pair.pkgNeeds) (hq : t.pipe = s.pipe) : pkgDiffers t = pkgDiffers s := by
  unfold pkgDiffers
  rw [hp, hq]

/-- The snapshot of a standby out of SYNC (R515). -/
theorem snapshotRequest_applies (stroke : Stroke) (items : List MirrorItem) (m : List PkgNeed) (hl : s.power.life = .up)
    (ht : mirrorTaker s = true) (hy : s.pair.sync = false) (hr : s.pair.silentRope = false) :
    ∃ t, exec (.snapshotRequest stroke items m) s = .next t ∧ t.pair.mirrored = some stroke ∧ t.pair.pkgNeeds = m ∧
      (pkgDiffers t = true → t.pair.pkgMismatch = true ∧ t.pair.sync = false) ∧
      t.pair.mirrorIn = s.pair.mirrorIn.filter (fun x => stroke < x.1) ∧ t.pair.pstate = s.pair.pstate ∧
      t.pair.active = s.pair.active := by
  have hs1 : StandsBy s (areasApply (itemsApply stroke items s)) :=
    areasApply_writes (standsBy_unseen s) (standsBy_itemsApply stroke items ⟨rfl, rfl, rfl, rfl⟩)
  have hm1 : (areasApply (itemsApply stroke items s)).pair.mirrored = some stroke := by
    rw [areasApply_pair]
    rfl
  rw [exec_snapshotRequest, execSnapshotRequest, if_neg (by rw [hl, ht, hy, hr]; decide)]
  dsimp only
  generalize areasApply (itemsApply stroke items s) = s1 at hs1 hm1
  obtain ⟨hf, ha, hp, hi⟩ := hs1
  set s2 := pairMod (fun p => { p with
      snapshot := true, pkgNeeds := m, mirrorIn := p.mirrorIn.filter fun m => stroke < m.1 }) s1 with h2
  obtain ⟨x, y, n, hpair, hpipe, hd⟩ := syncUpdate_parts s2
  have ht2 : mirrorTaker s2 = true := by
    have hr : fnRunning s2 fPAIR = fnRunning s fPAIR := by
      unfold fnRunning
      rw [fnState_congr (show s2.funcs = s.funcs from hf) fPAIR]
    have h2a : s2.pair.active = s.pair.active := ha
    rw [mirrorTaker, hr, h2a]
    exact ht
  refine ⟨_, rfl, ?_, ?_, fun hdt => ?_, ?_, ?_, ?_⟩
  · rw [hpair]; exact hm1
  · rw [hpair]; rfl
  · have h3 : pkgDiffers s2 = true := by rw [← hdt]; exact (pkgDiffers_congr (by rw [hpair]) hpipe).symm
    obtain ⟨hx, hyy⟩ := hd ht2 h3
    rw [hpair]
    exact ⟨hx, hyy⟩
  · rw [hpair]; exact congrArg (List.filter _) hi
  · rw [hpair]; exact hp
  · rw [hpair]; exact ha

/-- The target of a host loss changes the pipeline alone (R520). -/
theorem hostLossTarget_parts (s : State) : ∃ p, hostLossTarget s = { s with pipe := p } := by
  unfold hostLossTarget
  dsimp only
  split
  · split
    · exact ⟨_, rfl⟩
    · exact ⟨_, rfl⟩
  · split
    · exact ⟨_, rfl⟩
    · exact ⟨_, rfl⟩

theorem pairRecord_cells (sev code : Nat) (d : Word) (s : State) : (pairRecord sev code d s).mem.cells = s.mem.cells := by
  obtain ⟨_, _, _, hm⟩ := emit_parts (s := s) sev fPAIR code [strokeLo s, d]
  rw [pairRecord, hm]

/-- The hold after a host loss ends, once (R520). -/
theorem hostLossHoldExpired_ends (hh : s.link.hostLoss = true) (he : s.link.holdExpired = false) (hl : s.link.holdLeft = 0) :
    ∃ t, exec .hostLossHoldExpired s = .next t ∧ t.link = { s.link with holdExpired := true } ∧ t.pair = s.pair ∧
      t.funcs = s.funcs ∧ t.mem.cells = s.mem.cells := by
  rw [exec_hostLossHoldExpired, execHostLossHoldExpired, if_neg (by rw [hh, he, hl]; decide)]
  extract_lets src u
  obtain ⟨p, hp⟩ := hostLossTarget_parts u
  rw [hp]
  exact ⟨_, rfl, emit_link .., emit_pair .., emit_funcs .., pairRecord_cells ..⟩

/-- Of a mirrored line the ACTIVE module takes a pending target alone (R517). -/
theorem targetsTaken (items : List MirrorItem) (f : State → MirrorItem → State)
    (hf : ∀ u x, ∃ p, f u x = { u with pipe := { u.pipe with pend := p } }) (u : State) :
    items.foldl f u = { u with pipe := { u.pipe with pend := (items.foldl f u).pipe.pend } } := by
  induction items generalizing u with
  | nil => rfl
  | cons x xs ih =>
    obtain ⟨p, hp⟩ := hf u x
    rw [List.foldl_cons, ih, hp]

theorem mirrorReceived_active (stroke : Stroke) (items : List MirrorItem) (hl : s.power.life = .up) (ho : onRope s = true)
    (ha : s.pair.active = true) :
    ∃ t, exec (.mirrorReceived stroke ⟨items, 0⟩) s = .next t ∧ t = { s with pipe := { s.pipe with pend := t.pipe.pend } } := by
  have hm : mirrorTaker s = false := by rw [mirrorTaker, ha]; exact Bool.and_false _
  rw [exec_mirrorReceived, execMirrorReceived, if_neg (by rw [hl, ho]; decide), if_neg (not_not.mpr rfl), if_neg (by rw [hm]; decide), if_pos ha]
  refine ⟨_, rfl, targetsTaken items _ (fun u x => ?_) s⟩
  split
  · exact ⟨_, rfl⟩
  · exact ⟨_, rfl⟩

end

/-- Settles O49. -/
theorem mirrorAndHostLoss : Obligations.MirrorAndHostLoss := by
  intro stroke items s
  refine ⟨fun hl ho hm => ?_, mirrorReceived_active stroke items, fun n ho => ?_, fun n hn hl ho => ?_,
    snapshotRequest_applies stroke items, fun m hw => ?_, hostLossHoldExpired_ends, fun hw => ?_⟩
  · rw [exec_mirrorReceived, execMirrorReceived, if_neg (by rw [hl, ho]; decide), if_neg (not_not.mpr rfl), if_pos hm]
    rfl
  · rw [exec_mirrorReceived, execMirrorReceived, if_pos (by rw [ho]; simp)]
  · rw [exec_mirrorReceived, execMirrorReceived, if_neg (by rw [hl, ho]; decide), if_pos hn]
  · rw [exec_snapshotRequest, execSnapshotRequest, if_pos]
    obtain h | h | h := hw <;> simp [h]
  · rw [exec_hostLossHoldExpired, execHostLossHoldExpired, if_pos]
    obtain h | h | h := hw <;> simp [h]

end Sys2Proof.Machine

end

section
/-! PROOFS. The boot of an image, its failures, the recovery and the watchdog (R532, R537 to R540, R585). -/

namespace Sys2Proof.Machine

section
variable {i : Nat} {s t u : State}

/-- Two states that agree in what a good boot has set, and in bridge `i`. -/
structure BootAlike (i : Nat) (s t : State) : Prop where
  gate : t.clk.gate = s.clk.gate
  mbOpen : t.clerk.mbOpen = s.clerk.mbOpen
  stage : t.clerk.bootStage = s.clerk.bootStage
  posin : t.clerk.posin = s.clerk.posin
  serial : t.clerk.serial = s.clerk.serial
  active : t.link.memActive = s.link.memActive
  running : t.boot.running = s.boot.running
  imageB : t.boot.imageB = s.boot.imageB
  norLock : t.boot.norLock = s.boot.norLock
  funcs : t.funcs = s.funcs
  bridge : (t.mem.bridges.getD i { enabled := false }).enabled = (s.mem.bridges.getD i { enabled := false }).enabled

theorem BootAlike.refl (s : State) : BootAlike i s s := by constructor <;> rfl

theorem BootAlike.trans (h : BootAlike i s t) (h' : BootAlike i t u) : BootAlike i s u where
  gate := h'.gate.trans h.gate
  mbOpen := h'.mbOpen.trans h.mbOpen
  stage := h'.stage.trans h.stage
  posin := h'.posin.trans h.posin
  serial := h'.serial.trans h.serial
  active := h'.active.trans h.active
  running := h'.running.trans h.running
  imageB := h'.imageB.trans h.imageB
  norLock := h'.norLock.trans h.norLock
  funcs := h'.funcs.trans h.funcs
  bridge := h'.bridge.trans h.bridge

theorem bootAlike_emit (a b c : Nat) (d : List Word) (h : BootAlike i u s) : BootAlike i u (emit a b c d s) := by
  obtain ⟨_, _, _, he⟩ := emit_parts a b c d s
  refine h.trans ?_
  rw [he]
  constructor <;> rfl

theorem bootAlike_measure (type id : Nat) (info digest : List Word) (h : BootAlike i u s) :
    BootAlike i u (measure type id info digest s) := by
  refine h.trans ?_
  unfold measure
  split <;> constructor <;> rfl

theorem bootAlike_bootMeasure (b : Bool) (trim certs : Nat × List Byte) (h : BootAlike i u s) :
    BootAlike i u (bootMeasure b trim certs s) := by
  have hm : ∀ v : State, BootAlike i u v → BootAlike i u (match v.boot.policy with
      | some r => measure 5 v.boot.policySlot [r.getD 1 0] (digestOf r) v
      | none => v) := fun v hv => by
    split
    · exact bootAlike_measure _ _ _ _ hv
    · exact hv
  exact hm _ (bootAlike_measure _ _ _ _ (bootAlike_measure _ _ _ _
    (holds_foldl (P := BootAlike i u) (bootAlike_measure _ _ _ _ h) fun _ _ ht => bootAlike_measure _ _ _ _ ht)))

theorem bootAlike_policyLoad (h : BootAlike i u s) : BootAlike i u (policyLoad s) := by
  refine h.trans ?_
  unfold policyLoad
  dsimp only
  split
  · constructor <;> rfl
  · exact .refl s

theorem bootAlike_lifeLoad (h : BootAlike i u s) : BootAlike i u (lifeLoad s) := by
  refine h.trans ?_
  unfold lifeLoad
  split
  · constructor <;> rfl
  · exact .refl s

theorem bootAlike_dumpHeld (cause : BitVec 16) (kept : Bool) (h : BootAlike i u s) : BootAlike i u (dumpHeld cause kept s) :=
  h.trans (by constructor <;> rfl)

theorem bootAlike_headerPut (ws : List Word) (h : BootAlike i u s) : BootAlike i u (headerPut ws s) := h.trans (by constructor <;> rfl)

theorem bootAlike_dumpCheck (h : BootAlike i u s) : BootAlike i u (dumpCheck s) := by
  unfold dumpCheck
  exact holds_ite (P := BootAlike i u) (bootAlike_emit _ _ _ _ (bootAlike_dumpHeld _ _ (bootAlike_headerPut _ h))) h

theorem bootAlike_summariesReport (h : BootAlike i u s) : BootAlike i u (summariesReport s) := by
  unfold summariesReport
  refine holds_foldl (P := BootAlike i u) (holds_foldl (P := BootAlike i u) (h.trans (by constructor <;> rfl)) fun _ _ ht => ?_)
    fun _ _ ht => bootAlike_emit _ _ _ _ ht
  exact holds_ite (P := BootAlike i u) (bootAlike_emit _ _ _ _ ht) (bootAlike_emit _ _ _ _ ht)

/-- Another bridge is disabled (R179). -/
theorem bootAlike_bridgeDown {j : Nat} (hj : j ≠ i) (h : BootAlike i u s) : BootAlike i u (bridgeDown j s) := by
  unfold bridgeDown
  refine holds_ite (P := BootAlike i u) (bootAlike_emit _ _ _ _ (h.trans ?_)) h
  refine ⟨rfl, rfl, rfl, rfl, rfl, rfl, rfl, rfl, rfl, rfl, ?_⟩
  show ((s.mem.bridges.set j { enabled := false }).getD i { enabled := false }).enabled = _
  rw [List.getD_eq_getElem?_getD, List.getElem?_set_ne hj, ← List.getD_eq_getElem?_getD]

/-- The trim record changes the Clerk's serial number and values of the boot, but not which image runs (R585). -/
theorem trimLoad_parts (v : TrimRec) (certs : List Byte) (s : State) :
    ∃ b, trimLoad v certs s = { s with clerk := { s.clerk with serial := v.serial }, boot := b } ∧
      b.running = s.boot.running ∧ b.imageB = s.boot.imageB ∧ b.norLock = s.boot.norLock := by
  unfold trimLoad btMod
  dsimp only
  exact ⟨_, rfl, rfl, rfl, rfl⟩

/-- What a good boot opens (R538): the mailboxes and memory, with the serial number of the trim record. -/
def bootOpened (v : TrimRec) (s : State) : State :=
  { s with
    clerk := { s.clerk with serial := v.serial, mbOpen := true, bootStage := 5 }
    link := { s.link with memActive := true } }

/-- The end of a good boot opens the mailboxes and makes memory active (R538). -/
theorem bootOpen_opens (trim cert helper : Nat) (env : BootEnv) (s : State) (hi : env.bridgesFailed.getD i false = false) :
    BootAlike i (bootOpened (if trim = 0 then s.boot.trim0 else s.boot.trim1).values s) (bootOpen trim cert helper env s) := by
  unfold bootOpen
  extract_lets b t c s1 s2 s3 x x1 s4 s5 s6 s7 s8 s9 s10 s11
  have h3 : BootAlike i (trimLoad t.values c s) s3 :=
    bootAlike_bootMeasure _ _ _ ((bootAlike_policyLoad (i := i) (bootAlike_lifeLoad (.refl (trimLoad t.values c s)))).trans
      (by constructor <;> rfl))
  clear_value s3
  set u : State := bootOpened t.values s
  obtain ⟨boot, hload, hrun, himg, hlock⟩ := trimLoad_parts t.values c s
  rw [hload] at h3
  have h4 : BootAlike i u s4 :=
    ⟨h3.gate, rfl, rfl, h3.posin, h3.serial, rfl, h3.running.trans hrun, h3.imageB.trans himg, h3.norLock.trans hlock,
      h3.funcs, h3.bridge⟩
  clear_value s4
  have h5 : BootAlike i u s5 := holds_ite (P := BootAlike i u) (bootAlike_emit _ _ _ _ h4) h4
  have h6 : BootAlike i u s6 := holds_ite (P := BootAlike i u) h5 (bootAlike_emit _ _ _ _ h5)
  have h7 : BootAlike i u s7 := holds_ite (P := BootAlike i u) h6 (bootAlike_emit _ _ _ _ h6)
  have h8 : BootAlike i u s8 := holds_ite (P := BootAlike i u) h7 (bootAlike_emit _ _ _ _ h7)
  have h9 : BootAlike i u s9 :=
    holds_ite (P := BootAlike i u) h8 (bootAlike_emit _ _ _ _ (h8.trans (by constructor <;> rfl)))
  have h10 : BootAlike i u s10 := by
    unfold s10
    split
    · exact bootAlike_emit _ _ _ _ h9
    · exact h9
  have h11 : BootAlike i u s11 := bootAlike_summariesReport (bootAlike_dumpCheck h10)
  clear_value s11
  have hne : ∀ j ∈ (List.range 3).filter fun j => env.bridgesFailed.getD j false, j ≠ i := by
    intro j hj he
    rw [List.mem_filter, he, hi] at hj
    exact absurd hj.2 (by decide)
  clear_value u
  generalize (List.range 3).filter (fun j => env.bridgesFailed.getD j false) = l at hne
  clear hi h3 h4 h5 h6 h7 h8 h9 h10
  induction l generalizing s11 with
  | nil => exact h11
  | cons j l ih =>
    exact ih _ (bootAlike_bridgeDown (hne j List.mem_cons_self) h11) fun k hk => hne k (List.mem_cons_of_mem _ hk)

/-- R539: the records of production test are taken, and the trim record lies within its bounds. -/
def recordsKept (root : List Byte) (s : State) : Bool :=
  (copyPick root s.boot.trim0.bytes s.boot.trim1.bytes).isSome && (copyPick root s.boot.cert0 s.boot.cert1).isSome &&
    (copyPick root s.boot.helper0 s.boot.helper1).isSome &&
    trimBounds (if copyPick root s.boot.trim0.bytes s.boot.trim1.bytes = some 0 then s.boot.trim0 else s.boot.trim1).values

/-- With the records kept the boot opens (R538). -/
theorem bootRecords_of_kept (env : BootEnv) (hk : recordsKept (rootKey s.boot.running) s = true) :
    ∃ trim c h, (trim = 0 ↔ copyPick (rootKey s.boot.running) s.boot.trim0.bytes s.boot.trim1.bytes = some 0) ∧
      bootRecords env s = bootOpen trim c h env s := by
  unfold recordsKept at hk
  unfold bootRecords
  dsimp only
  revert hk
  generalize copyPick _ s.boot.trim0.bytes s.boot.trim1.bytes = o1
  generalize copyPick _ s.boot.cert0 s.boot.cert1 = o2
  generalize copyPick _ s.boot.helper0 s.boot.helper1 = o3
  intro hk
  simp only [Bool.and_eq_true] at hk
  obtain ⟨⟨⟨h1, h2⟩, h3⟩, h4⟩ := hk
  obtain ⟨x1, rfl⟩ := Option.isSome_iff_exists.mp h1
  obtain ⟨x2, rfl⟩ := Option.isSome_iff_exists.mp h2
  obtain ⟨x3, rfl⟩ := Option.isSome_iff_exists.mp h3
  simp only [Option.some.injEq] at h4
  exact ⟨x1, x2, x3, by simp, if_pos h4⟩

/-- Without them it fails with reason 1 (R540). -/
theorem bootRecords_of_lost (env : BootEnv) (hk : recordsKept (rootKey s.boot.running) s = false) :
    bootRecords env s = bootFailed 1 s := by
  unfold recordsKept at hk
  unfold bootRecords
  dsimp only
  revert hk
  generalize copyPick _ s.boot.trim0.bytes s.boot.trim1.bytes = o1
  generalize copyPick _ s.boot.cert0 s.boot.cert1 = o2
  generalize copyPick _ s.boot.helper0 s.boot.helper1 = o3
  intro hk
  split
  next x1 x2 x3 =>
    simp only [Option.isSome_some, Bool.true_and, Option.some.injEq] at hk
    exact if_neg (by rw [hk]; decide)
  next => rfl

/-- An attempt bit of the image's slot state is all that an attempt uses (R541). -/
theorem attemptUse_parts (b : Bool) (s : State) :
    ∃ y, attemptUse b s = slotMod b (fun x => { x with stateByte := y }) s := by
  have hid : ∀ v : State, slotMod b (fun x => { x with stateByte := (slotOf v b).stateByte }) v = v := fun v => by cases b <;> rfl
  have hset : ∀ n, slotMod b (fun y => { y with stateByte := setBit y.stateByte n false }) s =
      slotMod b (fun x => { x with stateByte := setBit (slotOf s b).stateByte n false }) s := fun n => by cases b <;> rfl
  unfold attemptUse
  dsimp only
  split
  · exact ⟨_, (hid s).symm⟩
  · split
    next n _ => exact ⟨_, hset n⟩
    next => exact ⟨_, (hid s).symm⟩

/-- Posin starts on the image that is picked (R59, R64, R88). -/
structure PosinStarted (b : Bool) (s t : State) : Prop where
  image : (slotOf t b).image = (slotOf s b).image
  clerk : t.clerk = { s.clerk with posin := imgVersion (slotOf s b).image, bootStage := 2 }
  gate : t.clk.gate = 0x1FFFFF
  link : t.link = s.link
  mem : t.mem = s.mem
  funcs : t.funcs = s.funcs
  running : t.boot.running = manifestOf (slotOf s b).image
  imageB : t.boot.imageB = b
  norLock : t.boot.norLock = true
  trim0 : t.boot.trim0 = s.boot.trim0
  trim1 : t.boot.trim1 = s.boot.trim1
  cert0 : t.boot.cert0 = s.boot.cert0
  cert1 : t.boot.cert1 = s.boot.cert1
  helper0 : t.boot.helper0 = s.boot.helper0
  helper1 : t.boot.helper1 = s.boot.helper1

theorem posinStart_attemptUse (b : Bool) (s : State) : PosinStarted b s (posinStart b (attemptUse b s)) := by
  obtain ⟨y, hy⟩ := attemptUse_parts b s
  rw [hy]
  cases b <;> constructor <;> rfl

/-- Copying the sections writes memory, and leaves the bridges (R538). -/
theorem sectsCopy_parts (s : State) : ∃ m, sectsCopy s = { s with mem := m } ∧ m.bridges = s.mem.bridges := by
  refine holds_foldl (P := fun t => ∃ m : Mem, t = { s with mem := m } ∧ m.bridges = s.mem.bridges) ⟨s.mem, rfl, rfl⟩ fun t k ht => ?_
  refine holds_ite (P := fun t : State => ∃ m : Mem, t = { s with mem := m } ∧ m.bridges = s.mem.bridges) ht ?_
  obtain ⟨m, rfl, hm⟩ := ht
  exact ⟨_, rfl, hm⟩

theorem bridgesCheck_closed (h : s.clerk.mbOpen = false) : bridgesCheck s = s := by
  rw [bridgesCheck, h]
  exact if_neg (by simp)

theorem bridgesCheck_left (h : (s.mem.bridges.getD i { enabled := false }).enabled = true) : bridgesCheck s = s := by
  have ha : s.mem.bridges.any (·.enabled) = true := by
    rw [List.getD_eq_getElem?_getD] at h
    cases hb : s.mem.bridges[i]? with
    | none =>
      rw [hb] at h
      exact absurd h (by decide)
    | some b =>
      rw [hb] at h
      exact List.any_eq_true.mpr ⟨b, List.mem_of_getElem? hb, h⟩
  rw [bridgesCheck, ha]
  exact if_neg (by simp)

/-- The boot runs on the image that is picked. -/
theorem boot_runs (env : BootEnv) (hl : s.power.life = .up) (hf : s.power.feedA = true ∨ s.power.feedB = true)
    (hc : bootClocks s = true) (hs : s.clerk.bootStage = 0) {b : Bool} (hb : bootPick s = some b) :
    exec (.boot env) s = .next (bridgesCheck (bootImage b env s)) := by
  rw [exec_boot, execBoot, if_neg, hb]
  obtain h | h := hf <;> simp [h, hl, hc, hs]

/-- A good boot (R538, R539). -/
theorem bootImage_opens {b : Bool} (env : BootEnv) (s : State) (hw : (keepsWell s.clerk.resetCause.toNat || env.wellTrained) = true)
    (hd : (List.range (imgSects (slotOf s b).image)).all (sectOk (slotOf s b).image) = true)
    (hk : recordsKept (rootKey (manifestOf (slotOf s b).image)) s = true)
    (hb : (s.mem.bridges.getD i { enabled := false }).enabled = true) (hi : env.bridgesFailed.getD i false = false) :
    let x := (slotOf s b).image
    let values := (if copyPick (rootKey (manifestOf x)) s.boot.trim0.bytes s.boot.trim1.bytes = some 0 then s.boot.trim0
      else s.boot.trim1).values
    let t := bridgesCheck (bootImage b env s)
    t.clerk.mbOpen = true ∧ t.clerk.bootStage = 5 ∧ t.link.memActive = true ∧ t.clerk.posin = imgVersion x ∧
      t.clerk.serial = values.serial ∧ t.clk.gate = 0x1FFFFF ∧ t.boot.running = manifestOf x ∧ t.boot.imageB = b ∧
      t.boot.norLock = true ∧ t.funcs = s.funcs := by
  have hp := posinStart_attemptUse b s
  unfold bootImage
  generalize posinStart b (attemptUse b s) = s1 at hp ⊢
  obtain ⟨m, hcopy, hm⟩ := sectsCopy_parts s1
  have hk1 : recordsKept (rootKey s1.boot.running) { s1 with mem := m } = true := by
    rw [hp.running, ← hk]
    show recordsKept _ s1 = _
    unfold recordsKept
    rw [hp.trim0, hp.trim1, hp.cert0, hp.cert1, hp.helper0, hp.helper1]
  obtain ⟨trim, c, h, htrim, ho⟩ := bootRecords_of_kept (s := { s1 with mem := m }) env hk1
  have hcause : s1.clerk.resetCause = s.clerk.resetCause := by rw [hp.clerk]
  have hval : (if trim = 0 then s1.boot.trim0 else s1.boot.trim1) =
      if copyPick (rootKey (manifestOf (slotOf s b).image)) s.boot.trim0.bytes s.boot.trim1.bytes = some 0 then s.boot.trim0
      else s.boot.trim1 := by
    have ht2 : trim = 0 ↔ copyPick (rootKey (manifestOf (slotOf s b).image)) s.boot.trim0.bytes s.boot.trim1.bytes = some 0 := by
      rw [htrim]
      show copyPick (rootKey s1.boot.running) s1.boot.trim0.bytes s1.boot.trim1.bytes = some 0 ↔ _
      rw [hp.running, hp.trim0, hp.trim1]
    rw [hp.trim0, hp.trim1]
    simp only [ht2]
  dsimp only
  rw [hp.image, hcause, hcopy, ho, if_neg (by rw [← Bool.not_or, hw]; decide), if_neg (by rw [hd]; decide)]
  have ha := bootOpen_opens (i := i) trim c h env { s1 with mem := m } hi
  have hbr : ((bootOpen trim c h env { s1 with mem := m }).mem.bridges.getD i { enabled := false }).enabled = true := by
    rw [ha.bridge]
    show (m.bridges.getD i { enabled := false }).enabled = true
    rw [hm, hp.mem]
    exact hb
  rw [bridgesCheck_left hbr, ha.mbOpen, ha.stage, ha.active, ha.posin, ha.serial, ha.gate, ha.running, ha.imageB, ha.norLock, ha.funcs]
  refine ⟨rfl, rfl, rfl, ?_, ?_, hp.gate, hp.running, hp.imageB, hp.norLock, hp.funcs⟩
  · show s1.clerk.posin = _
    rw [hp.clerk]
  · exact congrArg (fun v => v.values.serial) hval

/-- A well that does not train fails the boot with reason 2 (R540). -/
theorem bootImage_untrained {b : Bool} (env : BootEnv) (s : State)
    (hw : (keepsWell s.clerk.resetCause.toNat || env.wellTrained) = false) :
    bootImage b env s = bootFailed 2 (posinStart b (attemptUse b s)) := by
  have hp := posinStart_attemptUse b s
  unfold bootImage
  dsimp only
  rw [hp.clerk]
  exact if_pos (by rw [← Bool.not_or, hw]; rfl)

/-- A section whose digest is wrong passes the image over (R535). -/
theorem bootImage_damaged {b : Bool} (env : BootEnv) (s : State) (hw : (keepsWell s.clerk.resetCause.toNat || env.wellTrained) = true)
    (hd : (List.range (imgSects (slotOf s b).image)).all (sectOk (slotOf s b).image) = false) :
    (bootImage b env s).boot.resetReq = true ∧ skipOf? (bootImage b env s) b = true ∧ (bootImage b env s).clerk.bootStage = 3 ∧
      (bootImage b env s).clerk.mbOpen = s.clerk.mbOpen := by
  have hp := posinStart_attemptUse b s
  have he : bootImage b env s = { skipSet b true (posinStart b (attemptUse b s)) with
      clerk := { (posinStart b (attemptUse b s)).clerk with bootStage := 3 }
      boot := { (skipSet b true (posinStart b (attemptUse b s))).boot with resetReq := true } } := by
    unfold bootImage
    dsimp only
    rw [hp.clerk, hp.image, if_neg (by rw [← Bool.not_or]; show ¬ (!(keepsWell s.clerk.resetCause.toNat || _)) = true; rw [hw]; decide),
      if_pos (by rw [hd]; rfl), ← hp.clerk]
    rfl
  rw [he]
  refine ⟨rfl, ?_, rfl, ?_⟩
  · cases b <;> rfl
  · show (posinStart b (attemptUse b s)).clerk.mbOpen = _
    rw [hp.clerk]

/-- Records of which no copy is signed, or a trim out of its bounds, fail the boot with reason 1 (R539, R540, R585). -/
theorem bootImage_unkept {b : Bool} (env : BootEnv) (s : State) (hw : (keepsWell s.clerk.resetCause.toNat || env.wellTrained) = true)
    (hd : (List.range (imgSects (slotOf s b).image)).all (sectOk (slotOf s b).image) = true)
    (hk : recordsKept (rootKey (manifestOf (slotOf s b).image)) s = false) :
    bootImage b env s = bootFailed 1 (sectsCopy (posinStart b (attemptUse b s))) := by
  have hp := posinStart_attemptUse b s
  unfold bootImage
  generalize posinStart b (attemptUse b s) = s1 at hp ⊢
  have hcause : s1.clerk.resetCause = s.clerk.resetCause := by rw [hp.clerk]
  obtain ⟨m, hcopy, hm⟩ := sectsCopy_parts s1
  have hk1 : recordsKept (rootKey s1.boot.running) { s1 with mem := m } = false := by
    rw [hp.running, ← hk]
    show recordsKept _ s1 = _
    unfold recordsKept
    rw [hp.trim0, hp.trim1, hp.cert0, hp.cert1, hp.helper0, hp.helper1]
  dsimp only
  rw [hp.image, hcause, if_neg (by rw [← Bool.not_or, hw]; decide), if_neg (by rw [hd]; decide), hcopy]
  exact bootRecords_of_lost env hk1

/-- The watchdog skips the image being booted (R532). -/
theorem bootWatchdogExpired_skips {b : Bool} (hl : s.power.life = .up) (hw : s.boot.watchdog = true) (ho : s.clerk.mbOpen = false)
    (hr : s.boot.resetReq = false) (hb : bootPick s = some b) :
    ∃ t, exec .bootWatchdogExpired s = .next t ∧ t.boot.resetReq = true ∧ t.boot.watchdog = false ∧ skipOf? t b = true ∧
      t.clerk = s.clerk ∧ t.funcs = s.funcs := by
  obtain ⟨y, hy⟩ := attemptUse_parts b s
  rw [exec_bootWatchdogExpired, execBootWatchdogExpired, if_neg (by rw [hl, hw, ho, hr]; decide), hb]
  dsimp only
  rw [hy]
  refine ⟨_, rfl, rfl, rfl, ?_, ?_, ?_⟩ <;> cases b <;> rfl

end

/-- Settles O50. -/
theorem boot : Obligations.Boot := by
  intro env s
  refine ⟨fun hl hf hc hs => ⟨fun hb => ?_, fun b hb => ?_⟩, fun h => ?_, fun h => ?_,
    fun b hl hw ho hr hb => bootWatchdogExpired_skips hl hw ho hr hb⟩
  · rw [exec_boot, execBoot, if_neg, hb]
    · exact ⟨_, rfl, rfl, rfl, rfl, rfl, rfl⟩
    · obtain h | h := hf <;> simp [h, hl, hc, hs]
  · have hp := posinStart_attemptUse b s
    have hrun := boot_runs env hl hf hc hs hb
    intro x root well whole trim values kept
    refine ⟨fun i hw hd hk hbr hi => ⟨_, hrun, bootImage_opens env s hw hd hk hbr hi⟩, fun hw ho => ⟨_, hrun, ?_⟩,
      fun hw hd ho => ⟨_, hrun, ?_⟩, fun hw hd hk ho => ⟨_, hrun, ?_⟩⟩
    · have hclosed : (bootFailed 2 (posinStart b (attemptUse b s))).clerk.mbOpen = false := by
        show (posinStart b (attemptUse b s)).clerk.mbOpen = false
        rw [hp.clerk]
        exact ho
      rw [bootImage_untrained env s hw, bridgesCheck_closed hclosed]
      exact ⟨rfl, rfl, hclosed⟩
    · obtain ⟨h1, h2, h3, h4⟩ := bootImage_damaged env s hw hd
      rw [bridgesCheck_closed (h4.trans ho)]
      exact ⟨h1, h2, h3, h4.trans ho⟩
    · obtain ⟨m, hcopy, _⟩ := sectsCopy_parts (posinStart b (attemptUse b s))
      have hclosed : (bootFailed 1 (sectsCopy (posinStart b (attemptUse b s)))).clerk.mbOpen = false := by
        rw [hcopy]
        show (posinStart b (attemptUse b s)).clerk.mbOpen = false
        rw [hp.clerk]
        exact ho
      rw [bootImage_unkept env s hw hd hk, bridgesCheck_closed hclosed]
      exact ⟨rfl, rfl, hclosed⟩
  · rw [exec_boot, execBoot, if_pos]
    obtain h | h := h <;> simp [h]
  · rw [exec_bootWatchdogExpired, execBootWatchdogExpired, if_pos (by rw [h]; simp)]

end Sys2Proof.Machine

end

section
/-! PROOFS. Firmware: the write of slot A, its commit and the copy into slot B (R541 to R544, R551 to R553). -/

namespace Sys2Proof.Machine

section
variable {s t u : State} {o : Nat} {acts : List Nat} {r : Req} {b : Bool}

/-! ### What an erase and a program of a slot change -/

/-- Only what lies in a locked region is refused (R543): a slot never is. -/
theorem norOp_slot (erase : Bool) {off : Nat} (hoff : off < 0x4000000) (n : Nat) (go : State → State) (s : State) :
    norOp erase off n go s = go { s with diag := { s.diag with clerk := bump s.diag.clerk (if erase then 6 else 5) n } } := by
  have hr : norRefuses s erase off = false := by
    unfold norRefuses
    simp [show ¬ 0x4000000 ≤ off by omega, show ¬ 0x4040000 ≤ off by omega]
  rw [norOp, if_neg (by rw [hr]; decide)]

/-- The counters of R542 are programmed where nothing is locked against it. -/
theorem norOp_counter (n : Nat) (go : State → State) (s : State) :
    norOp false 0x4040000 n go s = go { s with diag := { s.diag with clerk := bump s.diag.clerk 5 n } } := by
  have hr : norRefuses s false 0x4040000 = false := by simp [norRefuses]
  rw [norOp, if_neg (by rw [hr]; decide)]
  rfl

/-- An erase of a slot's state, or its wait for a feed (R32, R541). -/
theorem slotErase_parts (b : Bool) (s : State) : ∃ held st d, slotErase b s =
    { s with boot := { (slotMod b (fun x => { x with stateByte := st }) s).boot with norHeld := held },
             diag := { s.diag with clerk := d } } := by
  unfold slotErase
  split
  · refine ⟨true, (slotOf s b).stateByte, s.diag.clerk, ?_⟩
    cases b <;> rfl
  · rw [norOp_slot true (by decide)]
    refine ⟨false, 0xFF, bump s.diag.clerk 6 1, ?_⟩
    cases b <;> rfl

/-- A whole image and its slot state stand in the slot (R541). -/
theorem slotStore_parts (b : Bool) (state : Byte) (x : List Word) (s : State) : ∃ d n, slotStore b state x s =
    slotMod b (fun _ => { stateByte := state, image := x }) { s with diag := d, free := n } := by
  unfold slotStore
  dsimp only [takeFree]
  rw [norOp_slot true (by decide), norOp_slot false (by decide)]
  refine ⟨{ s.diag with clerk := bump (bump s.diag.clerk 5 (1 + Config.freeNat (s.free + 1))) 6 (1 + Config.freeNat s.free) },
    s.free + 2, ?_⟩
  cases b <;> rfl

theorem slotStore_boot (b : Bool) (state : Byte) (x : List Word) (s : State) :
    (slotStore b state x s).boot = (slotMod b (fun _ => { stateByte := state, image := x }) s).boot := by
  obtain ⟨_, _, h⟩ := slotStore_parts b state x s
  rw [h]
  rfl

theorem workCode_boot (ok : Bool) (s : State) : (workCode ok s).1.boot = s.boot := by cases ok <;> rfl

theorem Served.btMod (h : Served s t) (f : Boot → Boot) : Served (btMod f s) (btMod f t) :=
  h.set_boot (by rw [h.boot])

theorem Served.slotErase (h : Served s t) (b : Bool) : Served (slotErase b s) (slotErase b t) := by
  have hstop : norStop t = norStop s := by rw [norStop, h.power, norStop]
  unfold Machine.slotErase
  rw [hstop]
  split
  · exact h.btMod _
  · rw [norOp_slot true (by decide), norOp_slot true (by decide)]
    exact (h.btMod _).set_diagClerk.btMod _

theorem Served.copyBegin (h : Served s t) : Served (copyBegin s) (copyBegin t) :=
  (h.btMod _).slotErase true

theorem Served.writeBegin (h : Served s t) (x : List Word) : Served (writeBegin x s) (writeBegin x t) :=
  (h.btMod _).slotErase false

theorem slotErase_mbs (b : Bool) (s : State) : (slotErase b s).mbs = s.mbs := by
  obtain ⟨_, _, _, h⟩ := slotErase_parts b s
  rw [h]

/-! ### FW_WRITE and the end of its write -/

theorem damagedIn_of_clerkRead {a n : Nat} (h : clerkRead s a n = none) : damagedIn (seeAs .clerk s) a n = none :=
  Option.map_eq_none_iff.mp h

theorem fwWriteBad_rung (x : List Word) : fwWriteBad (rung o acts r s) r x = fwWriteBad s r x := by
  unfold fwWriteBad imageBad rootOk
  rw [rung_boot, rung_link_bme]

theorem fwImage_rung (image : ImageInfo) : fwImage (rung o acts r s) r image = fwImage s r image := by
  unfold fwImage
  dsimp only
  rw [memWords_rung]

/-- An accepted FW_WRITE begins its write of slot A, behind a copy of a confirmed A that B does not hold (R552). -/
theorem fwWrite_begins (hs : Ready s) (image : ImageInfo) (hh : High r 4) (hbad : fwWriteBad s r (fwImage s r image) = none)
    (hread : bit (r.w 2) 0 = true → clerkRead s (wide (r.w 3) (r.w 4)) (r.w 5).toNat = none) :
    ((!s.boot.imageB && slotConfirmed s.boot.slotA && !slotsEqual s) = true →
      Does (.fwWrite r image) r s (copyBegin { s with boot := { s.boot with writing := some (fwImage s r image) } }) []) ∧
    ((!s.boot.imageB && slotConfirmed s.boot.slotA && !slotsEqual s) = false →
      Does (.fwWrite r image) r s (writeBegin (fwImage s r image) s) []) := by
  have hrec : s.boot.recovery = false := hs.2.2.1
  have hsafe : (if bit (r.w 2) 0 = true then clerkRead (rung 0x0B02 [] r s) (wide (r.w 3) (r.w 4)) (r.w 5).toNat else none) = none := by
    split
    next hb => exact clerkRead_rung_none (damagedIn_of_clerkRead (hread hb))
    next => rfl
  have hequal : slotsEqual (rung 0x0B02 [] r s) = slotsEqual s := by unfold slotsEqual; rw [rung_boot]
  constructor <;> intro hw <;> rw [Does, exec_fwWrite, execFwWrite] <;>
    refine does_of hs (taken_high hh rfl rfl rfl (by decide)) (b := ?_)
      ((guardE_none ((fwWriteBad_rung _).trans ((congrArg _ (fwImage_rung image)).trans hbad))).trans ?_) ?_ ?_
  · exact copyBegin (btMod (fun b => { b with writing := some (fwImage s r image) }) (rung 0x0B02 [] r s))
  · dsimp only
    rw [hsafe, hequal, rung_boot, hrec, hw, fwImage_rung]
    dsimp only
    rw [if_neg Bool.false_ne_true, if_pos rfl]
  · exact slotErase_mbs ..
  · exact Served.copyBegin ((served_rung ..).btMod _)
  · exact writeBegin (fwImage s r image) (rung 0x0B02 [] r s)
  · dsimp only
    rw [hsafe, hequal, rung_boot, hrec, hw, fwImage_rung]
    dsimp only
    rw [if_neg Bool.false_ne_true, if_neg Bool.false_ne_true]
  · exact slotErase_mbs ..
  · exact (served_rung ..).writeBegin _

/-- What no record and no measurement touches: the slots, the counters and the works on them. -/
structure SlotsKept (s t : State) : Prop where
  slotA : t.boot.slotA = s.boot.slotA
  slotB : t.boot.slotB = s.boot.slotB
  counter0 : t.boot.counter0 = s.boot.counter0
  counter1 : t.boot.counter1 = s.boot.counter1
  writing : t.boot.writing = s.boot.writing
  copying : t.boot.copying = s.boot.copying
  funcs : t.funcs = s.funcs
  mbs : t.mbs = s.mbs

theorem SlotsKept.trans (h : SlotsKept s t) (k : SlotsKept t u) : SlotsKept s u :=
  ⟨k.slotA.trans h.slotA, k.slotB.trans h.slotB, k.counter0.trans h.counter0, k.counter1.trans h.counter1,
    k.writing.trans h.writing, k.copying.trans h.copying, k.funcs.trans h.funcs, k.mbs.trans h.mbs⟩

theorem slotsKept_fwRecord (sev code : Nat) (w : Word) (s : State) : SlotsKept s (fwRecord sev code w s) := by
  unfold fwRecord
  constructor <;> simp only [emit_boot, emit_funcs, emit_mbs]

theorem slotsKept_measure (type id : Nat) (info digest : List Word) (s : State) : SlotsKept s (measure type id info digest s) := by
  unfold measure
  split <;> constructor <;> rfl

/-- The slot after its write, and the completion code that goes with it (R552). -/
theorem workCode_store_parts (ok : Bool) (x : List Word) (s : State) : ∃ d n c,
    workCode ok (if ok = true then slotStore false 0xEF x s else s) =
      ({ s with boot := { s.boot with slotA := if ok then { stateByte := 0xEF, image := x } else s.boot.slotA }, diag := d, free := n }, c) ∧
      (ok = true → c = .ok) := by
  cases ok with
  | false => exact ⟨_, _, _, rfl, fun h => absurd h (by decide)⟩
  | true =>
    obtain ⟨d, n, h⟩ := slotStore_parts false 0xEF x s
    rw [if_pos rfl, h]
    exact ⟨_, _, _, rfl, fun _ => rfl⟩

theorem life_of_hostReaches (h : hostReaches s = true) : s.power.life = .up := by
  unfold hostReaches at h
  simp only [Bool.and_eq_true, decide_eq_true_eq] at h
  exact h.2

/-- The write of slot A ends: the slot is WRITTEN, or stands as its erase left it (R552). -/
theorem fwWriteComplete_ends (hs : Ready s) (x : List Word) (ok : Bool) (hw : s.boot.writing = some x) (hc : s.boot.copying = false)
    (hh : s.boot.norHeld = false) (hstop : norStop s = false) :
    ∃ t, exec (.fwWriteComplete ok) s = .next t ∧ t.boot.writing = none ∧ t.boot.slotB = s.boot.slotB ∧
      t.boot.slotA = (if ok then { stateByte := 0xEF, image := x } else s.boot.slotA) ∧ t.funcs = s.funcs := by
  have hrec : s.boot.recovery = false := hs.2.2.1
  rw [exec_fwWriteComplete, execFwWriteComplete, hw]
  dsimp only
  rw [if_neg (by rw [hc, hh, hstop, life_of_hostReaches hs.1]; decide)]
  obtain ⟨d, n, c, hwork, _⟩ := workCode_store_parts ok x
    (btMod (fun b => { b with writing := none, doneBytes := b.totalBytes, skipA := b.skipA && !ok }) s)
  rw [hwork, if_neg (by show ¬ s.boot.recovery = true; rw [hrec]; decide)]
  cases ok with
  | false =>
    have hk := slotsKept_fwRecord 1 0x0B01 (packW [(c.num, 8)]) (s := { s with
      boot := { s.boot with writing := none, doneBytes := s.boot.totalBytes, skipA := s.boot.skipA && !false }, diag := d, free := n })
    exact ⟨_, rfl, hk.writing, hk.slotB, hk.slotA, hk.funcs⟩
  | true =>
    have hk := (slotsKept_measure 8 0 (imgInfo x) (digestOf (manifestOf x)) (s := { s with
      boot := { s.boot with
        writing := none, doneBytes := s.boot.totalBytes, skipA := s.boot.skipA && !true, slotA := { stateByte := 0xEF, image := x } }
      diag := d, free := n })).trans (slotsKept_fwRecord 1 0x0B01 (packW [(c.num, 8)]) _)
    exact ⟨_, rfl, hk.writing, hk.slotB, hk.slotA, hk.funcs⟩

/-- In recovery the boot ROM answers FW_WRITE at the end of the write (R552). -/
theorem fwWriteComplete_recovers {n : Nat} (x : List Word) (hl : u.power.life = .up) (hw : u.boot.writing = some x)
    (hc : u.boot.copying = false) (hh : u.boot.norHeld = false) (hstop : norStop u = false) (hrec : u.boot.recovery = true)
    (hn : waitingMb (fun w => decide (w = .fwWrite)) u = some n) :
    ∃ t, exec (.fwWriteComplete true) u = .next t ∧ Completed u t n .ok 0 [] ∧ t.boot.writing = none := by
  rw [exec_fwWriteComplete, execFwWriteComplete, hw]
  dsimp only
  rw [if_neg (by rw [hc, hh, hstop, hl]; decide)]
  obtain ⟨d, k, c, hwork, hok⟩ := workCode_store_parts true x
    (btMod (fun b => { b with writing := none, doneBytes := b.totalBytes, skipA := b.skipA && !true }) u)
  rw [hwork, if_pos (by show u.boot.recovery = true; exact hrec), hok rfl]
  refine ⟨_, rfl, WaitsOn.completed (waitsOn_of_mbs ?_) hn .ok 0 [], ?_⟩
  · rfl
  · rw [answer_boot]
    rfl

/-! ### FW_COMMIT and the copy into slot B -/

theorem copyBegin_parts (s : State) : ∃ held st d, copyBegin s =
    { s with
      boot := { s.boot with
        copying := true, doneBytes := 0, totalBytes := imgBytes s.boot.slotA.image, slotB := { s.boot.slotB with stateByte := st },
        norHeld := held }
      diag := { s.diag with clerk := d } } := by
  obtain ⟨held, st, d, h⟩ := slotErase_parts true
    (btMod (fun x => { x with copying := true, doneBytes := 0, totalBytes := imgBytes x.slotA.image }) s)
  exact ⟨held, st, d, h⟩

theorem writeBegin_parts (x : List Word) (s : State) : ∃ held st d, writeBegin x s =
    { s with
      boot := { s.boot with
        writing := some x, doneBytes := 0, totalBytes := imgBytes x, slotA := { s.boot.slotA with stateByte := st }, norHeld := held }
      diag := { s.diag with clerk := d } } := by
  obtain ⟨held, st, d, h⟩ := slotErase_parts false
    (btMod (fun b => { b with writing := some x, doneBytes := 0, totalBytes := imgBytes x }) s)
  exact ⟨held, st, d, h⟩

theorem slotConfirmed_setBit (x : Slot) : slotConfirmed { x with stateByte := setBit x.stateByte 3 false } = true := by
  simp [slotConfirmed, setBit]

/-- What FW_COMMIT does with HOLDUP_GOOD: A is confirmed, the counters rise to FLOOR, the copy goes on (R544). -/
theorem commitGo_confirms (s : State) : slotConfirmed (commitGo s).boot.slotA = true ∧
    (commitGo s).boot.slotA.image = s.boot.slotA.image ∧
    (commitGo s).boot.counter0 = max (rollback s) (imgFloor s.boot.slotA.image) ∧
    (commitGo s).boot.counter1 = max (rollback s) (imgFloor s.boot.slotA.image) ∧ (commitGo s).boot.copying = true ∧
    (commitGo s).funcs = s.funcs ∧ (commitGo s).mbs = s.mbs := by
  unfold commitGo
  dsimp only [takeFree]
  rw [norOp_slot false (off := 0) (by decide), norOp_counter]
  generalize hv : fwRecord 1 0x0B02 _ _ = v
  have hk : ∃ w, SlotsKept w v ∧ w.boot.slotA = { s.boot.slotA with stateByte := setBit s.boot.slotA.stateByte 3 false } ∧
      w.boot.counter0 = max (rollback s) (imgFloor s.boot.slotA.image) ∧
      w.boot.counter1 = max (rollback s) (imgFloor s.boot.slotA.image) ∧ w.funcs = s.funcs ∧ w.mbs = s.mbs := by
    rw [← hv]
    exact ⟨_, (slotsKept_measure ..).trans (slotsKept_fwRecord ..), rfl, rfl, rfl, rfl, rfl⟩
  clear hv
  obtain ⟨w, hk, hA, h0, h1, hf, hm⟩ := hk
  have hA' := hk.slotA.trans hA
  split
  next hc =>
    exact ⟨by rw [hA']; exact slotConfirmed_setBit _, by rw [hA'], hk.counter0.trans h0, hk.counter1.trans h1, hc, hk.funcs.trans hf,
      hk.mbs.trans hm⟩
  next =>
    obtain ⟨held, st, d, h⟩ := copyBegin_parts v
    rw [h]
    exact ⟨by rw [hA']; exact slotConfirmed_setBit _, by rw [hA'], hk.counter0.trans h0, hk.counter1.trans h1, rfl,
      hk.funcs.trans hf, hk.mbs.trans hm⟩

theorem committed_rung : committed (rung o acts r s) = committed s := by
  unfold committed slotsEqual rollback
  rw [rung_boot]

theorem holdupGood_rung : holdupGood (rung o acts r s) = holdupGood s := by
  unfold holdupGood
  rw [rung_power]

theorem fwCommit_commits (hs : Ready s) (hh : High r 0) (hb : s.boot.imageB = false) (hw : s.boot.writing = none) :
    (committed s = true → Asks (.fwCommit r) r s []) ∧
    (committed s = false → holdupGood s = true →
      ∃ t, exec (.fwCommit r) s = .next t ∧ Answered t r .ok 0 [] ∧ slotConfirmed t.boot.slotA = true ∧
        t.boot.slotA.image = s.boot.slotA.image ∧ t.boot.counter0 = max (rollback s) (imgFloor s.boot.slotA.image) ∧
        t.boot.counter1 = max (rollback s) (imgFloor s.boot.slotA.image) ∧ t.boot.copying = true ∧ t.funcs = s.funcs) ∧
    (committed s = false → holdupGood s = false → Awaits (.fwCommit r) r s s .fwCommit) := by
  have hbad : ∀ {d}, committed s = d → firstErr
      [if (rung 0x0B03 [] r s).boot.imageB then some (errR .state 1) else none,
       if (rung 0x0B03 [] r s).boot.writing.isSome then some (errR .busy 0) else none,
       if committed (rung 0x0B03 [] r s) then some (okR []) else none] = if d = true then some (okR []) else none := by
    intro d hd
    rw [rung_boot, hb, hw, committed_rung, hd]
    cases d <;> rfl
  refine ⟨fun hc => ?_, fun hc hg => ?_, fun hc hg => ?_⟩
  · rw [Asks, exec_fwCommit, execFwCommit]
    exact does_of hs (taken_high hh rfl rfl rfl (by decide)) (guardE_some (hbad hc)) rfl (served_rung ..)
  · obtain ⟨h1, h2, h3, h4, h5, h6, h7⟩ := commitGo_confirms (rung 0x0B03 [] r s)
    have hroll : rollback (rung 0x0B03 [] r s) = rollback s := by unfold rollback; rw [rung_boot]
    rw [rung_boot, hroll] at h3 h4
    rw [rung_boot] at h2
    rw [rung_funcs] at h6
    rw [exec_fwCommit, execFwCommit]
    refine mailbox_ends hs (taken_high hh rfl rfl rfl (by decide)) ((guardE_none (hbad hc)).trans
      (if_pos (by rw [holdupGood_rung]; exact hg))) h7 fun t hans hserved => ⟨hans, ?_⟩
    rw [hserved.boot, hserved.funcs]
    exact ⟨h1, h2, h3, h4, h5, h6⟩
  · rw [Awaits, exec_fwCommit, execFwCommit]
    exact awaits_of hs (taken_high hh rfl rfl rfl (by decide)) ((guardE_none (hbad hc)).trans
      (if_neg (by rw [holdupGood_rung, hg]; decide))) rfl (served_rung ..)

/-- The copy ends with slot B WRITTEN and CONFIRMED, and a write of slot A that waited behind it begins (R544). -/
theorem slotBCopyComplete_ends (hs : Ready s) (ok : Bool) (hc : s.boot.copying = true) (hh : s.boot.norHeld = false)
    (hstop : norStop s = false) :
    ∃ t, exec (.slotBCopyComplete ok) s = .next t ∧ t.boot.copying = false ∧ t.boot.writing = s.boot.writing ∧
      (ok = true → t.boot.slotB = { stateByte := 0xE7, image := s.boot.slotA.image }) ∧ (ok = false → t.boot.slotB = s.boot.slotB) := by
  rw [exec_slotBCopyComplete, execSlotBCopyComplete, if_neg (by rw [hc, hh, hstop, life_of_hostReaches hs.1]; decide)]
  dsimp only
  generalize hv : fwRecord 1 0x0B03 _ _ = v
  have hk : v.boot.copying = false ∧ v.boot.writing = s.boot.writing ∧
      v.boot.slotB = if ok then { stateByte := 0xE7, image := s.boot.slotA.image } else s.boot.slotB := by
    have h : ∀ n u, (fwRecord 1 0x0B03 n u).boot = u.boot := fun n u => emit_boot ..
    rw [← hv, h, workCode_boot]
    cases ok with
    | false => exact ⟨rfl, rfl, rfl⟩
    | true =>
      rw [if_pos rfl, slotStore_boot]
      exact ⟨rfl, rfl, rfl⟩
  clear hv
  obtain ⟨hcop, hwr, hB⟩ := hk
  have hends : ∀ t : State, t.boot.copying = false → t.boot.writing = v.boot.writing → t.boot.slotB = v.boot.slotB →
      t.boot.copying = false ∧ t.boot.writing = s.boot.writing ∧
        (ok = true → t.boot.slotB = { stateByte := 0xE7, image := s.boot.slotA.image }) ∧
        (ok = false → t.boot.slotB = s.boot.slotB) := fun t h1 h2 h3 =>
    ⟨h1, h2.trans hwr, fun h => by rw [h3, hB, h]; rfl, fun h => by rw [h3, hB, h]; rfl⟩
  split
  next x hx =>
    obtain ⟨held, st, d, h⟩ := writeBegin_parts x v
    exact ⟨_, rfl, hends _ (by rw [h]; exact hcop) (by rw [h]; exact hx.symm) (by rw [h])⟩
  next => exact ⟨_, rfl, hends v hcop rfl rfl⟩

end

/-- Settles O51. -/
theorem firmware : Obligations.Firmware := by
  intro r s hs
  refine ⟨fun hh => ?_, fun image => fwWrite_begins hs image, fwWriteComplete_ends hs, fun hw ok => ?_, fun ok hw => ⟨?_, ?_⟩,
    fun u x n hl hw hc hh hstop hrec hn => fwWriteComplete_recovers x hl hw hc hh hstop hrec hn, fun hh hb hw => fwCommit_commits hs hh hb hw,
    slotBCopyComplete_ends hs, fun hc ok => ?_⟩
  · have hq : fwWords (rung 0x0B01 [] r s) = fwWords s := by
      unfold fwWords slotStatus slotOf imageBad rootOk skipOf? rollback
      rw [rung_boot, rung_clk, rung_clerk_bootFail]
    rw [Asks, exec_fwQuery, execFwQuery]
    exact asks_of hs (taken_high hh rfl rfl rfl (by decide)) (by rw [hq])
  · rw [exec_fwWriteComplete, execFwWriteComplete, hw]
  · rw [exec_fwWriteComplete, execFwWriteComplete]
    split
    · rfl
    · rw [if_pos]
      obtain h | h := hw <;> simp [h]
  · rw [exec_slotBCopyComplete, execSlotBCopyComplete, if_pos]
    obtain h | h := hw <;> simp [h]
  · rw [exec_slotBCopyComplete, execSlotBCopyComplete, if_pos (by rw [hc]; simp)]

end Sys2Proof.Machine

end

section
/-! PROOFS. Attestation, policies and the wait for HOLDUP_GOOD (R30, R445, R545 to R549, R554 to R558). -/

namespace Sys2Proof.Machine

section
variable {s t u : State} {o n : Nat} {acts : List Nat} {r : Req}

/-! ### A mailbox that rests -/

/-- Mailbox `n` stands as `m`, with no command in it. -/
def Rests (n : Nat) (m : Mailbox) (s : State) : Prop := s.mbs[n]? = some m ∧ m.busy = none

/-- An answer goes to a mailbox that waits, so that one that rests stays as it is (R97). -/
theorem rests_answer {m : Mailbox} (h : Rests n m s) (w : Waiting) (c : Code) (d : Nat) (l : List Word) :
    Rests n m (answer w c d l s) := by
  obtain ⟨hm, hidle⟩ := h
  refine ⟨?_, hidle⟩
  unfold answer
  cases hw : waitingMb (fun x => decide (x = w)) s with
  | none => exact hm
  | some k =>
    obtain ⟨m', hm', hbusy⟩ := busy_of_waitingMb hw
    have hne : n ≠ k := by
      rintro rfl
      rw [hm] at hm'
      cases hm'
      rw [hidle] at hbusy
      exact absurd hbusy (by decide)
    exact (complete_other hne c d l s).trans hm

theorem rests_of_mbs {m : Mailbox} (h : Rests n m s) (hm : t.mbs = s.mbs) : Rests n m t := ⟨by rw [hm]; exact h.1, h.2⟩

/-- A completed command stays completed while its mailbox rests. -/
theorem completed_rests {c : Code} {d : Nat} {l : List Word} (h : Completed s t n c d l) (hr : ∀ m, Rests n m t → Rests n m u) :
    Completed s u n c d l := by
  obtain ⟨m, b, m', hm, hb, hm', hidle, hrest⟩ := h
  exact ⟨m, b, m', hm, hb, (hr m' ⟨hm', hidle⟩).1, hidle, hrest⟩

/-! ### The record writes leave mailboxes that rest, and the policy in force -/

theorem norErase_policy (kind : Nat) (p : List Word) (s : State) : (norErase kind p s).mbs = s.mbs ∧
    (norErase kind p s).boot.policy = s.boot.policy ∧ (norErase kind p s).boot.policySeq = s.boot.policySeq := by
  unfold norErase
  rw [norOp_region]
  unfold norMod
  split <;> exact ⟨rfl, rfl, rfl⟩

theorem norNext_policy (s : State) : (norNext s).mbs = s.mbs ∧ (norNext s).boot.policy = s.boot.policy ∧
    (norNext s).boot.policySeq = s.boot.policySeq := by
  unfold norNext
  split_ifs
  · exact ⟨rfl, rfl, rfl⟩
  · exact norErase_policy ..
  · exact norErase_policy ..
  · split
    · exact norErase_policy ..
    · exact ⟨rfl, rfl, rfl⟩

theorem norStore_mbs (w : NorWrite) (x : NorRec) (s : State) : (norStore w x s).mbs = s.mbs := by
  have hmod : ∀ k f v, (norMod k f v).mbs = v.mbs := fun k f v => by unfold norMod; split <;> rfl
  unfold norStore norAdvance
  dsimp only
  rw [norOp_region, norOp_region]
  refine holds_ite (P := fun t => t.mbs = s.mbs) ?_ ?_ <;> simp only [hmod]

theorem disqualifyAll_keeps (reason : Nat) (s : State) : (disqualifyAll reason s).mbs = s.mbs ∧ (disqualifyAll reason s).boot = s.boot := by
  unfold disqualifyAll
  refine holds_foldl (P := fun t => t.mbs = s.mbs ∧ t.boot = s.boot) ⟨rfl, rfl⟩ fun t k ht => ?_
  refine ⟨(disqualify_mbs ..).trans ht.1, ?_⟩
  unfold disqualify
  refine holds_ite (P := fun v : State => v.boot = s.boot) ?_ ht.2
  rw [estRecord, emit_boot]
  exact ht.2

theorem rests_norGone {m : Mailbox} (h : Rests n m s) : Rests n m (norGone s) := by
  have h1 : Rests n m (norNext s) := rests_of_mbs h (norNext_policy s).1
  unfold norGone estStopDone
  refine holds_ite (P := Rests n m) (rests_answer (rests_of_mbs h1 ?_) ..) h1
  rw [fnSet_mbs, (disqualifyAll_keeps ..).1]

theorem norGone_policy (s : State) : (norGone s).boot.policy = s.boot.policy ∧ (norGone s).boot.policySeq = s.boot.policySeq := by
  obtain ⟨_, h1, h2⟩ := norNext_policy s
  unfold norGone estStopDone
  refine holds_ite (P := fun t : State => t.boot.policy = s.boot.policy ∧ t.boot.policySeq = s.boot.policySeq) ?_ ⟨h1, h2⟩
  rw [answer_boot, fnSet_boot, (disqualifyAll_keeps ..).2]
  exact ⟨h1, h2⟩

/-! ### Policies -/

/-- A measurement changes the measurement log alone (R546). -/
theorem measure_parts (type id : Nat) (info digest : List Word) (s : State) :
    ∃ l n h, measure type id info digest s = { s with boot := { s.boot with mlog := l, mlogCount := n, mlogHash := h } } := by
  unfold measure
  split
  · exact ⟨_, _, _, rfl⟩
  · exact ⟨_, _, _, rfl⟩

theorem policyBad_rung (p : List Word) : policyBad (rung o acts r s) p = policyBad s p := by
  unfold policyBad policyOwner
  rw [rung_boot, rung_clerk_serial]

/-- A policy that passes its checks waits for its commit entry (R557). -/
theorem policySet_awaits (hs : Ready s) (hh : High r 3) {desc : HostRead} {p : List Word} (hl : (r.w 4).toNat = 512)
    (hread : descRead (wide (r.w 2) (r.w 3)) 512 2 desc = .ok p) (hbad : policyBad s p = none) :
    (s.est.writing = none → norStop s = false → Awaits (.policySet r desc) r s (norErase 2 p s) (.policySet p)) ∧
    (s.est.writing.isSome = true ∨ norStop s = true → Awaits (.policySet r desc) r s s (.policySet p)) := by
  have hstop : norStop (rung 0x0B07 [] r s) = norStop s := by unfold norStop; rw [rung_power]
  refine ⟨fun hw hn => ?_, fun h => ?_⟩
  · rw [Awaits, exec_policySet, execPolicySet]
    refine awaits_of hs (taken_high hh rfl rfl rfl (by decide)) (b := norErase 2 p (rung 0x0B07 [] r s)) ?_ (norErase_policy ..).1
      ((served_rung ..).norErase 2 p)
    rw [hl, hread]
    dsimp only
    rw [if_neg (not_not.mpr rfl), policyBad_rung, hbad]
    dsimp only
    rw [if_neg (by rw [rung_est, hw, hstop, hn]; decide)]
  · rw [Awaits, exec_policySet, execPolicySet]
    refine awaits_of hs (taken_high hh rfl rfl rfl (by decide)) (b := rung 0x0B07 [] r s) ?_ rfl (served_rung ..)
    rw [hl, hread]
    dsimp only
    rw [if_neg (not_not.mpr rfl), policyBad_rung, hbad]
    dsimp only
    rw [if_pos (by rw [rung_est, hstop, Bool.or_eq_true]; exact h)]

/-- The policy comes into force with its commit entry, which the answer follows (R548, R557). -/
theorem policyCommit_commits {w : NorWrite} (hw : waitingMb (fun x => decide (x = .policySet w.policy)) u = some n)
    (hbad : policyBad u w.policy = none) :
    Completed u (policyCommit w u) n .ok 0 [] ∧ (policyCommit w u).boot.policy = some w.policy ∧
      (policyCommit w u).boot.policySeq = (w.policy.getD 1 0).toNat := by
  unfold policyCommit policyGo
  rw [hbad]
  dsimp only
  obtain ⟨_, _, _, hm⟩ := measure_parts 5 (spareSlot u.boot.policies) [w.policy.getD 1 0] (digestOf w.policy)
    (btMod (fun b => { b with policy := some w.policy, policySlot := spareSlot u.boot.policies, policySeq := (w.policy.getD 1 0).toNat })
      (norStore w { words := w.policy } u))
  rw [hm]
  refine ⟨WaitsOn.completed (waitsOn_of_mbs ?_) hw .ok 0 [], ?_⟩
  · rw [fwRecord, emit_mbs]
    exact norStore_mbs ..
  · rw [answer_boot, fwRecord, emit_boot]
    exact ⟨rfl, rfl⟩

theorem norWriteResume_policy {w : NorWrite} (hwr : u.est.writing = some w) (hk : w.kind = 2) (hp : w.phase = .waiting)
    (hg : holdupGood u = true) (hw : waitingMb (fun x => decide (x = .policySet w.policy)) u = some n)
    (hbad : policyBad u w.policy = none) :
    ∃ t, exec (.norWriteResume true) u = .next t ∧ Completed u t n .ok 0 [] ∧ t.boot.policy = some w.policy ∧
      t.boot.policySeq = (w.policy.getD 1 0).toNat := by
  obtain ⟨hc, hpol, hseq⟩ := policyCommit_commits (w := w) (u := estMod (fun e => { e with writing := none }) u) hw hbad
  rw [exec_norWriteResume, execNorWriteResume, hwr]
  dsimp only
  rw [if_neg (by rw [hp, hg]; decide), if_pos rfl]
  refine ⟨_, rfl, ?_⟩
  unfold norCommitted
  dsimp only
  rw [if_pos hk, (norGone_policy _).1, (norGone_policy _).2]
  exact ⟨completed_rests hc fun m => rests_norGone, hpol, hseq⟩

/-! ### The end of the wait for HOLDUP_GOOD -/

/-- After a second without HOLDUP_GOOD the first FW_COMMIT that waits times out (R553). -/
theorem holdupGoodWaitTimeout_ends (hg : holdupGood u = false) (hw : waitingMb (fun w => decide (w = .fwCommit)) u = some n) :
    ∃ t, exec .holdupGoodWaitTimeout u = .next t ∧ Completed u t n .timeout 1 [] ∧
      (u.est.writing = none → t.boot = u.boot ∧ t.funcs = u.funcs) := by
  rw [exec_holdupGoodWaitTimeout, execHoldupGoodWaitTimeout, if_neg (by rw [hg]; decide)]
  dsimp only
  rw [show List.range 4 = 0 :: [1, 2, 3] from rfl, List.foldl_cons]
  generalize hv : answer .fwCommit .timeout 1 [] (answer .estSave .timeout 1 [] (answer (.funcStop fEST) .timeout 0 [] u)) = v
  have hdone : Completed u v n .timeout 1 [] := by
    rw [← hv]
    exact ((waitsOn_answer (by decide) _ _ _ _).trans (waitsOn_answer (by decide) _ _ _ _)).completed hw _ _ _
  have hkept : v.boot = u.boot ∧ v.funcs = u.funcs ∧ v.est = u.est := by
    rw [← hv]
    simp only [answer_boot, answer_funcs, answer_est, and_self]
  clear hv
  generalize hx : List.foldl _ v [1, 2, 3] = x
  have hx1 : ∀ m, Rests n m v → Rests n m x := fun m h => by
    rw [← hx]
    exact holds_foldl (P := Rests n m) h fun _ _ ht => rests_answer (rests_answer ht ..) ..
  have hx2 : x.boot = u.boot ∧ x.funcs = u.funcs ∧ x.est = u.est := by
    rw [← hx]
    refine holds_foldl (P := fun t => t.boot = u.boot ∧ t.funcs = u.funcs ∧ t.est = u.est) hkept fun t _ ht => ?_
    rw [answer_boot, answer_boot, answer_funcs, answer_funcs, answer_est, answer_est]
    exact ht
  clear hx
  generalize hy : List.foldl _ x (policiesWaiting x) = y
  have hy1 : ∀ m, Rests n m x → Rests n m y := fun m h => by
    rw [← hy]
    exact holds_foldl (P := Rests n m) h fun _ _ ht => rests_answer ht ..
  have hy2 : y.boot = u.boot ∧ y.funcs = u.funcs ∧ y.est = u.est := by
    rw [← hy]
    refine holds_foldl (P := fun t => t.boot = u.boot ∧ t.funcs = u.funcs ∧ t.est = u.est) hx2 fun t _ ht => ?_
    rw [answer_boot, answer_funcs, answer_est]
    exact ht
  obtain ⟨hboot, hfuncs, hest⟩ := hy2
  refine ⟨_, rfl, completed_rests hdone fun m h => ?_, fun hnone => ?_⟩
  · have hym := hy1 m (hx1 m h)
    exact holds_ite (P := Rests n m) (rests_norGone (rests_of_mbs hym rfl)) hym
  · rw [if_neg (by rw [hest, hnone]; decide)]
    exact ⟨hboot, hfuncs⟩

/-! ### Quotes, the log and certificates -/

theorem quoteBody_rung (nonce : List Word) : quoteBody (rung o acts r s) nonce = quoteBody s nonce := by
  unfold quoteBody strokeLo strokeHi now rollback
  rw [rung_boot, rung_clk, rung_clerk_resetCause, rung_clerk_serial, rung_clerk_posin]

end

/-- Settles O52. -/
theorem attestationAndPolicies : Obligations.AttestationAndPolicies := by
  intro r s hs
  refine ⟨fun hh hid => ?_, fun hh hid => ?_, fun hh h1 h2 h3 h4 => ?_, fun hh h1 h2 => ?_, fun desc p hh hl hread hbad => ?_,
    fun w n u hwr hk hp hg hw hbad => norWriteResume_policy hwr hk hp hg hw hbad, fun hh => ?_,
    fun n u hg hw => holdupGoodWaitTimeout_ends hg hw, fun u hg => ?_⟩
  · intro q
    rw [Asks, exec_attestQuote, execAttestQuote]
    exact asks_of hs (taken_high hh rfl rfl rfl (by decide)) (by rw [rung_boot, if_neg (by rw [hid]; decide), quoteBody_rung])
  · rw [Refuses, exec_attestQuote, execAttestQuote]
    exact refuses_of hs (taken_high hh rfl rfl rfl (by decide)) (by rw [asks, rung_boot, if_pos hid]; rfl)
  · rw [Asks, exec_attestLogRead, execAttestLogRead]
    refine asks_of hs (taken_high hh rfl rfl rfl (by decide)) ?_
    dsimp only
    rw [if_neg (by omega), rung_boot, if_neg (by omega)]
  · rw [Asks, exec_attestCert, execAttestCert]
    refine asks_of hs (taken_high hh rfl rfl rfl (by decide)) ?_
    dsimp only
    rw [if_neg (by omega), rung_boot, if_neg (by omega)]
  · exact policySet_awaits hs hh hl hread hbad
  · rw [Asks, exec_policyQuery, execPolicyQuery]
    exact asks_of hs (taken_high hh rfl rfl rfl (by decide)) (by rw [rung_boot])
  · rw [exec_holdupGoodWaitTimeout, execHoldupGoodWaitTimeout, if_pos hg]

end Sys2Proof.Machine

end

section
/-! PROOFS. The dump, NOR summaries, counters, self-tests and raw access (R572, R573, R575 to R580). -/

namespace Sys2Proof.Machine

section
variable {s t u : State} {o : Nat} {acts : List Nat} {r : Req}

/-! ### The dump -/

theorem dumpRead_reads (hs : Ready s) (hh : High r 2) (h4 : (r.w 2).toNat % 4 = 0) (hz : fld (r.w 3) 10 22 = 0)
    (h1 : 1 ≤ fld (r.w 3) 0 10) (hm : fld (r.w 3) 0 10 ≤ 1000) (hend : (r.w 2).toNat + 4 * fld (r.w 3) 0 10 ≤ 0x10000000)
    (hv : s.clerk.dumpValid = true) (hread : clerkRead s (aDump + (r.w 2).toNat) (4 * fld (r.w 3) 0 10) = none) :
    Asks (.dumpRead r) r s (memWords (seeAs .clerk s) (aDump + (r.w 2).toNat) (fld (r.w 3) 0 10)) := by
  rw [Asks, exec_dumpRead, execDumpRead]
  have hbad : firstErr
      [rangeBad [(decide ((r.w 2).toNat % 4 ≠ 0), 2),
        (decide (fld (r.w 3) 10 22 ≠ 0) || decide (fld (r.w 3) 0 10 = 0) || decide (1000 < fld (r.w 3) 0 10), 3)],
       if 0x10000000 < (r.w 2).toNat + 4 * fld (r.w 3) 0 10 then some (errR .badLen 1) else none,
       if (rung 0x0C01 [] r s).clerk.dumpValid then none else some (errR .state 1)] = none := by
    rw [if_neg (by omega), rung_clerk_dumpValid, if_pos hv, h4, hz, decide_eq_false (show ¬ fld (r.w 3) 0 10 = 0 by omega),
      decide_eq_false (show ¬ 1000 < fld (r.w 3) 0 10 by omega)]
    rfl
  refine does_of hs (taken_high hh rfl rfl rfl (by decide)) ((guardE_none hbad).trans ?_) rfl (served_rung ..)
  rw [clerkRead_rung_none (damagedIn_of_clerkRead hread), memWords_rung]

theorem Served.dumpDrop (h : Served s t) : Served (dumpDrop s) (dumpDrop t) := by
  obtain ⟨h1, h2, h3, h4, h5, h6, h7, h8, h9, h10, h11, h12, h13, h14, h15, h16, h17, h18, h19, h20, h21, h22, h23, h24⟩ := h
  refine ⟨h1, ?_, h3, h4, h5, h6, h7, ?_, h9, h10, h11, h12, h13, h14, h15, h16, h17, h18, h19, h20, h21, h22, h23, h24⟩
  · exact congrArg (fun c : Clerk => { c with dumpValid := false, dumpPreserved := false, dumpCause := 0, dumpPtr := 0, fatal := false }) h2
  · exact congrArg (fun m : Mem => (pendWords [.clerk] aDump (List.replicate 16 0) { s with mem := m }).mem) h8

/-! ### Counters -/

theorem counterClear_other (g : Nat) (d : Diag) (hg : 2 ≤ g) (hg' : g ≤ 6) {l : List Nat} (h : counterGroup d g = some l) :
    counterGroup (counterClear g d) g = some (l.map fun _ => 0) := by
  obtain rfl | rfl | rfl | rfl | rfl : g = 2 ∨ g = 3 ∨ g = 4 ∨ g = 5 ∨ g = 6 := by omega
  all_goals
    cases h
    rfl

/-- Groups 2 to 6 do not count what the Clerk and the host link do. -/
theorem counterGroup_host (g : Nat) (d : Diag) (hg : 2 ≤ g) (hg' : g ≤ 6) (h c : List Nat) :
    counterGroup { d with host := h, clerk := c } g = counterGroup d g := by
  obtain rfl | rfl | rfl | rfl | rfl : g = 2 ∨ g = 3 ∨ g = 4 ∨ g = 5 ∨ g = 6 := by omega
  all_goals rfl

/-- What COUNTER_READ leaves: the counters, zeroed where it says so, and the record of dropped writes armed again (R138, R577). -/
def counterRead (r : Req) (s : State) : State :=
  let g := fld (r.w 2) 0 8
  { s with
    diag := if bit (r.w 2) 31 then counterClear g s.diag else s.diag
    link := { s.link with dropArmed := if g = 1 then true else s.link.dropArmed } }

theorem counterRead_reads (hs : Ready s) {l : List Nat} (hh : High r 1) (hz : fld (r.w 2) 8 23 = 0)
    (hl : counterGroup (rung 0x0C04 [] r s).diag (fld (r.w 2) 0 8) = some l) :
    ∃ t, exec (.counterRead r) s = .next t ∧ Answered t r .ok 0 (l.flatMap fun c => [lo32 c, hi32 c]) ∧
      Served (counterRead r (rung 0x0C04 [] r s)) t := by
  rw [exec_counterRead, execCounterRead]
  refine does_of hs (taken_high hh rfl rfl rfl (by decide)) (b := counterRead r (rung 0x0C04 [] r s)) ?_ rfl (served_refl _)
  dsimp only
  rw [if_neg (by rw [hz]; decide), hl]
  unfold counterRead
  dsimp only
  by_cases hb : bit (r.w 2) 31 = true <;> by_cases hg : fld (r.w 2) 0 8 = 1 <;> simp only [hb, hg, if_true, if_false] <;> rfl

theorem Served.set_dropArmed (h : Served s t) (d : Bool) : Served { s with link := { s.link with dropArmed := d } }
    { t with link := { t.link with dropArmed := d } } := by
  obtain ⟨h1, h2, h3, h4, h5, h6, h7, h8, h9, h10, h11, h12, h13, h14, h15, h16, h17, h18, h19, h20, h21, h22, h23, h24⟩ := h
  exact ⟨h1, h2, h3, h4, h5, congrArg (fun l : Link => { l with dropArmed := d }) h6, h7, h8, h9, h10, h11, h12, h13, h14, h15, h16,
    h17, h18, h19, h20, h21, h22, h23, h24⟩

theorem Served.set_diag (h : Served s t) (d : Diag) : Served { s with diag := d } { t with diag := d } := by
  obtain ⟨h1, h2, h3, h4, h5, h6, h7, h8, h9, h10, h11, h12, h13, h14, h15, h16, h17, h18, h19, h20, h21, h22, h23, h24⟩ := h
  exact ⟨h1, h2, h3, h4, h5, h6, h7, h8, h9, h10, h11, h12, h13, h14, h15, h16, h17, h18, h19, h20, h21, h22, rfl, h24⟩

theorem served_ownDiag (h : Served s t) : Served { s with diag := t.diag } t := by
  obtain ⟨h1, h2, h3, h4, h5, h6, h7, h8, h9, h10, h11, h12, h13, h14, h15, h16, h17, h18, h19, h20, h21, h22, h23, h24⟩ := h
  exact ⟨h1, h2, h3, h4, h5, h6, h7, h8, h9, h10, h11, h12, h13, h14, h15, h16, h17, h18, h19, h20, h21, h22, rfl, h24⟩

/-- What the answer of COUNTER_READ leaves of the state before the request. -/
theorem counterRead_leaves {l : List Nat} {v : State} (hv : Served s v) (h : Served (counterRead r v) t)
    (hl : counterGroup v.diag (fld (r.w 2) 0 8) = some l) :
    Served { s with diag := t.diag, link := { s.link with dropArmed := t.link.dropArmed } } t ∧
      (fld (r.w 2) 0 8 = 1 → t.link.dropArmed = true) ∧ (fld (r.w 2) 0 8 ≠ 1 → t.link.dropArmed = s.link.dropArmed) ∧
      (bit (r.w 2) 31 = false → t.diag = { s.diag with host := t.diag.host, clerk := t.diag.clerk }) ∧
      (bit (r.w 2) 31 = true → 2 ≤ fld (r.w 2) 0 8 → fld (r.w 2) 0 8 ≤ 6 →
        counterGroup t.diag (fld (r.w 2) 0 8) = some (l.map fun _ => 0)) := by
  have harm : t.link.dropArmed = if fld (r.w 2) 0 8 = 1 then true else v.link.dropArmed := congrArg Link.dropArmed h.link
  have hvarm : v.link.dropArmed = s.link.dropArmed := by rw [hv.link]
  refine ⟨?_, fun hg => by rw [harm, if_pos hg], fun hg => by rw [harm, if_neg hg, hvarm], fun hb => ?_, fun hb h2 h6 => ?_⟩
  · have hown : Served { counterRead r v with diag := t.diag } t := served_ownDiag h
    rw [harm]
    exact ((hv.set_dropArmed _).set_diag t.diag).trans hown
  · have hd := h.diag
    rw [show (counterRead r v).diag = v.diag from if_neg (by rw [hb]; decide), hv.diag] at hd
    exact hd
  · have hd : (counterRead r v).diag = counterClear (fld (r.w 2) 0 8) v.diag := if_pos hb
    rw [h.diag, counterGroup_host _ _ h2 h6, hd]
    exact counterClear_other _ _ h2 h6 hl

/-! ### Self-tests -/

theorem claimOwner_none {res : Nat} (h : claimOwner s res = none) : ∀ c ∈ s.claims, c.1 ≠ res := by
  unfold claimOwner at h
  rw [Option.map_eq_none_iff, List.find?_eq_none] at h
  exact fun c hc => by simpa using h c hc

/-- A claim that was free leaves no trace when it is released (R118). -/
theorem filter_claimInsert (res owner : Nat) (l : List (Nat × Nat)) (hr : ∀ c ∈ l, c.1 ≠ res) (ho : ∀ c ∈ l, c.2 ≠ owner) :
    (claimInsert res owner l).filter (fun c => c.2 ≠ owner) = l := by
  have hl : ∀ l : List (Nat × Nat), (∀ c ∈ l, c.2 ≠ owner) → l.filter (fun c => c.2 ≠ owner) = l := fun l h =>
    List.filter_eq_self.mpr fun c hc => decide_eq_true (h c hc)
  induction l with
  | nil => simp [claimInsert]
  | cons c l ih =>
    have hc := ho c List.mem_cons_self
    have htail := fun d hd => ho d (List.mem_cons_of_mem c hd)
    unfold claimInsert
    split
    · rw [List.filter_cons_of_neg (by simp), hl _ ho]
    · rw [if_neg (fun h => hr c List.mem_cons_self h.symm), List.filter_cons, if_pos (decide_eq_true hc),
        ih (fun d hd => hr d (List.mem_cons_of_mem c hd)) htail]

/-- SELFTEST gives back the frequency counter, which was free (R118, R578). -/
theorem selftest_claims {f : State → State} (hf : ∀ v, (f v).claims = v.claims) (hfree : (claimConflict s oSelftest [rFreqCounter]).isNone = true)
    (ho : ∀ c ∈ s.claims, c.2 ≠ oSelftest) :
    (claimRelease oSelftest (f (claimAll oSelftest [rFreqCounter] s))).claims = s.claims := by
  unfold claimRelease
  show (f (claimAll oSelftest [rFreqCounter] s)).claims.filter _ = _
  rw [hf]
  refine filter_claimInsert rFreqCounter oSelftest s.claims (claimOwner_none ?_) ho
  unfold claimConflict at hfree
  cases hown : claimOwner s rFreqCounter with
  | none => rfl
  | some k =>
    rw [hown] at hfree
    have hk : k = oSelftest := by
      by_contra hne
      simp [hne] at hfree
    unfold claimOwner at hown
    obtain ⟨c, hc, hck⟩ := Option.map_eq_some_iff.mp hown
    exact absurd (hck.trans hk) (ho c (List.mem_of_find?_eq_some hc))

theorem testEnd_rung (results : List TestResult) (i : Nat) : testEnd (rung o acts r s) results i = testEnd s results i := by
  have hconf : claimConflict (rung o acts r s) oSelftest [rFreqCounter] = claimConflict s oSelftest [rFreqCounter] := by
    unfold claimConflict
    rw [claimOwner_rung]
    rfl
  unfold testEnd testMay
  simp only [fnRunning_rung, rung_pair, rung_clk, rung_pumps, hconf]

theorem served_testRecord (i : Nat) (x : TestResult) (s : State) : Served s (testRecord i x s) := by
  unfold testRecord
  split
  · exact served_emit ..
  · exact served_refl s

/-- The tests' ends, and the records of those that failed. -/
def testRecords (l : List (Nat × TestResult)) (s : State) : State := l.foldl (fun t x => testRecord x.1 x.2 t) s

theorem served_testRecords (l : List (Nat × TestResult)) (s : State) : Served s (testRecords l s) :=
  holds_foldl (P := Served s) (served_refl s) fun _ _ ht => ht.trans (served_testRecord ..)

theorem testRecords_mbs (l : List (Nat × TestResult)) (s : State) : (testRecords l s).mbs = s.mbs :=
  holds_foldl (P := fun t => t.mbs = s.mbs) rfl fun t x ht => by
    unfold testRecord
    split
    · rw [emit_mbs]
      exact ht
    · exact ht

theorem selftest_answers (hs : Ready s) (results : List TestResult) (hh : High r 1) (hz : fld (r.w 2) 7 25 = 0)
    (ho : ∀ c ∈ s.claims, c.2 ≠ oSelftest) :
    let l := ((List.range 7).filter fun i => bit (r.w 2) i).map fun i => (i, testEnd s results i)
    Asks (.selftest r results) r s
      [packW [(testBits l fun x => decide (x = .skipped), 16), (testBits l fun x => (failureOf x).isSome, 8),
         (testBits l fun x => decide (x = .passed), 0)], w32 ((l.findSome? fun x => failureOf x.2).getD 0)] := by
  intro l
  have hl : l = ((List.range 7).filter fun i => bit (r.w 2) i).map fun i => (i, testEnd s results i) := rfl
  rw [Asks, exec_selftest, execSelftest]
  clear_value l
  generalize (List.range 7).filter (fun i => bit (r.w 2) i) = sel at hl ⊢
  have hlv : (sel.map fun i => (i, testEnd (rung 0x0C05 (sel.flatMap testActs) r s) results i)) = l := by
    rw [hl]
    simp only [testEnd_rung]
  generalize hv : rung 0x0C05 (sel.flatMap testActs) r s = v at hlv
  have hsv : Served s v := hv ▸ served_rung ..
  by_cases hc : (sel.contains 4 && testMay v 4) = true
  · have hfree : (claimConflict v oSelftest [rFreqCounter]).isNone = true := by
      rw [Bool.and_eq_true] at hc
      have hmay : (v.clk.measure.isNone && (claimConflict v oSelftest [rFreqCounter]).isNone) = true := hc.2
      exact (Bool.and_eq_true _ _ ▸ hmay).2
    have hserved := served_testRecords l (claimAll oSelftest [rFreqCounter] v)
    have hback : (claimRelease oSelftest (testRecords l (claimAll oSelftest [rFreqCounter] v))).claims = v.claims :=
      selftest_claims (fun u => (served_testRecords l u).claims) hfree (by rw [hsv.claims]; exact ho)
    refine does_of hs (taken_high hh rfl rfl rfl (by decide))
      (b := claimRelease oSelftest (testRecords l (claimAll oSelftest [rFreqCounter] v))) ?_ ?_ ?_
    · dsimp only
      rw [hv, if_neg (by rw [hz]; decide), hlv, if_pos hc, if_pos hc]
      rfl
    · rw [hv]
      exact testRecords_mbs ..
    · exact hsv.trans (hserved.set_claims hback)
  · refine does_of hs (taken_high hh rfl rfl rfl (by decide)) (b := testRecords l v) ?_ ?_ (hsv.trans (served_testRecords l v))
    · dsimp only
      rw [hv, if_neg (by rw [hz]; decide), hlv, if_neg hc, if_neg hc]
      rfl
    · rw [hv]
      exact testRecords_mbs ..

/-! ### Raw access -/

theorem rawBad_rung : rawBad (rung o acts r s) r = rawBad s r := by
  have hconf : ∀ x, claimConflict (rung o acts r s) oDiag [x] = claimConflict s oDiag [x] := fun x => by
    unfold claimConflict
    rw [claimOwner_rung]
    rfl
  have hheld : rawHeld (rung o acts r s) = rawHeld s := by
    funext x
    unfold rawHeld engineBusy
    simp only [fnRunning_rung]
  unfold rawBad
  rw [hheld, hconf, fnRunning_rung]

theorem rawCount_lt (r : Req) : rawCount r < 256 := Nat.mod_lt _ (by decide)

theorem diagRaw_taken {c : Cmd} (hh : High r (2 + rawCount r)) (hw : rawWrite r = true) (hk : c.known = true) (hm : c.onMb = mbHigh)
    (hl : c.lenOk = fun n => decide (n = if rawWrite r then 2 + rawCount r else 2)) : Taken c r :=
  taken_high hh hk hm (by rw [hl, hw]; exact decide_eq_true rfl) (by have := rawCount_lt r; omega)

theorem rawMemory_reads (hs : Ready s) (reply : CmisReply) (hw : rawWrite r = false) (hh : High r 2) (hz : fld (r.w 2) 26 5 = 0)
    (hsp : rawSpace r = 0) (hn : rawCount r ≠ 0) (hbad : rawBad s r = none) (hread : clerkRead s (rawAddr r) (4 * rawCount r) = none) :
    ∃ t, exec (.diagRaw r reply) s = .next t ∧ t.mem.cells = s.mem.cells ∧ t.mem.writes = s.mem.writes ∧ t.funcs = s.funcs ∧
      Answered t r .ok 0 (memWords (seeAs .clerk s) (rawAddr r) (rawCount r)) := by
  have hguard : firstErr
      [if rawWrite r && policyFlag (rung 0x0C06 [] r s) 2 then some (errR .auth 4) else none,
       rangeBad [(decide (fld (r.w 2) 26 5 ≠ 0) || decide (rawSpace r = 3) || decide (rawCount r = 0), 2)],
       rawBad (rung 0x0C06 [] r s) r] = none := by
    rw [hw, hz, hsp, decide_eq_false hn, rawBad_rung, hbad]
    rfl
  rw [exec_diagRaw, execDiagRaw]
  refine mailbox_ends hs (taken_high hh rfl rfl (by rw [hw]; rfl) (by decide)) (b := readCount (rawAddr r) (4 * rawCount r) (rung 0x0C06 [] r s))
    (k := .ok) (d := 0) (w := memWords (seeAs .clerk s) (rawAddr r) (rawCount r)) ((guardE_none hguard).trans ?_) ?_ fun t hans hserved => ?_
  · rw [if_pos hsp, rawMemory, hw]
    dsimp only
    rw [if_neg Bool.false_ne_true, clerkRead_rung_none (damagedIn_of_clerkRead hread), memWords_rung]
    rfl
  · unfold readCount
    split <;> rfl
  · have hb : (readCount (rawAddr r) (4 * rawCount r) (rung 0x0C06 [] r s)).mem = (rung 0x0C06 [] r s).mem ∧
        (readCount (rawAddr r) (4 * rawCount r) (rung 0x0C06 [] r s)).funcs = (rung 0x0C06 [] r s).funcs := by
      unfold readCount
      split <;> exact ⟨rfl, rfl⟩
    have hr := served_rung 0x0C06 [] r s
    refine ⟨?_, ?_, ?_, hans⟩
    · rw [hserved.cells, hb.1, hr.cells]
    · rw [hserved.writes, hb.1, hr.writes]
    · rw [hserved.funcs, hb.2, hr.funcs]

/-- A raw access of space 1 names a domain (R580). -/
theorem rawDomain_lt (hsp : rawSpace r = 1) (hbad : rawBad s r = none) : fld (r.w 3) 0 5 < 18 := by
  by_contra hlt
  unfold rawBad at hbad
  rw [hsp] at hbad
  dsimp only at hbad
  rw [decide_eq_true (show 17 < fld (r.w 3) 0 5 by omega)] at hbad
  simp only [rangeBad, firstBad, Bool.or_true, Bool.true_or, if_true] at hbad
  split at hbad <;> exact absurd hbad (by simp [firstErr])

/-- The divider that a raw write names takes its target, at once or at the end of a switch of its source (R580). -/
def dividerWrite (r : Req) (s : State) : State :=
  { s with clk := { s.clk with
      domains := s.clk.domains.modify (fld (r.w 3) 0 5) fun x =>
        { x with target := if x.switching then x.target else (r.w 4).toNat, rawDiv := some (r.w 4).toNat } } }

/-- A raw write of a divider sets its target (R60, R580). -/
theorem rawClock_writes (hs : Ready s) (reply : CmisReply) (hw : rawWrite r = true) (hh : High r (2 + rawCount r))
    (hp : policyFlag s 2 = false) (hz : fld (r.w 2) 26 5 = 0) (hsp : rawSpace r = 1) (hn : rawCount r ≠ 0)
    (hbad : rawBad s r = none) (hb : bit (r.w 3) 8 = false) (hd : s.clk.domains.length = 18) :
    ∃ t, exec (.diagRaw r reply) s = .next t ∧ Answered t r .ok 0 [] ∧
      (t.clk.domains.getD (fld (r.w 3) 0 5) {}).rawDiv = some (r.w 4).toNat ∧
      ((s.clk.domains.getD (fld (r.w 3) 0 5) {}).switching = false →
        (t.clk.domains.getD (fld (r.w 3) 0 5) {}).target = (r.w 4).toNat) ∧ t.funcs = s.funcs ∧ t.mem.cells = s.mem.cells := by
  have hguard : firstErr
      [if rawWrite r && policyFlag (rung 0x0C06 [] r s) 2 then some (errR .auth 4) else none,
       rangeBad [(decide (fld (r.w 2) 26 5 ≠ 0) || decide (rawSpace r = 3) || decide (rawCount r = 0), 2)],
       rawBad (rung 0x0C06 [] r s) r] = none := by
    rw [hw, policyFlag_rung, hp, hz, hsp, decide_eq_false hn, rawBad_rung, hbad]
    rfl
  have hlt : fld (r.w 3) 0 5 < 18 := rawDomain_lt hsp hbad
  rw [exec_diagRaw, execDiagRaw]
  refine mailbox_ends hs (diagRaw_taken hh hw rfl rfl rfl) (b := rawRecord r (measureBlur (dividerWrite r (rung 0x0C06 [] r s))))
    (k := .ok) (d := 0) (w := []) ((guardE_none hguard).trans ?_) ?_ fun t hans hserved => ⟨hans, ?_⟩
  · rw [if_neg (by rw [hsp]; decide), if_pos hsp, rawClock, hw, hb]
    rfl
  · rw [rawRecord, emit_mbs]
    rfl
  · have hrec := served_emit 1 oDiag 0x0C04 [strokeLo (measureBlur (dividerWrite r (rung 0x0C06 [] r s))),
      packW [(rawSpace r, 24), (rawCount r, 16)], r.w 3] (measureBlur (dividerWrite r (rung 0x0C06 [] r s)))
    have hr := served_rung 0x0C06 [] r s
    have hall := hrec.trans hserved
    have hdom : t.clk.domains.getD (fld (r.w 3) 0 5) {} =
        { s.clk.domains.getD (fld (r.w 3) 0 5) {} with
          target := if (s.clk.domains.getD (fld (r.w 3) 0 5) {}).switching then (s.clk.domains.getD (fld (r.w 3) 0 5) {}).target
            else (r.w 4).toNat
          rawDiv := some (r.w 4).toNat } := by
      rw [hall.clk]
      show (((rung 0x0C06 [] r s).clk.domains.modify (fld (r.w 3) 0 5) _).getD _ _) = _
      rw [rung_clk, List.getD_eq_getElem?_getD, List.getD_eq_getElem?_getD, List.getElem?_modify_eq,
        List.getElem?_eq_getElem (by omega)]
      rfl
    refine ⟨by rw [hdom], fun hsw => by rw [hdom, hsw]; rfl, ?_, ?_⟩
    · rw [hall.funcs]
      exact hr.funcs
    · rw [hall.cells]
      exact hr.cells

end

/-- Settles O53. -/
theorem diagnosticCommands : Obligations.DiagnosticCommands := by
  intro r s hs
  refine ⟨dumpRead_reads hs, fun hh hv => ?_, fun hh hv => ?_, fun e hh hz he => ?_, fun l hh hz hl => ?_,
    selftest_answers hs, fun reply hw hh hp => ?_, fun reply => rawMemory_reads hs reply, fun reply => rawClock_writes hs reply⟩
  · rw [Does, exec_dumpRelease, execDumpRelease]
    refine does_of hs (taken_high hh rfl rfl rfl (by decide)) (b := dumpDrop (rung 0x0C02 [] r s)) ?_ rfl (served_rung ..).dumpDrop
    rw [if_pos (by rw [rung_clerk_dumpValid]; exact hv)]
  · rw [Asks, exec_dumpRelease, execDumpRelease]
    refine does_of hs (taken_high hh rfl rfl rfl (by decide)) (b := rung 0x0C02 [] r s) ?_ rfl (served_rung ..)
    rw [if_neg (by rw [rung_clerk_dumpValid, hv]; decide)]
  · rw [Asks, exec_norSummaryRead, execNorSummaryRead]
    refine asks_of hs (taken_high hh rfl rfl rfl (by decide)) ?_
    have hsum : validSummaries (rung 0x0C03 [] r s) = validSummaries s := by
      unfold validSummaries
      rw [(served_rung 0x0C03 [] r s).diag]
    dsimp only
    rw [if_neg (by rw [hz]; decide), hsum, he]
  · obtain ⟨t, hexec, hans, hserved⟩ := counterRead_reads hs hh hz hl
    exact ⟨t, hexec, hans, counterRead_leaves (served_rung ..) hserved hl⟩
  · rw [Refuses, exec_diagRaw, execDiagRaw]
    refine refuses_of hs (diagRaw_taken hh hw rfl rfl rfl) (guardE_some ?_)
    rw [hw, policyFlag_rung, hp]
    rfl

end Sys2Proof.Machine

end

section
/-! PROOFS. A fatal error, the bridges and the scrubber (R179, R191, R193, R560 to R562). -/

namespace Sys2Proof.Machine

section
variable {s t u : State}

/-! ### What stopping the rings changes -/

/-- The state after transfers of the pumps: rings, claims, memory, the counters of moved bytes and free values, and nothing else. -/
structure RingsMoved (s t : State) : Prop where
  frame : t = { s with pumps := t.pumps, claims := t.claims, mem := t.mem, diag := { s.diag with perf := t.diag.perf }, free := t.free }
  bridges : t.mem.bridges = s.mem.bridges

theorem RingsMoved.refl (s : State) : RingsMoved s s := ⟨rfl, rfl⟩

theorem RingsMoved.trans (h : RingsMoved s t) (k : RingsMoved t u) : RingsMoved s u :=
  ⟨k.frame.trans (by rw [h.frame]), k.bridges.trans h.bridges⟩

theorem ringsMoved_readCount (a n : Nat) (h : RingsMoved s t) : RingsMoved s (readCount a n t) :=
  holds_ite (P := RingsMoved s) (h.trans ⟨rfl, rfl⟩) h

theorem ringsMoved_pumpStore (p : Nat) (d : PumpDesc) (bs : List Byte) (h : RingsMoved s t) : RingsMoved s (pumpStore p d bs t) := by
  unfold pumpStore
  extract_lets v a others mark clash s1 bs' s2
  have h1 : RingsMoved s s1 := h.trans ⟨rfl, rfl⟩
  have h2 : RingsMoved s s2 := h1.trans ⟨rfl, rfl⟩
  clear_value s2
  refine holds_ite (P := RingsMoved s) (h2.trans ⟨rfl, rfl⟩) (h2.trans ?_)
  unfold openWrite
  dsimp only
  split <;> exact ⟨rfl, rfl⟩

theorem ringsMoved_pumpMove (p : Nat) (d : PumpDesc) (n : Nat) (data : List Word) (h : RingsMoved s t) :
    RingsMoved s (pumpMove p d n data t) := by
  unfold pumpMove
  extract_lets ws v a s1
  have h1 : RingsMoved s s1 := h.trans ⟨rfl, rfl⟩
  clear_value s1
  refine holds_ite (P := RingsMoved s) ((ringsMoved_pumpStore p d _ h1).trans ⟨rfl, rfl⟩)
    (holds_ite (P := RingsMoved s) (ringsMoved_readCount _ _ (ringsMoved_pumpStore p d _ h1))
      (holds_ite (P := RingsMoved s) (ringsMoved_pumpStore p d _ h1) (h1.trans ⟨rfl, rfl⟩)))

theorem ringsMoved_pumpCutOne (unit p : Nat) (d : PumpDesc) (h : RingsMoved s t) : RingsMoved s (pumpCutOne unit p d t) := by
  unfold pumpCutOne
  refine holds_ite (P := RingsMoved s) h ?_
  have h1 : RingsMoved s (takeFree t).1 := h.trans ⟨rfl, rfl⟩
  exact ringsMoved_pumpMove _ _ _ _ (h1.trans ⟨rfl, rfl⟩)

theorem ringsMoved_pumpCut (p : Nat) (h : RingsMoved s t) : RingsMoved s (pumpCut p t) :=
  holds_foldl (P := RingsMoved s) h fun _ d ht => ringsMoved_pumpCutOne 4096 p d ht

theorem ringsMoved_pumpStopped (p cause : Nat) (h : RingsMoved s t) : RingsMoved s (pumpStopped p cause t) := h.trans ⟨rfl, rfl⟩

/-! ### The handler of a fatal error -/

/-- What the freeze leaves (R561). -/
theorem panicFreeze_parts (s : State) : ∃ u l, RingsMoved s u ∧ panicFreeze s = { u with traces := l } := by
  unfold panicFreeze
  refine ⟨_, _, ?_, rfl⟩
  exact holds_foldl (P := RingsMoved s) (.refl s) fun t p ht =>
    holds_ite (P := RingsMoved s) (ringsMoved_pumpStopped p 0 (ringsMoved_pumpCut p ht)) ht

theorem putWords_parts (a : Nat) (ws : List Word) (s : State) :
    ∃ m, putWords a ws s = { s with mem := m } ∧ m.bridges = s.mem.bridges := by
  induction ws generalizing a s with
  | nil => exact ⟨s.mem, rfl, rfl⟩
  | cons w ws ih =>
    unfold putWords
    split
    · exact ih _ s
    · obtain ⟨m, h, hm⟩ := ih (a + 4) (memWriteWords a [w] s)
      exact ⟨m, h, hm⟩

theorem sectionsWrite_parts (s0 : State) (cause : Nat) (s : State) :
    ∃ m, (sectionsWrite s0 cause s).2 = { s with mem := m } ∧ m.bridges = s.mem.bridges := by
  unfold sectionsWrite
  generalize dumpSections s0 cause = l
  suffices h : ∀ (l : List (Nat × Nat × Nat × List (Nat × List Word))) (a : List Word × State),
      (∃ m, a.2 = { s with mem := m } ∧ m.bridges = s.mem.bridges) →
      ∃ m, (l.foldl (fun a x =>
        let ws := fit (x.2.2.1 / 4) 0 (layWords 0 x.2.2.2)
        (a.1 ++ [w32 x.1, w32 x.2.1, w32 x.2.2.1, crc32 (ws.flatMap wordBytes)], putWords (aDump + x.2.1) ws a.2)) a).2 =
          { s with mem := m } ∧ m.bridges = s.mem.bridges from h l _ ⟨s.mem, rfl, rfl⟩
  intro l
  induction l with
  | nil => exact fun a h => h
  | cons x l ih =>
    intro a h
    obtain ⟨m, ha, hm⟩ := h
    obtain ⟨m', h', hm'⟩ := putWords_parts (aDump + x.2.1) (fit (x.2.2.1 / 4) 0 (layWords 0 x.2.2.2)) a.2
    refine ih _ ⟨m', ?_, ?_⟩
    · dsimp only
      rw [h', ha]
    · rw [hm', ha, hm]

/-- A dump is written, or a held one counts a later error (R562). -/
theorem dumpWrite_parts (cause detail : Nat) (status : Word) (skipped : Bool) (s : State) :
    ∃ m n c, dumpWrite cause detail status skipped s = { s with mem := m, free := n, clerk := c } ∧ m.bridges = s.mem.bridges ∧
      c = if s.clerk.dumpValid then s.clerk else
        { s.clerk with dumpValid := true, dumpPreserved := false, dumpCause := BitVec.ofNat 16 cause, dumpPtr := aDump, fatal := true } := by
  have hput : ∀ (h : List Word) (v : State), ∃ m, headerPut h v = { v with mem := m } ∧ m.bridges = v.mem.bridges := fun h v =>
    ⟨_, rfl, rfl⟩
  unfold dumpWrite
  by_cases hv : s.clerk.dumpValid = true
  · rw [if_pos hv]
    obtain ⟨m, h, hm⟩ := hput ((headerWords s).set 7 (packW [(satAdd 65535 (fld ((headerWords s).getD 7 0) 16 16) 1, 16),
      (fld ((headerWords s).getD 7 0) 0 16, 0)])) s
    exact ⟨m, s.free, s.clerk, h, hm, by rw [if_pos hv]⟩
  · rw [if_neg hv]
    dsimp only [takeFree]
    obtain ⟨m, h, hm⟩ := sectionsWrite_parts { s with free := s.free + 1 } cause (dumpClear { s with free := s.free + 1 })
    rw [h]
    obtain ⟨m', h', hm'⟩ := hput (dumpHeader { s with free := s.free + 1 } cause detail status skipped (Config.freeNat s.free % 20001)
      (sectionsWrite { s with free := s.free + 1 } cause (dumpClear { s with free := s.free + 1 })).1)
      { dumpClear { s with free := s.free + 1 } with mem := m }
    rw [h']
    exact ⟨m', s.free + 1, _, rfl, hm'.trans hm, by rw [if_neg hv]; rfl⟩

/-- A summary goes to NOR, or is counted as skipped (R574). -/
theorem summaryWrite_parts (good : Bool) (type cause : Nat) (at_ : Stroke) (status w6 w7 : Word) (s : State) :
    ∃ d n, summaryWrite good type cause at_ status w6 w7 s = { s with diag := d, free := n } := by
  have hop : ∀ (e : Bool) (off n : Nat) (go : State → State), (∀ v : State, ∃ d, go v = { v with diag := d }) → ∀ v : State,
      ∃ d, norOp e off n go v = { v with diag := d } := fun e off n go hgo v => by
    unfold norOp
    split
    · exact ⟨_, rfl⟩
    · obtain ⟨d, h⟩ := hgo { v with diag := { v.diag with clerk := bump v.diag.clerk (if e then 6 else 5) n } }
      exact ⟨d, h⟩
  unfold summaryWrite
  split
  · dsimp only [takeFree]
    obtain ⟨d, h⟩ := hop false 0x4060000 1 (fun v => { v with diag := { v.diag with
      summaries := _, sumCount := _, fresh := _ } }) (fun v => ⟨_, rfl⟩) { s with free := s.free + 1 }
    rw [h]
    obtain ⟨d', h'⟩ := hop true 0x4060000 (summaryErases (s.diag.sumCount + 1)) id (fun v => ⟨v.diag, rfl⟩) { s with free := s.free + 1, diag := d }
    exact ⟨d', _, h'⟩
  · exact ⟨_, s.free, rfl⟩

/-- What the handler leaves of a fatal error (R561, R562). -/
theorem panicHandle_leaves (cause detail : Nat) (status : Word) (good : Bool) (s : State) :
    (panicHandle cause detail status good s).pair = s.pair ∧
    (panicHandle cause detail status good s).mem.bridges = s.mem.bridges ∧
    (panicHandle cause detail status good s).clerk = (if cause ≤ 4 ∧ s.clerk.dumpValid = false then
      { s.clerk with dumpValid := true, dumpPreserved := false, dumpCause := BitVec.ofNat 16 cause, dumpPtr := aDump, fatal := true }
      else s.clerk) ∧
    (panicHandle cause detail status good s).diag.panic =
      some { cause := BitVec.ofNat 16 cause, dumped := decide (cause ≤ 4) && !s.clerk.dumpValid } := by
  unfold panicHandle
  extract_lets can fresh s1 s2 s3 s4
  have h1 : s1.pair = s.pair ∧ s1.mem.bridges = s.mem.bridges ∧ s1.clerk = if cause ≤ 4 ∧ s.clerk.dumpValid = false then
      { s.clerk with dumpValid := true, dumpPreserved := false, dumpCause := BitVec.ofNat 16 cause, dumpPtr := aDump, fatal := true }
      else s.clerk := by
    unfold s1 can
    by_cases hc : cause ≤ 4
    · obtain ⟨m, n, c, h, hm, hclerk⟩ := dumpWrite_parts cause detail status (!good) s
      rw [if_pos (decide_eq_true hc), h]
      refine ⟨rfl, hm, hclerk.trans ?_⟩
      cases hv : s.clerk.dumpValid with
      | true => rw [if_pos rfl, if_neg (by simp)]
      | false => rw [if_neg (by decide), if_pos ⟨hc, rfl⟩]
    · rw [if_neg (by simpa using hc), if_neg (fun h => hc h.1)]
      exact ⟨rfl, rfl, rfl⟩
  clear_value s1
  obtain ⟨hp1, hb1, hc1⟩ := h1
  have h2 : s2.pair = s1.pair ∧ s2.mem.bridges = s1.mem.bridges ∧ s2.clerk = s1.clerk := by
    obtain ⟨d, n, h⟩ := summaryWrite_parts good 2 cause s1.clk.stroke status 0 (w32 (b2n fresh)) s1
    rw [show s2 = _ from h]
    exact ⟨rfl, rfl, rfl⟩
  clear_value s2
  obtain ⟨hp2, hb2, hc2⟩ := h2
  have h3 : s3.pair = s2.pair ∧ s3.mem.bridges = s2.mem.bridges ∧ s3.clerk = s2.clerk := by
    obtain ⟨_, _, _, h⟩ := emit_parts 4 0 0x0C01 [strokeLo s2, packW [(b2n fresh, 16), (cause, 0)]] s2
    rw [show s3 = _ from h]
    exact ⟨rfl, rfl, rfl⟩
  clear_value s3
  obtain ⟨hp3, hb3, hc3⟩ := h3
  have h4 : s4.pair = s3.pair ∧ s4.mem = s3.mem ∧ s4.clerk = s3.clerk := by
    unfold s4
    split
    · rw [msixDue_pair, msixDue_mem, msixDue_clerk]
      exact ⟨rfl, rfl, rfl⟩
    · exact ⟨rfl, rfl, rfl⟩
  obtain ⟨hp4, hb4, hc4⟩ := h4
  refine ⟨hp4.trans (hp3.trans (hp2.trans hp1)), ?_, hc4.trans (hc3.trans (hc2.trans hc1)), rfl⟩
  show s4.mem.bridges = _
  rw [hb4]
  exact hb3.trans (hb2.trans hb1)

/-- A record goes to the ring, and leaves memory's bytes, their errors and a fatal error (R106). -/
theorem emit_leaves (a b c : Nat) (d : List Word) (s : State) : (emit a b c d s).mem.bridges = s.mem.bridges ∧
    (emit a b c d s).mem.cells = s.mem.cells ∧ (emit a b c d s).mem.damaged = s.mem.damaged ∧
    (emit a b c d s).diag.panic = s.diag.panic ∧ (emit a b c d s).funcs = s.funcs := by
  obtain ⟨_, _, _, h⟩ := emit_parts a b c d s
  rw [h]
  exact ⟨rfl, rfl, rfl, rfl, rfl⟩

theorem vetoLatch_leaves (c : Nat) (s : State) : (vetoLatch c s).mem.bridges = s.mem.bridges ∧
    (vetoLatch c s).mem.cells = s.mem.cells ∧ (vetoLatch c s).diag.panic = s.diag.panic := by
  have hdrop : ∀ v : State, (dropReq v).mem = v.mem ∧ (dropReq v).diag = v.diag := fun v => by
    unfold dropReq
    split
    · rw [msixDue_mem, msixDue_diag]
      exact ⟨rfl, rfl⟩
    · exact ⟨rfl, rfl⟩
  unfold vetoLatch
  split
  · exact ⟨rfl, rfl, rfl⟩
  · dsimp only
    rw [(hdrop _).1, (hdrop _).2]
    obtain ⟨h1, h2, _, h4, _⟩ := emit_leaves 3 6 0x0A07 [strokeLo s, packW [(c, 8), (1, 0)]] { s with pair := { s.pair with
      firstVeto := if s.pair.vetoes = 0 then c else s.pair.firstVeto, vetoes := setBit s.pair.vetoes c true } }
    exact ⟨h1, h2, h4⟩

/-- What a fatal error leaves (R560 to R562). -/
theorem panicBegin_leaves (cause detail : Nat) (runs good : Bool) (hl : s.power.life = .up) (hp : s.diag.panic = none) :
    (panicBegin cause detail runs good s).pair.vetoes.getLsbD 9 = true ∧
    (panicBegin cause detail runs good s).mem.bridges = s.mem.bridges ∧
    (panicBegin cause detail runs good s).clerk = (if runs = true ∧ cause ≤ 4 ∧ s.clerk.dumpValid = false then
      { s.clerk with
        mbOpen := false, dumpValid := true, dumpPreserved := false, dumpCause := BitVec.ofNat 16 cause, dumpPtr := aDump, fatal := true }
      else { s.clerk with mbOpen := false }) ∧
    (runs = true → (panicBegin cause detail runs good s).diag.panic =
      some { cause := BitVec.ofNat 16 cause, dumped := decide (cause ≤ 4) && !s.clerk.dumpValid }) ∧
    (runs = false → (panicBegin cause detail runs good s).diag.panic = none ∧
      (panicBegin cause detail runs good s).mem.cells = s.mem.cells) := by
  obtain ⟨hvb, hvc, hvp⟩ := vetoLatch_leaves 9 s
  have hlatch := vetoLatch_latches (c := 9) (by decide) s
  have hclerk : (vetoLatch 9 s).clerk = s.clerk := vetoLatch_clerk ..
  unfold panicBegin
  rw [if_neg (by rw [hl, hp]; decide)]
  dsimp only
  generalize vetoLatch 9 s = v at hvb hvc hvp hlatch hclerk
  cases runs with
  | false =>
    rw [if_neg Bool.false_ne_true, if_neg (fun h => Bool.false_ne_true h.1)]
    exact ⟨hlatch, hvb, by rw [hclerk], fun h => absurd h (by decide), fun _ => ⟨hvp.trans hp, hvc⟩⟩
  | true =>
    rw [if_pos rfl]
    obtain ⟨u, l, hu, hfreeze⟩ := panicFreeze_parts { v with clerk := { v.clerk with mbOpen := false } }
    rw [hfreeze]
    have hup : u.pair = v.pair := by rw [hu.frame]
    have huc : u.clerk = { s.clerk with mbOpen := false } := by rw [hu.frame, ← hclerk]
    obtain ⟨h1, h2, h3, h4⟩ := panicHandle_leaves cause detail (modStatus s) good { u with traces := l }
    refine ⟨?_, h2.trans (hu.bridges.trans hvb), ?_, fun _ => ?_, fun h => absurd h (by decide)⟩
    · rw [h1]
      show u.pair.vetoes.getLsbD 9 = true
      rw [hup]
      exact hlatch
    · rw [h3]
      rw [show ({ u with traces := l } : State).clerk = u.clerk from rfl, huc]
      simp only [true_and]
    · rw [h4]
      rw [show ({ u with traces := l } : State).clerk = u.clerk from rfl, huc]

theorem panicBegin_keeps_bridges (cause detail : Nat) (runs good : Bool) (s : State) :
    (panicBegin cause detail runs good s).mem.bridges = s.mem.bridges := by
  by_cases h : s.power.life = .up ∧ s.diag.panic = none
  · exact (panicBegin_leaves cause detail runs good h.1 h.2).2.1
  · have hidle : (s.power.life ≠ .up || s.diag.panic.isSome) = true := by
      rw [Bool.or_eq_true, decide_eq_true_eq]
      by_cases hl : s.power.life = .up
      · exact .inr (Option.isSome_iff_ne_none.mpr fun hp => h ⟨hl, hp⟩)
      · exact .inl hl
    rw [panicBegin, if_pos hidle]

/-! ### The bridges, the scrubber and PANIC -/

theorem bridgeDown_leaves {i : Nat} (h : (s.mem.bridges.getD i { enabled := false }).enabled = true) :
    (bridgeDown i s).mem.bridges = s.mem.bridges.set i { enabled := false } ∧ (bridgeDown i s).mem.cells = s.mem.cells ∧
      (bridgeDown i s).funcs = s.funcs ∧ (bridgeDown i s).pair = s.pair ∧ (bridgeDown i s).clerk = s.clerk ∧
      (bridgeDown i s).diag.panic = s.diag.panic ∧ (bridgeDown i s).power = s.power := by
  unfold bridgeDown
  rw [if_pos h]
  dsimp only [takeFree]
  obtain ⟨_, _, _, he⟩ := emit_parts 2 0 0x0013 (memData 0 0xFF (Config.freeNat s.free % 8) 4 i 0 1)
    { s with
      mem := { s.mem with bridges := s.mem.bridges.set i { enabled := false } }
      diag := { s.diag with memory := bump s.diag.memory 9 1 }
      free := s.free + 1 }
  rw [he]
  exact ⟨rfl, rfl, rfl, rfl, rfl, rfl, rfl⟩

theorem bridgesCheck_bridges (s : State) : (bridgesCheck s).mem.bridges = s.mem.bridges :=
  holds_ite (P := fun t => t.mem.bridges = s.mem.bridges) (panicBegin_keeps_bridges ..) rfl

/-- A bridge is disabled, and without a bridge the module has a fatal error (R179). -/
theorem bridgeDisabled_disables (b : Fin 3) (hl : s.power.life = .up)
    (hb : (s.mem.bridges.getD b.val { enabled := false }).enabled = true) :
    ∃ t, exec (.bridgeDisabled b) s = .next t ∧ (t.mem.bridges.getD b.val { enabled := false }).enabled = false ∧
      (t.mem.bridges.any (·.enabled) = true → t.mem.cells = s.mem.cells ∧ t.funcs = s.funcs ∧ t.pair = s.pair) ∧
      (t.mem.bridges.any (·.enabled) = false → s.clerk.mbOpen = true → s.diag.panic = none →
        t.pair.vetoes.getLsbD 9 = true ∧ t.clerk.mbOpen = false) := by
  rw [exec_bridgeDisabled, execBridgeDisabled, if_pos (by rw [hb, hl]; decide)]
  dsimp only [takeFree]
  obtain ⟨h1, h2, h3, h4, h5, h6, h7⟩ := bridgeDown_leaves (i := b.val) (s := { s with
    diag := { s.diag with memory := bump s.diag.memory 8 (17 + Config.freeNat s.free) }, free := s.free + 1 }) hb
  generalize bridgeDown b.val _ = u at h1 h2 h3 h4 h5 h6 h7
  have hbr : u.mem.bridges = s.mem.bridges.set b.val { enabled := false } := h1
  refine ⟨_, rfl, ?_, fun hany => ?_, fun hany ho hp => ?_⟩
  · rw [bridgesCheck_bridges, hbr, List.getD_eq_getElem?_getD, List.getElem?_set_self']
    cases s.mem.bridges[b.val]? <;> rfl
  · rw [bridgesCheck_bridges] at hany
    rw [bridgesCheck, if_neg (by rw [hany]; simp)]
    exact ⟨h2, h3, h4⟩
  · rw [bridgesCheck_bridges] at hany
    have hopen : u.clerk.mbOpen = true := by rw [h5]; exact ho
    rw [bridgesCheck, if_pos (by rw [hany, hopen]; rfl)]
    obtain ⟨hv, _, hc, _⟩ := panicBegin_leaves 7 0 true (holdupGood u) (s := u) (by rw [h7]; exact hl) (by rw [h6]; exact hp)
    refine ⟨hv, ?_⟩
    rw [hc]
    split <;> rfl

theorem uncorrectable_leaves (func tile reader a : Nat) (s : State) :
    (uncorrectable func tile reader a s).mem.cells = s.mem.cells ∧ (uncorrectable func tile reader a s).funcs = s.funcs ∧
      (uncorrectable func tile reader a s).mem.damaged = s.mem.damaged := by
  unfold uncorrectable
  dsimp only
  obtain ⟨_, h2, h3, _, h5⟩ := emit_leaves 2 0 0x0010 (memData func tile reader (regionNum a) a 0 1)
    { s with diag := { s.diag with memory := bump s.diag.memory (2 * regionNum a + 1) 1 } }
  exact ⟨h2, h5, h3⟩

theorem correctable_leaves (a : Nat) (s : State) : (correctable a s).mem.cells = s.mem.cells ∧ (correctable a s).funcs = s.funcs ∧
    (correctable a s).mem.damaged = s.mem.damaged := by
  unfold correctable
  extract_lets r n due x y v
  have hv : v.mem.cells = s.mem.cells ∧ v.funcs = s.funcs ∧ v.mem.damaged = s.mem.damaged := ⟨rfl, rfl, rfl⟩
  clear_value v
  split
  · obtain ⟨_, h2, h3, _, h5⟩ := emit_leaves 1 0 0x0011 (memData 0 0xFF 7 r a 0 n) v
    exact ⟨h2.trans hv.1, h5.trans hv.2.1, h3.trans hv.2.2⟩
  · exact hv

theorem mem_insertNat (n : Nat) (l : List Nat) : n ∈ insertNat n l := by
  induction l with
  | nil => simp [insertNat]
  | cons c l ih =>
    unfold insertNat
    split_ifs <;> simp_all

theorem markDamaged_marks (a : Nat) (s : State) : (markDamaged a s).mem.cells = s.mem.cells ∧ (markDamaged a s).funcs = s.funcs ∧
    (markDamaged a s).mem.damaged.contains (eccWord a) = true := by
  have hmem : (insertNat (eccWord a) s.mem.damaged).contains (eccWord a) = true := List.contains_iff_mem.mpr (mem_insertNat ..)
  unfold markDamaged
  dsimp only
  split <;> exact ⟨rfl, rfl, hmem⟩

/-- The scrubber changes no byte, counts a correctable word and marks a damaged one (R191, R193). -/
theorem patrolScrub_finds (a : BitVec 48) (f : ScrubFind) (hl : s.power.life = .up)
    (ha : isSram a.toNat = true ∨ inWell a.toNat = true) :
    ∃ t, exec (.patrolScrub a f) s = .next t ∧ t.mem.cells = s.mem.cells ∧ t.funcs = s.funcs ∧
      (f = .clean → damagedIn s a.toNat 1 = none → t = s) ∧
      (f = .uncorrectable → damagedIn s a.toNat 1 = none → t.mem.damaged.contains (eccWord a.toNat) = true) ∧
      (f = .corrected → t.mem.damaged = s.mem.damaged) := by
  have hgo : ¬ ((!(isSram a.toNat || inWell a.toNat) || decide (s.power.life ≠ .up)) = true) := by
    obtain h | h := ha <;> simp [h, hl]
  rw [exec_patrolScrub]
  unfold execPatrolScrub
  dsimp only
  rw [if_neg hgo]
  by_cases hd : (damagedIn s a.toNat 1).isSome = true
  · rw [if_pos hd]
    obtain ⟨h1, h2, h3⟩ := uncorrectable_leaves 0 0xFF 7 a.toNat s
    exact ⟨_, rfl, h1, h2, fun _ h => absurd hd (by rw [h]; decide), fun _ h => absurd hd (by rw [h]; decide), fun _ => h3⟩
  · rw [if_neg hd]
    cases f with
    | clean => exact ⟨_, rfl, rfl, rfl, fun _ _ => rfl, nofun, nofun⟩
    | corrected =>
      obtain ⟨h1, h2, h3⟩ := correctable_leaves a.toNat s
      exact ⟨_, rfl, h1, h2, nofun, nofun, fun _ => h3⟩
    | uncorrectable =>
      obtain ⟨h1, h2, h3⟩ := uncorrectable_leaves 0 0xFF 7 a.toNat (markDamaged a.toNat s)
      obtain ⟨k1, k2, k3⟩ := markDamaged_marks a.toNat s
      exact ⟨_, rfl, h1.trans k1, h2.trans k2, nofun, fun _ _ => by rw [h3]; exact k3, nofun⟩

/-- The state that a fatal error of a cause leaves (R560 to R562). -/
def PanicEnds (c : Fin 8) (runs : Bool) (s t : State) : Prop :=
  t.clerk.mbOpen = false ∧ t.pair.vetoes.getLsbD 9 = true ∧
    (runs = true → t.diag.panic = some { cause := BitVec.ofNat 16 c.val, dumped := decide (c.val ≤ 4) && !s.clerk.dumpValid }) ∧
    (runs = true → c.val ≤ 4 → t.clerk.dumpValid = true) ∧
    (runs = true → c.val ≤ 4 → s.clerk.dumpValid = false → t.clerk.dumpCause = BitVec.ofNat 16 c.val ∧ t.clerk.fatal = true ∧
      t.clerk.dumpPtr = aDump) ∧
    (runs = false → t.diag.panic = none ∧ t.mem.cells = s.mem.cells)

theorem panicBegin_ends (c : Fin 8) (d : BitVec 16) (runs good : Bool) (hl : u.power.life = .up) (hp : u.diag.panic = none)
    (hc : u.clerk = s.clerk) (hm : u.mem.cells = s.mem.cells) : PanicEnds c runs s (panicBegin c.val d.toNat runs good u) := by
  obtain ⟨hv, _, hclerk, hpan, hidle⟩ := panicBegin_leaves c.val d.toNat runs good hl hp
  rw [hc] at hclerk hpan
  rw [hm] at hidle
  refine ⟨?_, hv, hpan, fun hr h4 => ?_, fun hr h4 hd => ?_, hidle⟩
  · rw [hclerk]
    split <;> rfl
  · rw [hclerk]
    by_cases hd : s.clerk.dumpValid = false
    · rw [if_pos ⟨hr, h4, hd⟩]
    · rw [if_neg (fun h => hd h.2.2)]
      simpa using hd
  · rw [hclerk, if_pos ⟨hr, h4, hd⟩]
    exact ⟨rfl, rfl, rfl⟩

/-- PANIC (R560 to R562). -/
theorem panic_handles (c : Fin 8) (d : BitVec 16) (runs good : Bool) (hc : c ≠ 0) (hl : s.power.life = .up) (hp : s.diag.panic = none) :
    ∃ t, exec (.panic c d runs good) s = .next t ∧ PanicEnds c runs s t := by
  rw [exec_panic, execPanic, if_neg (by rw [hl, hp]; simp [hc])]
  dsimp only [takeFree]
  refine ⟨_, rfl, ?_⟩
  split
  · obtain ⟨h1, h2, h3⟩ := uncorrectable_leaves 0 0xFF 6 (aPosin + 0x10000 * (Config.freeNat s.free % 0x4000) + d.toNat)
      { s with free := s.free + 1 }
    refine panicBegin_ends c d runs good ?_ ?_ ?_ h1
    · unfold uncorrectable
      rw [emit_power]
      exact hl
    · unfold uncorrectable
      rw [(emit_leaves ..).2.2.2.1]
      exact hp
    · unfold uncorrectable
      exact emit_clerk ..
  · exact panicBegin_ends c d runs good hl hp rfl rfl

end

/-- Settles O54. -/
theorem errorsAndPanic : Obligations.ErrorsAndPanic := by
  intro s
  refine ⟨bridgeDisabled_disables, fun b hb => ?_, patrolScrub_finds, fun a f h1 h2 => ?_, panic_handles, fun c d runs good h => ?_⟩
  · rw [exec_bridgeDisabled, execBridgeDisabled, if_neg (by rw [hb]; simp)]
  · rw [exec_patrolScrub]
    unfold execPatrolScrub
    exact if_pos (by rw [h1, h2]; rfl)
  · rw [exec_panic, execPanic, if_pos]
    obtain h | h := h <;> simp [h]

end Sys2Proof.Machine

end

section
/-! PROOFS. The host's window at its end (R137, R138). -/

namespace Sys2Proof.Machine

/-- Under a committed decoder a write that starts at the end of the host region is dropped, though it stores no byte (R138). -/
theorem cxlMemWrite_at_end {s : State} (hr : hostReaches s = true) (hp : s.link.pcieOnly = false) (hc : s.link.hdmCommitted = true)
    (hb : s.link.hdmBase = 0) : exec (.cxlMemWrite 0x7B0000000 []) s = .next (cxlDrop 0x7B0000000 (perfAdd 10 0 s)) := by
  have hoff : windowOff s (0x7B0000000 : BitVec 64).toNat = some 0x7B0000000 := by
    rw [windowOff, hr, hp, hc, hb]
    rfl
  rw [exec_cxlMemWrite, execCxlMemWrite, hoff]
  exact if_neg (by simp [windowWrites])

/-- The first write that is dropped disarms its record (R138). -/
theorem cxlDrop_disarms {s : State} (h : s.link.dropArmed = true) (off : Nat) : (cxlDrop off s).link.dropArmed = false := by
  rw [cxlDrop, if_pos h, emit_link]

/-- Refutes O55: a write of no bytes at the end of the host region (offset 0x7B0000000) satisfies the hypotheses of the last clause, and is
dropped and recorded, which changes the link's `dropArmed`. -/
theorem not_linkEvents : ¬ Obligations.LinkEvents := by
  unfold Obligations.LinkEvents
  intro h
  let s : State := { State.reset with link := { up := true, memActive := true, hdmCommitted := true } }
  obtain ⟨_, _, _, _, _, _, _, _, _, _, _, hwrite⟩ := h s ⟨rfl, rfl, rfl, rfl, rfl, rfl⟩
  obtain ⟨t, ht, _, _, _, hlink, _⟩ := hwrite 0x7B0000000 [] rfl rfl rfl rfl rfl rfl (by decide) (by decide) (by decide) (by decide)
  rw [cxlMemWrite_at_end (s := s) rfl rfl rfl rfl] at ht
  cases ht
  have harmed : (cxlDrop 0x7B0000000 (perfAdd 10 0 s)).link.dropArmed = false := cxlDrop_disarms rfl _
  rw [hlink] at harmed
  exact absurd harmed (by decide)

end Sys2Proof.Machine

end

section
/-! PROOFS. Resets of every kind (R79, R92, R134, R135, R531, R561). -/

namespace Sys2Proof.Machine

section
variable {s : State}

/-- What `resetParts` gives does not depend on the state where the manual names a reset value. -/
theorem fnState_resetParts (cause : Nat) (s : State) : ∀ f ∈ fnIds, fnState (resetParts cause s) f = .off := by
  intro f hf
  rw [fnState_congr (show (resetParts cause s).funcs = State.reset.funcs from rfl) f]
  exact resetState.1 f hf

theorem mbs_resetParts (cause : Nat) (s : State) : ∀ m ∈ (resetParts cause s).mbs, m.busy = none ∧ m.done = false := by
  intro m hm
  have h : (resetParts cause s).mbs = List.replicate 4 {} := rfl
  rw [h] at hm
  rw [List.eq_of_mem_replicate hm]
  exact ⟨rfl, rfl⟩

/-- Only a cold start ends veto 0x07 (R503, R531). -/
theorem resetPair_vetoes (cause : Nat) (p : Pair) :
    (resetPair cause p).vetoes = if p.vetoes.getLsbD 7 = true ∧ cause ≠ 1 then 0x80 else 0 := by
  unfold resetPair cCOLD
  simp only [Bool.and_eq_true, decide_eq_true_eq]

/-- The reset of a cause, released at once or held until REFCLK returns (R134, R531). -/
theorem resetTo_wasReset (cause : Nat) (s : State) : WasReset s (resetTo cause s) cause := by
  have hparts : ∀ p : Power, p.life = (if s.clk.qualRefclk then .up else .inReset) → p.feedA = s.power.feedA →
      p.feedB = s.power.feedB → WasReset s { resetParts cause s with power := p } cause := fun p hl ha hb =>
    ⟨fnState_resetParts cause s, rfl, mbs_resetParts cause s, rfl, rfl, rfl, rfl, rfl, rfl, rfl, rfl, rfl, rfl,
      resetPair_vetoes cause s.pair, rfl, rfl, rfl, rfl, rfl, rfl, rfl, rfl, hl, ha, hb, rfl⟩
  unfold resetTo
  extract_lets u p
  have hq : u.clk.qualRefclk = s.clk.qualRefclk := rfl
  split
  next h => exact hparts _ (by rw [if_pos (hq ▸ h)]) rfl rfl
  next h => exact hparts _ (by rw [if_neg (hq ▸ h)]) rfl rfl

end

/-- Settles O57. -/
theorem resets : Obligations.Resets := by
  intro s
  refine ⟨fun v hr hk hb => ?_, fun v hr hk hb => ?_, fun v hr hk => ?_, fun v hr => ?_, fun hl => ?_, fun hl => ?_,
    fun hl hreq => ?_, fun h1 h2 => ?_, fun hl hp => ?_, fun hp => ?_, fun hl hn hf hsd => ?_, fun hl => ?_, fun hl hr hn => ?_, fun hr => ?_⟩
  · rw [exec_warmReset, execWarmReset, hr, if_neg (by decide), if_neg (not_not.mpr hk), if_pos hb]
    exact ⟨_, rfl, resetTo_wasReset ..⟩
  · rw [exec_warmReset, execWarmReset, hr, if_neg (by decide), if_neg (not_not.mpr hk), if_neg (by rw [hb]; decide)]
  · rw [exec_warmReset, execWarmReset, hr, if_neg (by decide), if_pos hk]
    exact ⟨_, rfl, served_emit ..⟩
  · rw [exec_warmReset, execWarmReset, hr, if_pos (c := (!false) = true) rfl]
  · rw [exec_perstReset, execPerstReset, hl]
    exact ⟨_, rfl, resetTo_wasReset ..⟩
  · rw [exec_perstReset, execPerstReset, hl]
  · rw [exec_assayerReset, execAssayerReset, if_pos ⟨hl, hreq⟩]
    exact ⟨_, rfl, resetTo_wasReset ..⟩
  · rw [exec_assayerReset, execAssayerReset, if_neg (by rw [h1, h2]; simp)]
  · rw [exec_panicReset, execPanicReset, if_pos ⟨hl, hp⟩]
    exact ⟨_, rfl, resetTo_wasReset ..⟩
  · rw [exec_panicReset, execPanicReset, if_neg (by rw [hp]; simp)]
  · rw [exec_coldStart, execColdStart, if_neg (by obtain h | h := hf <;> simp [hl, hn, hsd, h])]
    exact ⟨_, rfl, resetTo_wasReset ..⟩
  · rw [exec_coldStart, execColdStart, if_pos (by simp [hl])]
  · rw [exec_clockLossRestart, execClockLossRestart, if_neg (by rw [hl, hr, hn]; decide)]
    exact ⟨_, rfl, rfl, resetTo_wasReset ..⟩
  · rw [exec_clockLossRestart, execClockLossRestart, if_pos (by rw [hr]; simp)]

end Sys2Proof.Machine

end

section
/-! PROOFS. Feeds, hold-up, the loss of every reference and the thermal shutdown (R30 to R33, R45, R78, R465, R466). -/

namespace Sys2Proof.Machine

section
variable {s t u : State} {b : Bool}

/-! ### A feed that is lost -/

theorem clerkRecord_served (sev code : Nat) (w : Word) (s : State) : Served s (clerkRecord sev code w s) := by
  unfold clerkRecord
  split
  · exact served_emit ..
  · exact served_refl s

theorem clerkRecord_power (sev code : Nat) (w : Word) (s : State) : (clerkRecord sev code w s).power = s.power :=
  (clerkRecord_served ..).power

theorem feedLost_loses (feed : Fin 2) (ov : Bool) (h1 : feedOk s (decide (feed.val = 1)) = true)
    (h2 : feedOk s (!decide (feed.val = 1)) = true) :
    ∃ t, exec (.feedLost feed ov) s = .next t ∧ Served (feedSet (decide (feed.val = 1)) false ov s) t ∧
      t.power = (feedSet (decide (feed.val = 1)) false ov s).power := by
  rw [exec_feedLost, execFeedLost]
  rw [h1, h2]
  exact ⟨_, if_pos rfl, clerkRecord_served .., clerkRecord_power ..⟩

/-- The last feed is lost, and the sequence of the hold-up starts (R32). -/
theorem bothFeedsLost_starts (feed : Fin 2) (ov : Bool) (h1 : feedOk s (decide (feed.val = 1)) = true)
    (h2 : feedOk s (!decide (feed.val = 1)) = false) :
    ∃ t, exec (.bothFeedsLost feed ov) s = .next t ∧ t.power.charged = false ∧ t.power.feedA = false ∧ t.power.feedB = false ∧
      t.power.sdLatch = false ∧ (s.power.life ≠ .unpowered → t.power.loss = .lost) ∧ t.funcs = s.funcs := by
  rw [exec_bothFeedsLost, execBothFeedsLost]
  rw [h1, h2, if_pos (by decide)]
  refine ⟨_, rfl, ?_⟩
  rw [clerkRecord_power, (clerkRecord_served ..).funcs]
  revert h1 h2
  cases decide (feed.val = 1) <;> intro _ h2
  · exact ⟨rfl, rfl, h2, rfl, fun hl => if_neg hl, rfl⟩
  · exact ⟨rfl, h2, rfl, rfl, fun hl => if_neg hl, rfl⟩

/-! ### A feed that returns -/

theorem norErase_frame (kind : Nat) (p : List Word) (s : State) : (norErase kind p s).power = s.power ∧
    (norErase kind p s).pair = s.pair ∧ (norErase kind p s).funcs = s.funcs := by
  unfold norErase
  rw [norOp_region]
  unfold norMod
  split <;> exact ⟨rfl, rfl, rfl⟩

theorem norNext_frame (s : State) : (norNext s).power = s.power ∧ (norNext s).pair = s.pair ∧ (norNext s).funcs = s.funcs := by
  unfold norNext
  split_ifs
  · exact ⟨rfl, rfl, rfl⟩
  · exact norErase_frame ..
  · exact norErase_frame ..
  · split
    · exact norErase_frame ..
    · exact ⟨rfl, rfl, rfl⟩

theorem norRelease_frame (s : State) : (norRelease s).power = s.power ∧ (norRelease s).pair = s.pair ∧ (norRelease s).funcs = s.funcs := by
  unfold norRelease
  dsimp only
  split
  · rw [norOp_slot true (by decide)]
    exact ⟨rfl, rfl, rfl⟩
  · exact ⟨rfl, rfl, rfl⟩

/-- A released veto no longer holds; the feeds stand (R503). -/
theorem vetoRelease_releases {c : Nat} (hc : c < 16) (s : State) :
    (vetoRelease c s).pair.vetoes.getLsbD c = false ∧ (vetoRelease c s).power = s.power := by
  unfold vetoRelease
  split
  next =>
    extract_lets v src u w
    have hv : v.getLsbD c = false := by
      unfold v setBit
      simp [hc]
    have hw : w.pair.vetoes = v ∧ w.power = s.power := by
      unfold w
      rw [emit_pair, emit_power]
      exact ⟨rfl, rfl⟩
    clear_value w v
    obtain ⟨hwv, hwp⟩ := hw
    split
    · unfold pairLeave
      split
      · rw [hwv]
        exact ⟨hv, hwp⟩
      · dsimp only
        split
        · rw [msixDue_pair, emit_pair, msixDue_power, emit_power]
          rw [hwv]
          exact ⟨hv, hwp⟩
        · rw [hwv]
          exact ⟨hv, hwp⟩
    · rw [hwv]
      exact ⟨hv, hwp⟩
  next h => exact ⟨by simpa using h, rfl⟩

/-- A feed that returns stands as present, whatever follows. -/
theorem feedSet_present (b : Bool) (s : State) : feedOk (feedSet b true false s) b = true := by cases b <;> rfl

theorem feedOk_congr {s t : State} (ha : t.power.feedA = s.power.feedA) (hb : t.power.feedB = s.power.feedB) (b : Bool) :
    feedOk t b = feedOk s b := by
  unfold feedOk
  rw [ha, hb]

/-- What FEED_PRESENT does before it looks at how far the sequence of the hold-up has come (R31). -/
def feedReturned (feed : Fin 2) (s : State) : State :=
  let u := clerkRecord 0 7 (w32 (2 ^ feed.val)) (feedSet (decide (feed.val = 1)) true false s)
  { u with power := { u.power with loss := .none } }

theorem feedReturned_leaves (feed : Fin 2) (s : State) : feedOk (feedReturned feed s) (decide (feed.val = 1)) = true ∧
    (feedReturned feed s).power.loss = .none ∧ (feedReturned feed s).power.life = s.power.life ∧
    (feedReturned feed s).funcs = s.funcs ∧ (feedReturned feed s).pair = s.pair := by
  have hp : (feedReturned feed s).power = { (feedSet (decide (feed.val = 1)) true false s).power with loss := .none } := by
    unfold feedReturned
    dsimp only
    rw [clerkRecord_power]
  refine ⟨?_, by rw [hp], ?_, ?_, ?_⟩
  · rw [← feedSet_present (decide (feed.val = 1)) s]
    exact feedOk_congr (by rw [hp]) (by rw [hp]) _
  · rw [hp]
    cases decide (feed.val = 1) <;> rfl
  · exact (clerkRecord_served ..).funcs
  · exact (clerkRecord_served ..).pair

theorem feedPresent_exec (feed : Fin 2) (h : feedOk s (decide (feed.val = 1)) = false) :
    exec (.feedPresent feed) s = .next (match s.power.loss with
      | .none => feedReturned feed s
      | .lost => norNext (norRelease (feedReturned feed s))
      | .authDropped => norNext (norRelease (vetoRelease 8 (feedReturned feed s)))
      | .released => resetHold false (feedReturned feed s)) := by
  rw [exec_feedPresent, execFeedPresent]
  dsimp only
  rw [if_neg (by rw [h]; decide)]
  cases s.power.loss <;> rfl

/-- Before the 1 ms point the module continues (R33). -/
theorem feedPresent_continues (feed : Fin 2) (h : feedOk s (decide (feed.val = 1)) = false)
    (hl : s.power.loss = .none ∨ s.power.loss = .lost) :
    ∃ t, exec (.feedPresent feed) s = .next t ∧ feedOk t (decide (feed.val = 1)) = true ∧ t.power.loss = .none ∧
      t.power.life = s.power.life ∧ t.funcs = s.funcs ∧ t.pair = s.pair := by
  rw [feedPresent_exec feed h]
  obtain hl | hl := hl
  · rw [hl]
    exact ⟨_, rfl, feedReturned_leaves feed s⟩
  · rw [hl]
    refine ⟨_, rfl, ?_⟩
    obtain ⟨h1, h2, h3⟩ := norNext_frame (norRelease (feedReturned feed s))
    obtain ⟨k1, k2, k3⟩ := norRelease_frame (feedReturned feed s)
    have hpow := h1.trans k1
    rw [feedOk_congr (congrArg Power.feedA hpow) (congrArg Power.feedB hpow), hpow, h2.trans k2, h3.trans k3]
    exact feedReturned_leaves feed s

/-- Between the 1 ms and the 4 ms point it stays a standby, and veto 0x08 is released (R33). -/
theorem feedPresent_stands (feed : Fin 2) (h : feedOk s (decide (feed.val = 1)) = false) (hl : s.power.loss = .authDropped) :
    ∃ t, exec (.feedPresent feed) s = .next t ∧ feedOk t (decide (feed.val = 1)) = true ∧ t.power.loss = .none ∧
      t.pair.vetoes.getLsbD 8 = false := by
  rw [feedPresent_exec feed h, hl]
  refine ⟨_, rfl, ?_⟩
  obtain ⟨h1, h2, _⟩ := norNext_frame (norRelease (vetoRelease 8 (feedReturned feed s)))
  obtain ⟨k1, k2, _⟩ := norRelease_frame (vetoRelease 8 (feedReturned feed s))
  obtain ⟨hv, hvp⟩ := vetoRelease_releases (c := 8) (by decide) (feedReturned feed s)
  obtain ⟨hf, hloss, _⟩ := feedReturned_leaves feed s
  have hpow := h1.trans (k1.trans hvp)
  rw [feedOk_congr (congrArg Power.feedA hpow) (congrArg Power.feedB hpow), hpow, h2.trans k2]
  exact ⟨hf, hloss, hv⟩

theorem fnState_resetHold (off : Bool) (s : State) : ∀ f ∈ fnIds, fnState (resetHold off s) f = .off := by
  intro f hf
  rw [fnState_congr (show (resetHold off s).funcs = (resetParts cFEED s).funcs from rfl) f]
  exact fnState_resetParts cFEED s f hf

/-- After the 4 ms point it holds itself in reset (R33). -/
theorem feedPresent_holds (feed : Fin 2) (h : feedOk s (decide (feed.val = 1)) = false) (hl : s.power.loss = .released) :
    ∃ t, exec (.feedPresent feed) s = .next t ∧ feedOk t (decide (feed.val = 1)) = true ∧ t.power.life = .inReset ∧
      t.power.needCold = true ∧ ∀ f ∈ fnIds, fnState t f = .off := by
  rw [feedPresent_exec feed h, hl]
  refine ⟨_, rfl, ?_, rfl, rfl, fnState_resetHold false _⟩
  dsimp only
  rw [feedOk_congr (s := feedReturned feed s) (t := resetHold false (feedReturned feed s)) rfl rfl]
  exact (feedReturned_leaves feed s).1

/-! ### The points of the hold-up -/

theorem holdupAuthDrop_drops (h : s.power.loss = .lost) : ∃ t, exec .holdupAuthDrop s = .next t ∧ t.power.loss = .authDropped ∧
    (s.power.life = .up → t.pair.vetoes.getLsbD 8 = true ∧ t.stage.parked = true ∧ t.stage.oring = false) := by
  rw [exec_holdupAuthDrop, execHoldupAuthDrop, if_neg (not_not.mpr h)]
  dsimp only
  split
  · refine ⟨_, rfl, ?_, fun _ => ⟨vetoLatch_latches (by decide) _, rfl, rfl⟩⟩
    show (vetoLatch 8 _).power.loss = _
    rw [vetoLatch_power]
  next hl => exact ⟨_, rfl, rfl, fun h => absurd h hl⟩

/-- A rope's role is released, its bypass closed (R45). -/
theorem ropeRelease_releases (s : State) : (ropeRelease s).rope.released = true ∧ (ropeRelease s).power = s.power ∧
    (ropeRelease s).therm = s.therm := by
  have hrec : ∀ (c : Prop) [Decidable c] (sev code port n : Nat) (b : Bool) (v : State),
      (if c then ropeRecord sev code port b n v else v).rope = v.rope ∧ (if c then ropeRecord sev code port b n v else v).power = v.power ∧
        (if c then ropeRecord sev code port b n v else v).therm = v.therm := fun c _ sev code port n b v => by
    split
    · exact ⟨emit_rope .., emit_power .., emit_therm ..⟩
    · exact ⟨rfl, rfl, rfl⟩
  unfold ropeRelease bypassClose
  extract_lets s1 s2
  obtain ⟨h1, h2, h3⟩ := hrec ((ropeMod (fun x => { x with released := true, starting := .no }) s).rope.wrapA = true) 1 0x0503 1 0 false
    (ropeMod (fun x => { x with released := true, starting := .no }) s)
  obtain ⟨k1, k2, k3⟩ := hrec (s1.rope.wrapB = true) 1 0x0503 3 0 true s1
  refine ⟨?_, k2.trans h2, k3.trans h3⟩
  show s2.rope.released = true
  rw [show s2.rope = s1.rope from k1, show s1.rope = _ from h1]
  rfl

theorem measure_power (type id : Nat) (info digest : List Word) (s : State) : (measure type id info digest s).power = s.power := by
  obtain ⟨_, _, _, h⟩ := measure_parts type id info digest s
  rw [h]

/-- The charged store: an FW_COMMIT that waited for it goes on (R30). -/
theorem commitGo_power (s : State) : (commitGo s).power = s.power := by
  unfold commitGo
  dsimp only [takeFree]
  rw [norOp_slot false (off := 0) (by decide), norOp_counter]
  generalize hv : fwRecord 1 0x0B02 _ _ = v
  have hpow : v.power = s.power := by
    rw [← hv]
    rw [fwRecord, emit_power, measure_power]
    rfl
  clear hv
  split
  · exact hpow
  · obtain ⟨held, st, d, h⟩ := copyBegin_parts v
    rw [h]
    exact hpow

theorem holdupResume_keeps (s : State) : (holdupResume s).power = s.power ∧ (holdupResume s).funcs = s.funcs := by
  refine holds_foldl (P := fun t => t.power = s.power ∧ t.funcs = s.funcs) ⟨rfl, rfl⟩ fun t _ ht => ?_
  have hgo : (commitGo t).power = t.power ∧ (commitGo t).funcs = t.funcs := by
    obtain ⟨_, _, _, _, _, hf, _⟩ := commitGo_confirms t
    exact ⟨commitGo_power t, hf⟩
  unfold commitResume
  split
  · split
    · rw [answer_power, answer_funcs]
      exact ht
    · rw [answer_power, answer_funcs]
      split
      · exact ht
      · exact ⟨hgo.1.trans ht.1, hgo.2.trans ht.2⟩
  · exact ht

theorem holdupCharged_charges (hc : s.power.charged = false) (hf : s.power.feedA = true ∨ s.power.feedB = true)
    (hsd : s.power.sdLatch = false) :
    ∃ t, exec .holdupCharged s = .next t ∧ t.power.charged = true ∧ t.funcs = s.funcs := by
  rw [exec_holdupCharged, execHoldupCharged, if_neg (by obtain h | h := hf <;> simp [hc, hsd, h])]
  refine ⟨_, rfl, ?_⟩
  split
  · rw [(holdupResume_keeps _).1, (holdupResume_keeps _).2]
    exact ⟨rfl, rfl⟩
  · exact ⟨rfl, rfl⟩

/-! ### The thermal shutdown -/

/-- With HOLDUP_GOOD a summary is programmed (R574). -/
theorem summaryWrite_good (type cause : Nat) (at_ : Stroke) (status w6 w7 : Word) (s : State) :
    ∃ e l d n, summaryWrite true type cause at_ status w6 w7 s = { s with diag := d, free := n } ∧ d.summaries = e :: l ∧
      e.getD 0 0 = packW [(type, 24), (1, 16), (cause, 0)] := by
  have hop : ∀ (er : Bool) (n : Nat) (go : State → State) (v : State), norOp er 0x4060000 n go v =
      go { v with diag := { v.diag with clerk := bump v.diag.clerk (if er then 6 else 5) n } } := fun er n go v => by
    have hr : norRefuses v er 0x4060000 = false := by simp [norRefuses]
    rw [norOp, if_neg (by rw [hr]; decide)]
  have hget : ∀ (e : List Word) (x : Word), (e.set 15 x).getD 0 0 = e.getD 0 0 := fun e x => by
    rw [List.getD_eq_getElem?_getD, List.getElem?_set_ne (by decide), List.getD_eq_getElem?_getD]
  have hfirst : (summaryWords { s with free := s.free + 1 } type cause at_ status w6 w7).getD 0 0 =
      packW [(type, 24), (1, 16), (cause, 0)] := by
    unfold summaryWords
    dsimp only
    rw [hget]
    rfl
  unfold summaryWrite
  rw [if_pos rfl]
  dsimp only [takeFree]
  rw [hop, hop]
  have htake : ∀ (e : List Word) (l : List (List Word)) (n : Nat), (e :: l).take (summaryKeep n) = e :: l.take (summaryKeep n - 1) :=
    fun e l n => by
      have hk : summaryKeep n = (summaryKeep n - 1) + 1 := by unfold summaryKeep; omega
      rw [hk, List.take_succ_cons]
      rfl
  refine ⟨_, _, _, _, rfl, htake _ _ _, ?_⟩
  split
  · exact hfirst
  · rw [hget]
    exact hfirst

/-- 1 ms into a shutdown (R465). -/
theorem shutdownRopeRelease_releases (n : Nat) (d : Int) (h : s.therm.shutdown = some (n, d)) (hr : s.therm.sdReleased = false)
    (hl : s.power.life = .up) :
    ∃ t, exec .shutdownRopeRelease s = .next t ∧ t.therm.sdReleased = true ∧ t.rope.released = true ∧
      (holdupGood s = true → ∃ e l, t.diag.summaries = e :: l ∧ fld (e.getD 0 0) 24 8 = 1) := by
  rw [exec_shutdownRopeRelease, execShutdownRopeRelease, h]
  dsimp only
  rw [if_neg (by rw [hr, hl]; decide)]
  obtain ⟨h1, h2, h3⟩ := ropeRelease_releases (thMod (fun x => { x with sdReleased := true }) s)
  generalize ropeRelease (thMod (fun x => { x with sdReleased := true }) s) = u at h1 h2 h3 ⊢
  have hg : holdupGood u = holdupGood s := by rw [holdupGood, h2]; rfl
  refine ⟨_, rfl, ?_, ?_, fun hgood => ?_⟩
  · obtain ⟨d', n', hs⟩ := summaryWrite_parts (holdupGood u) 1 0 u.therm.shutAt.1 u.therm.shutAt.2 (packW [(n, 24), (t16 d, 0)]) 0 u
    rw [hs]
    exact congrArg Thermal.sdReleased h3
  · obtain ⟨d', n', hs⟩ := summaryWrite_parts (holdupGood u) 1 0 u.therm.shutAt.1 u.therm.shutAt.2 (packW [(n, 24), (t16 d, 0)]) 0 u
    rw [hs]
    exact h1
  · obtain ⟨e, l, d', n', hs, hsum, he⟩ := summaryWrite_good 1 0 u.therm.shutAt.1 u.therm.shutAt.2 (packW [(n, 24), (t16 d, 0)]) 0 u
    rw [hg, hgood, hs]
    exact ⟨e, l, hsum, by rw [he]; decide⟩

end

/-- Settles O58. -/
theorem feedsAndShutdown : Obligations.FeedsAndShutdown := by
  intro s
  refine ⟨fun feed ov => ⟨feedLost_loses feed ov, fun h => ?_, bothFeedsLost_starts feed ov⟩, fun feed => ⟨fun h =>
    ⟨feedPresent_continues feed h, feedPresent_stands feed h, feedPresent_holds feed h⟩, fun h => ?_⟩,
    holdupAuthDrop_drops, fun h => ?_, fun h => ?_, fun h => ?_, fun h1 h2 hl => ?_, fun h => ?_, holdupCharged_charges, fun h => ?_,
    fun hl hb => ?_, fun h => ?_, fun n d => shutdownRopeRelease_releases n d, fun h => ⟨?_, ?_⟩, fun h1 h2 h3 => ?_⟩
  · rw [exec_feedLost, execFeedLost]
    exact if_neg (by obtain h | h := h <;> simp [h])
  · rw [exec_feedPresent, execFeedPresent]
    exact if_pos h
  · rw [exec_holdupAuthDrop, execHoldupAuthDrop, if_pos h]
  · rw [exec_holdupRopeRelease, execHoldupRopeRelease, if_neg (not_not.mpr h)]
    obtain ⟨h1, h2, _⟩ := ropeRelease_releases { s with power := { s.power with loss := .released } }
    exact ⟨_, rfl, by rw [h2], h1⟩
  · rw [exec_holdupRopeRelease, execHoldupRopeRelease, if_pos h]
  · rw [exec_holdupExpired, execHoldupExpired, if_neg (by simp [h1, h2, hl])]
    exact ⟨_, rfl, rfl, Bool.or_true _, rfl, fnState_resetHold true s⟩
  · rw [exec_holdupExpired, execHoldupExpired, if_pos (by obtain h | h := h <;> simp [h])]
  · rw [exec_holdupCharged, execHoldupCharged, if_pos (by simp [h])]
  · rw [exec_lossOfEveryReference, execLossOfEveryReference, if_neg (by simp [hl, hb])]
    exact ⟨_, rfl, rfl, rfl, rfl, rfl, rfl, rfl, rfl, fun m hm => (mbs_resetParts cCLOCK s m hm).1⟩
  · rw [exec_lossOfEveryReference, execLossOfEveryReference, if_pos (.inr h)]
  · rw [exec_shutdownRopeRelease, execShutdownRopeRelease, h]
  · rw [exec_shutdownRegulatorsOff, execShutdownRegulatorsOff, if_pos (by simp [h])]
  · rw [exec_shutdownRegulatorsOff, execShutdownRegulatorsOff, if_neg (by
      rw [Option.isNone_eq_false_iff.mpr h1, h2]
      simpa using h3)]
    exact ⟨_, rfl, rfl, rfl⟩

end Sys2Proof.Machine

end

section
/-! PROOFS. Reference inputs, forced switches and the Assayer's declarations (R56, R57, R62, R68, R77, R503). -/

namespace Sys2Proof.Machine

section
variable {s s₀ t u : State}

/-! ### What leaves the clocks and the vetoes -/

/-- The clocks and the vetoes stand as they did. -/
def ClockKept (s₀ s : State) : Prop := s.clk = s₀.clk ∧ s.pair.vetoes = s₀.pair.vetoes

theorem ClockKept.refl (s : State) : ClockKept s s := ⟨rfl, rfl⟩

theorem clockKept_unseen (s₀ : State) : Unseen (ClockKept s₀) :=
  ⟨fun _ h => h, fun _ h => h, fun _ h => h, fun h => h, fun h => h, fun h => h, fun h => h, fun h => h, fun h => h, fun h => h,
    fun h => h, fun h => h, fun h => h⟩

theorem clockKept_emit (a b c : Nat) (d : List Word) (h : ClockKept s₀ s) : ClockKept s₀ (emit a b c d s) :=
  unseen_emit (clockKept_unseen s₀) h

theorem clockKept_answer (w : Waiting) (c : Code) (d : Nat) (l : List Word) (h : ClockKept s₀ s) : ClockKept s₀ (answer w c d l s) :=
  unseen_answer (clockKept_unseen s₀) h

theorem clockKept_fnFault (f cause : Nat) (h : ClockKept s₀ s) : ClockKept s₀ (fnFault f cause s) := by
  rw [ClockKept, fnFault, fnSet_clk, fnSet_pair]
  exact h

theorem clockKept_removalDue (id : Nat) (h : ClockKept s₀ s) : ClockKept s₀ (removalDue id s) := by
  have hdrop : ClockKept s₀ (listDrop id s) := by
    unfold listDrop
    split <;> exact h
  unfold removalDue
  split
  · exact holds_ite (P := ClockKept s₀) (clockKept_answer _ _ _ _ hdrop) h
  · exact h

theorem clockKept_runStop (id : Nat) (h : ClockKept s₀ s) : ClockKept s₀ (runStop id s) := by
  unfold runStop
  split
  · exact holds_ite (P := ClockKept s₀) (clockKept_removalDue id h) h
  · exact h

theorem clockKept_queueFault (fid cause : Nat) (h : ClockKept s₀ s) : ClockKept s₀ (queueFault fid cause s) := by
  unfold queueFault queueFaulted
  refine holds_ite (P := ClockKept s₀) h (clockKept_answer _ _ _ _ ?_)
  exact holds_foldl (P := ClockKept s₀) (clockKept_fnFault fid cause h) fun _ _ ht => clockKept_runStop _ ht

theorem clockKept_queues (e cause : Nat) (h : ClockKept s₀ s) :
    ClockKept s₀ ((List.range 4).foldl (fun t q => queueFault (fQueue e q) cause t) s) :=
  holds_foldl (P := ClockKept s₀) h fun _ _ ht => clockKept_queueFault _ _ ht

theorem clockKept_stageFault (cause : Nat) (h : ClockKept s₀ s) : ClockKept s₀ (stageFault cause s) :=
  holds_ite (P := ClockKept s₀) (clockKept_answer _ _ _ _ (clockKept_answer _ _ _ _ (clockKept_fnFault _ _ h))) h

theorem clockKept_domFault (f cause : Nat) (h : ClockKept s₀ s) : ClockKept s₀ (domFault f cause s) :=
  holds_ite (P := ClockKept s₀) (clockKept_answer _ _ _ _ (clockKept_answer _ _ _ _ (clockKept_fnFault _ _ h))) h

theorem clockKept_dropReq (h : ClockKept s₀ s) : ClockKept s₀ (dropReq s) :=
  holds_ite (P := ClockKept s₀) (unseen_msixDue (clockKept_unseen s₀) h) h

theorem clockKept_chainFault (b : Bool) (cause : Nat) (h : ClockKept s₀ s) : ClockKept s₀ (chainFault b cause s) := by
  refine holds_ite (P := ClockKept s₀) (clockKept_answer _ _ _ _ (clockKept_answer _ _ _ _ (clockKept_fnFault _ _ ?_))) h
  cases b <;> exact h

theorem clockKept_pathSet (path : HbPath) (silent : Bool) (h : ClockKept s₀ s) : ClockKept s₀ (pathSet path silent s) := by
  refine holds_ite (P := ClockKept s₀) h (clockKept_emit _ _ _ _ ?_)
  cases path <;> exact h

theorem clockKept_wrapStart (p : Nat) (h : ClockKept s₀ s) : ClockKept s₀ (wrapStart p s) := by
  unfold wrapStart
  refine holds_ite (P := ClockKept s₀) (holds_ite (P := ClockKept s₀) h (clockKept_emit _ _ _ _ ?_)) h
  exact h

theorem clockKept_linkFail (p : Nat) (h : ClockKept s₀ s) : ClockKept s₀ (linkFail p s) := by
  unfold linkFail
  exact holds_ite (P := ClockKept s₀) h (clockKept_wrapStart _ (clockKept_emit _ _ _ _ h))

theorem clockKept_ringsMoved (h : ClockKept s₀ s) (k : RingsMoved s t) : ClockKept s₀ t := by
  rw [k.frame]
  exact h

/-- The clocks, the vetoes and the functions stand as they did. -/
def FuncsClockKept (s₀ s : State) : Prop := ClockKept s₀ s ∧ s.funcs = s₀.funcs

theorem funcsClockKept_pumpLinkStop (cause p : Nat) (h : FuncsClockKept s₀ s) : FuncsClockKept s₀ (pumpLinkStop cause p s) := by
  have hcut : RingsMoved s (pumpStopped p cause (pumpCut p s)) := ringsMoved_pumpStopped p cause (ringsMoved_pumpCut p (.refl s))
  unfold pumpLinkStop pumpStoppedEvent pumpVector
  refine holds_ite (P := FuncsClockKept s₀) ⟨?_, ?_⟩ h
  · exact clockKept_answer _ _ _ _ (unseen_msixDue (clockKept_unseen s₀) (clockKept_emit _ _ _ _ (clockKept_ringsMoved h.1 hcut)))
  · rw [answer_funcs, msixDue_funcs, emit_funcs, hcut.frame]
    exact h.2

theorem funcsClockKept_hostLossDeclare (h : FuncsClockKept s₀ s) : FuncsClockKept s₀ (hostLossDeclare s) := by
  unfold hostLossDeclare
  refine holds_ite (P := FuncsClockKept s₀) h ⟨clockKept_emit _ _ _ _ h.1, ?_⟩
  rw [emit_funcs]
  exact h.2

/-- The link goes down (R161): the clocks, the vetoes and the functions stand. -/
theorem dlDown_keeps (s : State) : FuncsClockKept s (dlDown s) := by
  have h0 : FuncsClockKept s (configReset { s with link := { s.link with up := false } }) := by
    unfold configReset
    exact ⟨⟨rfl, rfl⟩, rfl⟩
  unfold dlDown pumpsLinkStop
  generalize configReset { s with link := { s.link with up := false } } = v at h0 ⊢
  refine holds_ite (P := FuncsClockKept s) (funcsClockKept_hostLossDeclare ?_) ⟨.refl s, rfl⟩
  exact holds_foldl (P := FuncsClockKept s) h0 fun _ p hu => funcsClockKept_pumpLinkStop 2 p hu

theorem panicBegin_clk (cause detail : Nat) (runs good : Bool) (s : State) : (panicBegin cause detail runs good s).clk = s.clk := by
  unfold panicBegin
  refine holds_ite (P := fun t => t.clk = s.clk) rfl ?_
  refine holds_ite (P := fun t => t.clk = s.clk) ?_ (vetoLatch_clk ..)
  obtain ⟨u, l, hu, hfreeze⟩ := panicFreeze_parts { vetoLatch 9 s with clerk := { (vetoLatch 9 s).clerk with mbOpen := false } }
  have hclk : u.clk = s.clk := by
    rw [hu.frame]
    exact vetoLatch_clk ..
  dsimp only
  rw [hfreeze]
  unfold panicHandle
  extract_lets can fresh s1 s2 s3 s4
  have h1 : s1.clk = s.clk := by
    obtain ⟨m, n, c, h, _⟩ := dumpWrite_parts cause detail (modStatus s) (!good) { u with traces := l }
    refine holds_ite (P := fun t => t.clk = s.clk) ?_ hclk
    rw [h]
    exact hclk
  clear_value s1
  have h2 : s2.clk = s.clk := by
    obtain ⟨d, n, h⟩ := summaryWrite_parts good 2 cause s1.clk.stroke (modStatus s) 0 (w32 (b2n fresh)) s1
    rw [show s2 = _ from h]
    exact h1
  clear_value s2
  have h3 : s3.clk = s.clk := (emit_clk ..).trans h2
  exact (holds_ite (P := fun t => t.clk = s.clk) ((msixDue_clk ..).trans h3) h3 : s4.clk = s.clk)

/-! ### A declaration (R68) -/

/-- What follows a declaration leaves the clocks; a domain whose declaration latches veto 0x04 leaves the vetoes. -/
theorem domOutcome_clk (d : Nat) (off : Bool) (s : State) : (domOutcome d off s).clk = s.clk := by
  unfold domOutcome
  dsimp only
  split
  · refine (clockKept_domFault _ _ (clockKept_stageFault (s₀ := s) _ ?_)).1
    exact holds_ite (P := ClockKept s) (.refl s) (.refl s)
  · exact (clockKept_queues 4 _ (.refl s)).1
  · exact (clockKept_dropReq (.refl s)).1
  · exact (clockKept_queues 1 _ (clockKept_queues 0 _ (.refl s))).1
  · exact (clockKept_queues 1 _ (clockKept_queues 0 _ (.refl s))).1
  · exact (clockKept_queues 3 _ (clockKept_queues 2 _ (.refl s))).1
  · exact (clockKept_queues 3 _ (clockKept_queues 2 _ (.refl s))).1
  · exact panicBegin_clk ..
  · exact panicBegin_clk ..
  · exact (dlDown_keeps s).1.1
  · exact (clockKept_linkFail _ (.refl s)).1
  · exact (clockKept_linkFail _ (.refl s)).1
  · exact (clockKept_linkFail _ (.refl s)).1
  · exact (clockKept_linkFail _ (.refl s)).1
  · exact (clockKept_chainFault _ _ (clockKept_chainFault _ _ (.refl s))).1
  · exact (clockKept_pathSet _ _ (.refl s)).1
  · rfl

theorem domOutcome_vetoes {d : Nat} (hd : domVetoed d = true) (off : Bool) (s : State) :
    (domOutcome d off s).pair.vetoes = s.pair.vetoes := by
  unfold domVetoed at hd
  obtain rfl | rfl | rfl : d = 15 ∨ d = 1 ∨ d = 5 := by simpa [or_assoc] using hd
  · unfold domOutcome
    refine (clockKept_domFault _ _ (clockKept_stageFault (s₀ := s) _ ?_)).2
    exact holds_ite (P := ClockKept s) (.refl s) (.refl s)
  · rfl
  · exact (clockKept_queues 4 _ (.refl s)).2

/-- What a declaration does before its outcome: the domain reads declared, with a record (R68). -/
def declaredFirst (d : Nat) (off : Bool) (s : State) : State :=
  domRecord 3 d off false (domMod d (fun y => { y with declared := if off then .offFrequency else .stopped }) s)

theorem domRecord_parts (sev d : Nat) (off ended : Bool) (s : State) : (domRecord sev d off ended s).clk = s.clk ∧
    (domRecord sev d off ended s).funcs = s.funcs ∧ (domRecord sev d off ended s).stage = s.stage := by
  unfold domRecord
  refine holds_ite (P := fun t => t.clk = s.clk ∧ t.funcs = s.funcs ∧ t.stage = s.stage) ?_ ⟨rfl, rfl, rfl⟩
  rw [emit_clk, emit_funcs, emit_stage]
  exact ⟨rfl, rfl, rfl⟩

theorem domDeclare_new {d : Nat} (off : Bool) (hw : domWatched s d = true) (hn : (s.clk.domains.getD d {}).declared = .none) :
    domDeclare d off s =
      domOutcome d off (if domVetoed d then vetoLatch 4 (declaredFirst d off s) else declaredFirst d off s) := by
  unfold domDeclare
  dsimp only
  rw [if_neg (by rw [hw]; decide), if_neg (not_not.mpr hn)]
  rfl

theorem domDeclare_declares {d : Nat} (off : Bool) (hd : d < s.clk.domains.length) (hw : domWatched s d = true) :
    ((domDeclare d off s).clk.domains.getD d {}).declared = if off then .offFrequency else .stopped := by
  have hmod : ((domMod d (fun y => { y with declared := if off then .offFrequency else .stopped }) s).clk.domains.getD d {}).declared =
      if off then .offFrequency else .stopped := by
    rw [domain_domMod hd]
  by_cases hn : (s.clk.domains.getD d {}).declared = .none
  · rw [domDeclare_new off hw hn, domOutcome_clk]
    have hclk : (if domVetoed d then vetoLatch 4 (declaredFirst d off s) else declaredFirst d off s).clk = (declaredFirst d off s).clk :=
      holds_ite (P := fun t => t.clk = (declaredFirst d off s).clk) (vetoLatch_clk ..) rfl
    rw [hclk, declaredFirst, (domRecord_parts ..).1]
    exact hmod
  · unfold domDeclare
    dsimp only
    rw [if_neg (by rw [hw]; decide), if_pos hn]
    exact hmod

/-- A stopped loop faults STAGE, whose phases park (R68). -/
theorem domOutcome_loop (hs : s.funcs.length = 27) (h : fnState s fSTAGE = .running) :
    fnState (domOutcome 15 false s) fSTAGE = .faulted ∧ (fnRec (domOutcome 15 false s) fSTAGE).faultCause = 0x0608 ∧
      (domOutcome 15 false s).stage.parked = true := by
  have hrun : fnState (stMod (fun x => { stParked x with ovLatch := false }) s) fSTAGE = .running := h
  obtain ⟨h1, h2, h3, _⟩ := stageFault_faults (s := stMod (fun x => { stParked x with ovLatch := false }) s) hs hrun 0x0608
  have heq : domOutcome 15 false s = stageFault 0x0608 (stMod (fun x => { stParked x with ovLatch := false }) s) := by
    show domFault fSTAGE 0x0608 (stageFault 0x0608 (stMod (fun x => { stParked x with ovLatch := false }) s)) = _
    rw [domFault, if_neg (by rw [fnRunning, h1]; decide)]
  rw [heq]
  exact ⟨h1, h2, by rw [h3]; rfl⟩

theorem domainDeclaredStopped_declares (d : Fin 18) (hd : s.clk.domains.length = 18) (hs : s.funcs.length = 27)
    (hw : domWatched s d.val = true) :
    ∃ t, exec (.domainDeclaredStopped d) s = .next t ∧ (t.clk.domains.getD d.val {}).declared = .stopped ∧
      ((s.clk.domains.getD d.val {}).declared = .none → domVetoed d.val = true → t.pair.vetoes.getLsbD 4 = true) ∧
      ((s.clk.domains.getD d.val {}).declared = .none → d.val = 15 → fnState s fSTAGE = .running →
        fnState t fSTAGE = .faulted ∧ (fnRec t fSTAGE).faultCause = 0x0608 ∧ t.stage.parked = true) := by
  refine ⟨_, rfl, domDeclare_declares false (by omega) hw, fun hn hv => ?_, fun hn h15 hrun => ?_⟩
  · rw [domDeclare_new false hw hn, domOutcome_vetoes hv, if_pos hv]
    exact vetoLatch_latches (by decide) _
  · rw [domDeclare_new false hw hn, h15, if_pos (by decide)]
    have hfuncs : (vetoLatch 4 (declaredFirst 15 false s)).funcs = s.funcs := (vetoLatch_funcs ..).trans (domRecord_parts ..).2.1
    exact domOutcome_loop (by rw [hfuncs]; exact hs) (by rw [fnState_congr hfuncs]; exact hrun)

theorem vetoRelease_keeps (c : Nat) (s : State) : (vetoRelease c s).clk = s.clk ∧ (vetoRelease c s).funcs = s.funcs := by
  have hleave : ∀ x n v, (pairLeave x n v).clk = v.clk ∧ (pairLeave x n v).funcs = v.funcs := fun x n v => by
    unfold pairLeave
    refine holds_ite (P := fun t => t.clk = v.clk ∧ t.funcs = v.funcs) ⟨rfl, rfl⟩
      (holds_ite (P := fun t => t.clk = v.clk ∧ t.funcs = v.funcs) ?_ ⟨rfl, rfl⟩)
    rw [msixDue_clk, msixDue_funcs, emit_clk, emit_funcs]
    exact ⟨rfl, rfl⟩
  unfold vetoRelease
  refine holds_ite (P := fun t => t.clk = s.clk ∧ t.funcs = s.funcs) ?_ ⟨rfl, rfl⟩
  dsimp only
  split
  · rw [(hleave ..).1, (hleave ..).2, emit_clk, emit_funcs]
    exact ⟨rfl, rfl⟩
  · rw [emit_clk, emit_funcs]
    exact ⟨rfl, rfl⟩

/-- A declaration ends (R68). -/
theorem domainDeclarationEnds_ends (d : Fin 18) (hd : s.clk.domains.length = 18) (hl : s.power.life = .up)
    (hn : (s.clk.domains.getD d.val {}).declared ≠ .none) :
    ∃ t, exec (.domainDeclarationEnds d) s = .next t ∧ (t.clk.domains.getD d.val {}).declared = .none ∧ t.funcs = s.funcs := by
  rw [exec_domainDeclarationEnds, execDomainDeclarationEnds]
  dsimp only
  rw [if_neg (by rw [hl, decide_eq_false hn]; decide)]
  generalize hu : domRecord 0 d.val _ true _ = u
  have hclk : (u.clk.domains.getD d.val {}).declared = .none ∧ u.funcs = s.funcs := by
    rw [← hu, (domRecord_parts ..).1, (domRecord_parts ..).2.1, domain_domMod (by omega)]
    exact ⟨rfl, rfl⟩
  refine ⟨_, rfl, ?_⟩
  split
  · exact hclk
  · unfold clockVetoCheck
    refine holds_ite (P := fun t => (t.clk.domains.getD d.val {}).declared = .none ∧ t.funcs = s.funcs) ?_ hclk
    rw [(vetoRelease_keeps 4 u).1, (vetoRelease_keeps 4 u).2]
    exact hclk

/-! ### Reference inputs (R56, R57, R77) -/

theorem refQual_congr {s t : State} (h : t.clk.qualRefclk = s.clk.qualRefclk ∧ t.clk.qualA = s.clk.qualA ∧ t.clk.qualB = s.clk.qualB)
    (i : RefIn) : refQual t i = refQual s i := by
  obtain ⟨h1, h2, h3⟩ := h
  cases i <;> assumption

theorem refSelect_qual (s : State) (i : RefIn) : refQual (refSelect s) i = refQual s i := by
  refine refQual_congr ?_ i
  unfold refSelect
  split
  · unfold refSwitch
    refine holds_ite (P := fun t : State => t.clk.qualRefclk = s.clk.qualRefclk ∧ t.clk.qualA = s.clk.qualA ∧ t.clk.qualB = s.clk.qualB)
      ⟨rfl, rfl, rfl⟩ ?_
    rw [emit_clk]
    exact ⟨rfl, rfl, rfl⟩
  · exact ⟨rfl, rfl, rfl⟩

theorem refQual_qualSet (i : RefIn) (q : Bool) (s : State) : refQual (qualSet i q s) i = q := by cases i <;> rfl

theorem islandEnter_clk (s : State) : (islandEnter s).clk = s.clk := by
  unfold islandEnter
  exact holds_ite (P := fun t => t.clk = s.clk) rfl (emit_clk ..)

/-- An input that is lost is qualified no more (R56, R57). -/
theorem refInputLost_loses (i : RefIn) (h : refQual s i = true) :
    ∃ t, exec (.refInputLost i) s = .next t ∧ refQual t i = false ∧ t.funcs = s.funcs := by
  rw [exec_refInputLost, execRefInputLost, if_neg (by rw [h]; decide)]
  dsimp only
  have h0 : refQual (qualSet i false s) i = false ∧ (qualSet i false s).funcs = s.funcs := ⟨refQual_qualSet .., by cases i <;> rfl⟩
  generalize qualSet i false s = u at h0
  split
  · exact ⟨_, rfl, h0⟩
  · have h1 : refQual (if i = .refclk ∧ (refBest u).isSome then dlDown u else u) i = false ∧
        (if i = .refclk ∧ (refBest u).isSome then dlDown u else u).funcs = s.funcs := by
      refine holds_ite (P := fun t => refQual t i = false ∧ t.funcs = s.funcs) ?_ h0
      obtain ⟨⟨hclk, _⟩, hf⟩ := dlDown_keeps u
      rw [refQual_congr (s := u) (t := dlDown u) (by rw [hclk]; exact ⟨rfl, rfl, rfl⟩), hf]
      exact h0
    generalize (if i = .refclk ∧ (refBest u).isSome then dlDown u else u) = v at h1 ⊢
    have h2 : refQual (refSelect v) i = false ∧ (refSelect v).funcs = s.funcs := by
      rw [refSelect_qual, refSelect_funcs]
      exact h1
    refine ⟨_, rfl, holds_ite (P := fun t => refQual t i = false ∧ t.funcs = s.funcs) ?_ h2⟩
    rw [refQual_congr (s := refSelect v) (t := islandEnter (refSelect v)) (by rw [islandEnter_clk]; exact ⟨rfl, rfl, rfl⟩), islandEnter_funcs]
    exact h2

/-! ### A forced switch (R62) -/

/-- A domain whose switch completes against a stopped clock. -/
def forcedDomain (s : State) (d : Nat) (x : Domain) : Domain :=
  if x.switching then { x with forced := satAdd 65535 x.forced 1, switching := false, target := domGoal s d }
  else { x with forced := satAdd 65535 x.forced 1 }

theorem forcedSwitch_counts (d : Fin 18) (hd : s.clk.domains.length = 18) (hl : s.power.life = .up) :
    ∃ t, exec (.forcedSwitch d) s = .next t ∧ t.clk.forcedSwitches = satAdd 65535 s.clk.forcedSwitches 1 ∧
      (t.clk.domains.getD d.val {}).forced = satAdd 65535 (s.clk.domains.getD d.val {}).forced 1 ∧
      (t.clk.domains.getD d.val {}).switching = false ∧ t.funcs = s.funcs := by
  rw [exec_forcedSwitch, execForcedSwitch, if_neg (not_not.mpr hl)]
  dsimp only
  refine ⟨_, rfl, ?_⟩
  rw [emit_clk, emit_funcs, (ratiosAnswer_parts ..).1, (ratiosAnswer_parts ..).2.1]
  rw [domain_domMod (by show d.val < s.clk.domains.length; omega)]
  refine ⟨rfl, ?_, ?_, rfl⟩
  · split <;> rfl
  · split
    · rfl
    next h => exact Bool.eq_false_of_not_eq_true h

end

/-- Settles O59. -/
theorem referencesAndDomains : Obligations.ReferencesAndDomains := by
  intro s hd hs
  obtain ⟨_, _, _, hfuncs, _⟩ := hs
  refine ⟨fun i hl hq ha => ?_, refInputLost_loses, fun i hq => ?_, fun i hq => ?_, fun d hl => forcedSwitch_counts d hd hl,
    fun d hw => ⟨domainDeclaredStopped_declares d hd hfuncs hw, ⟨_, rfl, domDeclare_declares true (by omega) hw⟩⟩,
    fun d hw => ⟨?_, ?_⟩, fun d hl hn => domainDeclarationEnds_ends d hd hl hn, fun d hn => ?_⟩
  · rw [exec_refInputQualified, execRefInputQualified, if_neg (by simp [hl, hq, ha])]
    refine ⟨_, rfl, ?_, ?_⟩
    · rw [refSelect_qual]
      exact refQual_qualSet ..
    · rw [refSelect_funcs]
      cases i <;> rfl
  · rw [exec_refInputLost, execRefInputLost, if_pos (by rw [hq]; rfl)]
  · rw [exec_refInputQualified, execRefInputQualified, if_pos (by simp [hq])]
  · rw [exec_domainDeclaredStopped, execDomainDeclaredStopped, domDeclare]
    exact congrArg _ (if_pos (by rw [hw]; rfl))
  · rw [exec_domainDeclaredOffFrequency, execDomainDeclaredOffFrequency, domDeclare]
    exact congrArg _ (if_pos (by rw [hw]; rfl))
  · rw [exec_domainDeclarationEnds, execDomainDeclarationEnds]
    exact if_pos (by rw [decide_eq_true hn]; rfl)

end Sys2Proof.Machine

end

section
/-! PROOFS. A stroke boundary and the MARK inputs (O60). The parts of a boundary leave the time in strokes alone (`Steady`); the
advance of the count sets it, and the clearing of the flags comes after every part that sets one. -/

namespace Sys2Proof.Machine

variable {s t : State}

/-! ### The count of strokes at a boundary -/

/-- The next stroke begins: the count is one on, the tick zero, and the accepted divisions are in force. -/
def StrokeBegins (s t : State) : Prop := timeOf t = (s.clk.stroke + 1, 0, none, divsSet s)

theorem divsSet_of_timeOf (h : timeOf t = timeOf s) : divsSet t = divsSet s := by
  simp only [timeOf, Prod.mk.injEq] at h
  obtain ⟨-, -, hnext, hdiv, hloop⟩ := h
  rw [divsSet, divsSet, hnext, hdiv, hloop]

theorem strokeAdvance_begins (h : timeOf t = timeOf s) : StrokeBegins s (strokeAdvance t) := by
  have hstroke : t.clk.stroke = s.clk.stroke := congrArg Prod.fst h
  rw [StrokeBegins, ← divsSet_of_timeOf h, ← hstroke]
  rfl

theorem boundaryServe_begins (env : BoundaryEnv) (s : State) : StrokeBegins s (boundaryServe env s) := by
  obtain ⟨-, hend⟩ : Steady s (strokeEnd (now s) env.ports s) := steady_strokeEnd (steady_refl s)
  obtain ⟨-, hrest⟩ : Steady _ (boundaryServe env s) := steady_boundaryServe
  exact hrest.trans (strokeAdvance_begins hend)

/-! ### The flags of a boundary -/

/-- No stroke flag is set, and no signal or barrier has arrivals. -/
def FlagsClear (s : State) : Prop := s.lists.flags = 0 ∧ s.lists.signals = [] ∧ s.lists.barriers = []

theorem flagsClear_clears (s : State) : FlagsClear (flagsClear s) := ⟨rfl, rfl, rfl⟩

theorem FlagsClear.of_lists (hs : FlagsClear s) (h : t.lists = s.lists) : FlagsClear t := by
  rw [FlagsClear, h]
  exact hs

theorem strokeSchedule_clears (n : Nat) (s : State) : FlagsClear (strokeSchedule n s) := by
  unfold strokeSchedule
  extract_lets s1 s2
  have h2 : FlagsClear s2 := flagsClear_clears s1
  clear_value s2
  exact holds_ite (P := FlagsClear) h2 h2

theorem beatSend_lists (k : Nat) (token : Bool) (s : State) : (beatSend k token s).lists = s.lists := by
  unfold beatSend
  extract_lets idle due hb w
  split
  · rfl
  · rfl

theorem secondsBoundary_lists (k : Nat) (s : State) : (secondsBoundary k s).lists = s.lists := by
  unfold secondsBoundary
  split
  · rfl
  · rfl

theorem realign_lists (env : BoundaryEnv) (s : State) : (realign env s).lists = s.lists := by
  unfold realign
  extract_lets err go was x s1
  split
  · rfl
  · rw [emit_lists]

theorem ringVector_lists (s : State) : (ringVector s).lists = s.lists := by
  unfold ringVector
  split
  · rw [msixDue_lists]
  · rfl

theorem boundaryServe_clears (env : BoundaryEnv) (s : State) : FlagsClear (boundaryServe env s) := by
  unfold boundaryServe
  extract_lets k token sums tags spread live s1 s2 s3
  have h3 : FlagsClear s3 := strokeSchedule_clears _ _
  clear_value s3
  refine h3.of_lists ?_
  rw [ringVector_lists, realign_lists, secondsBoundary_lists, beatSend_lists]

/-! ### The boundary as a command -/

theorem execStrokeBoundary_idle (env : BoundaryEnv) (h : s.power.life ≠ .up ∨ (s.clk.plls.getD 0 {}).locked = false) :
    execStrokeBoundary env s = .next s := by
  unfold execStrokeBoundary
  refine if_pos ?_
  rcases h with hlife | hlock
  · rw [decide_eq_true hlife]
    rfl
  · rw [hlock, Bool.not_false, Bool.or_true]

theorem execStrokeBoundary_up (env : BoundaryEnv) (hlife : s.power.life = .up) (hlock : (s.clk.plls.getD 0 {}).locked = true) :
    ∃ t, execStrokeBoundary env s = .next t ∧ StrokeBegins s t ∧ (s.clerk.bootStage = 5 → FlagsClear t) := by
  have hup : ¬ (decide (s.power.life ≠ .up) || !(s.clk.plls.getD 0 {}).locked) = true := by rw [hlife, hlock]; decide
  unfold execStrokeBoundary
  rw [if_neg hup]
  by_cases hstage : s.clerk.bootStage = 5
  · rw [if_neg (not_not_intro hstage)]
    exact ⟨_, rfl, boundaryServe_begins env s, fun _ => boundaryServe_clears env s⟩
  · rw [if_pos hstage]
    obtain ⟨-, hland⟩ : Steady s (writesLand s) := steady_writesLand (steady_refl s)
    exact ⟨_, rfl, strokeAdvance_begins hland, fun h => absurd h hstage⟩

/-! ### The MARK inputs -/

/-- What the entry of an accepted edge leaves alone. -/
theorem edgeEnter_parts (e : Edge) (s : State) : (edgeEnter e s).pipe.marks = s.pipe.marks ∧
    (edgeEnter e s).pipe.marked = s.pipe.marked ∧ (edgeEnter e s).mem = s.mem ∧ (edgeEnter e s).funcs = s.funcs := by
  unfold edgeEnter
  split
  · exact ⟨rfl, rfl, rfl, rfl⟩
  · exact ⟨rfl, rfl, rfl, rfl⟩

theorem edgeAccept_parts (e : Edge) (s : State) : (edgeAccept e s).pipe.marks = s.pipe.marks ∧
    (edgeAccept e s).pipe.marked = s.pipe.marked ++ [e] ∧ (edgeAccept e s).mem = s.mem ∧ (edgeAccept e s).funcs = s.funcs := by
  unfold edgeAccept
  extract_lets p s1
  split
  · split
    · exact edgeEnter_parts e s1
    · exact ⟨rfl, rfl, rfl, rfl⟩
  · exact ⟨rfl, rfl, rfl, rfl⟩

/-- An edge at a tick of the present stroke is stamped: its marker's gate is on, the loop clock runs, and the stroke and its
division have that tick. -/
def edgeStamped (s : State) (n : Fin 24) (stroke : Stroke) (tick : BitVec 20) : Bool :=
  gateOn s (if n.val < 12 then 9 else 10) && loopClock s && decide (stroke = s.clk.stroke) &&
    decide (tick.toNat < s.clk.strokeDiv) && decide (tick.toNat < s.clk.strokeLen)

theorem not_edgeStamped (s : State) (n : Fin 24) (stroke : Stroke) (tick : BitVec 20) :
    (!gateOn s (if n.val < 12 then 9 else 10) || !loopClock s || decide (stroke ≠ s.clk.stroke) ||
      decide (min s.clk.strokeDiv s.clk.strokeLen ≤ tick.toNat)) = !edgeStamped s n stroke tick := by
  have hmin : decide (min s.clk.strokeDiv s.clk.strokeLen ≤ tick.toNat) =
      !(decide (tick.toNat < s.clk.strokeDiv) && decide (tick.toNat < s.clk.strokeLen)) := by
    rw [Bool.not_and, ← decide_not, ← decide_not, ← Bool.decide_or, decide_eq_decide]
    omega
  rw [edgeStamped, hmin, decide_not]
  simp only [Bool.not_and, Bool.or_assoc]

section
variable {n : Fin 24} {rising : Bool} {stroke : Stroke} {tick : BitVec 20}

theorem execMarkEdge_unstamped (h : edgeStamped s n stroke tick = false) : execMarkEdge n rising stroke tick s = .next s := by
  unfold execMarkEdge
  rw [not_edgeStamped, h]
  exact if_pos rfl

/-- R40: an edge within 10 ticks of the last accepted one is dropped. -/
theorem execMarkEdge_close {p : Nat} (h : edgeStamped s n stroke tick = true) (hlast : (s.pipe.marks.getD n.val {}).last = some p)
    (hafter : s.clk.base + tick.toNat ≤ p + 10) (hbefore : p ≤ s.clk.base + tick.toNat + 10) :
    execMarkEdge n rising stroke tick s = .next (markDrop n.val s) := by
  unfold execMarkEdge
  rw [not_edgeStamped, h, if_neg (by decide)]
  extract_lets m x close
  have hclose : close = true := by
    unfold close m
    rw [hlast]
    exact Bool.and_eq_true_iff.mpr ⟨decide_eq_true hafter, decide_eq_true hbefore⟩
  exact if_pos hclose

theorem getD_set_mark {l : List MarkIn} (hl : l.length = 24) (m : MarkIn) : (l.set n.val m).getD n.val {} = m := by
  have hn : n.val < l.length := lt_of_lt_of_eq n.isLt hl.symm
  rw [List.getD_eq_getElem?_getD, List.getElem?_set_self hn, Option.getD_some]

/-- R40, R283: an edge that follows no other within 10 ticks is noted with its tick. -/
theorem execMarkEdge_noted (hl : s.pipe.marks.length = 24) (h : edgeStamped s n stroke tick = true)
    (hfar : ∀ p, (s.pipe.marks.getD n.val {}).last = some p →
      p + 10 < s.clk.base + tick.toNat ∨ s.clk.base + tick.toNat + 10 < p) :
    ∃ t, execMarkEdge n rising stroke tick s = .next t ∧
      (t.pipe.marks.getD n.val {}).last = some (s.clk.base + tick.toNat) ∧
      t.pipe.marked.length = s.pipe.marked.length + 1 ∧ t.mem = s.mem ∧ t.funcs = s.funcs := by
  unfold execMarkEdge
  rw [not_edgeStamped, h, if_neg (by decide)]
  extract_lets m x close e m' ms
  have hclose : close = false := by
    unfold close
    split
    next p hp =>
      have hp := hfar p hp
      rw [← Bool.decide_and, decide_eq_false_iff_not]
      omega
    · rfl
  rw [hclose, if_neg (by decide)]
  obtain ⟨hmarks, hmarked, hmem, hfuncs⟩ := edgeAccept_parts e { s with pipe := { s.pipe with marks := s.pipe.marks.set n.val m' } }
  refine ⟨_, rfl, ?_, ?_, hmem, hfuncs⟩
  · rw [hmarks, getD_set_mark hl]
  · rw [hmarked, List.length_append, List.length_singleton]

end

/-- Settles O60: the parts of a boundary leave the count of strokes and the divisions as the advance sets them, and nothing after
the clearing of the flags sets one; a MARK edge is split by whether it is stamped and by the last edge of its input. -/
theorem boundaryAndMarks : Obligations.BoundaryAndMarks := by
  unfold Obligations.BoundaryAndMarks
  intro s
  refine ⟨fun env hlife hlock => ?_, fun env h => execStrokeBoundary_idle env h, fun n rising k tick hl => ?_⟩
  · obtain ⟨t, ht, hbegins, hclear⟩ := execStrokeBoundary_up env hlife hlock
    simp only [StrokeBegins, timeOf, Prod.mk.injEq] at hbegins
    obtain ⟨hstroke, htick, hnext, hdivs⟩ := hbegins
    exact ⟨t, ht, hstroke, htick, hnext, hdivs, hclear⟩
  · exact ⟨fun h => execMarkEdge_unstamped h, fun h hfar => execMarkEdge_noted hl h hfar,
      fun p h hlast hafter hbefore => execMarkEdge_close h hlast hafter hbefore⟩

end Sys2Proof.Machine
end
